-- ==== Sys2Proof/Word.lean ====
section
/-! DEFINITION. The word types of the hub (R8: registers are 32 bits wide, addresses are 32-bit byte addresses)
and the plainest arithmetic on them. -/

namespace Sys2Proof

/-- One 32-bit register word, or one 32-bit byte address (R8). -/
abbrev Word := BitVec 32

/-- One byte. -/
abbrev Byte := BitVec 8

/-- The two values of a one-bit field. -/
def b2n (b : Bool) : Nat := if b then 1 else 0

@[simp] theorem b2n_true : b2n true = 1 := rfl
@[simp] theorem b2n_false : b2n false = 0 := rfl

end Sys2Proof
end

