-- ==== Sys2Proof/Config.lean ====
section
/-! DEFINITION. What the spec fixes as constants of every hub, and the values it leaves open.
A constant with no body (`opaque`) is a free value: nothing can be proved about which value it is. The argument of a
free value that is drawn more than once is the hub's draw counter `Hub.free`. -/

namespace Sys2Proof.Config

/-- Hardware-type code of the hub (R1). -/
def hwType : Nat := 0x3192

/-- Free value: the silicon revision letter of DEV_ID.REV (the table's Reset column says `revision`) (DESIGN CHOICE, log entry 7). -/
opaque revision : BitVec 8

/-- The world outside: the code a channel's modulator delivers at a modulator edge (R103). Arguments: channel, edge (DESIGN CHOICE, log entry 17). -/
opaque modCode : Nat → Nat → Int

/-- The world outside: the amplifier of a channel sits at its output limit of 1.10 full scale at a modulator edge (R78, R104).
Arguments: channel, edge (DESIGN CHOICE, log entry 17). -/
opaque ampLimit : Nat → Nat → Bool

/-- Free value: a coefficient of a half-band stage; the spec gives the filters' properties, not their coefficients (R135, R136).
Arguments: stage, tap (DESIGN CHOICE, log entry 17). -/
opaque halfBand : Nat → Nat → ℚ

/-- Free value: the prototype response h_c of the pointing stage at a distance in 1/512 of a chain period, before its rows are scaled to sum
to 1 (R143) (DESIGN CHOICE, log entry 17). -/
opaque prototype : Nat → ℚ

/-- Free value: what the servo firmware writes into TIME_INCR_ADJ (R36, R41; the servo law is not given) (DESIGN CHOICE, log entry 10). -/
opaque servoAdj : Nat → Int

/-- Free value: the port state the best-master firmware chooses (R48; run by firmware) (DESIGN CHOICE, log entry 10). -/
opaque bmcaState : Nat → BitVec 4

/-- Free value: what RST_N does in a pulse from 200 ns up to 1 µs (R419) (DESIGN CHOICE, log entry 94). -/
opaque rstnMidPulse : Nat → Bool

/-- Free value: the phase of the modulator clock against local time after its PLL locks, in 2^-32 ns (R102) (DESIGN CHOICE, log entry 16). -/
opaque modPhase : Nat → Nat

/-- Free value: what a linearisation curve gives where the spec states no result (a gauge factor of 0, a coefficient that is no finite
number), as binary32 bits. Arguments: curve, input bits, parameter words (DESIGN CHOICE, log entry 21). -/
opaque curveValue : Nat → Nat → List Nat → BitVec 32

/-- Free value: the error of a curve's result before its rounding; its bound is that of R170. Arguments as for `curveValue` (DESIGN CHOICE, log entry 21). -/
opaque curveError : Nat → Nat → List Nat → ℚ

/-- The reference function E(t) of IEC 60584-1 for a thermocouple curve, in µV for °C, left uninterpreted: the spec names the standard and
not its coefficients (R162) (DESIGN CHOICE, log entry 21). -/
opaque emf : Nat → ℚ → ℚ

/-- Free value: a result the spec computes from data the model does not hold (a carver operator's element, the
result of an analogue measurement). Argument: draw counter (DESIGN CHOICE, log entry 23). -/
opaque datum : Nat → BitVec 64

/-- Free value: a coefficient of a window of BANDPOWER other than the rectangular one; the spec names the windows and gives their noise
bandwidths, not their coefficients (R201). Arguments: window, N, index (DESIGN CHOICE, log entry 72). -/
opaque window : Nat → Nat → Nat → ℚ

/-- Free value: the error of a band power before its rounding to binary32; the spec states no precision of the FFT (R201). Argument: draw
counter (DESIGN CHOICE, log entry 72). -/
opaque fftError : Nat → ℚ

/-- Free value: a word of a carver's DATA region outside the matrix banks; how the operators lay out what they keep there is not stated
(R204, R205). Arguments: carver, how often the region has been written, address (DESIGN CHOICE, log entry 44). -/
opaque sramWord : Nat → Nat → Nat → BitVec 32

/-- Free value: which neighbour a rounding takes whose direction the spec does not state. Argument: draw counter (DESIGN CHOICE, log entry 22). -/
opaque roundUp : Nat → Bool

/-- Free value: the row length in units by which a host decompression job inverts DELTA; no register gives it (R234,
R245). Argument: draw counter (DESIGN CHOICE, log entry 84). -/
opaque rowUnits : Nat → Nat

/-- Free value: a byte of a page of a partition; how packets lie in their pages is not stated. Arguments: draw counter,
byte address (DEDUCED, log entry 81). -/
opaque heldByte : Nat → Nat → BitVec 8

/-- Free value: bytes of an arriving cast that wait for the flash; the flash's pace is not stated (R394). Argument: draw
counter (DESIGN CHOICE, log entry 55). -/
opaque updHeld : Nat → Nat

/-- Free value: whether the reset that ends a probation records source CAST or SOFTWARE; the spec names no source (R400,
R418). Argument: draw counter (DESIGN CHOICE, log entry 53). -/
opaque revertIsCast : Nat → Bool

/-- SHA-256 (FIPS 180-4), left uninterpreted: the published function of the bytes hashed (DESIGN CHOICE, log entry 86). -/
opaque sha256 : List Byte → List Byte

/-- ECDSA P-256 verification (FIPS 186-5), left uninterpreted: public key, digest, r, s (DESIGN CHOICE, log entry 86). -/
opaque ecdsaOk : List Byte → List Byte → List Byte → List Byte → Bool

/-- The vendor cast keys in on-die read-only memory (R392): KEY_ID to public key (DESIGN CHOICE, log entry 86). -/
opaque castKey : Nat → List Byte

/-- Free value: the code lengths the compression engine gives symbols that occur so often, each at most so long; which of the legal codes it
takes is open (R236, R239). Arguments: longest code, occurrences (DESIGN CHOICE, log entry 85). -/
opaque codeLengths : Nat → List Nat → List Nat

/-- Free value: how the header of a dynamic block spells its code lengths: run-length symbols and repeats (R236, R239) (DESIGN CHOICE, log entry 85). -/
opaque lengthRuns : List Nat → List (Nat × Nat)

/-- The world outside: the byte address of an uncorrectable error in a stored packet, if one has come to lie there (R249, R265). Arguments:
queue, QSEQ (DESIGN CHOICE, log entry 121). -/
opaque storedUe : Nat → Nat → Option (BitVec 28)

end Sys2Proof.Config
end

