-- ==== Sys2Proof/Machine/RegMap.lean ====
section
/-! DEFINITION. Sparse tables in one canonical form, and the register file built on them.
Every register FIELD of the spec's tables has one home: the entry of its key in the register file. A field with
no entry holds the value of its Reset column, so the empty register file is the register file after reset (R11). -/

namespace Sys2Proof.Machine

/-- A sparse table: pairs of a key and a value, the keys strictly rising. -/
abbrev AMap (α : Type) := List (Nat × α)

/-- The value a key has, if it is listed. -/
def aFind {α : Type} : AMap α → Nat → Option α
  | [], _ => none
  | (k', v) :: t, k => if k' = k then some v else aFind t k

/-- List a value under a key, in place. -/
def aInsert {α : Type} : AMap α → Nat → α → AMap α
  | [], k, v => [(k, v)]
  | (k', v') :: t, k, v =>
    if k' = k then (k, v) :: t
    else if k < k' then (k, v) :: (k', v') :: t
    else (k', v') :: aInsert t k v

/-- Take a key off the table. -/
def aErase {α : Type} : AMap α → Nat → AMap α
  | [], _ => []
  | (k', v') :: t, k => if k' = k then aErase t k else (k', v') :: aErase t k

/-- The value a key has, `d` where it is not listed. -/
def aGet {α : Type} (m : AMap α) (k : Nat) (d : α) : α := (aFind m k).getD d

/-- Every value of a map changed alike. -/
def aMapVals {α : Type} (f : α → α) (m : AMap α) : AMap α := m.map fun e => (e.1, f e.2)

/-- The canonical form: keys strictly rising. -/
def aSorted {α : Type} : AMap α → Bool
  | [] => true
  | [_] => true
  | (k, _) :: (k', v') :: t => decide (k < k') && aSorted ((k', v') :: t)

/-- The access types of R9. -/
inductive Access where
  | ro | rw | w1c | w1s | wo | sc | rs
  deriving DecidableEq, Repr

/-- One field of a register table: the byte address of its register, its lowest bit, its width, its access type
(R9) and the value of its Reset column (R11). -/
structure Field where
  addr : Nat
  lo : Nat
  width : Nat
  acc : Access
  reset : Nat
  deriving DecidableEq, Repr

/-- The key of a field in the register file. -/
def Field.key (f : Field) : Nat := f.addr * 32 + f.lo

/-- The largest value a field can hold. -/
def Field.top (f : Field) : Nat := 2 ^ f.width - 1

/-- The register file: the fields that differ from their Reset column. -/
abbrev RegFile := AMap Nat

/-- The value a field holds. -/
def rGet (r : RegFile) (f : Field) : Nat := aGet r f.key f.reset

/-- Write a field: its low bits are kept; a value equal to the reset value is not listed. -/
def rSet (r : RegFile) (f : Field) (v : Nat) : RegFile :=
  if v % 2 ^ f.width = f.reset then aErase r f.key else aInsert r f.key (v % 2 ^ f.width)

/-- Restore the reset value of every field of a register file except the fields whose key `keep` names. -/
def rKeep (r : RegFile) (keep : Nat → Bool) : RegFile := r.filter (fun e => keep e.1)

end Sys2Proof.Machine
end

