-- ==== Sys2Proof/Machine/Regs.lean ====
section
/-! DEFINITION. Every register field of the spec's register tables: its register's address (R431, R432), its bits,
its access type (R9) and its Reset column (R11), in the order of the chapters. An instance block's field is a
function of the instance number. `regBlocks` is the same as one table, for the reads and writes that go by address. -/

namespace Sys2Proof.Machine


/-! 02_absolute_time.md, block TIME -/
def TIME_CTL_SRC : Field := ⟨0x1000, 0, 2, .rw, 3⟩
def TIME_CTL_AUTO_SW : Field := ⟨0x1000, 2, 1, .rw, 0⟩
def TIME_CTL_ADJ_GO : Field := ⟨0x1000, 3, 1, .sc, 0⟩
def TIME_CTL_ADJ_MODE : Field := ⟨0x1000, 4, 1, .rw, 0⟩
def TIME_CTL_SLEW_ABORT : Field := ⟨0x1000, 5, 1, .sc, 0⟩
def TIME_CTL_HOLDOVER_FORCE : Field := ⟨0x1000, 6, 1, .rw, 0⟩
def TIME_STAT_QUALITY : Field := ⟨0x1004, 0, 3, .ro, 0⟩
def TIME_STAT_SRC_ACTIVE : Field := ⟨0x1004, 3, 2, .ro, 3⟩
def TIME_STAT_STEP_REFUSED : Field := ⟨0x1004, 5, 1, .w1c, 0⟩
def TIME_STAT_SCHED_MISSED : Field := ⟨0x1004, 6, 1, .w1c, 0⟩
def TIME_STAT_SEQERR : Field := ⟨0x1004, 7, 1, .w1c, 0⟩
def TIME_STAT_DOM0_VALID : Field := ⟨0x1004, 8, 1, .ro, 0⟩
def TIME_STAT_DOM1_VALID : Field := ⟨0x1004, 9, 1, .ro, 0⟩
def TIME_STAT_AUTO_SWITCHED : Field := ⟨0x1004, 10, 1, .w1c, 0⟩
def TIME_STAT_ADJ_RANGE : Field := ⟨0x1004, 11, 1, .w1c, 0⟩
def TIME_INCR_ADJ : Field := ⟨0x1008, 0, 32, .rw, 0⟩
def TIME_SLEW_RATE : Field := ⟨0x100C, 0, 24, .rw, 1717987⟩
def TIME_ADJ_FRAC : Field := ⟨0x1020, 0, 32, .rw, 0⟩
def TIME_ADJ_NS : Field := ⟨0x1024, 0, 30, .rw, 0⟩
def TIME_ADJ_SEC_LO : Field := ⟨0x1028, 0, 32, .rw, 0⟩
def TIME_ADJ_SEC_HI : Field := ⟨0x102C, 0, 16, .rw, 0⟩
def TIME_ADJ_SIGN : Field := ⟨0x102C, 31, 1, .rw, 0⟩
def TIME_LOCK_THRESH : Field := ⟨0x1034, 0, 16, .rw, 100⟩
def TIME_LOCK_COUNT : Field := ⟨0x1034, 16, 8, .rw, 16⟩

/-! 02_absolute_time.md, block DOM -/
def DOM_DOMAIN_NUMBER (n : Nat) : Field := ⟨0x1040 + 0x20 * n, 0, 8, .rw, 0⟩
def DOM_SDO_ID (n : Nat) : Field := ⟨0x1040 + 0x20 * n, 8, 12, .rw, 0⟩
def DOM_TRANSPORT (n : Nat) : Field := ⟨0x1040 + 0x20 * n, 20, 2, .rw, 0⟩
def DOM_DELAY_MECH (n : Nat) : Field := ⟨0x1040 + 0x20 * n, 22, 1, .rw, 0⟩
def DOM_ENABLE (n : Nat) : Field := ⟨0x1040 + 0x20 * n, 23, 1, .rw, 0⟩
def DOM_SLAVE_LANE (n : Nat) : Field := ⟨0x1040 + 0x20 * n, 24, 6, .rw, 0⟩
def DOM_PORT_STATE (n : Nat) : Field := ⟨0x1044 + 0x20 * n, 0, 4, .ro, 0⟩
def DOM_ANNOUNCE_TIMEOUT (n : Nat) : Field := ⟨0x1044 + 0x20 * n, 4, 1, .w1c, 0⟩
def DOM_OVR (n : Nat) : Field := ⟨0x1044 + 0x20 * n, 5, 1, .w1c, 0⟩
def DOM_SEQERR (n : Nat) : Field := ⟨0x1044 + 0x20 * n, 6, 1, .w1c, 0⟩
def DOM_STEPS_REMOVED (n : Nat) : Field := ⟨0x1044 + 0x20 * n, 8, 8, .ro, 0⟩
def DOM_OFFSET_LO (n : Nat) : Field := ⟨0x1048 + 0x20 * n, 0, 32, .rs, 0⟩
def DOM_OFFSET_HI (n : Nat) : Field := ⟨0x104C + 0x20 * n, 0, 32, .rs, 0⟩
def DOM_DELAY (n : Nat) : Field := ⟨0x1050 + 0x20 * n, 0, 32, .ro, 0⟩
def DOM_RATE (n : Nat) : Field := ⟨0x1054 + 0x20 * n, 0, 32, .ro, 0⟩

/-! 02_absolute_time.md, block TIME -/
def TIME_PPS_CFG_WIDTH_MS : Field := ⟨0x1080, 0, 10, .rw, 100⟩
def TIME_PPS_CFG_PPS_OUT_EN : Field := ⟨0x1080, 10, 1, .rw, 0⟩
def TIME_PPS_CFG_PPS_IN_EN : Field := ⟨0x1080, 11, 1, .rw, 0⟩
def TIME_PPS_CFG_PPS_IN_EDGE : Field := ⟨0x1080, 12, 1, .rw, 0⟩
def TIME_PPS_STAT_PPS_IN_SEEN : Field := ⟨0x1084, 0, 1, .w1c, 0⟩
def TIME_PPS_STAT_OVR : Field := ⟨0x1084, 1, 1, .w1c, 0⟩
def TIME_PPS_STAT_SEQERR : Field := ⟨0x1084, 2, 1, .w1c, 0⟩
def TIME_PPS_STAT_TOD_APPLIED : Field := ⟨0x1084, 3, 1, .w1c, 0⟩
def TIME_PPS_STAT_TOD_MISSED : Field := ⟨0x1084, 4, 1, .w1c, 0⟩
def TIME_PPS_STAT_PPS_IN_LOST : Field := ⟨0x1084, 5, 1, .w1c, 0⟩
def TIME_TOD_SEC_LO : Field := ⟨0x1094, 0, 32, .rw, 0⟩
def TIME_TOD_SEC_HI : Field := ⟨0x1098, 0, 16, .rw, 0⟩
def TIME_ARM : Field := ⟨0x1098, 31, 1, .sc, 0⟩

/-! 02_absolute_time.md, block TOUT -/
def TOUT_MODE (n : Nat) : Field := ⟨0x1100 + 0x20 * n, 0, 2, .rw, 0⟩
def TOUT_POLARITY (n : Nat) : Field := ⟨0x1100 + 0x20 * n, 2, 1, .rw, 0⟩
def TOUT_ARM (n : Nat) : Field := ⟨0x1100 + 0x20 * n, 3, 1, .sc, 0⟩
def TOUT_DISARM (n : Nat) : Field := ⟨0x1100 + 0x20 * n, 4, 1, .sc, 0⟩
def TOUT_GRID (n : Nat) : Field := ⟨0x1100 + 0x20 * n, 5, 3, .rw, 0⟩
def TOUT_WIDTH (n : Nat) : Field := ⟨0x1100 + 0x20 * n, 16, 16, .rw, 1⟩
def TOUT_START_NS (n : Nat) : Field := ⟨0x1104 + 0x20 * n, 0, 32, .rw, 0⟩
def TOUT_START_SEC_LO (n : Nat) : Field := ⟨0x1108 + 0x20 * n, 0, 32, .rw, 0⟩
def TOUT_START_SEC_HI (n : Nat) : Field := ⟨0x110C + 0x20 * n, 0, 16, .rw, 0⟩
def TOUT_PERIOD_SEC (n : Nat) : Field := ⟨0x1110 + 0x20 * n, 0, 16, .rw, 0⟩
def TOUT_PERIOD_NS (n : Nat) : Field := ⟨0x1114 + 0x20 * n, 0, 30, .rw, 0⟩
def TOUT_PERIOD_FRAC (n : Nat) : Field := ⟨0x1118 + 0x20 * n, 0, 32, .rw, 0⟩
def TOUT_ARMED (n : Nat) : Field := ⟨0x111C + 0x20 * n, 0, 1, .ro, 0⟩
def TOUT_MISSED (n : Nat) : Field := ⟨0x111C + 0x20 * n, 1, 1, .w1c, 0⟩
def TOUT_WERR (n : Nat) : Field := ⟨0x111C + 0x20 * n, 2, 1, .w1c, 0⟩
def TOUT_GRID_IDLE (n : Nat) : Field := ⟨0x111C + 0x20 * n, 3, 1, .ro, 0⟩

/-! 02_absolute_time.md, block EVT -/
def EVT_EDGE (n : Nat) : Field := ⟨0x1180 + 0x20 * n, 0, 2, .rw, 0⟩
def EVT_FILTER (n : Nat) : Field := ⟨0x1180 + 0x20 * n, 2, 8, .rw, 0⟩
def EVT_LEVEL (n : Nat) : Field := ⟨0x1184 + 0x20 * n, 0, 4, .ro, 0⟩
def EVT_OVR (n : Nat) : Field := ⟨0x1184 + 0x20 * n, 4, 1, .w1c, 0⟩
def EVT_SEQERR (n : Nat) : Field := ⟨0x1184 + 0x20 * n, 5, 1, .w1c, 0⟩
def EVT_STEPPED (n : Nat) : Field := ⟨0x1184 + 0x20 * n, 6, 1, .ro, 0⟩
def EVT_RISING (n : Nat) : Field := ⟨0x1184 + 0x20 * n, 7, 1, .ro, 0⟩
def EVT_SAT (n : Nat) : Field := ⟨0x1184 + 0x20 * n, 8, 1, .w1c, 0⟩
def EVT_LOST_CLR (n : Nat) : Field := ⟨0x1184 + 0x20 * n, 9, 1, .sc, 0⟩
def EVT_LOST (n : Nat) : Field := ⟨0x1194 + 0x20 * n, 0, 32, .ro, 0⟩

/-! 02_absolute_time.md, block SCHED -/
def SCHED_OWNER (n : Nat) : Field := ⟨0x1200 + 0x10 * n, 0, 4, .ro, 0⟩
def SCHED_STATE (n : Nat) : Field := ⟨0x1200 + 0x10 * n, 4, 3, .ro, 0⟩
def SCHED_CANCEL (n : Nat) : Field := ⟨0x1200 + 0x10 * n, 7, 1, .sc, 0⟩

/-! 02_absolute_time.md, block PORTDLY -/
def PORTDLY_TX_EXT (n : Nat) : Field := ⟨0x1400 + 0x10 * n, 0, 16, .rw, 0⟩
def PORTDLY_RX_EXT (n : Nat) : Field := ⟨0x1404 + 0x10 * n, 0, 16, .rw, 0⟩
def PORTDLY_ASYM (n : Nat) : Field := ⟨0x1408 + 0x10 * n, 0, 32, .rw, 0⟩

/-! 02_absolute_time.md, block GRID -/
def GRID_EPOCH_LO (n : Nat) : Field := ⟨0xB800 + 0x40 * n, 0, 32, .ro, 0⟩
def GRID_EPOCH_HI (n : Nat) : Field := ⟨0xB804 + 0x40 * n, 0, 16, .ro, 0⟩
def GRID_RATE_P (n : Nat) : Field := ⟨0xB808 + 0x40 * n, 0, 25, .ro, 0⟩
def GRID_RATE_Q (n : Nat) : Field := ⟨0xB80C + 0x40 * n, 0, 17, .ro, 0⟩
def GRID_STATE (n : Nat) : Field := ⟨0xB810 + 0x40 * n, 0, 2, .ro, 0⟩
def GRID_OVR (n : Nat) : Field := ⟨0xB810 + 0x40 * n, 2, 1, .w1c, 0⟩
def GRID_SEQERR (n : Nat) : Field := ⟨0xB810 + 0x40 * n, 3, 1, .w1c, 0⟩
def GRID_RESUME_LO (n : Nat) : Field := ⟨0xB81C + 0x40 * n, 0, 32, .ro, 0⟩
def GRID_RESUME_HI (n : Nat) : Field := ⟨0xB820 + 0x40 * n, 0, 32, .ro, 0⟩
def GRID_STOP_LO (n : Nat) : Field := ⟨0xB824 + 0x40 * n, 0, 32, .ro, 0⟩
def GRID_STOP_HI (n : Nat) : Field := ⟨0xB828 + 0x40 * n, 0, 32, .ro, 0⟩

/-! 03_front_end_and_excitation.md, block EXC -/
def EXC_CTL_AUTO_RESTORE : Field := ⟨0x3000, 0, 1, .rw, 0⟩
def EXC_CTL_FOLD_RETRY : Field := ⟨0x3000, 8, 8, .rw, 10⟩
def EXC_BUDGET_MW : Field := ⟨0x3004, 0, 12, .rw, 0⟩
def EXC_STATIC_UW : Field := ⟨0x3008, 0, 22, .ro, 0⟩
def EXC_MEAS_UW : Field := ⟨0x300C, 0, 22, .ro, 0⟩
def EXC_WINDOW_US : Field := ⟨0x3010, 0, 14, .rw, 1000⟩
def EXC_DWELL_US : Field := ⟨0x3014, 0, 20, .rw, 1000⟩
def EXC_OPEN_US : Field := ⟨0x3020, 0, 16, .rw, 1000⟩
def EXC_STAT_WERR : Field := ⟨0x3018, 0, 1, .w1c, 0⟩
def EXC_STAT_SHED_ACTIVE : Field := ⟨0x3018, 1, 1, .ro, 0⟩
def EXC_STAT_FAST_TRIP : Field := ⟨0x3018, 2, 1, .w1c, 0⟩
def EXC_STAT_SAT : Field := ⟨0x3018, 3, 1, .w1c, 0⟩
def EXC_STAT_SHED_CLR : Field := ⟨0x3018, 4, 1, .sc, 0⟩
def EXC_SHED_COUNT : Field := ⟨0x301C, 0, 32, .ro, 0⟩

/-! 03_front_end_and_excitation.md, block BANK -/
def BANK_ENABLED (n : Nat) : Field := ⟨0x3100 + 0x10 * n, 0, 1, .ro, 0⟩
def BANK_CLK_ON (n : Nat) : Field := ⟨0x3100 + 0x10 * n, 1, 1, .ro, 0⟩
def BANK_MEAS_UW (n : Nat) : Field := ⟨0x3104 + 0x10 * n, 0, 22, .ro, 0⟩
def BANK_SHED_MASK (n : Nat) : Field := ⟨0x3108 + 0x10 * n, 0, 16, .ro, 0⟩

/-! 03_front_end_and_excitation.md, block CH -/
def CH_CFG_KIND (n : Nat) : Field := ⟨0x10000 + 0x100 * n, 0, 1, .ro, 0⟩
def CH_CFG_WIRING (n : Nat) : Field := ⟨0x10000 + 0x100 * n, 1, 2, .ro, 0⟩
def CH_CFG_SNS_ROLE (n : Nat) : Field := ⟨0x10000 + 0x100 * n, 3, 2, .ro, 0⟩
def CH_CFG_MUX (n : Nat) : Field := ⟨0x10000 + 0x100 * n, 5, 2, .rw, 0⟩
def CH_CFG_AUTORANGE (n : Nat) : Field := ⟨0x10000 + 0x100 * n, 7, 1, .rw, 0⟩
def CH_CFG_RANGE_MIN (n : Nat) : Field := ⟨0x10000 + 0x100 * n, 8, 3, .rw, 0⟩
def CH_CFG_RANGE_MAX (n : Nat) : Field := ⟨0x10000 + 0x100 * n, 12, 3, .rw, 0⟩
def CH_CFG_OPEN_I (n : Nat) : Field := ⟨0x10000 + 0x100 * n, 16, 2, .rw, 0⟩
def CH_CFG_OPEN_DIR (n : Nat) : Field := ⟨0x10000 + 0x100 * n, 18, 1, .rw, 0⟩
def CH_CFG_MUX_SETTLE (n : Nat) : Field := ⟨0x10000 + 0x100 * n, 20, 12, .rw, 0⟩
def CH_RANGE_RANGE (n : Nat) : Field := ⟨0x10004 + 0x100 * n, 0, 3, .rw, 0⟩
def CH_RANGE_RANGE_NOW (n : Nat) : Field := ⟨0x10004 + 0x100 * n, 4, 3, .ro, 0⟩
def CH_EXC_MODE (n : Nat) : Field := ⟨0x10008 + 0x100 * n, 0, 3, .rw, 0⟩
def CH_EXC_PRIORITY (n : Nat) : Field := ⟨0x10008 + 0x100 * n, 8, 8, .ro, 0⟩
def CH_EXC_APPLY (n : Nat) : Field := ⟨0x10008 + 0x100 * n, 16, 1, .sc, 0⟩
def CH_EXC_RESTORE (n : Nat) : Field := ⟨0x10008 + 0x100 * n, 17, 1, .sc, 0⟩
def CH_EXC_LEVEL (n : Nat) : Field := ⟨0x1000C + 0x100 * n, 0, 20, .rw, 0⟩
def CH_EXC_LOAD_OHM (n : Nat) : Field := ⟨0x10010 + 0x100 * n, 0, 24, .ro, 0⟩
def CH_EXC_STATIC_UW (n : Nat) : Field := ⟨0x10014 + 0x100 * n, 0, 15, .ro, 0⟩
def CH_EXC_MEAS_UW (n : Nat) : Field := ⟨0x10018 + 0x100 * n, 0, 15, .ro, 0⟩
def CH_EXCS_EXCF (n : Nat) : Field := ⟨0x1001C + 0x100 * n, 0, 1, .ro, 0⟩
def CH_EXCS_REASON (n : Nat) : Field := ⟨0x1001C + 0x100 * n, 1, 2, .ro, 0⟩
def CH_EXCS_FOLDED (n : Nat) : Field := ⟨0x1001C + 0x100 * n, 3, 1, .ro, 0⟩
def CH_EXCS_OPEN (n : Nat) : Field := ⟨0x1001C + 0x100 * n, 4, 1, .ro, 0⟩
def CH_EXCS_COMPLIANCE (n : Nat) : Field := ⟨0x1001C + 0x100 * n, 5, 1, .ro, 0⟩
def CH_EXCS_WERR (n : Nat) : Field := ⟨0x1001C + 0x100 * n, 6, 1, .w1c, 0⟩
def CH_EXCS_RESTORE_REFUSED (n : Nat) : Field := ⟨0x1001C + 0x100 * n, 7, 1, .w1c, 0⟩
def CH_EXCS_SAT (n : Nat) : Field := ⟨0x1001C + 0x100 * n, 8, 1, .w1c, 0⟩
def CH_EXCS_CNT_CLR (n : Nat) : Field := ⟨0x1001C + 0x100 * n, 9, 1, .sc, 0⟩
def CH_RANGE_STEPS (n : Nat) : Field := ⟨0x10020 + 0x100 * n, 0, 32, .ro, 0⟩
def CH_FOLD_COUNT (n : Nat) : Field := ⟨0x10024 + 0x100 * n, 0, 32, .ro, 0⟩
def CH_SETTLE_EXTRA (n : Nat) : Field := ⟨0x10028 + 0x100 * n, 0, 16, .ro, 0⟩

/-! 04_conversion_and_calibration.md, block HK -/
def HK_CTL_SCAN_MODE : Field := ⟨0x2000, 0, 2, .rw, 0⟩
def HK_CTL_SCAN_START : Field := ⟨0x2000, 2, 1, .sc, 0⟩
def HK_CTL_SCAN_STOP : Field := ⟨0x2000, 3, 1, .sc, 0⟩
def HK_CTL_WAIT_READ : Field := ⟨0x2000, 4, 1, .rw, 0⟩
def HK_CTL_GRID : Field := ⟨0x2000, 5, 3, .rw, 0⟩
def HK_CTL_SETTLE_US : Field := ⟨0x2000, 8, 8, .rw, 2⟩
def HK_SCAN_MASK_LO : Field := ⟨0x2004, 0, 32, .rw, 0⟩
def HK_SCAN_MASK_HI : Field := ⟨0x2008, 0, 16, .rw, 0⟩
def HK_SCAN_PERIOD : Field := ⟨0x200C, 0, 24, .rw, 1000000⟩
def HK_STAT_OVR : Field := ⟨0x2010, 0, 1, .w1c, 0⟩
def HK_STAT_SEQERR : Field := ⟨0x2010, 1, 1, .w1c, 0⟩
def HK_STAT_SCAN_BUSY : Field := ⟨0x2010, 2, 1, .ro, 0⟩
def HK_STAT_SCAN_ABORT : Field := ⟨0x2010, 3, 1, .w1c, 0⟩
def HK_STAT_WERR : Field := ⟨0x2010, 4, 1, .w1c, 0⟩
def HK_STAT_SAT : Field := ⟨0x2010, 5, 1, .w1c, 0⟩
def HK_STAT_CNT_CLR : Field := ⟨0x2010, 6, 1, .sc, 0⟩
def HK_STAT_CAL_OWNS : Field := ⟨0x2010, 7, 1, .ro, 0⟩
def HK_STAT_WAIT_STALL : Field := ⟨0x2010, 8, 1, .ro, 0⟩
def HK_LOST : Field := ⟨0x2014, 0, 32, .ro, 0⟩
def HK_SCAN_SKIP : Field := ⟨0x2018, 0, 32, .ro, 0⟩
def HK_INJ_MISS : Field := ⟨0x201C, 0, 32, .ro, 0⟩

/-! 04_conversion_and_calibration.md, block INJ -/
def INJ_INPUT (n : Nat) : Field := ⟨0x2100 + 0x20 * n, 0, 6, .rw, 0⟩
def INJ_SRC (n : Nat) : Field := ⟨0x2100 + 0x20 * n, 6, 2, .rw, 0⟩
def INJ_TRIG (n : Nat) : Field := ⟨0x2100 + 0x20 * n, 8, 2, .rw, 0⟩
def INJ_GRID (n : Nat) : Field := ⟨0x2100 + 0x20 * n, 10, 3, .rw, 0⟩
def INJ_ENABLE (n : Nat) : Field := ⟨0x2100 + 0x20 * n, 13, 1, .rw, 0⟩
def INJ_GO (n : Nat) : Field := ⟨0x2100 + 0x20 * n, 14, 1, .sc, 0⟩
def INJ_K (n : Nat) : Field := ⟨0x2104 + 0x20 * n, 0, 24, .rw, 1⟩
def INJ_PENDING (n : Nat) : Field := ⟨0x2108 + 0x20 * n, 0, 1, .ro, 0⟩
def INJ_HELD (n : Nat) : Field := ⟨0x2108 + 0x20 * n, 1, 1, .ro, 0⟩
def INJ_OVR (n : Nat) : Field := ⟨0x2108 + 0x20 * n, 2, 1, .w1c, 0⟩
def INJ_SEQERR (n : Nat) : Field := ⟨0x2108 + 0x20 * n, 3, 1, .w1c, 0⟩
def INJ_MISS (n : Nat) : Field := ⟨0x2108 + 0x20 * n, 4, 1, .w1c, 0⟩
def INJ_WERR (n : Nat) : Field := ⟨0x2108 + 0x20 * n, 5, 1, .w1c, 0⟩

/-! 04_conversion_and_calibration.md, block HK -/
def HK_CAL_START : Field := ⟨0x2200, 0, 1, .sc, 0⟩
def HK_CAL_ABORT : Field := ⟨0x2200, 1, 1, .sc, 0⟩
def HK_CAL_SAVE : Field := ⟨0x2200, 2, 1, .sc, 0⟩
def HK_CAL_BANKS : Field := ⟨0x2200, 4, 12, .rw, 0⟩
def HK_CAL_RANGES : Field := ⟨0x2200, 16, 10, .rw, 0⟩
def HK_CAL_AVG_MS : Field := ⟨0x2204, 0, 16, .rw, 100⟩
def HK_CAL_CAL_SETTLE : Field := ⟨0x2204, 16, 16, .rw, 1000⟩
def HK_CAL_STATE : Field := ⟨0x2208, 0, 3, .ro, 0⟩
def HK_CAL_DONE : Field := ⟨0x2208, 3, 1, .w1c, 0⟩
def HK_CAL_FAIL : Field := ⟨0x2208, 4, 1, .w1c, 0⟩
def HK_CAL_ABORTED : Field := ⟨0x2208, 5, 1, .w1c, 0⟩
def HK_CAL_REF_DRIFT : Field := ⟨0x2208, 6, 1, .w1c, 0⟩
def HK_CAL_STALE : Field := ⟨0x2208, 7, 1, .ro, 0⟩
def HK_CAL_UNCAL : Field := ⟨0x2208, 8, 1, .ro, 0⟩
def HK_CAL_WERR : Field := ⟨0x2208, 9, 1, .w1c, 0⟩
def HK_CAL_SAVE_REFUSED : Field := ⟨0x2208, 10, 1, .w1c, 0⟩
def HK_CAL_RANGE_IDX : Field := ⟨0x2208, 11, 4, .ro, 0⟩
def HK_CAL_TEMP_LIMIT : Field := ⟨0x220C, 0, 16, .rw, 1280⟩
def HK_PAT_ADDR : Field := ⟨0x2210, 0, 15, .rw, 0⟩
def HK_PAT_CHECK : Field := ⟨0x2218, 0, 1, .sc, 0⟩
def HK_PAT_RELOAD : Field := ⟨0x2218, 1, 1, .sc, 0⟩
def HK_PAT_BAD : Field := ⟨0x2218, 2, 1, .w1c, 0⟩
def HK_PAT_FIELD_LOADED : Field := ⟨0x2218, 3, 1, .ro, 0⟩
def HK_PAT_FACTORY_BAD : Field := ⟨0x2218, 4, 1, .ro, 0⟩

/-! 05_filtering_and_pointing.md, block CH -/
def CH_CHAIN_HB_COUNT (n : Nat) : Field := ⟨0x1002C + 0x100 * n, 0, 3, .ro, 0⟩
def CH_CHAIN_DEMOD (n : Nat) : Field := ⟨0x1002C + 0x100 * n, 3, 1, .ro, 0⟩
def CH_CHAIN_DEMOD_OUT (n : Nat) : Field := ⟨0x1002C + 0x100 * n, 4, 2, .ro, 0⟩
def CH_CHAIN_POSTDEC_MODE (n : Nat) : Field := ⟨0x1002C + 0x100 * n, 6, 2, .ro, 0⟩
def CH_CHAIN_GRID (n : Nat) : Field := ⟨0x1002C + 0x100 * n, 8, 3, .ro, 0⟩
def CH_CHAIN_SETTLE_SUPPRESS (n : Nat) : Field := ⟨0x1002C + 0x100 * n, 11, 1, .ro, 0⟩
def CH_CHAIN_DCB_K (n : Nat) : Field := ⟨0x1002C + 0x100 * n, 16, 5, .rw, 0⟩
def CH_CHAIN_DCB_FREEZE (n : Nat) : Field := ⟨0x1002C + 0x100 * n, 21, 1, .rw, 0⟩
def CH_D (n : Nat) : Field := ⟨0x10030 + 0x100 * n, 0, 17, .ro, 0⟩
def CH_CARRIER_P (n : Nat) : Field := ⟨0x10034 + 0x100 * n, 0, 25, .rw, 0⟩
def CH_CARRIER_Q (n : Nat) : Field := ⟨0x10038 + 0x100 * n, 0, 17, .rw, 0⟩
def CH_DEMOD_PHASE (n : Nat) : Field := ⟨0x1003C + 0x100 * n, 0, 16, .rw, 0⟩
def CH_CHAIN_RESTART (n : Nat) : Field := ⟨0x10040 + 0x100 * n, 0, 1, .sc, 0⟩
def CH_CHAIN_CNT_CLR (n : Nat) : Field := ⟨0x10040 + 0x100 * n, 1, 1, .sc, 0⟩
def CH_CHAIN_SETTLING (n : Nat) : Field := ⟨0x10044 + 0x100 * n, 0, 1, .ro, 0⟩
def CH_CHAIN_RESTARTED (n : Nat) : Field := ⟨0x10044 + 0x100 * n, 1, 1, .w1c, 0⟩
def CH_CHAIN_DCB_FROZEN (n : Nat) : Field := ⟨0x10044 + 0x100 * n, 2, 1, .ro, 0⟩
def CH_CHAIN_SAT (n : Nat) : Field := ⟨0x10044 + 0x100 * n, 3, 1, .w1c, 0⟩
def CH_CHAIN_LAST_CAUSE (n : Nat) : Field := ⟨0x10044 + 0x100 * n, 4, 3, .ro, 0⟩
def CH_DCB_EST (n : Nat) : Field := ⟨0x10048 + 0x100 * n, 0, 32, .rw, 0⟩
def CH_RESTART_COUNT (n : Nat) : Field := ⟨0x1004C + 0x100 * n, 0, 32, .ro, 0⟩
def CH_SETTLE_N (n : Nat) : Field := ⟨0x10050 + 0x100 * n, 0, 16, .ro, 0⟩
def CH_DELAY_NS (n : Nat) : Field := ⟨0x10054 + 0x100 * n, 0, 32, .ro, 0⟩

/-! 06_linearisation.md, block LIN -/
def LIN_CJ_MAXAGE : Field := ⟨0xD000, 0, 16, .rw, 2000⟩

/-! 06_linearisation.md, block CJ -/
def CJ_SENSOR (n : Nat) : Field := ⟨0xD040 + 0x20 * n, 0, 3, .ro, 0⟩
def CJ_COEF_A (n : Nat) : Field := ⟨0xD044 + 0x20 * n, 0, 32, .ro, 0⟩
def CJ_COEF_B (n : Nat) : Field := ⟨0xD048 + 0x20 * n, 0, 32, .ro, 0⟩
def CJ_COEF_C (n : Nat) : Field := ⟨0xD04C + 0x20 * n, 0, 32, .ro, 0⟩

/-! 06_linearisation.md, block TAB -/
def TAB_SEG_COUNT (n : Nat) : Field := ⟨0xD400 + 0x180 * n, 0, 5, .ro, 0⟩
def TAB_X_MAX (n : Nat) : Field := ⟨0xD404 + 0x180 * n, 0, 32, .ro, 0⟩

/-! 06_linearisation.md, block CH -/
def CH_LIN_CURVE (n : Nat) : Field := ⟨0x10060 + 0x100 * n, 0, 5, .ro, 0⟩
def CH_LIN_CJ_SRC (n : Nat) : Field := ⟨0x10060 + 0x100 * n, 8, 4, .ro, 0⟩
def CH_LIN_LOAD (n : Nat) : Field := ⟨0x10060 + 0x100 * n, 12, 1, .sc, 0⟩
def CH_LIN_GAIN (n : Nat) : Field := ⟨0x10064 + 0x100 * n, 0, 32, .rw, 1065353216⟩
def CH_LIN_OFFSET (n : Nat) : Field := ⟨0x10068 + 0x100 * n, 0, 32, .rw, 0⟩
def CH_LIN_P0 (n : Nat) : Field := ⟨0x1006C + 0x100 * n, 0, 32, .ro, 0⟩
def CH_LIN_P1 (n : Nat) : Field := ⟨0x10070 + 0x100 * n, 0, 32, .ro, 0⟩
def CH_LIN_P2 (n : Nat) : Field := ⟨0x10074 + 0x100 * n, 0, 32, .ro, 0⟩
def CH_LIN_DOMAIN (n : Nat) : Field := ⟨0x10078 + 0x100 * n, 0, 1, .w1c, 0⟩
def CH_LIN_CJ_INVALID (n : Nat) : Field := ⟨0x10078 + 0x100 * n, 1, 1, .w1c, 0⟩
def CH_LIN_NOEXC (n : Nat) : Field := ⟨0x10078 + 0x100 * n, 2, 1, .w1c, 0⟩
def CH_LIN_SAT (n : Nat) : Field := ⟨0x10078 + 0x100 * n, 3, 1, .w1c, 0⟩
def CH_LIN_CNT_CLR (n : Nat) : Field := ⟨0x10078 + 0x100 * n, 4, 1, .sc, 0⟩
def CH_LIN_OVR (n : Nat) : Field := ⟨0x10078 + 0x100 * n, 5, 1, .w1c, 0⟩
def CH_LIN_SEQERR (n : Nat) : Field := ⟨0x10078 + 0x100 * n, 6, 1, .w1c, 0⟩
def CH_LIN_DOMAIN_COUNT (n : Nat) : Field := ⟨0x1007C + 0x100 * n, 0, 32, .ro, 0⟩
def CH_LIN_LAST_LO (n : Nat) : Field := ⟨0x10080 + 0x100 * n, 0, 32, .rs, 0⟩
def CH_LIN_LAST_HI (n : Nat) : Field := ⟨0x10084 + 0x100 * n, 0, 32, .rs, 0⟩

/-! 07_acquisition_and_triggers.md, block ACQ -/
def ACQ_ARM_ALL : Field := ⟨0xB000, 0, 1, .sc, 0⟩
def ACQ_DISARM_ALL : Field := ⟨0xB000, 1, 1, .sc, 0⟩
def ACQ_WERR : Field := ⟨0xB004, 0, 1, .w1c, 0⟩
def ACQ_OVR : Field := ⟨0xB004, 1, 1, .w1c, 0⟩
def ACQ_SEQERR : Field := ⟨0xB004, 2, 1, .w1c, 0⟩
def ACQ_SAT : Field := ⟨0xB004, 3, 1, .w1c, 0⟩
def ACQ_CNT_CLR : Field := ⟨0xB004, 4, 1, .sc, 0⟩
def ACQ_DIST_RX : Field := ⟨0xB00C, 0, 32, .ro, 0⟩
def ACQ_DIST_DUP : Field := ⟨0xB010, 0, 32, .ro, 0⟩
def ACQ_SSEL : Field := ⟨0xB020, 0, 8, .rw, 0⟩

/-! 07_acquisition_and_triggers.md, block TRIGOUT -/
def TRIGOUT_UNIT (n : Nat) : Field := ⟨0xB100 + 0x4 * n, 0, 5, .rw, 0⟩
def TRIGOUT_EN (n : Nat) : Field := ⟨0xB100 + 0x4 * n, 5, 1, .rw, 0⟩
def TRIGOUT_POLARITY (n : Nat) : Field := ⟨0xB100 + 0x4 * n, 6, 1, .rw, 0⟩
def TRIGOUT_WIDTH (n : Nat) : Field := ⟨0xB100 + 0x4 * n, 16, 16, .rw, 25⟩

/-! 07_acquisition_and_triggers.md, block TRG -/
def TRG_SOURCE (n : Nat) : Field := ⟨0x50000 + 0x80 * n, 0, 4, .ro, 0⟩
def TRG_MODE (n : Nat) : Field := ⟨0x50000 + 0x80 * n, 4, 2, .ro, 0⟩
def TRG_PRE_STRICT (n : Nat) : Field := ⟨0x50000 + 0x80 * n, 6, 1, .ro, 0⟩
def TRG_DIST_OUT (n : Nat) : Field := ⟨0x50000 + 0x80 * n, 7, 1, .ro, 0⟩
def TRG_COND (n : Nat) : Field := ⟨0x50000 + 0x80 * n, 8, 2, .ro, 0⟩
def TRG_SRC_CH (n : Nat) : Field := ⟨0x50000 + 0x80 * n, 16, 8, .ro, 0⟩
def TRG_SRC_IDX (n : Nat) : Field := ⟨0x50000 + 0x80 * n, 24, 5, .ro, 0⟩
def TRG_ARM (n : Nat) : Field := ⟨0x50004 + 0x80 * n, 0, 1, .sc, 0⟩
def TRG_DISARM (n : Nat) : Field := ⟨0x50004 + 0x80 * n, 1, 1, .sc, 0⟩
def TRG_FORCE (n : Nat) : Field := ⟨0x50004 + 0x80 * n, 2, 1, .sc, 0⟩
def TRG_CNT_CLR (n : Nat) : Field := ⟨0x50004 + 0x80 * n, 3, 1, .sc, 0⟩
def TRG_STATE (n : Nat) : Field := ⟨0x50008 + 0x80 * n, 0, 3, .ro, 0⟩
def TRG_PRE_SHORT (n : Nat) : Field := ⟨0x50008 + 0x80 * n, 3, 1, .w1c, 0⟩
def TRG_FORCED (n : Nat) : Field := ⟨0x50008 + 0x80 * n, 4, 1, .w1c, 0⟩
def TRG_SAT (n : Nat) : Field := ⟨0x50008 + 0x80 * n, 5, 1, .w1c, 0⟩
def TRG_OVR (n : Nat) : Field := ⟨0x50008 + 0x80 * n, 6, 1, .w1c, 0⟩
def TRG_SEQERR (n : Nat) : Field := ⟨0x50008 + 0x80 * n, 7, 1, .w1c, 0⟩
def TRG_MISS_HELD (n : Nat) : Field := ⟨0x50008 + 0x80 * n, 8, 1, .ro, 0⟩
def TRG_TI_OVR (n : Nat) : Field := ⟨0x50008 + 0x80 * n, 9, 1, .w1c, 0⟩
def TRG_TI_SEQERR (n : Nat) : Field := ⟨0x50008 + 0x80 * n, 10, 1, .w1c, 0⟩
def TRG_WERR (n : Nat) : Field := ⟨0x50008 + 0x80 * n, 11, 1, .w1c, 0⟩
def TRG_PRE (n : Nat) : Field := ⟨0x5000C + 0x80 * n, 0, 24, .ro, 0⟩
def TRG_POST (n : Nat) : Field := ⟨0x50010 + 0x80 * n, 0, 24, .ro, 0⟩
def TRG_CAPACITY (n : Nat) : Field := ⟨0x50014 + 0x80 * n, 0, 24, .ro, 0⟩
def TRG_HIST (n : Nat) : Field := ⟨0x50018 + 0x80 * n, 0, 24, .ro, 0⟩
def TRG_THRESH (n : Nat) : Field := ⟨0x5001C + 0x80 * n, 0, 24, .rw, 0⟩
def TRG_HYST (n : Nat) : Field := ⟨0x50020 + 0x80 * n, 0, 24, .rw, 0⟩
def TRG_AUTO_TIMEOUT (n : Nat) : Field := ⟨0x50024 + 0x80 * n, 0, 24, .rw, 1000⟩
def TRG_RECORDS (n : Nat) : Field := ⟨0x50028 + 0x80 * n, 0, 32, .ro, 0⟩
def TRG_MISSED (n : Nat) : Field := ⟨0x5002C + 0x80 * n, 0, 32, .ro, 0⟩
def TRG_PRE_IGNORED (n : Nat) : Field := ⟨0x50030 + 0x80 * n, 0, 32, .ro, 0⟩
def TRG_LATE (n : Nat) : Field := ⟨0x50034 + 0x80 * n, 0, 32, .ro, 0⟩
def TRG_STREAM (n : Nat) : Field := ⟨0x50044 + 0x80 * n, 0, 8, .ro, 0⟩
def TRG_FILL (n : Nat) : Field := ⟨0x50048 + 0x80 * n, 0, 24, .ro, 0⟩
def TRG_DIST_GROUP (n : Nat) : Field := ⟨0x5004C + 0x80 * n, 0, 5, .ro, 0⟩
def TRG_RECORD_NO (n : Nat) : Field := ⟨0x50050 + 0x80 * n, 0, 32, .ro, 0⟩
def TRG_LAST_TI_LO (n : Nat) : Field := ⟨0x50054 + 0x80 * n, 0, 32, .rs, 0⟩
def TRG_LAST_TI_HI (n : Nat) : Field := ⟨0x50058 + 0x80 * n, 0, 32, .rs, 0⟩

/-! 08_reduction_and_relief.md, block ENG -/
def ENG_RESTART (n : Nat) : Field := ⟨0x30000 + 0x1000 * n, 0, 1, .sc, 0⟩
def ENG_HALT (n : Nat) : Field := ⟨0x30000 + 0x1000 * n, 1, 1, .sc, 0⟩
def ENG_AUTO_RESTART (n : Nat) : Field := ⟨0x30000 + 0x1000 * n, 2, 1, .rw, 0⟩
def ENG_CNT_CLR (n : Nat) : Field := ⟨0x30000 + 0x1000 * n, 3, 1, .sc, 0⟩
def ENG_STATE (n : Nat) : Field := ⟨0x30004 + 0x1000 * n, 0, 3, .ro, 0⟩
def ENG_FAULT (n : Nat) : Field := ⟨0x30004 + 0x1000 * n, 3, 4, .ro, 0⟩
def ENG_WERR (n : Nat) : Field := ⟨0x30004 + 0x1000 * n, 7, 1, .w1c, 0⟩
def ENG_SAT (n : Nat) : Field := ⟨0x30004 + 0x1000 * n, 8, 1, .w1c, 0⟩
def ENG_PARAM_RELOADED (n : Nat) : Field := ⟨0x30004 + 0x1000 * n, 9, 1, .w1c, 0⟩
def ENG_OVERRUN (n : Nat) : Field := ⟨0x30004 + 0x1000 * n, 10, 1, .w1c, 0⟩
def ENG_RESTART_LIMIT (n : Nat) : Field := ⟨0x30004 + 0x1000 * n, 11, 1, .ro, 0⟩
def ENG_WIN_REFUSED (n : Nat) : Field := ⟨0x30004 + 0x1000 * n, 12, 1, .w1c, 0⟩
def ENG_FRAMES (n : Nat) : Field := ⟨0x30008 + 0x1000 * n, 0, 32, .ro, 0⟩
def ENG_OVERRUNS (n : Nat) : Field := ⟨0x3000C + 0x1000 * n, 0, 32, .ro, 0⟩
def ENG_FAULTS (n : Nat) : Field := ⟨0x30010 + 0x1000 * n, 0, 32, .ro, 0⟩
def ENG_RESTARTS (n : Nat) : Field := ⟨0x30014 + 0x1000 * n, 0, 32, .ro, 0⟩
def ENG_FAULT_ADDR (n : Nat) : Field := ⟨0x30018 + 0x1000 * n, 0, 18, .ro, 0⟩
def ENG_FAULT_TASK (n : Nat) : Field := ⟨0x30018 + 0x1000 * n, 20, 3, .ro, 0⟩
def ENG_WIN_ADDR (n : Nat) : Field := ⟨0x30040 + 0x1000 * n, 0, 18, .rw, 0⟩
def ENG_MB_CMD (n : Nat) : Field := ⟨0x30080 + 0x1000 * n, 0, 8, .wo, 0⟩
def ENG_MB_BUSY (n : Nat) : Field := ⟨0x300A0 + 0x1000 * n, 0, 1, .ro, 0⟩
def ENG_MB_DONE (n : Nat) : Field := ⟨0x300A0 + 0x1000 * n, 1, 1, .w1c, 0⟩
def ENG_MB_WERR (n : Nat) : Field := ⟨0x300A0 + 0x1000 * n, 2, 1, .w1c, 0⟩

/-! 08_reduction_and_relief.md, block TASK -/
def TASK_OP (e k : Nat) : Field := ⟨0x30100 + 0x1000 * e + 0x20 * k, 0, 3, .ro, 0⟩
def TASK_INPUT_KIND (e k : Nat) : Field := ⟨0x30100 + 0x1000 * e + 0x20 * k, 3, 1, .ro, 0⟩
def TASK_SKIP_FLAGGED (e k : Nat) : Field := ⟨0x30100 + 0x1000 * e + 0x20 * k, 4, 1, .ro, 0⟩
def TASK_RLF_SLOT (e k : Nat) : Field := ⟨0x30100 + 0x1000 * e + 0x20 * k, 5, 6, .ro, 0⟩
def TASK_RLF_EN (e k : Nat) : Field := ⟨0x30100 + 0x1000 * e + 0x20 * k, 11, 1, .ro, 0⟩
def TASK_INPUTS (e k : Nat) : Field := ⟨0x30100 + 0x1000 * e + 0x20 * k, 16, 8, .ro, 0⟩
def TASK_OUTPUTS_M1 (e k : Nat) : Field := ⟨0x30100 + 0x1000 * e + 0x20 * k, 24, 8, .ro, 0⟩
def TASK_PARAM_LOCK (e k : Nat) : Field := ⟨0x30100 + 0x1000 * e + 0x20 * k + 0x4, 0, 6, .ro, 0⟩
def TASK_LOCK_EN (e k : Nat) : Field := ⟨0x30100 + 0x1000 * e + 0x20 * k + 0x4, 6, 1, .ro, 0⟩
def TASK_FRAME_LEN (e k : Nat) : Field := ⟨0x30100 + 0x1000 * e + 0x20 * k + 0x4, 16, 16, .ro, 0⟩
def TASK_DATA_BASE (e k : Nat) : Field := ⟨0x30100 + 0x1000 * e + 0x20 * k + 0x8, 0, 18, .ro, 0⟩
def TASK_LAST_FRAME_LO (e k : Nat) : Field := ⟨0x30100 + 0x1000 * e + 0x20 * k + 0xC, 0, 32, .rs, 0⟩
def TASK_LAST_FRAME_HI (e k : Nat) : Field := ⟨0x30100 + 0x1000 * e + 0x20 * k + 0x10, 0, 32, .rs, 0⟩
def TASK_LAST_CYCLES (e k : Nat) : Field := ⟨0x30100 + 0x1000 * e + 0x20 * k + 0x14, 0, 32, .ro, 0⟩
def TASK_BANK (e k : Nat) : Field := ⟨0x30100 + 0x1000 * e + 0x20 * k + 0x18, 0, 1, .ro, 0⟩
def TASK_RESTARTED (e k : Nat) : Field := ⟨0x30100 + 0x1000 * e + 0x20 * k + 0x18, 1, 1, .ro, 0⟩
def TASK_OVR (e k : Nat) : Field := ⟨0x30100 + 0x1000 * e + 0x20 * k + 0x18, 2, 1, .w1c, 0⟩
def TASK_SEQERR (e k : Nat) : Field := ⟨0x30100 + 0x1000 * e + 0x20 * k + 0x18, 3, 1, .w1c, 0⟩

/-! 08_reduction_and_relief.md, block RLF -/
def RLF_CNT_CLR : Field := ⟨0xC000, 0, 1, .sc, 0⟩
def RLF_WERR : Field := ⟨0xC004, 0, 1, .w1c, 0⟩
def RLF_SAT : Field := ⟨0xC004, 1, 1, .w1c, 0⟩
def RLF_OVR : Field := ⟨0xC004, 2, 1, .w1c, 0⟩
def RLF_SEQERR : Field := ⟨0xC004, 3, 1, .w1c, 0⟩
def RLF_SEL : Field := ⟨0xC010, 0, 6, .rw, 0⟩

/-! 09_compression.md, block CMP -/
def CMP_CHAIN_DEPTH : Field := ⟨0x5000, 0, 9, .rw, 32⟩
def CMP_LAZY : Field := ⟨0x5000, 9, 1, .rw, 1⟩
def CMP_NICE_LEN : Field := ⟨0x5000, 16, 9, .rw, 128⟩
def CMP_CNT_CLR : Field := ⟨0x5000, 25, 1, .sc, 0⟩
def CMP_STALL_US : Field := ⟨0x5004, 0, 20, .rw, 100⟩
def CMP_ON_PCT : Field := ⟨0x5008, 0, 7, .rw, 50⟩
def CMP_OFF_PCT : Field := ⟨0x5008, 8, 7, .rw, 60⟩
def CMP_STAT_WERR : Field := ⟨0x500C, 0, 1, .w1c, 0⟩
def CMP_STAT_SAT : Field := ⟨0x500C, 1, 1, .w1c, 0⟩
def CMP_STAT_BUSY : Field := ⟨0x500C, 2, 1, .ro, 0⟩
def CMP_STAT_STALLED : Field := ⟨0x500C, 3, 1, .ro, 0⟩
def CMP_STAT_LAST_CODE : Field := ⟨0x500C, 4, 3, .ro, 0⟩
def CMP_STAT_OVR : Field := ⟨0x500C, 7, 1, .w1c, 0⟩
def CMP_STAT_SEQERR : Field := ⟨0x500C, 8, 1, .w1c, 0⟩
def CMP_STAT_LIST_LEVEL : Field := ⟨0x500C, 9, 7, .ro, 0⟩
def CMP_PACKETS : Field := ⟨0x5010, 0, 32, .ro, 0⟩
def CMP_NOSHRINK : Field := ⟨0x5014, 0, 32, .ro, 0⟩
def CMP_VERIFY_FAIL : Field := ⟨0x5018, 0, 32, .ro, 0⟩
def CMP_ABANDON : Field := ⟨0x501C, 0, 32, .ro, 0⟩
def CMP_BYPASS : Field := ⟨0x5020, 0, 32, .ro, 0⟩
def CMP_POISON : Field := ⟨0x5024, 0, 32, .ro, 0⟩
def CMP_BYTES_IN_LO : Field := ⟨0x5028, 0, 32, .rs, 0⟩
def CMP_BYTES_IN_HI : Field := ⟨0x502C, 0, 16, .rs, 0⟩
def CMP_BYTES_OUT_LO : Field := ⟨0x5030, 0, 32, .rs, 0⟩
def CMP_BYTES_OUT_HI : Field := ⟨0x5034, 0, 16, .rs, 0⟩
def CMP_SSEL : Field := ⟨0x5040, 0, 8, .rw, 0⟩

/-! 09_compression.md, block DCMP -/
def DCMP_GO : Field := ⟨0x5100, 0, 1, .sc, 0⟩
def DCMP_ABORT : Field := ⟨0x5100, 1, 1, .sc, 0⟩
def DCMP_XFORM : Field := ⟨0x5100, 2, 2, .rw, 0⟩
def DCMP_SKIP64 : Field := ⟨0x5100, 4, 1, .rw, 0⟩
def DCMP_SRC_ADDR : Field := ⟨0x5104, 0, 28, .rw, 0⟩
def DCMP_SRC_LEN : Field := ⟨0x5108, 0, 24, .rw, 0⟩
def DCMP_DST_ADDR : Field := ⟨0x510C, 0, 28, .rw, 0⟩
def DCMP_DST_MAX : Field := ⟨0x5110, 0, 24, .rw, 0⟩
def DCMP_BUSY : Field := ⟨0x5114, 0, 1, .ro, 0⟩
def DCMP_DONE : Field := ⟨0x5114, 1, 1, .w1c, 0⟩
def DCMP_ERR : Field := ⟨0x5114, 2, 4, .ro, 0⟩
def DCMP_WERR : Field := ⟨0x5114, 6, 1, .w1c, 0⟩
def DCMP_REFUSED : Field := ⟨0x5114, 7, 1, .w1c, 0⟩
def DCMP_SAT : Field := ⟨0x5114, 8, 1, .w1c, 0⟩
def DCMP_CNT_CLR : Field := ⟨0x5114, 9, 1, .sc, 0⟩
def DCMP_OUT_LEN : Field := ⟨0x5118, 0, 24, .ro, 0⟩
def DCMP_IN_USED : Field := ⟨0x511C, 0, 24, .ro, 0⟩
def DCMP_JOBS : Field := ⟨0x5120, 0, 32, .ro, 0⟩
def DCMP_ERRORS : Field := ⟨0x5124, 0, 32, .ro, 0⟩

/-! 10_memory_queues_dma.md, block MEM -/
def MEM_SCRUB_EN : Field := ⟨0x6000, 0, 1, .rw, 1⟩
def MEM_CNT_CLR : Field := ⟨0x6000, 1, 1, .sc, 0⟩
def MEM_WERR : Field := ⟨0x6004, 0, 1, .w1c, 0⟩
def MEM_SAT : Field := ⟨0x6004, 1, 1, .w1c, 0⟩
def MEM_UE : Field := ⟨0x6004, 2, 1, .w1c, 0⟩
def MEM_RESERVE_SPILL : Field := ⟨0x6004, 3, 1, .w1c, 0⟩
def MEM_STARVED : Field := ⟨0x6004, 4, 1, .w1c, 0⟩
def MEM_DISCARDING : Field := ⟨0x6004, 5, 1, .ro, 0⟩
def MEM_BASE : Field := ⟨0x6008, 0, 8, .rw, 0⟩
def MEM_HOURS : Field := ⟨0x600C, 0, 8, .rw, 24⟩
def MEM_CE_COUNT : Field := ⟨0x6010, 0, 32, .ro, 0⟩
def MEM_UE_COUNT : Field := ⟨0x6014, 0, 32, .ro, 0⟩
def MEM_DISCARDS : Field := ⟨0x6018, 0, 32, .ro, 0⟩
def MEM_GAPS : Field := ⟨0x601C, 0, 32, .ro, 0⟩
def MEM_UE_ADDR : Field := ⟨0x6020, 0, 28, .ro, 0⟩
def MEM_PSEL : Field := ⟨0x6040, 0, 4, .rw, 0⟩

/-! 10_memory_queues_dma.md, block DMA -/
def DMA_GO (n : Nat) : Field := ⟨0x6400 + 0x40 * n, 0, 1, .sc, 0⟩
def DMA_RESUME (n : Nat) : Field := ⟨0x6400 + 0x40 * n, 1, 1, .sc, 0⟩
def DMA_ABORT (n : Nat) : Field := ⟨0x6400 + 0x40 * n, 2, 1, .sc, 0⟩
def DMA_CNT_CLR (n : Nat) : Field := ⟨0x6400 + 0x40 * n, 3, 1, .sc, 0⟩
def DMA_CLASS (n : Nat) : Field := ⟨0x6400 + 0x40 * n, 4, 2, .rw, 2⟩
def DMA_STATE (n : Nat) : Field := ⟨0x6404 + 0x40 * n, 0, 2, .ro, 0⟩
def DMA_FAULT (n : Nat) : Field := ⟨0x6404 + 0x40 * n, 2, 4, .ro, 0⟩
def DMA_FAULT_DST (n : Nat) : Field := ⟨0x6404 + 0x40 * n, 6, 1, .ro, 0⟩
def DMA_DONE (n : Nat) : Field := ⟨0x6404 + 0x40 * n, 7, 1, .w1c, 0⟩
def DMA_DELAYED (n : Nat) : Field := ⟨0x6404 + 0x40 * n, 8, 1, .ro, 0⟩
def DMA_WERR (n : Nat) : Field := ⟨0x6404 + 0x40 * n, 9, 1, .w1c, 0⟩
def DMA_SAT (n : Nat) : Field := ⟨0x6404 + 0x40 * n, 10, 1, .w1c, 0⟩
def DMA_DESC (n : Nat) : Field := ⟨0x6408 + 0x40 * n, 0, 28, .rw, 0⟩
def DMA_CUR_DESC (n : Nat) : Field := ⟨0x640C + 0x40 * n, 0, 28, .ro, 0⟩
def DMA_PAGE_FIRST (n : Nat) : Field := ⟨0x6410 + 0x40 * n, 0, 16, .rw, 0⟩
def DMA_PAGE_LAST (n : Nat) : Field := ⟨0x6414 + 0x40 * n, 0, 16, .rw, 0⟩
def DMA_PROGRESS (n : Nat) : Field := ⟨0x6418 + 0x40 * n, 0, 32, .ro, 0⟩
def DMA_FAULT_ADDR (n : Nat) : Field := ⟨0x641C + 0x40 * n, 0, 32, .ro, 0⟩
def DMA_WAIT (n : Nat) : Field := ⟨0x6420 + 0x40 * n, 0, 32, .ro, 0⟩
def DMA_DESCS (n : Nat) : Field := ⟨0x6424 + 0x40 * n, 0, 32, .ro, 0⟩
def DMA_FAULTS (n : Nat) : Field := ⟨0x6428 + 0x40 * n, 0, 32, .ro, 0⟩
def DMA_LOCK (n : Nat) : Field := ⟨0x642C + 0x40 * n, 0, 6, .ro, 0⟩
def DMA_LOCK_HELD (n : Nat) : Field := ⟨0x642C + 0x40 * n, 6, 1, .ro, 0⟩

/-! 10_memory_queues_dma.md, block Q -/
def Q_PRODUCERS (n : Nat) : Field := ⟨0x40000 + 0x40 * n, 0, 5, .ro, 0⟩
def Q_CONSUMER (n : Nat) : Field := ⟨0x40000 + 0x40 * n, 5, 1, .ro, 0⟩
def Q_LINK (n : Nat) : Field := ⟨0x40000 + 0x40 * n, 6, 6, .ro, 0⟩
def Q_PARTITION (n : Nat) : Field := ⟨0x40000 + 0x40 * n, 12, 4, .ro, 0⟩
def Q_UNSHEDDABLE (n : Nat) : Field := ⟨0x40000 + 0x40 * n, 16, 1, .ro, 0⟩
def Q_SAC_RANK (n : Nat) : Field := ⟨0x40000 + 0x40 * n, 24, 8, .ro, 0⟩
def Q_MAX_PAGES (n : Nat) : Field := ⟨0x40004 + 0x40 * n, 0, 17, .ro, 0⟩
def Q_CREDIT_PKTS (n : Nat) : Field := ⟨0x40004 + 0x40 * n, 20, 4, .ro, 0⟩
def Q_FLUSH (n : Nat) : Field := ⟨0x40008 + 0x40 * n, 0, 1, .sc, 0⟩
def Q_REPLAY (n : Nat) : Field := ⟨0x40008 + 0x40 * n, 1, 1, .sc, 0⟩
def Q_CNT_CLR (n : Nat) : Field := ⟨0x40008 + 0x40 * n, 2, 1, .sc, 0⟩
def Q_STATE (n : Nat) : Field := ⟨0x4000C + 0x40 * n, 0, 2, .ro, 0⟩
def Q_OVR (n : Nat) : Field := ⟨0x4000C + 0x40 * n, 3, 1, .w1c, 0⟩
def Q_FLUSHED (n : Nat) : Field := ⟨0x4000C + 0x40 * n, 4, 1, .w1c, 0⟩
def Q_SEQERR (n : Nat) : Field := ⟨0x4000C + 0x40 * n, 5, 1, .w1c, 0⟩
def Q_POISON (n : Nat) : Field := ⟨0x4000C + 0x40 * n, 6, 1, .w1c, 0⟩
def Q_WERR (n : Nat) : Field := ⟨0x4000C + 0x40 * n, 7, 1, .w1c, 0⟩
def Q_SAT (n : Nat) : Field := ⟨0x4000C + 0x40 * n, 8, 1, .w1c, 0⟩
def Q_FLUSH_BUSY (n : Nat) : Field := ⟨0x4000C + 0x40 * n, 9, 1, .ro, 0⟩
def Q_PUSH_LEN (n : Nat) : Field := ⟨0x40020 + 0x40 * n, 0, 13, .wo, 0⟩
def Q_PUSH (n : Nat) : Field := ⟨0x40024 + 0x40 * n, 0, 32, .wo, 0⟩
def Q_ACK (n : Nat) : Field := ⟨0x40028 + 0x40 * n, 0, 32, .wo, 0⟩
def Q_ACKED_QSEQ (n : Nat) : Field := ⟨0x40030 + 0x40 * n, 0, 32, .ro, 0⟩
def Q_DISCARDS (n : Nat) : Field := ⟨0x40034 + 0x40 * n, 0, 32, .ro, 0⟩
def Q_REWINDS (n : Nat) : Field := ⟨0x40038 + 0x40 * n, 0, 32, .ro, 0⟩

/-! 11_arbitration.md, block ARB -/
def ARB_WIN_CYC : Field := ⟨0x4000, 0, 16, .ro, 500⟩
def ARB_CNT_CLR : Field := ⟨0x4000, 16, 1, .sc, 0⟩
def ARB_WERR : Field := ⟨0x4004, 0, 1, .w1c, 0⟩
def ARB_SAT : Field := ⟨0x4004, 1, 1, .w1c, 0⟩
def ARB_STARVE : Field := ⟨0x4004, 2, 1, .w1c, 0⟩
def ARB_REFUSED : Field := ⟨0x4004, 3, 1, .w1c, 0⟩
def ARB_STARVE_US : Field := ⟨0x4008, 0, 20, .rw, 50⟩
def ARB_DEADLINE_US : Field := ⟨0x400C, 0, 20, .rw, 1000⟩
def ARB_STARVE_WHO_RES : Field := ⟨0x4010, 0, 5, .ro, 0⟩
def ARB_STARVE_WHO_REQ : Field := ⟨0x4010, 8, 6, .ro, 0⟩
def ARB_STARVE_WHO_VALID : Field := ⟨0x4010, 15, 1, .ro, 0⟩
def ARB_STARVE_COUNT : Field := ⟨0x4014, 0, 32, .ro, 0⟩
def ARB_REFUSE_COUNT : Field := ⟨0x4018, 0, 32, .ro, 0⟩
def ARB_MASK_COUNT : Field := ⟨0x401C, 0, 32, .ro, 0⟩
def ARB_HOST_CPL_DELAYED : Field := ⟨0x4020, 0, 1, .ro, 0⟩
def ARB_HOST_CPL_REFUSED : Field := ⟨0x4020, 1, 1, .ro, 0⟩
def ARB_HOST_CPL_WAIT : Field := ⟨0x4020, 2, 30, .ro, 0⟩
def ARB_RSEL : Field := ⟨0x4040, 0, 5, .rw, 0⟩
def ARB_QSEL : Field := ⟨0x4048, 0, 6, .rw, 0⟩

/-! 12_lanes.md, block LANE -/
def LANE_MODE (n : Nat) : Field := ⟨0x20000 + 0x400 * n, 0, 2, .rw, 1⟩
def LANE_TX_INV (n : Nat) : Field := ⟨0x20000 + 0x400 * n, 2, 1, .rw, 0⟩
def LANE_RX_INV (n : Nat) : Field := ⟨0x20000 + 0x400 * n, 3, 1, .rw, 0⟩
def LANE_AUTO_POL (n : Nat) : Field := ⟨0x20000 + 0x400 * n, 4, 1, .rw, 1⟩
def LANE_LOOPBACK (n : Nat) : Field := ⟨0x20000 + 0x400 * n, 5, 2, .rw, 0⟩
def LANE_MANUAL_ALIGN (n : Nat) : Field := ⟨0x20000 + 0x400 * n, 7, 1, .rw, 0⟩
def LANE_CTLE_MANUAL (n : Nat) : Field := ⟨0x20000 + 0x400 * n, 8, 1, .rw, 0⟩
def LANE_CTLE_PEAK (n : Nat) : Field := ⟨0x20000 + 0x400 * n, 9, 4, .rw, 0⟩
def LANE_CTLE_LF (n : Nat) : Field := ⟨0x20000 + 0x400 * n, 13, 2, .rw, 0⟩
def LANE_TX_SWING (n : Nat) : Field := ⟨0x20000 + 0x400 * n, 16, 4, .rw, 8⟩
def LANE_TX_PRE (n : Nat) : Field := ⟨0x20000 + 0x400 * n, 20, 4, .rw, 0⟩
def LANE_TX_POST (n : Nat) : Field := ⟨0x20000 + 0x400 * n, 24, 5, .rw, 8⟩
def LANE_RETRAIN (n : Nat) : Field := ⟨0x20004 + 0x400 * n, 0, 1, .sc, 0⟩
def LANE_CNT_CLR (n : Nat) : Field := ⟨0x20004 + 0x400 * n, 1, 1, .sc, 0⟩
def LANE_ERR_INJECT (n : Nat) : Field := ⟨0x20004 + 0x400 * n, 2, 1, .sc, 0⟩
def LANE_STATE (n : Nat) : Field := ⟨0x20008 + 0x400 * n, 0, 4, .ro, 0⟩
def LANE_LOS (n : Nat) : Field := ⟨0x20008 + 0x400 * n, 4, 1, .ro, 1⟩
def LANE_CDR_LOCK (n : Nat) : Field := ⟨0x20008 + 0x400 * n, 5, 1, .ro, 0⟩
def LANE_BLOCK_LOCK (n : Nat) : Field := ⟨0x20008 + 0x400 * n, 6, 1, .ro, 0⟩
def LANE_HI_BER (n : Nat) : Field := ⟨0x20008 + 0x400 * n, 7, 1, .ro, 0⟩
def LANE_PARKED (n : Nat) : Field := ⟨0x20008 + 0x400 * n, 8, 1, .ro, 0⟩
def LANE_RX_LP (n : Nat) : Field := ⟨0x20008 + 0x400 * n, 9, 1, .ro, 0⟩
def LANE_PRBS_SYNC (n : Nat) : Field := ⟨0x20008 + 0x400 * n, 10, 1, .ro, 0⟩
def LANE_WERR (n : Nat) : Field := ⟨0x20008 + 0x400 * n, 11, 1, .w1c, 0⟩
def LANE_SAT (n : Nat) : Field := ⟨0x20008 + 0x400 * n, 12, 1, .w1c, 0⟩
def LANE_SEQERR (n : Nat) : Field := ⟨0x20008 + 0x400 * n, 13, 1, .w1c, 0⟩
def LANE_RX_INV_AUTO (n : Nat) : Field := ⟨0x20008 + 0x400 * n, 14, 1, .w1c, 0⟩
def LANE_WIDTH_MISMATCH (n : Nat) : Field := ⟨0x20008 + 0x400 * n, 15, 1, .w1c, 0⟩
def LANE_SKEW_ERR (n : Nat) : Field := ⟨0x20008 + 0x400 * n, 16, 1, .w1c, 0⟩
def LANE_EYE_LOW (n : Nat) : Field := ⟨0x20008 + 0x400 * n, 17, 1, .w1c, 0⟩
def LANE_LP_FAIL (n : Nat) : Field := ⟨0x20008 + 0x400 * n, 18, 1, .w1c, 0⟩
def LANE_SYNC_LOST (n : Nat) : Field := ⟨0x20008 + 0x400 * n, 19, 1, .w1c, 0⟩
def LANE_RX_SLIP (n : Nat) : Field := ⟨0x2000C + 0x400 * n, 0, 7, .rw, 0⟩
def LANE_RX_SH_BAD64 (n : Nat) : Field := ⟨0x2000C + 0x400 * n, 8, 8, .ro, 0⟩
def LANE_RX_SH_RUN (n : Nat) : Field := ⟨0x2000C + 0x400 * n, 16, 16, .ro, 0⟩
def LANE_EYE_WIDTH (n : Nat) : Field := ⟨0x20010 + 0x400 * n, 0, 7, .ro, 0⟩
def LANE_EYE_PEAK_CHOSEN (n : Nat) : Field := ⟨0x20010 + 0x400 * n, 8, 4, .ro, 0⟩
def LANE_EYE_EYE_MIN (n : Nat) : Field := ⟨0x20010 + 0x400 * n, 16, 7, .rw, 16⟩
def LANE_TRAIN_RETRIES (n : Nat) : Field := ⟨0x20014 + 0x400 * n, 0, 8, .rw, 12⟩
def LANE_TRAIN_ATTEMPTS (n : Nat) : Field := ⟨0x20014 + 0x400 * n, 8, 8, .ro, 0⟩
def LANE_TRAIN_TIMEOUT_MS (n : Nat) : Field := ⟨0x20014 + 0x400 * n, 16, 16, .rw, 20⟩
def LANE_LOS_TIME_US (n : Nat) : Field := ⟨0x20018 + 0x400 * n, 0, 8, .rw, 10⟩
def LANE_LP_IDLE_US (n : Nat) : Field := ⟨0x2001C + 0x400 * n, 0, 16, .rw, 100⟩
def LANE_LP_LP_EN (n : Nat) : Field := ⟨0x2001C + 0x400 * n, 16, 1, .rw, 1⟩
def LANE_QCFG_RATE (n : Nat) : Field := ⟨0x20020 + 0x400 * n, 0, 3, .rw, 0⟩
def LANE_LINK_WIDTH (n : Nat) : Field := ⟨0x20024 + 0x400 * n, 0, 2, .rw, 0⟩
def LANE_LINK_POSITION (n : Nat) : Field := ⟨0x20024 + 0x400 * n, 2, 2, .ro, 0⟩
def LANE_LINK_LEAD (n : Nat) : Field := ⟨0x20024 + 0x400 * n, 4, 1, .ro, 1⟩
def LANE_PRBS_PATTERN (n : Nat) : Field := ⟨0x20028 + 0x400 * n, 0, 3, .rw, 0⟩
def LANE_PRBS_GEN_EN (n : Nat) : Field := ⟨0x20028 + 0x400 * n, 3, 1, .rw, 0⟩
def LANE_PRBS_CHK_EN (n : Nat) : Field := ⟨0x20028 + 0x400 * n, 4, 1, .rw, 0⟩
def LANE_PRBS_INV (n : Nat) : Field := ⟨0x20028 + 0x400 * n, 5, 1, .rw, 0⟩
def LANE_PRBS_ERR_LO (n : Nat) : Field := ⟨0x2002C + 0x400 * n, 0, 32, .rs, 0⟩
def LANE_PRBS_ERR_HI (n : Nat) : Field := ⟨0x20030 + 0x400 * n, 0, 16, .rs, 0⟩
def LANE_PRBS_BITS_LO (n : Nat) : Field := ⟨0x20034 + 0x400 * n, 0, 32, .rs, 0⟩
def LANE_PRBS_BITS_HI (n : Nat) : Field := ⟨0x20038 + 0x400 * n, 0, 16, .rs, 0⟩
def LANE_SYNC_ERRS (n : Nat) : Field := ⟨0x2003C + 0x400 * n, 0, 32, .ro, 0⟩
def LANE_BLOCK_ERRS (n : Nat) : Field := ⟨0x20040 + 0x400 * n, 0, 32, .ro, 0⟩
def LANE_LOS_EVENTS (n : Nat) : Field := ⟨0x20044 + 0x400 * n, 0, 32, .ro, 0⟩
def LANE_TRAIN_FAILS (n : Nat) : Field := ⟨0x20048 + 0x400 * n, 0, 32, .ro, 0⟩
def LANE_ETH_DROPS (n : Nat) : Field := ⟨0x2004C + 0x400 * n, 0, 32, .ro, 0⟩
def LANE_ETH_ADDR_LO (n : Nat) : Field := ⟨0x20050 + 0x400 * n, 0, 32, .ro, 0⟩
def LANE_ETH_ADDR_HI (n : Nat) : Field := ⟨0x20054 + 0x400 * n, 0, 16, .ro, 0⟩

/-! 13_kamrel_links.md, block LINK -/
def LINK_ROLE (n : Nat) : Field := ⟨0x20100 + 0x400 * n, 0, 2, .ro, 0⟩
def LINK_ACK_DELAY_US (n : Nat) : Field := ⟨0x20100 + 0x400 * n, 8, 8, .rw, 2⟩
def LINK_REPLAY_US (n : Nat) : Field := ⟨0x20100 + 0x400 * n, 16, 16, .rw, 50⟩
def LINK_CNT_CLR (n : Nat) : Field := ⟨0x20104 + 0x400 * n, 0, 1, .sc, 0⟩
def LINK_UP (n : Nat) : Field := ⟨0x20108 + 0x400 * n, 0, 1, .ro, 0⟩
def LINK_PROTO_ERR (n : Nat) : Field := ⟨0x20108 + 0x400 * n, 1, 1, .w1c, 0⟩
def LINK_CREDIT_ERR (n : Nat) : Field := ⟨0x20108 + 0x400 * n, 2, 1, .w1c, 0⟩
def LINK_REPLAY_LIMIT (n : Nat) : Field := ⟨0x20108 + 0x400 * n, 3, 1, .w1c, 0⟩
def LINK_ROLE_MISMATCH (n : Nat) : Field := ⟨0x20108 + 0x400 * n, 4, 1, .w1c, 0⟩
def LINK_ROUTE_CONFLICT (n : Nat) : Field := ⟨0x20108 + 0x400 * n, 5, 1, .w1c, 0⟩
def LINK_SAT (n : Nat) : Field := ⟨0x20108 + 0x400 * n, 6, 1, .w1c, 0⟩
def LINK_WERR (n : Nat) : Field := ⟨0x20108 + 0x400 * n, 7, 1, .w1c, 0⟩
def LINK_TX_LSEQ (n : Nat) : Field := ⟨0x20110 + 0x400 * n, 0, 32, .ro, 0⟩
def LINK_RX_LSEQ (n : Nat) : Field := ⟨0x20114 + 0x400 * n, 0, 32, .ro, 0⟩
def LINK_PEER_ROUTE_LO (n : Nat) : Field := ⟨0x20118 + 0x400 * n, 0, 32, .ro, 4294967295⟩
def LINK_PEER_ROUTE_HI (n : Nat) : Field := ⟨0x2011C + 0x400 * n, 0, 16, .ro, 65535⟩
def LINK_PEER_DEPTH (n : Nat) : Field := ⟨0x2011C + 0x400 * n, 16, 4, .ro, 0⟩
def LINK_PEER_ROLE (n : Nat) : Field := ⟨0x2011C + 0x400 * n, 20, 2, .ro, 0⟩
def LINK_PEER_HW (n : Nat) : Field := ⟨0x20120 + 0x400 * n, 0, 16, .ro, 0⟩
def LINK_PEER_REV (n : Nat) : Field := ⟨0x20120 + 0x400 * n, 16, 8, .ro, 0⟩
def LINK_PEER_MAC_LO (n : Nat) : Field := ⟨0x20124 + 0x400 * n, 0, 32, .ro, 0⟩
def LINK_PEER_MAC_HI (n : Nat) : Field := ⟨0x20128 + 0x400 * n, 0, 16, .ro, 0⟩

/-! 13_kamrel_links.md, block VC -/
def VC_RXQ (k v : Nat) : Field := ⟨0x20130 + 0x400 * k + 0x10 * v, 0, 8, .ro, 0⟩
def VC_RXQ_VALID (k v : Nat) : Field := ⟨0x20130 + 0x400 * k + 0x10 * v, 8, 1, .ro, 0⟩
def VC_AVAIL_PKTS (k v : Nat) : Field := ⟨0x20130 + 0x400 * k + 0x10 * v, 16, 8, .ro, 0⟩
def VC_AVAIL_WORDS (k v : Nat) : Field := ⟨0x20130 + 0x400 * k + 0x10 * v + 0x4, 0, 32, .ro, 0⟩
def VC_TX_CSEQ (k v : Nat) : Field := ⟨0x20130 + 0x400 * k + 0x10 * v + 0x8, 0, 32, .ro, 0⟩
def VC_TX_CACK (k v : Nat) : Field := ⟨0x20130 + 0x400 * k + 0x10 * v + 0xC, 0, 32, .ro, 0⟩

/-! 13_kamrel_links.md, block LINK -/
def LINK_CRC_ERRS (n : Nat) : Field := ⟨0x20170 + 0x400 * n, 0, 32, .ro, 0⟩
def LINK_CNT_PROTO_ERRS (n : Nat) : Field := ⟨0x20174 + 0x400 * n, 0, 32, .ro, 0⟩
def LINK_REPLAYS (n : Nat) : Field := ⟨0x20178 + 0x400 * n, 0, 32, .ro, 0⟩
def LINK_RX_DUPS (n : Nat) : Field := ⟨0x2017C + 0x400 * n, 0, 32, .ro, 0⟩
def LINK_DUPS (n : Nat) : Field := ⟨0x20180 + 0x400 * n, 0, 32, .ro, 0⟩
def LINK_PAIR_DROPS (n : Nat) : Field := ⟨0x20184 + 0x400 * n, 0, 32, .ro, 0⟩
def LINK_DEDUP_EVICT (n : Nat) : Field := ⟨0x20188 + 0x400 * n, 0, 32, .ro, 0⟩
def LINK_RST_REFUSED (n : Nat) : Field := ⟨0x2018C + 0x400 * n, 0, 32, .ro, 0⟩
def LINK_RACC_DEST_LO (n : Nat) : Field := ⟨0x201A0 + 0x400 * n, 0, 32, .rw, 0⟩
def LINK_RACC_DEST_HI (n : Nat) : Field := ⟨0x201A4 + 0x400 * n, 0, 16, .rw, 0⟩
def LINK_RACC_WRITE (n : Nat) : Field := ⟨0x201A4 + 0x400 * n, 16, 1, .rw, 0⟩
def LINK_RACC_GO (n : Nat) : Field := ⟨0x201A4 + 0x400 * n, 17, 1, .sc, 0⟩
def LINK_RACC_ADDR (n : Nat) : Field := ⟨0x201A8 + 0x400 * n, 0, 32, .rw, 0⟩
def LINK_RACC_DATA (n : Nat) : Field := ⟨0x201AC + 0x400 * n, 0, 32, .rw, 0⟩
def LINK_RACC_BUSY (n : Nat) : Field := ⟨0x201B0 + 0x400 * n, 0, 1, .ro, 0⟩
def LINK_RACC_DONE (n : Nat) : Field := ⟨0x201B0 + 0x400 * n, 1, 1, .w1c, 0⟩
def LINK_RACC_STATUS (n : Nat) : Field := ⟨0x201B0 + 0x400 * n, 2, 3, .ro, 0⟩
def LINK_RACC_TIMEOUT_MS (n : Nat) : Field := ⟨0x201B4 + 0x400 * n, 0, 16, .rw, 10⟩

/-! 14_duplex_pairs.md, block DUP -/
def DUP_SWAP : Field := ⟨0xA000, 0, 1, .sc, 0⟩
def DUP_SWAP_CANCEL : Field := ⟨0xA000, 1, 1, .sc, 0⟩
def DUP_CLEAR_SUSPECT : Field := ⟨0xA000, 2, 1, .sc, 0⟩
def DUP_CNT_CLR : Field := ⟨0xA000, 3, 1, .sc, 0⟩
def DUP_PSTATE : Field := ⟨0xA004, 0, 3, .ro, 0⟩
def DUP_ROLE : Field := ⟨0xA004, 3, 1, .ro, 0⟩
def DUP_SUSPECT : Field := ⟨0xA004, 4, 1, .ro, 0⟩
def DUP_PARTNER_SUSPECT : Field := ⟨0xA004, 5, 1, .ro, 0⟩
def DUP_DIVERGE : Field := ⟨0xA004, 6, 1, .w1c, 0⟩
def DUP_TOOK_OVER : Field := ⟨0xA004, 7, 1, .w1c, 0⟩
def DUP_LINK_LOST : Field := ⟨0xA004, 8, 1, .ro, 0⟩
def DUP_SYNC_LOST : Field := ⟨0xA004, 9, 1, .ro, 0⟩
def DUP_SWAP_PENDING : Field := ⟨0xA004, 10, 1, .ro, 0⟩
def DUP_WERR : Field := ⟨0xA004, 11, 1, .w1c, 0⟩
def DUP_SAT : Field := ⟨0xA004, 12, 1, .w1c, 0⟩
def DUP_RPT_NEW : Field := ⟨0xA004, 13, 1, .w1c, 0⟩
def DUP_RPT_OVR : Field := ⟨0xA004, 14, 1, .w1c, 0⟩
def DUP_POLICY : Field := ⟨0xA008, 0, 1, .ro, 0⟩
def DUP_LINK : Field := ⟨0xA008, 1, 6, .ro, 0⟩
def DUP_ROLE_CFG : Field := ⟨0xA008, 7, 1, .ro, 0⟩
def DUP_TIMEOUT_US : Field := ⟨0xA00C, 0, 11, .rw, 1000⟩
def DUP_XTOL : Field := ⟨0xA010, 0, 24, .rw, 4096⟩
def DUP_TTOL : Field := ⟨0xA014, 0, 16, .rw, 50⟩
def DUP_SYNC_DLY : Field := ⟨0xA018, 0, 16, .rw, 0⟩
def DUP_TDIFF : Field := ⟨0xA01C, 0, 32, .ro, 0⟩
def DUP_CNT_DIVERGE_COUNT : Field := ⟨0xA020, 0, 32, .ro, 0⟩
def DUP_CNT_DIGEST_MISSING : Field := ⟨0xA024, 0, 32, .ro, 0⟩
def DUP_CNT_TAKEOVERS : Field := ⟨0xA028, 0, 32, .ro, 0⟩
def DUP_CNT_XCHECK_COUNT : Field := ⟨0xA02C, 0, 32, .ro, 0⟩
def DUP_CNT_RPT_FAIL : Field := ⟨0xA030, 0, 32, .ro, 0⟩
def DUP_FIRST_KIND : Field := ⟨0xA040, 0, 8, .ro, 0⟩
def DUP_FIRST_ID : Field := ⟨0xA040, 8, 8, .ro, 0⟩
def DUP_FIRST_VALID : Field := ⟨0xA040, 16, 1, .ro, 0⟩
def DUP_FIRST_WINDOW_LO : Field := ⟨0xA044, 0, 32, .ro, 0⟩
def DUP_FIRST_WINDOW_HI : Field := ⟨0xA048, 0, 32, .ro, 0⟩
def DUP_SWAP_NS : Field := ⟨0xA050, 0, 30, .rw, 0⟩
def DUP_SWAP_SEC_LO : Field := ⟨0xA054, 0, 32, .rw, 0⟩
def DUP_SWAP_SEC_HI : Field := ⟨0xA058, 0, 16, .rw, 0⟩
def DUP_PARTNER_LO : Field := ⟨0xA060, 0, 32, .ro, 4294967295⟩
def DUP_PARTNER_HI : Field := ⟨0xA064, 0, 16, .ro, 65535⟩
def DUP_RPT_SRC_LO : Field := ⟨0xA070, 0, 32, .ro, 0⟩
def DUP_RPT_SRC_HI : Field := ⟨0xA074, 0, 16, .ro, 0⟩
def DUP_RPT_WORD : Field := ⟨0xA078, 0, 32, .ro, 0⟩
def DUP_RPT_ADDR : Field := ⟨0xA07C, 0, 32, .ro, 0⟩

/-! 15_armature.md, block ARM -/
def ARM_LOAD_START : Field := ⟨0x7000, 0, 1, .sc, 0⟩
def ARM_COPY : Field := ⟨0x7000, 1, 1, .sc, 0⟩
def ARM_DISCARD : Field := ⟨0x7000, 2, 1, .sc, 0⟩
def ARM_COMMIT : Field := ⟨0x7000, 3, 1, .sc, 0⟩
def ARM_COMMIT_AT_EN : Field := ⟨0x7000, 4, 1, .rw, 0⟩
def ARM_CANCEL_COMMIT : Field := ⟨0x7000, 5, 1, .sc, 0⟩
def ARM_WITHDRAW : Field := ⟨0x7000, 6, 1, .sc, 0⟩
def ARM_WITHDRAW_AT_EN : Field := ⟨0x7000, 7, 1, .rw, 0⟩
def ARM_CANCEL_WITHDRAW : Field := ⟨0x7000, 8, 1, .sc, 0⟩
def ARM_CNT_CLR : Field := ⟨0x7000, 9, 1, .sc, 0⟩
def ARM_STAT_STATE : Field := ⟨0x7004, 0, 3, .ro, 0⟩
def ARM_STAT_SIGNED : Field := ⟨0x7004, 3, 1, .ro, 0⟩
def ARM_STAT_COMMIT_PENDING : Field := ⟨0x7004, 4, 1, .ro, 0⟩
def ARM_STAT_WITHDRAW_PENDING : Field := ⟨0x7004, 5, 1, .ro, 0⟩
def ARM_STAT_DRAINING : Field := ⟨0x7004, 6, 1, .ro, 0⟩
def ARM_STAT_COMMITTED : Field := ⟨0x7004, 7, 1, .w1c, 0⟩
def ARM_STAT_COMMIT_REFUSED : Field := ⟨0x7004, 8, 1, .w1c, 0⟩
def ARM_STAT_COMMIT_MISSED : Field := ⟨0x7004, 9, 1, .w1c, 0⟩
def ARM_STAT_WITHDRAWN : Field := ⟨0x7004, 10, 1, .w1c, 0⟩
def ARM_STAT_WERR : Field := ⟨0x7004, 11, 1, .w1c, 0⟩
def ARM_STAT_SAT : Field := ⟨0x7004, 12, 1, .w1c, 0⟩
def ARM_STAT_REASON : Field := ⟨0x7004, 16, 4, .ro, 0⟩
def ARM_STAT_ERR : Field := ⟨0x7004, 24, 8, .ro, 0⟩
def ARM_ERR_OFS : Field := ⟨0x7008, 0, 19, .ro, 0⟩
def ARM_ERR_TYPE : Field := ⟨0x700C, 0, 8, .ro, 0⟩
def ARM_ERR_INST : Field := ⟨0x700C, 8, 16, .ro, 0⟩
def ARM_LOAD_OFS : Field := ⟨0x7010, 0, 19, .ro, 0⟩
def ARM_LOAD_DATA : Field := ⟨0x7014, 0, 32, .wo, 0⟩
def ARM_SRC_ADDR : Field := ⟨0x7018, 0, 28, .rw, 0⟩
def ARM_TOTAL_LEN : Field := ⟨0x701C, 0, 19, .ro, 0⟩
def ARM_COMMIT_NS : Field := ⟨0x7020, 0, 30, .rw, 0⟩
def ARM_COMMIT_SEC_LO : Field := ⟨0x7024, 0, 32, .rw, 0⟩
def ARM_COMMIT_SEC_HI : Field := ⟨0x7028, 0, 16, .rw, 0⟩
def ARM_WITHDRAW_NS : Field := ⟨0x7030, 0, 30, .rw, 0⟩
def ARM_WITHDRAW_SEC_LO : Field := ⟨0x7034, 0, 32, .rw, 0⟩
def ARM_WITHDRAW_SEC_HI : Field := ⟨0x7038, 0, 16, .rw, 0⟩
def ARM_DRAIN_MS : Field := ⟨0x703C, 0, 24, .rw, 1000⟩
def ARM_ID_MAQ : Field := ⟨0x7040, 0, 32, .ro, 0⟩
def ARM_ID_COMMITTED : Field := ⟨0x7044, 0, 32, .ro, 0⟩
def ARM_CT_NS : Field := ⟨0x7048, 0, 30, .ro, 0⟩
def ARM_CT_SEC_LO : Field := ⟨0x704C, 0, 32, .ro, 0⟩
def ARM_CT_SEC_HI : Field := ⟨0x7050, 0, 16, .ro, 0⟩
def ARM_COMMIT_SLOT : Field := ⟨0x7054, 0, 3, .ro, 0⟩
def ARM_COMMIT_SLOT_VALID : Field := ⟨0x7054, 3, 1, .ro, 0⟩
def ARM_WD_SLOT : Field := ⟨0x7054, 4, 3, .ro, 0⟩
def ARM_WD_SLOT_VALID : Field := ⟨0x7054, 7, 1, .ro, 0⟩
def ARM_KEY_ID : Field := ⟨0x7058, 0, 1, .ro, 0⟩
def ARM_COMMITS : Field := ⟨0x705C, 0, 32, .ro, 0⟩
def ARM_FAILS : Field := ⟨0x7060, 0, 32, .ro, 0⟩

/-! 16_casts_and_life_cycle.md, block UPD -/
def UPD_START : Field := ⟨0x8000, 0, 1, .sc, 0⟩
def UPD_COPY : Field := ⟨0x8000, 1, 1, .sc, 0⟩
def UPD_ABORT : Field := ⟨0x8000, 2, 1, .sc, 0⟩
def UPD_SCHEDULE : Field := ⟨0x8000, 3, 1, .sc, 0⟩
def UPD_CANCEL : Field := ⟨0x8000, 4, 1, .sc, 0⟩
def UPD_CONFIRM : Field := ⟨0x8000, 5, 1, .sc, 0⟩
def UPD_REVERT : Field := ⟨0x8000, 6, 1, .sc, 0⟩
def UPD_STAGE_PREV : Field := ⟨0x8000, 7, 1, .sc, 0⟩
def UPD_CNT_CLR : Field := ⟨0x8000, 8, 1, .sc, 0⟩
def UPD_STAT_STATE : Field := ⟨0x8004, 0, 3, .ro, 0⟩
def UPD_STAT_FORMAT : Field := ⟨0x8004, 3, 2, .ro, 0⟩
def UPD_STAT_RUN_SLOT : Field := ⟨0x8004, 5, 1, .ro, 0⟩
def UPD_STAT_PREV_VALID : Field := ⟨0x8004, 6, 1, .ro, 0⟩
def UPD_STAT_SETTINGS_UNREADABLE : Field := ⟨0x8004, 7, 1, .ro, 0⟩
def UPD_STAT_UPDATING : Field := ⟨0x8004, 8, 1, .ro, 0⟩
def UPD_STAT_WERR : Field := ⟨0x8004, 9, 1, .w1c, 0⟩
def UPD_STAT_OVR : Field := ⟨0x8004, 10, 1, .w1c, 0⟩
def UPD_STAT_BLOCK_RETRY : Field := ⟨0x8004, 11, 1, .w1c, 0⟩
def UPD_STAT_FELL_BACK : Field := ⟨0x8004, 12, 1, .w1c, 0⟩
def UPD_STAT_CONFIRMED : Field := ⟨0x8004, 13, 1, .w1c, 0⟩
def UPD_STAT_ACT_REFUSED : Field := ⟨0x8004, 14, 1, .w1c, 0⟩
def UPD_STAT_SAT : Field := ⟨0x8004, 15, 1, .w1c, 0⟩
def UPD_STAT_REFUSE : Field := ⟨0x8004, 16, 4, .ro, 0⟩
def UPD_STAT_ERR : Field := ⟨0x8004, 24, 8, .ro, 0⟩
def UPD_LOAD_OFS : Field := ⟨0x8008, 0, 23, .ro, 0⟩
def UPD_DATA : Field := ⟨0x800C, 0, 32, .wo, 0⟩
def UPD_SRC_ADDR : Field := ⟨0x8010, 0, 28, .rw, 0⟩
def UPD_ROOM : Field := ⟨0x8014, 0, 19, .ro, 262144⟩
def UPD_ACT_NS : Field := ⟨0x8020, 0, 30, .rw, 0⟩
def UPD_ACT_SEC_LO : Field := ⟨0x8024, 0, 32, .rw, 0⟩
def UPD_ACT_SEC_HI : Field := ⟨0x8028, 0, 16, .rw, 0⟩
def UPD_PROBATION : Field := ⟨0x802C, 0, 12, .rw, 600⟩
def UPD_EXPECT : Field := ⟨0x8034, 0, 10, .ro, 0⟩
def UPD_BLOCK_COUNT : Field := ⟨0x8034, 16, 10, .ro, 0⟩
def UPD_RUN_VERSION : Field := ⟨0x8038, 0, 32, .ro, 0⟩
def UPD_STAGED_VERSION : Field := ⟨0x803C, 0, 32, .ro, 0⟩
def UPD_PREV_VERSION : Field := ⟨0x8040, 0, 32, .ro, 0⟩
def UPD_OBS_LOCK : Field := ⟨0x8044, 0, 1, .rw, 0⟩
def UPD_HOLDUP_MIN : Field := ⟨0x8048, 0, 16, .rw, 39322⟩
def UPD_UPDATES : Field := ⟨0x804C, 0, 32, .ro, 0⟩
def UPD_FALLBACKS : Field := ⟨0x8050, 0, 32, .ro, 0⟩
def UPD_FAILS : Field := ⟨0x8054, 0, 32, .ro, 0⟩
def UPD_SET_ADDR : Field := ⟨0x8060, 0, 15, .rw, 0⟩
def UPD_SETC_WRITE : Field := ⟨0x8068, 0, 1, .sc, 0⟩
def UPD_SETC_LOAD : Field := ⟨0x8068, 1, 1, .sc, 0⟩
def UPD_SETC_DONE : Field := ⟨0x8068, 2, 1, .w1c, 0⟩
def UPD_SETC_WRITE_REFUSED : Field := ⟨0x8068, 3, 1, .w1c, 0⟩
def UPD_SETC_SLOT : Field := ⟨0x8068, 4, 1, .ro, 0⟩
def UPD_SETC_SLOT_VALID : Field := ⟨0x8068, 5, 1, .ro, 0⟩
def UPD_SETC_BUSY : Field := ⟨0x8068, 6, 1, .ro, 0⟩
def UPD_SET_SEQ : Field := ⟨0x806C, 0, 32, .ro, 0⟩

/-! 16_casts_and_life_cycle.md, block LC -/
def LC_RECOVERY_CAUSE : Field := ⟨0x8800, 3, 3, .ro, 0⟩
def LC_ARMED : Field := ⟨0x8800, 6, 1, .ro, 0⟩
def LC_REFUSED : Field := ⟨0x8800, 7, 1, .w1c, 0⟩
def LC_REASON : Field := ⟨0x8800, 8, 4, .ro, 0⟩
def LC_TARGET : Field := ⟨0x8804, 0, 3, .rw, 0⟩
def LC_GO : Field := ⟨0x8804, 3, 1, .sc, 0⟩
def LC_ARM : Field := ⟨0x8808, 0, 32, .wo, 0⟩
def LC_FACTORY_WRITE : Field := ⟨0x880C, 0, 1, .sc, 0⟩
def LC_FACTORY_DONE : Field := ⟨0x880C, 1, 1, .w1c, 0⟩
def LC_FACTORY_FACTORY_REFUSED : Field := ⟨0x880C, 2, 1, .w1c, 0⟩

/-! 17_power_clocks_reset.md, block PWR -/
def PWR_WAKE : Field := ⟨0x9000, 0, 1, .sc, 0⟩
def PWR_CNT_CLR : Field := ⟨0x9000, 1, 1, .sc, 0⟩
def PWR_READY : Field := ⟨0x9004, 0, 1, .ro, 0⟩
def PWR_PWR_GOOD : Field := ⟨0x9004, 1, 1, .ro, 0⟩
def PWR_HOLDUP_LOW : Field := ⟨0x9004, 2, 1, .ro, 0⟩
def PWR_WERR : Field := ⟨0x9004, 3, 1, .w1c, 0⟩
def PWR_SAT : Field := ⟨0x9004, 4, 1, .w1c, 0⟩
def PWR_WAKE_TIMER_EN : Field := ⟨0x9008, 0, 1, .rw, 0⟩
def PWR_WAKE_PIN_EN : Field := ⟨0x9008, 1, 4, .rw, 0⟩
def PWR_WAKE_PIN_EDGE : Field := ⟨0x9008, 5, 8, .rw, 0⟩
def PWR_WAKE_HOST_EN : Field := ⟨0x9008, 13, 1, .rw, 1⟩
def PWR_WAKE_LANES_LO : Field := ⟨0x900C, 0, 32, .rw, 0⟩
def PWR_WAKE_LANES_HI : Field := ⟨0x9010, 0, 32, .rw, 0⟩
def PWR_WAKE_AT_TICK : Field := ⟨0x9014, 0, 15, .rw, 0⟩
def PWR_WAKE_AT_SEC_LO : Field := ⟨0x9018, 0, 32, .rw, 0⟩
def PWR_WAKE_AT_SEC_HI : Field := ⟨0x901C, 0, 16, .rw, 0⟩
def PWR_WAKE_SRC : Field := ⟨0x9020, 0, 3, .ro, 0⟩
def PWR_WAKE_WHERE : Field := ⟨0x9020, 4, 6, .ro, 0⟩
def PWR_WAKE_ABORTED_ENTRY : Field := ⟨0x9020, 16, 1, .w1c, 0⟩
def PWR_WAKES : Field := ⟨0x9024, 0, 32, .ro, 0⟩

/-! 17_power_clocks_reset.md, block CLK -/
def CLK_SYS_LOCK : Field := ⟨0x9100, 0, 1, .ro, 0⟩
def CLK_MOD_LOCK : Field := ⟨0x9100, 1, 1, .ro, 0⟩
def CLK_XTAL_OK : Field := ⟨0x9100, 2, 1, .ro, 0⟩
def CLK_XTAL_FAIL : Field := ⟨0x9100, 3, 1, .w1c, 0⟩
def CLK_PLL_FAIL : Field := ⟨0x9100, 4, 1, .w1c, 0⟩
def CLK_QUAD_LOCK : Field := ⟨0x9100, 5, 16, .ro, 0⟩
def CLK_WERR : Field := ⟨0x9100, 21, 1, .w1c, 0⟩
def CLK_MARGIN_US : Field := ⟨0x9104, 0, 16, .rw, 20⟩
def CLK_BANK_ON : Field := ⟨0x9108, 0, 12, .ro, 0⟩
def CLK_CARVER_ON : Field := ⟨0x9108, 12, 16, .ro, 0⟩
def CLK_CMP_ON : Field := ⟨0x9108, 28, 1, .ro, 0⟩
def CLK_DRAM_ACTIVE : Field := ⟨0x9108, 29, 1, .ro, 0⟩
def CLK_LANE_RUN_LO : Field := ⟨0x910C, 0, 32, .ro, 0⟩
def CLK_LANE_RUN_HI : Field := ⟨0x9110, 0, 32, .ro, 0⟩

/-! 17_power_clocks_reset.md, block RST -/
def RST_SW : Field := ⟨0x9200, 0, 1, .sc, 0⟩
def RST_PARTNER : Field := ⟨0x9200, 1, 1, .sc, 0⟩
def RST_CNT_CLR : Field := ⟨0x9200, 2, 1, .sc, 0⟩
def RST_KEY : Field := ⟨0x9204, 0, 32, .wo, 0⟩
def RST_LAST : Field := ⟨0x9208, 0, 4, .ro, 1⟩
def RST_ALL : Field := ⟨0x9208, 4, 10, .w1c, 1⟩
def RST_COUNT : Field := ⟨0x920C, 0, 32, .ro, 0⟩
def RST_WDT_EN : Field := ⟨0x9210, 0, 1, .rw, 0⟩
def RST_WDT_WARN : Field := ⟨0x9210, 1, 1, .w1c, 0⟩
def RST_WDT_PERIOD_MS : Field := ⟨0x9210, 16, 16, .rw, 1000⟩
def RST_WDT_KICK : Field := ⟨0x9214, 0, 32, .wo, 0⟩
def RST_WERR : Field := ⟨0x921C, 0, 1, .w1c, 0⟩
def RST_SAT : Field := ⟨0x921C, 1, 1, .w1c, 0⟩

/-! 17_power_clocks_reset.md, block LOG -/
def LOG_IRQ_SEV : Field := ⟨0x9300, 0, 2, .rw, 2⟩
def LOG_NEW : Field := ⟨0x9304, 10, 1, .w1c, 0⟩
def LOG_GONE : Field := ⟨0x9304, 11, 1, .w1c, 0⟩
def LOG_SAT : Field := ⟨0x9304, 12, 1, .ro, 0⟩
def LOG_WERR : Field := ⟨0x9304, 13, 1, .w1c, 0⟩
def LOG_OVERWRITES : Field := ⟨0x9310, 0, 16, .ro, 0⟩
def LOG_SEQ : Field := ⟨0x9314, 0, 32, .rw, 0⟩

/-! 18_register_map.md, block DEV -/
def DEV_ID_HW_TYPE : Field := ⟨0x0, 0, 16, .ro, 12690⟩
def DEV_MODE_MODE : Field := ⟨0x4, 0, 3, .ro, 1⟩
def DEV_MODE_CMD : Field := ⟨0x4, 4, 3, .rw, 1⟩
def DEV_MODE_GO : Field := ⟨0x4, 7, 1, .sc, 0⟩
def DEV_MODE_MODE_BUSY : Field := ⟨0x4, 8, 1, .w1c, 0⟩
def DEV_MODE_REFUSED : Field := ⟨0x4, 9, 1, .w1c, 0⟩
def DEV_MODE_REFUSE : Field := ⟨0x4, 10, 4, .ro, 0⟩
def DEV_MODE_IN_TRANSITION : Field := ⟨0x4, 14, 1, .ro, 0⟩
def DEV_ROUTE_LO : Field := ⟨0x8, 0, 32, .rw, 4294967295⟩
def DEV_ROUTE_ROUTE_HI : Field := ⟨0xC, 0, 16, .rw, 65535⟩
def DEV_ROUTE_DEPTH : Field := ⟨0xC, 16, 4, .ro, 0⟩
def DEV_ROUTE_ASSIGNED : Field := ⟨0xC, 20, 1, .ro, 0⟩
def DEV_ROUTE_SET : Field := ⟨0xC, 21, 1, .sc, 0⟩
def DEV_ROUTE_WERR : Field := ⟨0xC, 22, 1, .w1c, 0⟩
def DEV_SCRATCH : Field := ⟨0x10, 0, 32, .rw, 0⟩
def DEV_SPI_CMD_ERR : Field := ⟨0x14, 0, 1, .w1c, 0⟩
def DEV_SPI_RD_TIMEOUT : Field := ⟨0x14, 1, 1, .w1c, 0⟩
def DEV_SPI_SHORT : Field := ⟨0x14, 2, 1, .w1c, 0⟩
def DEV_SPI_WDROP : Field := ⟨0x14, 3, 1, .w1c, 0⟩
def DEV_IRQ_RESET : Field := ⟨0x20, 0, 1, .w1c, 0⟩
def DEV_IRQ_ARM : Field := ⟨0x20, 1, 1, .w1c, 0⟩
def DEV_IRQ_ARB : Field := ⟨0x20, 4, 1, .w1c, 0⟩
def DEV_IRQ_DUPLEX : Field := ⟨0x20, 6, 1, .w1c, 0⟩
def DEV_IRQ_LOG : Field := ⟨0x20, 7, 1, .w1c, 0⟩
def DEV_IRQ_CLOCK : Field := ⟨0x20, 8, 1, .w1c, 0⟩
def DEV_IRQ_MODE : Field := ⟨0x20, 9, 1, .w1c, 0⟩
def DEV_IRQ_EN : Field := ⟨0x24, 0, 10, .rw, 1⟩
def DEV_PEND_ENG : Field := ⟨0x28, 0, 16, .w1c, 0⟩
def DEV_PEND_DMA : Field := ⟨0x2C, 0, 32, .w1c, 0⟩
def DEV_PEND_LANE_LO : Field := ⟨0x30, 0, 32, .w1c, 0⟩
def DEV_PEND_LANE_HI : Field := ⟨0x34, 0, 32, .w1c, 0⟩

/-! 04_conversion_and_calibration.md, block HK -/
def HK_CJ_IEN : Field := ⟨0x2030, 0, 4, .rw, 0⟩

/-! 04_conversion_and_calibration.md, block LEADSEL -/
def LEADSEL_CH (n : Nat) : Field := ⟨0x2040 + 0x4 * n, 0, 4, .rw, 0⟩
def LEADSEL_LEAD (n : Nat) : Field := ⟨0x2040 + 0x4 * n, 4, 2, .rw, 0⟩

/-! 04_conversion_and_calibration.md, block TEMPLAST -/
def TEMPLAST_CODE (n : Nat) : Field := ⟨0x2080 + 0x4 * n, 0, 16, .ro, 0⟩

/-! 06_linearisation.md, block SEG -/
def SEG_X_LO (u i : Nat) : Field := ⟨0xD410 + 0x180 * u + 0x14 * i, 0, 32, .ro, 0⟩
def SEG_C0 (u i : Nat) : Field := ⟨0xD410 + 0x180 * u + 0x14 * i + 0x4, 0, 32, .ro, 0⟩
def SEG_C1 (u i : Nat) : Field := ⟨0xD410 + 0x180 * u + 0x14 * i + 0x8, 0, 32, .ro, 0⟩
def SEG_C2 (u i : Nat) : Field := ⟨0xD410 + 0x180 * u + 0x14 * i + 0xC, 0, 32, .ro, 0⟩
def SEG_C3 (u i : Nat) : Field := ⟨0xD410 + 0x180 * u + 0x14 * i + 0x10, 0, 32, .ro, 0⟩

/-! 08_reduction_and_relief.md, block MBIN -/
def MBIN_WORD (e i : Nat) : Field := ⟨0x30084 + 0x1000 * e + 4 * i, 0, 32, .rw, 0⟩

/-! 08_reduction_and_relief.md, block MBOUT -/
def MBOUT_WORD (e i : Nat) : Field := ⟨0x300A4 + 0x1000 * e + 4 * i, 0, 32, .ro, 0⟩

/-! 08_reduction_and_relief.md, block LOCK -/
def LOCK_STAT_HELD (n : Nat) : Field := ⟨0x4804 + 0x8 * n, 0, 1, .ro, 0⟩
def LOCK_STAT_BROKEN (n : Nat) : Field := ⟨0x4804 + 0x8 * n, 1, 1, .ro, 0⟩
def LOCK_STAT_OWNER (n : Nat) : Field := ⟨0x4804 + 0x8 * n, 2, 6, .ro, 0⟩
def LOCK_STAT_LAST_OWNER (n : Nat) : Field := ⟨0x4804 + 0x8 * n, 8, 6, .ro, 0⟩
def LOCK_STAT_RELEASE (n : Nat) : Field := ⟨0x4804 + 0x8 * n, 16, 1, .sc, 0⟩
def LOCK_STAT_BREAK (n : Nat) : Field := ⟨0x4804 + 0x8 * n, 17, 1, .sc, 0⟩
def LOCK_STAT_WERR (n : Nat) : Field := ⟨0x4804 + 0x8 * n, 18, 1, .w1c, 0⟩

/-- One block of the address plan (R431): base, stride, number of instances, and the fields of instance 0. -/
structure RegBlock where
  base : Nat
  stride : Nat
  count : Nat
  fields : List Field

def blkTIME0 : List Field := [TIME_CTL_SRC, TIME_CTL_AUTO_SW, TIME_CTL_ADJ_GO, TIME_CTL_ADJ_MODE, TIME_CTL_SLEW_ABORT, TIME_CTL_HOLDOVER_FORCE, TIME_STAT_QUALITY, TIME_STAT_SRC_ACTIVE, TIME_STAT_STEP_REFUSED, TIME_STAT_SCHED_MISSED, TIME_STAT_SEQERR, TIME_STAT_DOM0_VALID, TIME_STAT_DOM1_VALID, TIME_STAT_AUTO_SWITCHED, TIME_STAT_ADJ_RANGE, TIME_INCR_ADJ, TIME_SLEW_RATE, TIME_ADJ_FRAC, TIME_ADJ_NS, TIME_ADJ_SEC_LO, TIME_ADJ_SEC_HI, TIME_ADJ_SIGN, TIME_LOCK_THRESH, TIME_LOCK_COUNT]
def blkTIME1 : List Field := [TIME_PPS_CFG_WIDTH_MS, TIME_PPS_CFG_PPS_OUT_EN, TIME_PPS_CFG_PPS_IN_EN, TIME_PPS_CFG_PPS_IN_EDGE, TIME_PPS_STAT_PPS_IN_SEEN, TIME_PPS_STAT_OVR, TIME_PPS_STAT_SEQERR, TIME_PPS_STAT_TOD_APPLIED, TIME_PPS_STAT_TOD_MISSED, TIME_PPS_STAT_PPS_IN_LOST, TIME_TOD_SEC_LO, TIME_TOD_SEC_HI, TIME_ARM]
def blkDOM0 : List Field := [DOM_DOMAIN_NUMBER 0, DOM_SDO_ID 0, DOM_TRANSPORT 0, DOM_DELAY_MECH 0, DOM_ENABLE 0, DOM_SLAVE_LANE 0, DOM_PORT_STATE 0, DOM_ANNOUNCE_TIMEOUT 0, DOM_OVR 0, DOM_SEQERR 0, DOM_STEPS_REMOVED 0, DOM_OFFSET_LO 0, DOM_OFFSET_HI 0, DOM_DELAY 0, DOM_RATE 0]
def blkTOUT0 : List Field := [TOUT_MODE 0, TOUT_POLARITY 0, TOUT_ARM 0, TOUT_DISARM 0, TOUT_GRID 0, TOUT_WIDTH 0, TOUT_START_NS 0, TOUT_START_SEC_LO 0, TOUT_START_SEC_HI 0, TOUT_PERIOD_SEC 0, TOUT_PERIOD_NS 0, TOUT_PERIOD_FRAC 0, TOUT_ARMED 0, TOUT_MISSED 0, TOUT_WERR 0, TOUT_GRID_IDLE 0]
def blkEVT0 : List Field := [EVT_EDGE 0, EVT_FILTER 0, EVT_LEVEL 0, EVT_OVR 0, EVT_SEQERR 0, EVT_STEPPED 0, EVT_RISING 0, EVT_SAT 0, EVT_LOST_CLR 0, EVT_LOST 0]
def blkSCHED0 : List Field := [SCHED_OWNER 0, SCHED_STATE 0, SCHED_CANCEL 0]
def blkPORTDLY0 : List Field := [PORTDLY_TX_EXT 0, PORTDLY_RX_EXT 0, PORTDLY_ASYM 0]
def blkGRID0 : List Field := [GRID_EPOCH_LO 0, GRID_EPOCH_HI 0, GRID_RATE_P 0, GRID_RATE_Q 0, GRID_STATE 0, GRID_OVR 0, GRID_SEQERR 0, GRID_RESUME_LO 0, GRID_RESUME_HI 0, GRID_STOP_LO 0, GRID_STOP_HI 0]
def blkEXC0 : List Field := [EXC_CTL_AUTO_RESTORE, EXC_CTL_FOLD_RETRY, EXC_BUDGET_MW, EXC_STATIC_UW, EXC_MEAS_UW, EXC_WINDOW_US, EXC_DWELL_US, EXC_OPEN_US, EXC_STAT_WERR, EXC_STAT_SHED_ACTIVE, EXC_STAT_FAST_TRIP, EXC_STAT_SAT, EXC_STAT_SHED_CLR, EXC_SHED_COUNT]
def blkBANK0 : List Field := [BANK_ENABLED 0, BANK_CLK_ON 0, BANK_MEAS_UW 0, BANK_SHED_MASK 0]
def blkCH0 : List Field := [CH_CFG_KIND 0, CH_CFG_WIRING 0, CH_CFG_SNS_ROLE 0, CH_CFG_MUX 0, CH_CFG_AUTORANGE 0, CH_CFG_RANGE_MIN 0, CH_CFG_RANGE_MAX 0, CH_CFG_OPEN_I 0, CH_CFG_OPEN_DIR 0, CH_CFG_MUX_SETTLE 0, CH_RANGE_RANGE 0, CH_RANGE_RANGE_NOW 0, CH_EXC_MODE 0, CH_EXC_PRIORITY 0, CH_EXC_APPLY 0, CH_EXC_RESTORE 0, CH_EXC_LEVEL 0, CH_EXC_LOAD_OHM 0, CH_EXC_STATIC_UW 0, CH_EXC_MEAS_UW 0, CH_EXCS_EXCF 0, CH_EXCS_REASON 0, CH_EXCS_FOLDED 0, CH_EXCS_OPEN 0]
def blkCH1 : List Field := [CH_EXCS_COMPLIANCE 0, CH_EXCS_WERR 0, CH_EXCS_RESTORE_REFUSED 0, CH_EXCS_SAT 0, CH_EXCS_CNT_CLR 0, CH_RANGE_STEPS 0, CH_FOLD_COUNT 0, CH_SETTLE_EXTRA 0, CH_CHAIN_HB_COUNT 0, CH_CHAIN_DEMOD 0, CH_CHAIN_DEMOD_OUT 0, CH_CHAIN_POSTDEC_MODE 0, CH_CHAIN_GRID 0, CH_CHAIN_SETTLE_SUPPRESS 0, CH_CHAIN_DCB_K 0, CH_CHAIN_DCB_FREEZE 0, CH_D 0, CH_CARRIER_P 0, CH_CARRIER_Q 0, CH_DEMOD_PHASE 0, CH_CHAIN_RESTART 0, CH_CHAIN_CNT_CLR 0, CH_CHAIN_SETTLING 0, CH_CHAIN_RESTARTED 0]
def blkCH2 : List Field := [CH_CHAIN_DCB_FROZEN 0, CH_CHAIN_SAT 0, CH_CHAIN_LAST_CAUSE 0, CH_DCB_EST 0, CH_RESTART_COUNT 0, CH_SETTLE_N 0, CH_DELAY_NS 0, CH_LIN_CURVE 0, CH_LIN_CJ_SRC 0, CH_LIN_LOAD 0, CH_LIN_GAIN 0, CH_LIN_OFFSET 0, CH_LIN_P0 0, CH_LIN_P1 0, CH_LIN_P2 0, CH_LIN_DOMAIN 0, CH_LIN_CJ_INVALID 0, CH_LIN_NOEXC 0, CH_LIN_SAT 0, CH_LIN_CNT_CLR 0, CH_LIN_OVR 0, CH_LIN_SEQERR 0, CH_LIN_DOMAIN_COUNT 0, CH_LIN_LAST_LO 0]
def blkCH3 : List Field := [CH_LIN_LAST_HI 0]
def blkHK0 : List Field := [HK_CTL_SCAN_MODE, HK_CTL_SCAN_START, HK_CTL_SCAN_STOP, HK_CTL_WAIT_READ, HK_CTL_GRID, HK_CTL_SETTLE_US, HK_SCAN_MASK_LO, HK_SCAN_MASK_HI, HK_SCAN_PERIOD, HK_STAT_OVR, HK_STAT_SEQERR, HK_STAT_SCAN_BUSY, HK_STAT_SCAN_ABORT, HK_STAT_WERR, HK_STAT_SAT, HK_STAT_CNT_CLR, HK_STAT_CAL_OWNS, HK_STAT_WAIT_STALL, HK_LOST, HK_SCAN_SKIP, HK_INJ_MISS, HK_CAL_START, HK_CAL_ABORT, HK_CAL_SAVE]
def blkHK1 : List Field := [HK_CAL_BANKS, HK_CAL_RANGES, HK_CAL_AVG_MS, HK_CAL_CAL_SETTLE, HK_CAL_STATE, HK_CAL_DONE, HK_CAL_FAIL, HK_CAL_ABORTED, HK_CAL_REF_DRIFT, HK_CAL_STALE, HK_CAL_UNCAL, HK_CAL_WERR, HK_CAL_SAVE_REFUSED, HK_CAL_RANGE_IDX, HK_CAL_TEMP_LIMIT, HK_PAT_ADDR, HK_PAT_CHECK, HK_PAT_RELOAD, HK_PAT_BAD, HK_PAT_FIELD_LOADED, HK_PAT_FACTORY_BAD, HK_CJ_IEN]
def blkINJ0 : List Field := [INJ_INPUT 0, INJ_SRC 0, INJ_TRIG 0, INJ_GRID 0, INJ_ENABLE 0, INJ_GO 0, INJ_K 0, INJ_PENDING 0, INJ_HELD 0, INJ_OVR 0, INJ_SEQERR 0, INJ_MISS 0, INJ_WERR 0]
def blkLIN0 : List Field := [LIN_CJ_MAXAGE]
def blkCJ0 : List Field := [CJ_SENSOR 0, CJ_COEF_A 0, CJ_COEF_B 0, CJ_COEF_C 0]
def blkTAB0 : List Field := [TAB_SEG_COUNT 0, TAB_X_MAX 0]
def blkTABseg : List Field := (List.range 16).flatMap fun i => [SEG_X_LO 0 i, SEG_C0 0 i, SEG_C1 0 i, SEG_C2 0 i, SEG_C3 0 i]
def blkACQ0 : List Field := [ACQ_ARM_ALL, ACQ_DISARM_ALL, ACQ_WERR, ACQ_OVR, ACQ_SEQERR, ACQ_SAT, ACQ_CNT_CLR, ACQ_DIST_RX, ACQ_DIST_DUP, ACQ_SSEL]
def blkTRIGOUT0 : List Field := [TRIGOUT_UNIT 0, TRIGOUT_EN 0, TRIGOUT_POLARITY 0, TRIGOUT_WIDTH 0]
def blkTRG0 : List Field := [TRG_SOURCE 0, TRG_MODE 0, TRG_PRE_STRICT 0, TRG_DIST_OUT 0, TRG_COND 0, TRG_SRC_CH 0, TRG_SRC_IDX 0, TRG_ARM 0, TRG_DISARM 0, TRG_FORCE 0, TRG_CNT_CLR 0, TRG_STATE 0, TRG_PRE_SHORT 0, TRG_FORCED 0, TRG_SAT 0, TRG_OVR 0, TRG_SEQERR 0, TRG_MISS_HELD 0, TRG_TI_OVR 0, TRG_TI_SEQERR 0, TRG_WERR 0, TRG_PRE 0, TRG_POST 0, TRG_CAPACITY 0]
def blkTRG1 : List Field := [TRG_HIST 0, TRG_THRESH 0, TRG_HYST 0, TRG_AUTO_TIMEOUT 0, TRG_RECORDS 0, TRG_MISSED 0, TRG_PRE_IGNORED 0, TRG_LATE 0, TRG_STREAM 0, TRG_FILL 0, TRG_DIST_GROUP 0, TRG_RECORD_NO 0, TRG_LAST_TI_LO 0, TRG_LAST_TI_HI 0]
def blkENG0 : List Field := [ENG_RESTART 0, ENG_HALT 0, ENG_AUTO_RESTART 0, ENG_CNT_CLR 0, ENG_STATE 0, ENG_FAULT 0, ENG_WERR 0, ENG_SAT 0, ENG_PARAM_RELOADED 0, ENG_OVERRUN 0, ENG_RESTART_LIMIT 0, ENG_WIN_REFUSED 0, ENG_FRAMES 0, ENG_OVERRUNS 0, ENG_FAULTS 0, ENG_RESTARTS 0, ENG_FAULT_ADDR 0, ENG_FAULT_TASK 0, ENG_WIN_ADDR 0, ENG_MB_CMD 0, ENG_MB_BUSY 0, ENG_MB_DONE 0, ENG_MB_WERR 0]
def blkENGtask : List Field := (List.range 8).flatMap fun k => [TASK_OP 0 k, TASK_INPUT_KIND 0 k, TASK_SKIP_FLAGGED 0 k, TASK_RLF_SLOT 0 k, TASK_RLF_EN 0 k, TASK_INPUTS 0 k, TASK_OUTPUTS_M1 0 k, TASK_PARAM_LOCK 0 k, TASK_LOCK_EN 0 k, TASK_FRAME_LEN 0 k, TASK_DATA_BASE 0 k, TASK_LAST_FRAME_LO 0 k, TASK_LAST_FRAME_HI 0 k, TASK_LAST_CYCLES 0 k, TASK_BANK 0 k, TASK_RESTARTED 0 k, TASK_OVR 0 k, TASK_SEQERR 0 k]
def blkENGmb : List Field := (List.range 7).flatMap fun i => [MBIN_WORD 0 i, MBOUT_WORD 0 i]
def blkRLF0 : List Field := [RLF_CNT_CLR, RLF_WERR, RLF_SAT, RLF_OVR, RLF_SEQERR, RLF_SEL]
def blkCMP0 : List Field := [CMP_CHAIN_DEPTH, CMP_LAZY, CMP_NICE_LEN, CMP_CNT_CLR, CMP_STALL_US, CMP_ON_PCT, CMP_OFF_PCT, CMP_STAT_WERR, CMP_STAT_SAT, CMP_STAT_BUSY, CMP_STAT_STALLED, CMP_STAT_LAST_CODE, CMP_STAT_OVR, CMP_STAT_SEQERR, CMP_STAT_LIST_LEVEL, CMP_PACKETS, CMP_NOSHRINK, CMP_VERIFY_FAIL, CMP_ABANDON, CMP_BYPASS, CMP_POISON, CMP_BYTES_IN_LO, CMP_BYTES_IN_HI, CMP_BYTES_OUT_LO]
def blkCMP1 : List Field := [CMP_BYTES_OUT_HI, CMP_SSEL]
def blkDCMP0 : List Field := [DCMP_GO, DCMP_ABORT, DCMP_XFORM, DCMP_SKIP64, DCMP_SRC_ADDR, DCMP_SRC_LEN, DCMP_DST_ADDR, DCMP_DST_MAX, DCMP_BUSY, DCMP_DONE, DCMP_ERR, DCMP_WERR, DCMP_REFUSED, DCMP_SAT, DCMP_CNT_CLR, DCMP_OUT_LEN, DCMP_IN_USED, DCMP_JOBS, DCMP_ERRORS]
def blkMEM0 : List Field := [MEM_SCRUB_EN, MEM_CNT_CLR, MEM_WERR, MEM_SAT, MEM_UE, MEM_RESERVE_SPILL, MEM_STARVED, MEM_DISCARDING, MEM_BASE, MEM_HOURS, MEM_CE_COUNT, MEM_UE_COUNT, MEM_DISCARDS, MEM_GAPS, MEM_UE_ADDR, MEM_PSEL]
def blkDMA0 : List Field := [DMA_GO 0, DMA_RESUME 0, DMA_ABORT 0, DMA_CNT_CLR 0, DMA_CLASS 0, DMA_STATE 0, DMA_FAULT 0, DMA_FAULT_DST 0, DMA_DONE 0, DMA_DELAYED 0, DMA_WERR 0, DMA_SAT 0, DMA_DESC 0, DMA_CUR_DESC 0, DMA_PAGE_FIRST 0, DMA_PAGE_LAST 0, DMA_PROGRESS 0, DMA_FAULT_ADDR 0, DMA_WAIT 0, DMA_DESCS 0, DMA_FAULTS 0, DMA_LOCK 0, DMA_LOCK_HELD 0]
def blkQ0 : List Field := [Q_PRODUCERS 0, Q_CONSUMER 0, Q_LINK 0, Q_PARTITION 0, Q_UNSHEDDABLE 0, Q_SAC_RANK 0, Q_MAX_PAGES 0, Q_CREDIT_PKTS 0, Q_FLUSH 0, Q_REPLAY 0, Q_CNT_CLR 0, Q_STATE 0, Q_OVR 0, Q_FLUSHED 0, Q_SEQERR 0, Q_POISON 0, Q_WERR 0, Q_SAT 0, Q_FLUSH_BUSY 0, Q_PUSH_LEN 0, Q_PUSH 0, Q_ACK 0, Q_ACKED_QSEQ 0, Q_DISCARDS 0]
def blkQ1 : List Field := [Q_REWINDS 0]
def blkARB0 : List Field := [ARB_WIN_CYC, ARB_CNT_CLR, ARB_WERR, ARB_SAT, ARB_STARVE, ARB_REFUSED, ARB_STARVE_US, ARB_DEADLINE_US, ARB_STARVE_WHO_RES, ARB_STARVE_WHO_REQ, ARB_STARVE_WHO_VALID, ARB_STARVE_COUNT, ARB_REFUSE_COUNT, ARB_MASK_COUNT, ARB_HOST_CPL_DELAYED, ARB_HOST_CPL_REFUSED, ARB_HOST_CPL_WAIT, ARB_RSEL, ARB_QSEL]
def blkLANE0 : List Field := [LANE_MODE 0, LANE_TX_INV 0, LANE_RX_INV 0, LANE_AUTO_POL 0, LANE_LOOPBACK 0, LANE_MANUAL_ALIGN 0, LANE_CTLE_MANUAL 0, LANE_CTLE_PEAK 0, LANE_CTLE_LF 0, LANE_TX_SWING 0, LANE_TX_PRE 0, LANE_TX_POST 0, LANE_RETRAIN 0, LANE_CNT_CLR 0, LANE_ERR_INJECT 0, LANE_STATE 0, LANE_LOS 0, LANE_CDR_LOCK 0, LANE_BLOCK_LOCK 0, LANE_HI_BER 0, LANE_PARKED 0, LANE_RX_LP 0, LANE_PRBS_SYNC 0, LANE_WERR 0]
def blkLANE1 : List Field := [LANE_SAT 0, LANE_SEQERR 0, LANE_RX_INV_AUTO 0, LANE_WIDTH_MISMATCH 0, LANE_SKEW_ERR 0, LANE_EYE_LOW 0, LANE_LP_FAIL 0, LANE_SYNC_LOST 0, LANE_RX_SLIP 0, LANE_RX_SH_BAD64 0, LANE_RX_SH_RUN 0, LANE_EYE_WIDTH 0, LANE_EYE_PEAK_CHOSEN 0, LANE_EYE_EYE_MIN 0, LANE_TRAIN_RETRIES 0, LANE_TRAIN_ATTEMPTS 0, LANE_TRAIN_TIMEOUT_MS 0, LANE_LOS_TIME_US 0, LANE_LP_IDLE_US 0, LANE_LP_LP_EN 0, LANE_QCFG_RATE 0, LANE_LINK_WIDTH 0, LANE_LINK_POSITION 0, LANE_LINK_LEAD 0]
def blkLANE2 : List Field := [LANE_PRBS_PATTERN 0, LANE_PRBS_GEN_EN 0, LANE_PRBS_CHK_EN 0, LANE_PRBS_INV 0, LANE_PRBS_ERR_LO 0, LANE_PRBS_ERR_HI 0, LANE_PRBS_BITS_LO 0, LANE_PRBS_BITS_HI 0, LANE_SYNC_ERRS 0, LANE_BLOCK_ERRS 0, LANE_LOS_EVENTS 0, LANE_TRAIN_FAILS 0, LANE_ETH_DROPS 0, LANE_ETH_ADDR_LO 0, LANE_ETH_ADDR_HI 0, LINK_ROLE 0, LINK_ACK_DELAY_US 0, LINK_REPLAY_US 0, LINK_CNT_CLR 0, LINK_UP 0, LINK_PROTO_ERR 0, LINK_CREDIT_ERR 0, LINK_REPLAY_LIMIT 0, LINK_ROLE_MISMATCH 0]
def blkLANE3 : List Field := [LINK_ROUTE_CONFLICT 0, LINK_SAT 0, LINK_WERR 0, LINK_TX_LSEQ 0, LINK_RX_LSEQ 0, LINK_PEER_ROUTE_LO 0, LINK_PEER_ROUTE_HI 0, LINK_PEER_DEPTH 0, LINK_PEER_ROLE 0, LINK_PEER_HW 0, LINK_PEER_REV 0, LINK_PEER_MAC_LO 0, LINK_PEER_MAC_HI 0, LINK_CRC_ERRS 0, LINK_CNT_PROTO_ERRS 0, LINK_REPLAYS 0, LINK_RX_DUPS 0, LINK_DUPS 0, LINK_PAIR_DROPS 0, LINK_DEDUP_EVICT 0, LINK_RST_REFUSED 0, LINK_RACC_DEST_LO 0, LINK_RACC_DEST_HI 0, LINK_RACC_WRITE 0]
def blkLANE4 : List Field := [LINK_RACC_GO 0, LINK_RACC_ADDR 0, LINK_RACC_DATA 0, LINK_RACC_BUSY 0, LINK_RACC_DONE 0, LINK_RACC_STATUS 0, LINK_RACC_TIMEOUT_MS 0]
def blkLANEvc : List Field := (List.range 4).flatMap fun v => [VC_RXQ 0 v, VC_RXQ_VALID 0 v, VC_AVAIL_PKTS 0 v, VC_AVAIL_WORDS 0 v, VC_TX_CSEQ 0 v, VC_TX_CACK 0 v]
def blkDUP0 : List Field := [DUP_SWAP, DUP_SWAP_CANCEL, DUP_CLEAR_SUSPECT, DUP_CNT_CLR, DUP_PSTATE, DUP_ROLE, DUP_SUSPECT, DUP_PARTNER_SUSPECT, DUP_DIVERGE, DUP_TOOK_OVER, DUP_LINK_LOST, DUP_SYNC_LOST, DUP_SWAP_PENDING, DUP_WERR, DUP_SAT, DUP_RPT_NEW, DUP_RPT_OVR, DUP_POLICY, DUP_LINK, DUP_ROLE_CFG, DUP_TIMEOUT_US, DUP_XTOL, DUP_TTOL, DUP_SYNC_DLY]
def blkDUP1 : List Field := [DUP_TDIFF, DUP_CNT_DIVERGE_COUNT, DUP_CNT_DIGEST_MISSING, DUP_CNT_TAKEOVERS, DUP_CNT_XCHECK_COUNT, DUP_CNT_RPT_FAIL, DUP_FIRST_KIND, DUP_FIRST_ID, DUP_FIRST_VALID, DUP_FIRST_WINDOW_LO, DUP_FIRST_WINDOW_HI, DUP_SWAP_NS, DUP_SWAP_SEC_LO, DUP_SWAP_SEC_HI, DUP_PARTNER_LO, DUP_PARTNER_HI, DUP_RPT_SRC_LO, DUP_RPT_SRC_HI, DUP_RPT_WORD, DUP_RPT_ADDR]
def blkARM0 : List Field := [ARM_LOAD_START, ARM_COPY, ARM_DISCARD, ARM_COMMIT, ARM_COMMIT_AT_EN, ARM_CANCEL_COMMIT, ARM_WITHDRAW, ARM_WITHDRAW_AT_EN, ARM_CANCEL_WITHDRAW, ARM_CNT_CLR, ARM_STAT_STATE, ARM_STAT_SIGNED, ARM_STAT_COMMIT_PENDING, ARM_STAT_WITHDRAW_PENDING, ARM_STAT_DRAINING, ARM_STAT_COMMITTED, ARM_STAT_COMMIT_REFUSED, ARM_STAT_COMMIT_MISSED, ARM_STAT_WITHDRAWN, ARM_STAT_WERR, ARM_STAT_SAT, ARM_STAT_REASON, ARM_STAT_ERR, ARM_ERR_OFS]
def blkARM1 : List Field := [ARM_ERR_TYPE, ARM_ERR_INST, ARM_LOAD_OFS, ARM_LOAD_DATA, ARM_SRC_ADDR, ARM_TOTAL_LEN, ARM_COMMIT_NS, ARM_COMMIT_SEC_LO, ARM_COMMIT_SEC_HI, ARM_WITHDRAW_NS, ARM_WITHDRAW_SEC_LO, ARM_WITHDRAW_SEC_HI, ARM_DRAIN_MS, ARM_ID_MAQ, ARM_ID_COMMITTED, ARM_CT_NS, ARM_CT_SEC_LO, ARM_CT_SEC_HI, ARM_COMMIT_SLOT, ARM_COMMIT_SLOT_VALID, ARM_WD_SLOT, ARM_WD_SLOT_VALID, ARM_KEY_ID, ARM_COMMITS]
def blkARM2 : List Field := [ARM_FAILS]
def blkUPD0 : List Field := [UPD_START, UPD_COPY, UPD_ABORT, UPD_SCHEDULE, UPD_CANCEL, UPD_CONFIRM, UPD_REVERT, UPD_STAGE_PREV, UPD_CNT_CLR, UPD_STAT_STATE, UPD_STAT_FORMAT, UPD_STAT_RUN_SLOT, UPD_STAT_PREV_VALID, UPD_STAT_SETTINGS_UNREADABLE, UPD_STAT_UPDATING, UPD_STAT_WERR, UPD_STAT_OVR, UPD_STAT_BLOCK_RETRY, UPD_STAT_FELL_BACK, UPD_STAT_CONFIRMED, UPD_STAT_ACT_REFUSED, UPD_STAT_SAT, UPD_STAT_REFUSE, UPD_STAT_ERR]
def blkUPD1 : List Field := [UPD_LOAD_OFS, UPD_DATA, UPD_SRC_ADDR, UPD_ROOM, UPD_ACT_NS, UPD_ACT_SEC_LO, UPD_ACT_SEC_HI, UPD_PROBATION, UPD_EXPECT, UPD_BLOCK_COUNT, UPD_RUN_VERSION, UPD_STAGED_VERSION, UPD_PREV_VERSION, UPD_OBS_LOCK, UPD_HOLDUP_MIN, UPD_UPDATES, UPD_FALLBACKS, UPD_FAILS, UPD_SET_ADDR, UPD_SETC_WRITE, UPD_SETC_LOAD, UPD_SETC_DONE, UPD_SETC_WRITE_REFUSED, UPD_SETC_SLOT]
def blkUPD2 : List Field := [UPD_SETC_SLOT_VALID, UPD_SETC_BUSY, UPD_SET_SEQ]
def blkPWR0 : List Field := [PWR_WAKE, PWR_CNT_CLR, PWR_READY, PWR_PWR_GOOD, PWR_HOLDUP_LOW, PWR_WERR, PWR_SAT, PWR_WAKE_TIMER_EN, PWR_WAKE_PIN_EN, PWR_WAKE_PIN_EDGE, PWR_WAKE_HOST_EN, PWR_WAKE_LANES_LO, PWR_WAKE_LANES_HI, PWR_WAKE_AT_TICK, PWR_WAKE_AT_SEC_LO, PWR_WAKE_AT_SEC_HI, PWR_WAKE_SRC, PWR_WAKE_WHERE, PWR_WAKE_ABORTED_ENTRY, PWR_WAKES]
def blkCLK0 : List Field := [CLK_SYS_LOCK, CLK_MOD_LOCK, CLK_XTAL_OK, CLK_XTAL_FAIL, CLK_PLL_FAIL, CLK_QUAD_LOCK, CLK_WERR, CLK_MARGIN_US, CLK_BANK_ON, CLK_CARVER_ON, CLK_CMP_ON, CLK_DRAM_ACTIVE, CLK_LANE_RUN_LO, CLK_LANE_RUN_HI]
def blkRST0 : List Field := [RST_SW, RST_PARTNER, RST_CNT_CLR, RST_KEY, RST_LAST, RST_ALL, RST_COUNT, RST_WDT_EN, RST_WDT_WARN, RST_WDT_PERIOD_MS, RST_WDT_KICK, RST_WERR, RST_SAT]
def blkLOG0 : List Field := [LOG_IRQ_SEV, LOG_NEW, LOG_GONE, LOG_SAT, LOG_WERR, LOG_OVERWRITES, LOG_SEQ]
def blkDEV0 : List Field := [DEV_ID_HW_TYPE, DEV_MODE_MODE, DEV_MODE_CMD, DEV_MODE_GO, DEV_MODE_MODE_BUSY, DEV_MODE_REFUSED, DEV_MODE_REFUSE, DEV_MODE_IN_TRANSITION, DEV_ROUTE_LO, DEV_ROUTE_ROUTE_HI, DEV_ROUTE_DEPTH, DEV_ROUTE_ASSIGNED, DEV_ROUTE_SET, DEV_ROUTE_WERR, DEV_SCRATCH, DEV_SPI_CMD_ERR, DEV_SPI_RD_TIMEOUT, DEV_SPI_SHORT, DEV_SPI_WDROP, DEV_IRQ_RESET, DEV_IRQ_ARM, DEV_IRQ_ARB, DEV_IRQ_DUPLEX, DEV_IRQ_LOG]
def blkDEV1 : List Field := [DEV_IRQ_CLOCK, DEV_IRQ_MODE, DEV_IRQ_EN, DEV_PEND_ENG, DEV_PEND_DMA, DEV_PEND_LANE_LO, DEV_PEND_LANE_HI]
def blkLEADSEL0 : List Field := [LEADSEL_CH 0, LEADSEL_LEAD 0]
def blkTEMPLAST0 : List Field := [TEMPLAST_CODE 0]
def blkLOCK0 : List Field := [LOCK_STAT_HELD 0, LOCK_STAT_BROKEN 0, LOCK_STAT_OWNER 0, LOCK_STAT_LAST_OWNER 0, LOCK_STAT_RELEASE 0, LOCK_STAT_BREAK 0, LOCK_STAT_WERR 0]
def blkLC0 : List Field := [LC_RECOVERY_CAUSE, LC_ARMED, LC_REFUSED, LC_REASON, LC_TARGET, LC_GO, LC_ARM, LC_FACTORY_WRITE, LC_FACTORY_DONE, LC_FACTORY_FACTORY_REFUSED]
def regBlockTIME : RegBlock := ⟨0x1000, 0x1000, 1, blkTIME0 ++ blkTIME1⟩
def regBlockDOM : RegBlock := ⟨0x1040, 0x20, 2, blkDOM0⟩
def regBlockTOUT : RegBlock := ⟨0x1100, 0x20, 4, blkTOUT0⟩
def regBlockEVT : RegBlock := ⟨0x1180, 0x20, 4, blkEVT0⟩
def regBlockSCHED : RegBlock := ⟨0x1200, 0x10, 8, blkSCHED0⟩
def regBlockPORTDLY : RegBlock := ⟨0x1400, 0x10, 64, blkPORTDLY0⟩
def regBlockGRID : RegBlock := ⟨0xB800, 0x40, 8, blkGRID0⟩
def regBlockEXC : RegBlock := ⟨0x3000, 0x1000, 1, blkEXC0⟩
def regBlockBANK : RegBlock := ⟨0x3100, 0x10, 12, blkBANK0⟩
def regBlockCH : RegBlock := ⟨0x10000, 0x100, 192, blkCH0 ++ blkCH1 ++ blkCH2 ++ blkCH3⟩
def regBlockHK : RegBlock := ⟨0x2000, 0x1000, 1, blkHK0 ++ blkHK1⟩
def regBlockINJ : RegBlock := ⟨0x2100, 0x20, 4, blkINJ0⟩
def regBlockLIN : RegBlock := ⟨0xD000, 0x1000, 1, blkLIN0⟩
def regBlockCJ : RegBlock := ⟨0xD040, 0x20, 4, blkCJ0⟩
def regBlockTAB : RegBlock := ⟨0xD400, 0x180, 8, blkTAB0 ++ blkTABseg⟩
def regBlockACQ : RegBlock := ⟨0xB000, 0x1000, 1, blkACQ0⟩
def regBlockTRIGOUT : RegBlock := ⟨0xB100, 0x4, 4, blkTRIGOUT0⟩
def regBlockTRG : RegBlock := ⟨0x50000, 0x80, 32, blkTRG0 ++ blkTRG1⟩
def regBlockENG : RegBlock := ⟨0x30000, 0x1000, 16, blkENG0 ++ blkENGtask ++ blkENGmb⟩
def regBlockRLF : RegBlock := ⟨0xC000, 0x1000, 1, blkRLF0⟩
def regBlockCMP : RegBlock := ⟨0x5000, 0x1000, 1, blkCMP0 ++ blkCMP1⟩
def regBlockDCMP : RegBlock := ⟨0x5000, 0x1000, 1, blkDCMP0⟩
def regBlockMEM : RegBlock := ⟨0x6000, 0x1000, 1, blkMEM0⟩
def regBlockDMA : RegBlock := ⟨0x6400, 0x40, 32, blkDMA0⟩
def regBlockQ : RegBlock := ⟨0x40000, 0x40, 256, blkQ0 ++ blkQ1⟩
def regBlockARB : RegBlock := ⟨0x4000, 0x1000, 1, blkARB0⟩
def regBlockLANE : RegBlock := ⟨0x20000, 0x400, 64, blkLANE0 ++ blkLANE1 ++ blkLANE2 ++ blkLANE3 ++ blkLANE4 ++ blkLANEvc⟩
def regBlockDUP : RegBlock := ⟨0xA000, 0x1000, 1, blkDUP0 ++ blkDUP1⟩
def regBlockARM : RegBlock := ⟨0x7000, 0x1000, 1, blkARM0 ++ blkARM1 ++ blkARM2⟩
def regBlockUPD : RegBlock := ⟨0x8000, 0x1000, 1, blkUPD0 ++ blkUPD1 ++ blkUPD2⟩
def regBlockPWR : RegBlock := ⟨0x9000, 0x1000, 1, blkPWR0⟩
def regBlockCLK : RegBlock := ⟨0x9000, 0x1000, 1, blkCLK0⟩
def regBlockRST : RegBlock := ⟨0x9000, 0x1000, 1, blkRST0⟩
def regBlockLOG : RegBlock := ⟨0x9000, 0x1000, 1, blkLOG0⟩
def regBlockDEV : RegBlock := ⟨0x0, 0x1000, 1, blkDEV0 ++ blkDEV1⟩
def regBlockLEADSEL : RegBlock := ⟨0x2040, 0x4, 12, blkLEADSEL0⟩
def regBlockTEMPLAST : RegBlock := ⟨0x2080, 0x4, 12, blkTEMPLAST0⟩
def regBlockLOCK : RegBlock := ⟨0x4800, 0x8, 64, blkLOCK0⟩
def regBlockLC : RegBlock := ⟨0x8000, 0x1000, 1, blkLC0⟩

/-- Every block with stored fields. -/
def regBlocks : List RegBlock :=
  [regBlockTIME, regBlockDOM, regBlockTOUT, regBlockEVT, regBlockSCHED, regBlockPORTDLY, regBlockGRID, regBlockEXC,
   regBlockBANK, regBlockCH, regBlockHK, regBlockINJ, regBlockLIN, regBlockCJ, regBlockTAB, regBlockACQ,
   regBlockTRIGOUT, regBlockTRG, regBlockENG, regBlockRLF, regBlockCMP, regBlockDCMP, regBlockMEM, regBlockDMA,
   regBlockQ, regBlockARB, regBlockLANE, regBlockDUP, regBlockARM, regBlockUPD, regBlockPWR, regBlockCLK,
   regBlockRST, regBlockLOG, regBlockDEV, regBlockLEADSEL, regBlockTEMPLAST, regBlockLOCK, regBlockLC]

/-- The fields of one register, at its own address. -/
def RegBlock.fieldsAt (b : RegBlock) (addr : Nat) : List Field :=
  if b.base ≤ addr ∧ addr < b.base + b.stride * b.count then
    let i := (addr - b.base) / b.stride
    (b.fields.filter (fun f => f.addr + b.stride * i == addr)).map (fun f => { f with addr := addr })
  else []

/-- Every stored field of the register at an address (none where the plan allocates no register, R433). -/
def fieldsAt (addr : Nat) : List Field := regBlocks.flatMap (fun b => b.fieldsAt addr)

end Sys2Proof.Machine
end

