-- ==== Sys2Proof/Machine/Parts.lean ====
section
/-! DEFINITION. The hidden state of the hub, part by part: everything the spec gives the machine that no register
field holds. Every type is plain data with its reset value as the default of each field. Instants are counted in
units of 2^-32 ns of local time (R34), wrapping at 2^48 s. -/

namespace Sys2Proof.Machine

/-! ## Power, reset, clocks and the trouble log (17) -/

/-- Where the hub is between a reset and service, and between service and DORMANT (R412, R414, R416). -/
inductive Phase where
  | held          -- reset condition present, or PWR_GOOD not yet high for 10 ms
  | released      -- start-up begun, system PLL not yet locked
  | gesso         -- system PLL locked, gesso pass running
  | casting       -- a cast is being read and checked
  | loading       -- management core runs; patina and settings being loaded
  | loaded        -- settings loaded; waiting for the end of start-up
  | run           -- READY
  | retired       -- READY in RETIRED: the ROM loader, lanes and HELLO alone
  | entering      -- entry to DORMANT in progress
  | dormant
  | waking        -- wake event seen, system PLL locking
  | wakingMem     -- time unit runs, buffer memory being wiped
  | dead          -- VPLN absent
  deriving DecidableEq, Repr

/-- One entry of the trouble log (R425). `at` is the instant of TIME. -/
structure LogEntry where
  code : Nat
  sev : Nat
  tq : Nat
  seq : Nat
  time : Nat
  p0 : Nat
  p1 : Nat
  p2 : Nat
  deriving DecidableEq, Repr

structure Pwr where
  phase : Phase := .held
  pwrGood : Bool := false
  rstLow : Bool := false
  /-- coarse time in plinth cycles of 2^-15 s (R40) -/
  coarse : Nat := 0
  /-- the local time at which the count stood so, while the time unit runs -/
  coarseAt : Nat := 0
  actGo : Bool := false
  log : List LogEntry := []
  logSeq : Nat := 0
  /-- second of the last entry of each rate-limited code and subject -/
  logLast : AMap Nat := []
  /-- LOG_DATA copy (R428) -/
  logCopy : List Nat := []
  /-- RST_KEY has armed a reset, and when (R422) -/
  rstArmed : Bool := false
  rstArmAt : Nat := 0
  /-- the instant the host watchdog's period began, and whether it has warned in it (R423) -/
  wdtFrom : Nat := 0
  wdtWarned : Bool := false
  /-- what the core last measured: every supply of R393 within 5 %, and the code of HOLDUP_SNS -/
  supplies : Bool := true
  holdup : Nat := 65535
  /-- pins of R420 -/
  vexcOk : Bool := true
  pllFailLogged : Bool := false
  testEn : Bool := false
  tap : Nat := 0x3F
  modRunning : Bool := false
  modFailed : Bool := false
  /-- it has lost lock in service and not relocked -/
  modUnlocked : Bool := false
  /-- the instant each bank's analogue clock started (R107) -/
  bankAt : AMap Nat := []
  /-- banks whose modulator output is valid (R107) -/
  modValid : List Nat := []
  deriving DecidableEq, Repr

/-! ## Absolute time (02) -/

structure Capture where
  time : Nat
  rising : Bool
  stepped : Bool := false
  deriving DecidableEq, Repr

/-- An edge the glitch filter holds: its instant and direction, the instant the filter lets it pass, and whether a step
has come since (R39, R56). -/
structure NotedEdge where
  time : Nat
  rising : Bool
  due : Nat
  stepped : Bool := false
  deriving DecidableEq, Repr

structure PinIn where
  level : Bool := false
  /-- edges in the glitch filter, oldest first -/
  noted : List NotedEdge := []
  fifo : List Capture := []
  /-- a snapshot has been taken -/
  snapped : Bool := false
  deriving DecidableEq, Repr

structure PinOut where
  pulse : Bool := false
  /-- end of the pulse in progress -/
  pulseEnd : Nat := 0
  /-- next instant (ONCE, PERIODIC) -/
  nextAt : Nat := 0
  deriving DecidableEq, Repr

/-- What a PTP domain slot holds between messages (R48): the last Sync, the pending exchanges, the last offset. -/
structure DomState where
  syncSeq : Nat := 0
  syncIngress : Int := 0
  syncCorr : Int := 0
  syncPending : Bool := false
  /-- t2 - t1 - correction of the last complete Sync, 2^-16 ns -/
  lastT21 : Int := 0
  reqSeq : Nat := 0
  reqEgress : Int := 0
  reqPending : Bool := false
  respIngress : Int := 0
  respT2 : Int := 0
  respPending : Bool := false
  prevT3 : Int := 0
  prevT4 : Int := 0
  meanDelay : Int := 0
  lastOff : Int := 0
  everLocked : Bool := false
  /-- currentUtcOffset of the last Announce (R34) -/
  utc : Int := 0
  deriving DecidableEq, Repr

/-- One PTP message (R48), with the fields the hub uses: correctionField in 2^-16 ns, the instant of its time-stamp
field in 2^-32 ns, stepsRemoved of an Announce. -/
structure PtpMsg where
  domain : Nat
  sdo : Nat
  seq : Nat
  twoStep : Bool
  corr : Int
  ts : Nat
  steps : Nat
  /-- currentUtcOffset of an Announce (R34) -/
  utc : Int := 0
  /-- sourcePortIdentity, and clockClass and priority1 of an Announce -/
  clockId : Nat := 0
  port : Nat := 0
  cls : Nat := 0
  prio1 : Nat := 0
  deriving DecidableEq, Repr

/-- The message types of R48 the hub handles. -/
inductive PtpKind where
  | sync | delayReq | pdelayReq | pdelayResp | followUp | delayResp | pdelayRespFollowUp | announce | signaling
  | management
  deriving DecidableEq, Repr

/-- One PTP message the hub sent or relayed (R48 to R51): the port it leaves by, its type, domain and sdoId, sequence,
correctionField, time-stamp field, the identity of its port (a clockIdentity of zero on Kamrel links) and, of an Announce, the
clockClass, priority1, stepsRemoved and currentUtcOffset. -/
structure PtpOut where
  lane : Nat
  kind : PtpKind
  domain : Nat
  sdo : Nat
  seq : Nat
  corr : Int
  ts : Nat
  clockId : Nat := 0
  port : Nat := 0
  cls : Nat := 0
  prio1 : Nat := 0
  steps : Nat := 0
  utc : Int := 0
  deriving DecidableEq, Repr

/-- A two-step Sync a transparent clock has relayed: by which port it came and left, and the correction its Follow_Up takes (R51). -/
structure Relayed where
  lane : Nat
  port : Nat
  domain : Nat
  seq : Nat
  corr : Int
  deriving DecidableEq, Repr

structure TimeSt where
  now : Nat := 0
  running : Bool := false
  slew : Int := 0
  lockRun : Nat := 0
  /-- the selected source has been lost while a slew runs (R41, R46) -/
  srcLost : Bool := false
  /-- instants of the eight scheduler slots -/
  schedAt : AMap Nat := []
  pins : AMap PinIn := []
  outs : AMap PinOut := []
  ppsOut : Bool := false
  ppsOutEnd : Nat := 0
  /-- the captured instant of the last PPS_IN edge, and the instant its 3 s run from (R47) -/
  ppsCap : Nat := 0
  ppsLast : Nat := 0
  /-- the last whole seconds at which PPS_OUT rose and the plinth was realigned (R40, R55) -/
  ppsDone : Nat := 0
  alignDone : Nat := 0
  todArmed : Bool := false
  todArmAt : Nat := 0
  doms : AMap DomState := []
  /-- next index of each grid whose instant has not been processed -/
  gridNext : AMap Nat := []
  /-- a stop index set by a withdrawal that is still pending may be cancelled (R383) -/
  gridWd : AMap Bool := []
  /-- QUALITY over time, newest first: instant from which a code holds, code (R42) -/
  qHist : List (Nat × Nat) := []
  /-- the measured modulator clock (R43): edge number `edgeN` fell at `edge0`; the stretches measured before it, newest first:
  first edge, its instant, the period that held -/
  edge0 : Nat := 0
  edgeN : Nat := 0
  edgeHist : List (Nat × Nat × Nat) := []
  /-- PTP messages sent or relayed by this hub, newest first -/
  ptpTx : List PtpOut := []
  /-- two-step Syncs relayed, whose Follow_Up is still to come (R51) -/
  relayed : List Relayed := []
  /-- two-step Syncs sent, whose transmit stamp has not returned: lane, domain slot, sequence (R50) -/
  syncOut : List (Nat × Nat × Nat) := []
  ptpSeq : AMap Nat := []
  deriving DecidableEq, Repr

/-! ## Channels: input cell, excitation, chain, linearisation (03, 05, 06) -/

/-- The conditions of R149 that mark modulator samples by time (clipped samples are marked one by one); `pll` marks the time without modulator samples (R29). -/
inductive Flag where
  | settle | xsit | excf | openw | pll
  deriving DecidableEq, Repr

/-- A span of time at the input balls under a flag condition; open while its condition still holds. -/
structure Span where
  flag : Flag
  lo : Nat
  hi : Option Nat
  deriving DecidableEq, Repr

/-- A stretch of a grid that a channel or stream produces: the grid's definition, RESUME_INDEX, the first produced
index, the next one due, and the stop index once set (R17, R153, R154). -/
structure Run where
  epoch : Nat
  p : Nat
  q : Nat
  resume : Nat
  first : Nat
  next : Nat
  stop : Option Nat := none
  /-- the chain it is computed by: HB_COUNT, POSTDEC_MODE, D, and whether each output is an I and a Q word (R132, R147) -/
  hb : Nat := 0
  mode : Nat := 0
  d : Nat := 1
  two : Bool := false
  deriving DecidableEq, Repr

/-- One grid-sample output handed on by a chain (R150): index, words (I then Q where both), QUALITY at its instant. -/
structure Output where
  index : Nat
  words : List Nat
  quality : Nat
  deriving DecidableEq, Repr

/-- The conditions of R80 that declare a channel open, in the order of its table. -/
inductive OpenCond where
  | testCurrent | compliance | dcVoltage | sns | carrier
  deriving DecidableEq, Repr

/-- A write to the DC-blocking stage: K, the freeze, or its estimate in 2^-8 VALUE LSB (R139, R141). -/
inductive DcWrite where
  | k (v : Nat)
  | freeze (b : Bool)
  | est (v : Int)
  deriving DecidableEq, Repr

structure Chan where
  /-- the committed armature defines the channel -/
  live : Bool := false
  /-- a commit left the channel out; its registers clear once its last output is done -/
  leaving : Bool := false
  /-- excitation in force: MODE, LEVEL and carrier fraction (R82, R133) -/
  exMode : Nat := 0
  exLevel : Nat := 0
  carP : Nat := 0
  carQ : Nat := 0
  /-- the drivers deliver excitation -/
  driving : Bool := false
  /-- the carrier the drivers and the demodulator follow now: MODE and fraction as last driven (R132, R134) -/
  demMode : Nat := 0
  demP : Nat := 0
  demQ : Nat := 0
  /-- the instant the retry period of a fold-back runs from, and the end of the retry in progress (R86) -/
  foldAt : Nat := 0
  retryEnd : Option Nat := none
  /-- end of the overload recovery in progress (R106) -/
  recoverEnd : Option Nat := none
  /-- edges at which an overload was detected, newest first -/
  recov : List Nat := []
  shed : Bool := false
  spans : List Span := []
  /-- ends of the XSIT span and the excitation SETTLE span now open (R73, R97) -/
  xsitEnd : Nat := 0
  settleEnd : Nat := 0
  /-- end of the effective settle time of the last multiplexer change (R69) -/
  muxEnd : Nat := 0
  /-- end of the dwell whose peak is being watched, end of the dwell after the last step, and that step's transient (R76, R77) -/
  dwellEnd : Nat := 0
  holdEnd : Nat := 0
  stepTr : Nat := 0
  upWait : Bool := false
  /-- range history, newest first: instant from which the range is in force, range (R74) -/
  ranges : List (Nat × Nat) := []
  /-- the same at the edges the chains follow: in a shadowing standby the active's (R351) -/
  actRanges : List (Nat × Nat) := []
  /-- last restart: instant, n_0, first settled index (R153) -/
  restartAt : Nat := 0
  n0 : Nat := 0
  settledAt : Nat := 0
  /-- writes the DC-blocking stage has had since the restart, newest first, and its K and freeze at the restart (R139, R141) -/
  dcWrites : List (Nat × DcWrite) := []
  dcK0 : Nat := 0
  dcFrozen0 : Bool := false
  /-- DEMOD_PHASE and multiplexer settings over time, newest first (R68, R134) -/
  psiHist : List (Nat × Nat) := []
  muxHist : List (Nat × Nat) := []
  runs : List Run := []
  /-- range codes its armature entry can use (R118) -/
  usable : List Nat := []
  /-- the channel's top range in its armature (R74, R372) -/
  topRange : Nat := 0
  /-- excitation over time, newest first: instant, mode in force (0 while shed or off), level (R166) -/
  exHist : List (Nat × Nat × Nat) := []
  /-- staged LIN_GAIN and LIN_OFFSET (R172) -/
  stGain : Option Nat := none
  stOffset : Option Nat := none
  /-- outputs waiting for linearisation, oldest first, with the stretch of the grid each belongs to (R158) -/
  linQ : List (Output × Run) := []
  deriving DecidableEq, Repr

structure Exc where
  /-- consecutive measurements above 1.25 times the budget (R91) -/
  fastRun : Nat := 0
  /-- end of the last governor window and instant of the last 10 µs measurement (R90, R91) -/
  windowAt : Nat := 0
  fastAt : Nat := 0
  /-- headroom at recent window ends, newest first: instant, headroom in µW (R93) -/
  headroom : List (Nat × Int) := []
  lastRestore : Nat := 0
  /-- excitation groups still to start after a commit (R95): instant and channels -/
  groups : List (Nat × List Nat) := []
  /-- the channels of those groups whose carrier frequency or waveform changes (R96) -/
  carriers : List Nat := []
  deriving DecidableEq, Repr

/-! ## The housekeeping converter and calibration (04) -/

/-- What the converter does now (R108, R112, R115, R119). -/
inductive Conv where
  | idle
  | settle (input : Nat)
  | regular (input : Nat)
  | stalled (input : Nat)
  | inject (slot : Nat)
  | cal
  deriving DecidableEq, Repr

structure HkRes where
  code : Nat
  input : Nat
  seq : Nat
  time : Nat
  delayed : Bool := false
  unread : Bool := true
  deriving DecidableEq, Repr

/-- A staged patina entry (R121). -/
structure CalEntry where
  chan : Nat
  idx : Nat
  offset : Int
  gain : Nat
  /-- FLAGS: 3 VALID and FIELD, 4 OUT_OF_LIMITS -/
  flags : Nat
  deriving DecidableEq, Repr

structure Hk where
  conv : Conv := .idle
  scan : List Nat := []
  settleUs : Nat := 2
  data : Option HkRes := none
  seq : Nat := 0
  injRes : AMap HkRes := []
  injSeq : AMap Nat := []
  /-- instants of the copies of inputs 20 to 31 (R114) -/
  tempAt : AMap Nat := []
  /-- the patina store, by byte (R125) -/
  patina : AMap Nat := []
  calBanks : Nat := 0
  calRanges : Nat := 0
  calIdx : List Nat := []
  /-- range in force before calibration, by channel (R122) -/
  calRange : AMap Nat := []
  calZero : AMap ℚ := []
  calStaged : List CalEntry := []
  calHkOffset : Int := 0
  calAveraging : Bool := false
  /-- the range transient of the step in progress (R73, R120), and, once the held conversions run, whether the sequence ended DONE (R122) -/
  calTr : Nat := 0
  calEnding : Option Bool := none
  /-- next start of the scan timer (R112) -/
  timerAt : Option Nat := none
  /-- start of the sequencer's step in progress -/
  calAt : Nat := 0
  /-- the patina store as it last passed a check, a load or a calibration (R126) -/
  checked : AMap Nat := []
  /-- start of the conversion slot in progress (R108) -/
  convAt : Nat := 0
  /-- the patina entries in force: what the last commit or calibration took from the store (R122, R126) -/
  inForce : AMap Nat := []
  /-- the same over time, newest first: the instant from which an image is in force (R105, R122) -/
  forceHist : List (Nat × AMap Nat) := []
  /-- held injected requests now run with the delay flag (R119) -/
  delayed : List Nat := []
  deriving DecidableEq, Repr

/-! ## Casts, settings and life cycle (16): what the flash and the fuses hold -/

/-- A cast held in a slot: its header's fields (R388, R390) and whether its signature and part CRCs hold. -/
structure Cast where
  format : Nat
  version : Nat
  secEpoch : Nat := 0
  keyId : Nat := 0
  lcAllow : Nat := 0
  revokeKey0 : Bool := false
  setFmt : Nat := 1
  setMin : Nat := 1
  hasCarver : Bool := false
  /-- the image as received (R385); none: the cast the hub shipped with, whose bytes are open -/
  image : Option (List (BitVec 8)) := none
  deriving DecidableEq, Repr

/-- A boot record (R386). -/
structure BootRec where
  state : Nat := 1
  active : Nat := 0
  seq : Nat := 0
  validA : Bool := false
  validB : Bool := false
  setA : Nat := 0xFF
  setB : Nat := 0xFF
  probEnd : Nat := 0
  deriving DecidableEq, Repr

/-- One copy of a settings image: its bytes (R402), its WRITE_SEQ and whether its CRC holds. -/
structure SetCopy where
  img : AMap Nat := []
  seq : Nat := 0
  ok : Bool := false
  deriving DecidableEq, Repr

/-- The flash and the fuses (R385, R392, R406): what survives every reset. -/
structure Nv where
  /-- life-cycle fuse: 0 BLANK, 1 MANUFACTURE, 2 FIELD, 4 RETIRED -/
  lcFuse : Nat
  key0Revoked : Bool
  epochFuse : Nat
  castA : Option Cast
  castB : Option Cast
  /-- the governing boot record -/
  boot : BootRec
  /-- the two BOOT_RECORD sectors as written, oldest record first, and the current one (R386) -/
  bootSects : AMap (List (List (BitVec 8))) := []
  bootCur : Nat := 0
  /-- RECOVERY is held; the PENDING and PROBATION records of an update made in it keep it (R406) -/
  recovery : Bool := false
  /-- copies 0 and 1 of SETTINGS_0, then of SETTINGS_1 -/
  settings : AMap SetCopy
  /-- FACTORY_PATINA by byte; none: erased or never written -/
  factory : Option (AMap Nat)
  deriving DecidableEq, Repr

/-- The cast loader and the settings in use (R393 to R409). -/
structure Upd where
  /-- bytes accepted so far, newest first -/
  bytes : List (BitVec 8) := []
  /-- the arriving cast, once its header has been accepted, and the bytes it has in all -/
  cast : Option Cast := none
  total : Nat := 0
  /-- consecutive failures of the block that arrives (R391) -/
  blockErrs : Nat := 0
  /-- the update began (R393) -/
  startedAt : Nat := 0
  /-- second at which probation ends (R397) -/
  probEnd : Nat := 0
  /-- flash commands refused in a row (R396) -/
  overloads : Nat := 0
  /-- the last HEARTBEAT of the partner that showed UPDATING -/
  partnerUpdAt : Option Nat := none
  lcArmAt : Nat := 0
  /-- staged settings image by byte (R403) -/
  setImg : AMap Nat := []
  /-- the settings slot being written and its image -/
  setPend : Option (Nat × AMap Nat) := none
  /-- the image whose clock, Ethernet and PTP settings wait for IDLE (R404) -/
  applyImg : Option (AMap Nat) := none
  /-- settings in use, by byte: applied fields of R404 -/
  inUse : AMap Nat := []
  running : Option Cast := none
  deriving DecidableEq, Repr

/-! ## Duplex pairs (14) -/

/-- The kinds of an EVENT frame (R351, R354). -/
inductive EventKind where
  | rangeStep | regWrite | trigger | shed | patina | swap
  deriving DecidableEq, Repr

/-- An EVENT frame: its kind, the subject (channel, unit, register address, patina entry), its value and the instant of
the active edge at which it applies. -/
structure DupEvent where
  kind : EventKind
  subject : Nat
  value : Nat
  time : Nat
  /-- number of that edge -/
  edge : Nat := 0
  /-- T of a TRIGGER event, S of a SWAP event -/
  stamp : Nat := 0
  deriving DecidableEq, Repr

/-! ## Linearisation (06) and the armature's own record (15) -/

structure Lin where
  /-- last cold-junction temperatures (binary32), and conversions that left the sensor's domain (R163, R164) -/
  cjTemp : AMap Nat := []
  cjBad : AMap Bool := []
  deriving DecidableEq, Repr

/-- A section of an armature: TYPE, INST, the offset of its head and its body (R369, R371). -/
structure Sect where
  type : Nat
  inst : Nat
  off : Nat
  body : List (BitVec 8)
  deriving DecidableEq, Repr

structure ArmSt where
  /-- the maquette lies in SYSTEM pages 96 to 191, the committed armature in 0 to 95; a commit exchanges the areas (R376) -/
  upper : Bool := false
  /-- the acquisition mode the committed armature names (R4, R380) -/
  acqMode : Nat := 0
  committed : Bool := false
  /-- T_c of the last commit (R380) -/
  commitAt : Nat := 0
  /-- the maquette's bytes so far (R376), and the armature keys and flag its loading began with (R404) -/
  maq : List (BitVec 8) := []
  keys : List (BitVec 8) := []
  sigReq : Bool := false
  /-- the committed armature's sections, and DEVICE.SOURCES -/
  sects : List Sect := []
  sources : Nat := 0
  prestarted : Bool := false
  /-- withdrawal instant, its drain limit in ms as captured, and the end of the drain (R383) -/
  wdAt : Nat := 0
  wdLimit : Nat := 0
  drainEnd : Nat := 0
  deriving DecidableEq, Repr

end Sys2Proof.Machine
end

