-- ==== Sys2Proof/Machine/PartsData.lean ====
section
/-! DEFINITION. The hidden state of the data path: buffer memory, queues and packets (10), streams and trigger units (07),
carvers, locks and relief slots (08), the compression engine (09), DMA (10) and the fabric (11). -/

namespace Sys2Proof.Machine

/-! ## Packets and queues (R253 to R268) -/

/-- What a gap record carries (R21, R328). -/
structure GapInfo where
  relief : Bool
  origin : Nat
  stream : Nat
  grid : Nat
  reason : Nat
  first : Nat
  last : Nat
  openRec : Bool := false
  close : Bool := false
  ended : Bool := false
  issuer : Nat
  time : Nat
  endTime : Nat := 0
  /-- slot of the partition's reserve, or of a spill page above it (R267) -/
  slot : Nat := 0
  deriving DecidableEq, Repr

/-- A packet in a queue (R254, R255): its words, its length in bytes, and what identifies its indices. -/
structure Pkt where
  qseq : Nat := 0
  words : List Nat := []
  len : Nat := 0
  /-- producing hub and stream, or RELIEF_ID; first index and how many; grid -/
  relief : Bool := false
  origin : Nat := 0
  stream : Nat := 0
  grid : Nat := 0
  first : Nat := 0
  count : Nat := 0
  indexed : Bool := false
  /-- a gap record of this hub, its words formed when it is delivered -/
  gap : Option GapInfo := none
  /-- a gap record relayed from below -/
  relayedGap : Bool := false
  poison : Bool := false
  sent : Bool := false
  /-- word offset of its storage in the queue's chain -/
  off : Nat := 0
  /-- words popped by the host, bytes moved by a DMA channel -/
  popped : Nat := 0
  moving : Bool := false
  /-- started after a flush that is still in progress -/
  fresh : Bool := false
  /-- link CSEQ it was sent with, and its copy on a second UP link (R326, R332) -/
  cseq : Nat := 0
  /-- link, VC and CSEQ it arrived with, while its settling waits for the combiner (R326) -/
  rx : Option (Nat × Nat × Nat) := none
  /-- port it arrived on -/
  port : Option Nat := none
  /-- contributions of a relief frame, settled when it is committed (R326) -/
  owes : List (Nat × Nat × Nat) := []
  /-- it has been sent to the next hop before (R21) -/
  again : Bool := false
  deriving DecidableEq, Repr

/-- Producer codes of a queue: the bits of its mask. -/
def prodAcq : Nat := 0
def prodRelief : Nat := 1
def prodLink : Nat := 2
def prodDma : Nat := 3
def prodHost : Nat := 4

/-- The credit account of a producer on a queue (R258), with the top-up it is still owed. -/
structure Cred where
  m : Nat
  cp : Nat
  cw : Nat
  pp : Nat := 0
  wp : Nat := 0
  owedP : Nat := 0
  owedW : Nat := 0
  /-- reservations held above the invariant after a commit moved a VC (R323) -/
  overP : Nat := 0
  overW : Nat := 0
  deriving DecidableEq, Repr

/-- A packet PRODUCING in a queue: its producer, what it belongs to there, its reserved words, whether a flush waits for
it, whether it holds its reservation yet (R259), and its identity, or the whole packet once its last word is there. -/
structure Prod where
  prod : Nat
  tag : Nat
  need : Nat
  old : Bool := false
  granted : Bool := true
  since : Nat := 0
  done : Bool := false
  pkt : Pkt := {}
  deriving DecidableEq, Repr

structure QSt where
  pkts : List Pkt := []
  /-- gap records that hold no slot yet (R267) -/
  waiting : List GapInfo := []
  nextSeq : Nat := 0
  tail : Nat := 0
  creds : AMap Cred := []
  prods : List Prod := []
  /-- the software packet that is open: its length in words, the words so far newest first (R260) -/
  push : Option (Nat × List Nat) := none
  remnant : Bool := false
  /-- the drain has ended: OFF once empty (R268) -/
  ending : Bool := false
  popLen : Nat := 0
  popPoison : Bool := false
  deriving DecidableEq, Repr

/-- A partition of the committed armature (R250). -/
structure Part where
  first : Nat
  count : Nat
  reserve : Nat
  fixed : Nat
  deriving DecidableEq, Repr

structure MemSt where
  parts : AMap Part := []
  queues : AMap QSt := []
  deriving DecidableEq, Repr


/-! ## Streams and trigger units (R175 to R191) -/

/-- Words of one channel at one index, waiting for the row to be complete: raw words, or engineering words as pairs of
32-bit halves. -/
structure Cell where
  index : Nat
  chan : Nat
  eng : Bool
  words : List Nat
  deriving DecidableEq, Repr

/-- The packet of a stream now being filled. -/
structure OpenPkt where
  first : Nat
  body : List Nat := []
  count : Nat := 0
  tag : Nat := 0
  seq : Nat := 0
  /-- the first packet after the start of its stream (R177) -/
  start : Bool := false
  deriving DecidableEq, Repr

/-- One definition of a stream, from its first index F to its stop index (R177, R178). -/
structure StreamRun where
  stream : Nat
  record : Bool
  fmt : Nat
  cmp : Nat
  xform : Nat
  k : Nat
  queue : Nat
  chans : List Nat
  grid : Nat
  epoch : Nat
  p : Nat
  q : Nat
  resume : Nat
  first : Nat
  next : Nat
  stop : Option Nat := none
  seq : Nat := 0
  /-- its stream-start packet has been opened (R177) -/
  begun : Bool := false
  armId : Nat := 0
  pkt : Option OpenPkt := none
  cells : List Cell := []
  /-- history ring of a RECORD stream, oldest first (R183) -/
  hist : Nat := 0
  ring : List (Nat × List Nat) := []
  /-- abandoned packet: its indices are not packed (R259) -/
  skipTo : Nat := 0
  deriving DecidableEq, Repr

/-- A record in progress (R188). -/
structure Rec where
  no : Nat
  first : Nat
  ti : Nat
  stop : Nat
  next : Nat
  frag : Nat := 0
  body : List Nat := []
  count : Nat := 0
  opened : Bool := false
  tag : Nat := 0
  short : Bool
  forced : Bool
  dist : Bool
  source : Nat
  group : Nat
  time : Nat
  missed : Nat
  origin : Nat
  word : Nat
  trunc : Bool := false
  /-- sequence number of the open fragment, and where an abandoned fragment ends -/
  seq : Nat := 0
  skipTo : Nat := 0
  /-- POST when the trigger was accepted -/
  post : Nat := 0
  deriving DecidableEq, Repr

/-- A trigger: its instant, the source that fired, and where it arose (R181, R186, R188). -/
structure Trig where
  time : Nat
  source : Nat
  forced : Bool := false
  group : Nat := 0
  origin : Nat
  word : Nat := 0
  deriving DecidableEq, Repr

/-- A distributed trigger has arrived, and no AUTO timeout forced the unit (R186). -/
def Trig.dist (g : Trig) : Bool := g.source == 7 && !g.forced

/-- A record that a commit ended, while its last rows come (R183, R380), and the stream definition they come from. -/
structure CutRec where
  stream : Nat
  first : Nat
  armId : Nat
  rcd : Rec
  deriving DecidableEq, Repr

structure TUnit where
  /-- VALUE of the last sample evaluated, hysteresis sides, side of the window (R181) -/
  prev : Option Int := none
  lo : Bool := false
  hi : Bool := false
  inside : Option Bool := none
  held : Option Nat := none
  since : Nat := 0
  rcd : Option Rec := none
  /-- records that commits ended, oldest first -/
  tails : List CutRec := []
  disarm : Bool := false
  /-- when the AUTO timeout began (R185) -/
  autoAt : Option Nat := none
  deriving DecidableEq, Repr

structure AcqSt where
  streams : AMap (List StreamRun) := []
  units : AMap TUnit := []
  /-- distributed triggers seen, newest first: group, origin, instant, local time of arrival (R186, R342) -/
  seen : List (Nat × Nat × Nat × Nat) := []
  /-- end of the pulse on each TRIG_OUT ball (R187) -/
  pulses : AMap Nat := []
  /-- streams now PRESSED (R231) -/
  pressed : List Nat := []
  deriving DecidableEq, Repr

/-! ## Compression (R229 to R247) -/

/-- A packet waiting for, or in, the compression engine: where it goes, its transform, and the packet uncompressed. -/
structure CmpJob where
  queue : Nat
  tag : Nat
  stream : Nat
  xform : Nat
  /-- leading bytes the transforms leave alone, bytes of one row (R233, R234) -/
  skip : Nat
  row : Nat
  pkt : Pkt
  /-- its attempt has ended, or it was bypassed: the form in which it commits once its turn comes (R243) -/
  ready : Option Pkt := none
  deriving DecidableEq, Repr

/-- What an attempt runs under: chain depth, lazy evaluation, nice length and stall limit (R238, R242, R247). -/
structure CmpCtl where
  depth : Nat
  lzy : Bool
  nice : Nat
  stallUs : Nat
  deriving DecidableEq, Repr

structure CmpSt where
  /-- input list, oldest first; the head is in the engine (R240) -/
  list : List CmpJob := []
  /-- the present stall's first instant (R242) -/
  stallAt : Option Nat := none
  /-- what the attempt in the engine runs under, as of its start (R244); its queue, and the output pages it holds (R240) -/
  ctl : Option CmpCtl := none
  out : Nat × Nat := (0, 0)
  /-- decompression job: source and destination as captured at GO (R245) -/
  job : Option (Nat × Nat × Nat × Nat × Nat × Bool) := none
  deriving DecidableEq, Repr

/-! ## Control frames and links (13): what one hub keeps of each -/

/-- A TRIGGER frame (R342). -/
structure TrigMsg where
  group : Nat
  unit : Nat
  origin : Nat
  time : Nat
  deriving DecidableEq, Repr

end Sys2Proof.Machine
end

