-- ==== Sys2Proof/Machine/PartsLink.lean ====
section
/-! DEFINITION. What the hub keeps of each lane and link (12, 13): training, link sequence numbers, credits, custody, the
frames themselves; and the pair state of a duplex hub (14) that lives beside its registers. -/

namespace Sys2Proof.Machine

/-! ## Frames (R316 to R318) -/

/-- A HELLO (R338). -/
structure HelloMsg where
  route : Nat
  depth : Nat
  enumOk : Bool
  hw : Nat
  rev : Nat
  role : Nat
  lead : Nat
  width : Nat
  deriving DecidableEq, Repr

/-- A RACC_REQ or RACC_RESP (R340): `op` is the request's OP, `status` the response's STATUS. -/
structure RaccMsg where
  dest : Nat
  src : Nat
  tag : Nat
  op : Nat
  status : Nat
  addr : Nat
  len : Nat
  data : List (BitVec 8)
  deriving DecidableEq, Repr

/-- The DUPLEX frames of R354. -/
inductive DupFrame where
  | heartbeat (route role flags armCrc count : Nat)
  | samples (firstEdge : Nat) (codes : List (List Nat))
  | timemap (edge time period : Nat)
  | digest (window : Nat) (entries : List (Nat × Nat × Nat × Nat))
  | event (e : DupEvent)
  deriving DecidableEq, Repr

/-- The sequenced control frames of R318. -/
inductive Ctrl where
  | trigger (m : TrigMsg)
  | hello (m : HelloMsg)
  | assign (route depth : Nat)
  | raccReq (m : RaccMsg)
  | raccResp (m : RaccMsg)
  | reset (dest auth : Nat)
  | duplex (f : DupFrame)
  | commitNote (route armId tc : Nat) (streams : List Nat)
  deriving DecidableEq, Repr

/-- What had arrived of a DATA frame: LSEQ, VC and PLEN of its header, and the first bytes of its payload, at most 64 (R334). -/
structure FrameStart where
  lseq : Nat
  vc : Nat
  len : Nat
  head : List (BitVec 8)
  deriving DecidableEq, Repr

/-- What was wrong with a frame that was not accepted (R317): the position of the lane on which an invalid block stood in it, that its
sender aborted it, of a DATA frame what had arrived of its header and payload, and whether the UP link of its receive queue was idle
when the header and first 64 bytes had arrived (R334). -/
structure BrokenFrame where
  bad : Option (Fin 4)
  aborted : Bool
  data : Option FrameStart
  cut : Bool
  deriving DecidableEq, Repr

/-- TRIGGER as it stands on the wire (R342): the group, the unit and route address of its origin, and T as a wire stamp. -/
structure TrigFrame where
  group : Fin 256
  unit : Fin 256
  origin : BitVec 48
  stamp : BitVec 96
  deriving DecidableEq, Repr

/-- SAMPLES (R350): LSEQ, FIRST_EDGE and, for each of its four edges, the 6-bit fields of the 192 channels. -/
structure SamplesMsg where
  lseq : BitVec 32
  first : Nat
  codes : List (List Nat)
  deriving DecidableEq, Repr

/-- CREDIT (R323): per VC the grants and limits, and CTRL_FREED. -/
structure CreditMsg where
  pkts : List Nat
  words : List Nat
  freed : Nat
  limP : List Nat
  limW : List Nat
  deriving DecidableEq, Repr

/-- The frame a link's transmitter put on the wire. -/
inductive Frame where
  | nak (lseq : Nat)
  | ack (lseq : Nat)
  | custodyAck (cack : List Nat)
  | credit (m : CreditMsg)
  | time (m : PtpOut)
  | data (lseq cseq vc : Nat) (poison retx : Bool) (len : Nat) (words : List Nat)
  /-- a DATA frame forwarded by cut-through and then aborted: it ends in error characters (R316, R335) -/
  | aborted (lseq cseq vc len : Nat) (head : List (BitVec 8))
  | ctrl (lseq : Nat) (retx : Bool) (c : Ctrl)
  deriving DecidableEq, Repr

/-! ## Links (R319 to R326) -/

/-- A sequenced frame not yet acknowledged: a control frame of the replay store, or the queue and QSEQ of a SENT packet. -/
structure UnAck where
  lseq : Nat
  ctrl : Option Ctrl := none
  queue : Nat := 0
  qseq : Nat := 0
  vc : Nat := 0
  cseq : Nat := 0
  resends : Nat := 0
  deriving DecidableEq, Repr

/-- One data virtual channel of a link: the sender's grants, use and limits, and the receiver's grants and custody. -/
structure VcSt where
  grantP : Nat := 0
  grantW : Nat := 0
  usedP : Nat := 0
  usedW : Nat := 0
  limP : Nat := 0
  limW : Nat := 0
  /-- queue last served (R319) -/
  last : Nat := 255
  /-- receiver: granted to, used by and owed to the partner, next CSEQ expected, CSEQs settled above CACK, CACK -/
  myP : Nat := 0
  myW : Nat := 0
  inP : Nat := 0
  inW : Nat := 0
  oweP : Nat := 0
  oweW : Nat := 0
  rxCseq : Nat := 0
  cack : Nat := 0
  settled : List Nat := []
  deriving DecidableEq, Repr

/-- A stream received over a link (R329): its source, and the last index in custody under its armature. -/
structure Heard where
  origin : Nat
  relief : Bool
  stream : Nat
  grid : Nat
  last : Nat
  armId : Nat
  deriving DecidableEq, Repr

structure LinkSt where
  vcs : AMap VcSt := []
  /-- TIME frames ready, oldest first (R52) -/
  times : List PtpOut := []
  /-- control frames ready, oldest first -/
  ready : List Ctrl := []
  unacked : List UnAck := []
  /-- frames of `unacked` due for resending -/
  resend : List Nat := []
  ctrlSent : Nat := 0
  ctrlAcked : Nat := 0
  ctrlFreed : Nat := 0
  /-- control frames of the partner this hub has freed -/
  myFreed : Nat := 0
  sinceAck : Nat := 0
  /-- the oldest frame accepted since the last LINK_ACK came, and the last new ACK_LSEQ or first frame unacknowledged (R320, R321) -/
  ackFrom : Nat := 0
  replayFrom : Nat := 0
  dueNak : Bool := false
  dueAck : Bool := false
  dueCredit : Bool := false
  dueCustody : Bool := false
  /-- expected LSEQ last answered with LINK_NAK, and when -/
  nakAt : Option (Nat × Nat) := none
  /-- instant of the last change of credit or custody (R323) -/
  changedAt : Nat := 0
  /-- last frame sent, and its bytes: one block of bytes, or the payloads of its Ethernet frames (R316, R343) -/
  out : Option Frame := none
  /-- position of the next block, and the instant the last frame left (R303, R311) -/
  pos : Nat := 0
  idleFrom : Nat := 0
  wire : List (List (BitVec 8)) := []
  /-- the held address came from an ASSIGN on this link (R339) -/
  gaveRoute : Bool := false
  hello : Option HelloMsg := none
  /-- remote-access port: tag of the request outstanding, and when it was issued -/
  racc : Option Nat := none
  raccAt : Nat := 0
  /-- Kamrel-over-Ethernet: KFID sent, and the frame being assembled: KFID, fragments so far, FCOUNT -/
  kfid : Nat := 0
  asm : Option (Nat × Nat × Nat) := none
  /-- streams received over this link -/
  streams : List Heard := []
  deriving DecidableEq, Repr

/-- A deduplication entry (R327), newest first in its list. -/
structure Dedup where
  relief : Bool
  origin : Nat
  stream : Nat
  armId : Nat
  seq : Nat
  maxIndex : Nat
  deriving DecidableEq, Repr

/-- What the hub keeps for one stream number of a pair (R336). -/
structure PairSt where
  armId : Nat
  passedMax : Option Nat := none
  frags : List (Nat × Nat) := []
  deriving DecidableEq, Repr

/-- An open DOWNSTREAM_RESET record (R329), with its queue. -/
structure OpenRec where
  gap : GapInfo
  queue : Nat
  deriving DecidableEq, Repr

structure Links where
  links : AMap LinkSt := []
  /-- deduplication table, the entry updated last first -/
  dedup : List Dedup := []
  opens : List OpenRec := []
  /-- pairs of the armature: addresses of the members; state by pair and stream -/
  pairs : List (Nat × Nat) := []
  pairSt : AMap PairSt := []
  /-- route address held; all ones: unassigned (R337) -/
  held : Nat := 2 ^ 48 - 1
  /-- the address was given by DEV_ROUTE SET (R339) -/
  routeSet : Bool := false
  raccTag : Nat := 0
  /-- links the armature names ACTIVE_ONLY -/
  activeOnly : List Nat := []
  deriving DecidableEq, Repr

/-! ## Lanes (R293 to R314) -/

/-- A 66-bit block: its sync header (01 for data, 10 for control) and its 64 payload bits (R300). -/
structure Block where
  data : Bool
  payload : BitVec 64
  deriving DecidableEq, Repr

structure LaneSt where
  /-- the deadline of the attempt in progress, the end of BACKOFF, the first entry to QUIET -/
  deadline : Nat := 0
  backoffEnd : Nat := 0
  quietAt : Option Nat := none
  /-- the attempt in progress began in QUIET (R308) -/
  probe : Bool := false
  /-- SLIP at the start of the search and offsets tried (R304) -/
  searchStart : Nat := 0
  tried : Nat := 0
  adapted : Bool := false
  /-- consecutive matching TRAIN sets with READY received; TRAIN sets sent, and those of them with READY (R307) -/
  trains : Nat := 0
  sets : Nat := 0
  readySets : Nat := 0
  /-- instant the slip, adaptation or marker interval in progress began (R298, R303, R304) -/
  since : Nat := 0
  hiBerAt : Option Nat := none
  /-- low power: transmitter idle, WAKE columns until -/
  txLp : Bool := false
  wakeEnd : Option Nat := none
  rxWake : Option Nat := none
  markers : Nat := 0
  pllLost : Bool := false
  /-- test bits inverted and not yet checked; the instant up to which the checked bits stand in the registers; the first bits of the
  pattern sent (R313) -/
  injected : Nat := 0
  prbsAt : Nat := 0
  pattern : List Bool := []
  /-- scrambler, and the blocks sent last, as they are serialised (R300) -/
  scrambler : BitVec 58 := 0
  tx : List Block := []
  deriving DecidableEq, Repr

/-! ## Duplex pairs (R346 to R364) -/

/-- A digest held (R356): window, group kind and id, words, CRC. -/
structure Digest where
  window : Nat
  kind : Nat
  id : Nat
  words : Nat
  crc : Nat
  deriving DecidableEq, Repr

/-- Whose codes a member's chains take from a chain edge on: its own, or its partner's; the edge of that member nearest the instant stands
for the chain edge (R360, R362). -/
structure ChainSrc where
  first : Nat
  own : Bool
  at_ : Nat
  deriving DecidableEq, Repr

structure DupSt where
  armCrc : Nat := 0
  hbCount : Nat := 0
  /-- last HEARTBEAT of the partner: its ARM_CRC and flags -/
  partner : Option (Nat × Nat) := none
  /-- instant of the last frame or pulse from the active (R360) -/
  lastSign : Nat := 0
  lastPulse : Nat := 0
  /-- first edge without the active's code -/
  lostEdge : Option Nat := none
  own : List Digest := []
  other : List Digest := []
  /-- bank and slot outputs of windows not yet digested: window, kind, id, order key, bytes -/
  parts : List (Nat × Nat × Nat × Nat × List (BitVec 8)) := []
  /-- TIMEMAP entries, newest first: edge, time and period (R350) -/
  maps : List (Nat × Nat × Nat) := []
  /-- the active's codes and clip marks by edge: for each channel the 6-bit field of SAMPLES (R350, R354) -/
  codes : AMap (List Nat) := []
  /-- the active's patina entries over time, newest first (R350, R351) -/
  pats : List (Nat × AMap Nat) := []
  tdiffRun : Nat := 0
  anaRun : AMap Nat := []
  /-- second of the last report by kind and id -/
  reported : AMap Nat := []
  /-- report requests outstanding, by tag -/
  reports : List Nat := []
  /-- sources of the chains, newest first; before the first its own codes by their own numbers (R350, R360) -/
  srcs : List ChainSrc := []
  /-- drivers start at this instant (R361, R362) -/
  driverAt : Option Nat := none
  /-- S of the pending swap (R362) -/
  swapAt : Nat := 0
  /-- DUPLEX_SYNC pulses driven: width in ns of the last -/
  pulseNs : Nat := 0
  /-- first window to compare by group key, once known -/
  compareFrom : AMap Nat := []
  deriving DecidableEq, Repr

end Sys2Proof.Machine
end

