-- ==== Sys2Proof/Machine/PartsCarve.lean ====
section
/-! DEFINITION. What the hub keeps of its carvers and relief slots (chapter 08), its DMA channels (10) and the fabric (11). -/

namespace Sys2Proof.Machine

/-! ## Carvers (R192 to R216) -/

/-- One input of a task: a channel's I or Q word, or the next result of a lower task (R373). -/
structure TaskIn where
  num : Nat
  q : Bool
  fromTask : Bool
  deriving DecidableEq, Repr

/-- A task of a carver (R198, R373) with its running state (R201, R202). -/
structure Task where
  op : Nat
  kind : Nat := 0
  skip : Bool := false
  slot : Option Nat := none
  lock : Option Nat := none
  inputs : List TaskIn := []
  outs : Nat := 1
  base : Nat := 0
  /-- SKIND, DMODE; window length of BANDPOWER and its bands -/
  mode : Nat := 0
  n : Nat := 0
  bands : List (Nat × Nat) := []
  thresh : Nat := 0
  on : Nat := 0
  off : Nat := 0
  staK : Nat := 0
  ltaK : Nat := 0
  minGap : Nat := 0
  countEn : Bool := false
  /-- matrix of the committed armature -/
  matrix : List Nat := []
  /-- THRESH, ON and OFF of the committed armature -/
  levels : Nat × Nat × Nat := (0, 0, 0)
  /-- BANDPOWER's history, oldest first: for each index one value of each channel, in binary32 (R201) -/
  past : List (List Nat) := []
  /-- indices in the history, evaluations since the start, since the last firing, armed, averages -/
  hist : Nat := 0
  evals : Nat := 0
  gap : Nat := 0
  armed : Bool := true
  sta : Nat := 0
  lta : Nat := 0
  frames : Nat := 0
  /-- values of DETECT_SET and a DETECT_RESET that wait for the next frame -/
  staged : Option (Nat × Nat × Nat) := none
  reset : Bool := false
  /-- first frame, stop index of a definition a commit ended (R195), and the frame from which values a commit staged
  apply: DETECT values, or a matrix in the shadow bank (R380) -/
  first : Nat := 0
  stop : Option Nat := none
  stagedAt : Nat := 0
  flip : Option Nat := none
  deriving DecidableEq, Repr

/-- One frame's input. -/
structure CFrame where
  index : Nat
  count : Nat
  cells : List Cell
  deriving DecidableEq, Repr

/-- A PARAM_SWAP that waits for its frame (R208). -/
structure Swap where
  task : Nat
  index : Nat
  crc : Nat
  tries : Nat := 0
  deriving DecidableEq, Repr

structure Eng where
  grid : Nat := 0
  epoch : Nat := 0
  p : Nat := 1
  q : Nat := 1
  len : Nat := 1
  tasks : List Task := []
  /-- definitions a commit ended, by task number, while their last frames are computed -/
  old : List (Nat × Task) := []
  /-- first index of the next frame whose input is to complete; the stop index -/
  nextIn : Nat := 0
  stop : Option Nat := none
  cells : List Cell := []
  running : Option CFrame := none
  held : Option CFrame := none
  swap : Option Swap := none
  sram : AMap Nat := []
  /-- skipped frames at which the operators' state is still to restart (R197) -/
  skips : List Nat := []
  /-- how often the DATA region has been written; nothing has been written since it was cleared (R205, R215) -/
  gen : Nat := 0
  blank : Bool := false
  /-- instants of automatic restarts; the restart in progress began; frames from this instant on are processed -/
  autos : List Nat := []
  restartAt : Nat := 0
  resumeAt : Nat := 0
  deriving DecidableEq, Repr

/-! ## Relief slots (R217 to R225) -/

/-- What a frame has gathered. -/
structure RFrame where
  index : Nat
  elems : List Int
  ports : List Nat := []
  localIn : Bool := false
  skip : Bool := false
  sat : Bool := false
  restarted : Bool := false
  trunc : Bool := false
  poison : Bool := false
  subPartial : Bool := false
  status : Nat := 0
  qual : Nat := 0
  contrib : Nat := 0
  invalid : Nat := 0
  flagged : Nat := 0
  /-- link, VC and CSEQ of the frames to settle when this one commits -/
  settle : List (Nat × Nat × Nat) := []
  deriving DecidableEq, Repr

/-- The hub's local contribution to one frame: carvers whose input is complete, carvers that have finished with the frame, and what they
gave; `lost` if one of them skipped it. -/
structure RLocal where
  index : Nat
  ins : List Nat := []
  done : List Nat := []
  lost : Bool := false
  acc : RFrame
  deriving DecidableEq, Repr

structure Slot where
  id : Nat
  grid : Nat
  epoch : Nat
  p : Nat
  q : Nat
  combine : Nat
  len : Nat
  elems : Nat
  scale : Int
  openMax : Nat
  hasLocal : Bool
  queue : Nat
  expect : Nat
  waitUs : Nat
  ports : List Nat
  pairs : List (Nat × Nat)
  /-- carvers whose tasks write the slot -/
  engs : List Nat := []
  /-- carvers that wrote the slot before a commit changed them: RESUME_INDEX of that commit, and the carvers -/
  engsWere : List (Nat × List Nat) := []
  first : Nat
  next : Nat
  stop : Option Nat := none
  seq : Nat := 0
  armId : Nat := 0
  opens : List RFrame := []
  locals : List RLocal := []
  /-- frames emitted at or above `next`; ports of the latest emitted frames -/
  emitted : List Nat := []
  past : List (Nat × List Nat × Bool) := []
  deriving DecidableEq, Repr

/-- Counters of a slot; they outlive a change of the slot. -/
structure SlotCnt where
  framesOut : Nat := 0
  partialOut : Nat := 0
  lateOut : Nat := 0
  skips : Nat := 0
  stale : Nat := 0
  mismatch : Nat := 0
  dup : Nat := 0
  sat : Bool := false
  ovr : Bool := false
  seqerr : Bool := false
  deriving DecidableEq, Repr

structure CarveSt where
  engs : AMap Eng := []
  /-- definitions that commits gave a carver with another grid, L or layout, in order, until the last frame of the one before is done -/
  coming : AMap (List Eng) := []
  /-- slots by number: the one in force and, before it, old ones that still have frames to emit -/
  slots : AMap (List Slot) := []
  counts : AMap SlotCnt := []
  /-- number of the next relief packet at the queues -/
  tag : Nat := 0
  deriving DecidableEq, Repr

/-! ## DMA (R269 to R275) -/

/-- A descriptor as fetched (R270). -/
structure Desc where
  addr : Nat
  srcKind : Nat
  dstKind : Nat
  chain : Bool
  irq : Bool
  lockAcq : Bool
  lockRel : Bool
  lockNum : Nat
  lockWait : Nat
  len : Nat
  src : Nat
  dst : Nat
  route : Nat
  next : Nat
  deriving DecidableEq, Repr

/-- A memory request of a DMA channel to a remote hub: its tag, how far into LEN it starts, its length (R340). -/
structure RemReq where
  tag : Nat
  from_ : Nat
  len : Nat
  done : Bool := false
  deriving DecidableEq, Repr

structure DmaSt where
  desc : Option Desc := none
  /-- instant of the first attempt at the lock -/
  lockAt : Nat := 0
  /-- the descriptor's words may move -/
  moving : Bool := false
  /-- the channel has a destination packet PRODUCING -/
  producing : Bool := false
  poison : Bool := false
  /-- words already moved of the destination packet, or of the source packet in progress -/
  words : List Nat := []
  /-- bytes already moved of the source packet in progress -/
  inPkt : Nat := 0
  /-- requests of a REMOTE endpoint outstanding or answered out of order, oldest first, and bytes requested so far -/
  reqs : List RemReq := []
  asked : Nat := 0
  deriving DecidableEq, Repr

/-! ## The fabric (R278 to R291) -/

/-- The classes of R279. -/
inductive Cls where
  | a | b | c
  deriving DecidableEq, Repr

/-- A transfer on a resource: its requester, class and length in words, the words done, when its present wait began and
under which deadline, the cycles it has waited so far, and what has befallen it. -/
structure Req where
  who : Nat
  cls : Cls
  words : Nat
  done : Nat := 0
  since : Nat
  deadline : Nat := 0
  waited : Nat := 0
  pre : Bool := false
  preNow : Bool := false
  starved : Bool := false
  deriving DecidableEq, Repr

structure ResSt where
  holder : Option Req := none
  /-- words done of the holder's tenure -/
  tenure : Nat := 0
  lastA : Nat := 63
  lastB : Nat := 63
  waiting : List Req := []
  /-- words each class A requester has used in the window, and those masked in it -/
  used : AMap Nat := []
  masked : List Nat := []
  /-- last completion of each requester: wait count, DELAYED -/
  last : AMap (Nat × Bool) := []
  deriving DecidableEq, Repr

structure ArbSt where
  res : AMap ResSt := []
  /-- PREEMPT of the armature: bit r applies to resource r -/
  preempt : Nat := 0
  /-- quotas of the armature, and class B levels written (key resource * 64 + requester) -/
  quota : AMap Nat := []
  level : AMap Nat := []
  /-- windows run from here while an armature is committed -/
  windowAt : Nat := 0
  running : Bool := false
  deriving DecidableEq, Repr

/-! ## The SPI slave (R437 to R439) -/

/-- A posted write: the register it goes to and the value, or both values of a WRITE64. -/
structure Posted where
  addr : Nat
  value : Nat
  second : Option Nat := none
  deriving DecidableEq, Repr

structure Spi where
  posted : List Posted := []
  deriving DecidableEq, Repr

/-! ## Operands of commands -/

/-- What an Ethernet frame turns out to be. -/
inductive EthKind where
  | ptp | fragment | other | bad
  deriving DecidableEq, Repr

/-- Whose request runs out of time: a link's remote-access port, a DMA channel, a report of the pair. -/
inductive RaccWho where
  | port (k : Fin 64)
  | dma (c : Fin 32)
  | report (tag : Nat)
  deriving DecidableEq, Repr

/-- Why a fault halts a channel: what the rules give at the next words, or what the memory, the path or the fabric does
at an offset of the descriptor. -/
inductive DmaCause where
  | word
  | ecc
  | link
  | refused
  deriving DecidableEq, Repr

/-- What joins a round: requester, class, words of its transfer. -/
structure Arrival where
  who : Fin 64
  cls : Cls
  words : Nat
  deriving DecidableEq, Repr

/-- The gated units that start ahead of their use and whose start no other command shows (R28). -/
inductive ClkUnit where
  | carver (e : Fin 16) | compressor | memory
  deriving DecidableEq, Repr

/-- The transaction that chip select cuts short: one with an unknown command, a read after START (`two` for READ64), or a
write inside its data; `first` is the complete first register of a WRITE64. -/
inductive SpiCut where
  | command (c : BitVec 8)
  | read (addr : Word) (two : Bool)
  | write (addr : Word) (first : Option Word)
  deriving DecidableEq, Repr

end Sys2Proof.Machine
end

