-- ==== Sys2Proof/Syntax.lean ====
section
/-! DEFINITION. The commands of the hub: one constructor for each row of the spec's opcode table, in the table's order.
Channels, lanes, queues, engines and the other units are named by their number (`n` a channel or lane, `k` the lead lane of
a link, `q` a queue, `e` an engine, `c` a DMA channel, `g` a grid); an instant is in units of 2^-32 ns; what the outside
world or a unit outside the model decides is an operand. -/

namespace Sys2Proof

open Sys2Proof.Machine

/-- A command. -/
inductive Instr where
  /-- POWER_ON (R418). VPLN rises through its threshold: the plinth is cleared and the hub is reset. -/
  | powerOn
  /-- SUPPLY_RESET (R421). PWR_GOOD falls while VPLN holds: a SUPPLY reset is entered within 1 µs and no new flash
  command is issued. -/
  | supplyReset
  /-- RST_N (R419). A low pulse on RST_N resets the hub and holds it in reset while low. Operands: `ns` is the width
  of the pulse. -/
  | rstN (ns : Nat)
  /-- WDT_CORE (R423). The 100 ms core watchdog expires and resets the hub. -/
  | wdtCore
  /-- WDT_WARN (R423). Half the host watchdog period passes without a kick: WARN is set, WDT_WARN is logged and the
  reset interrupt is raised. -/
  | wdtWarn
  /-- WDT_HOST (R423). The host watchdog period passes without a kick and the hub resets with source WDT_HOST. -/
  | wdtHost
  /-- WDT_KICK (R423). A write of the kick value to RST_WDT_KICK restarts the host watchdog; any other value sets
  WERR. Operands: `v` is the value written. -/
  | wdtKick (v : Word)
  /-- RST_KEY (R422). A write of the key to RST_KEY arms a software or partner reset for 1 s. Operands: `v` is the
  value written. -/
  | rstKey (v : Word)
  /-- RST_KEY_EXPIRY (R422). The 1 s arming of RST_KEY lapses. -/
  | rstKeyExpiry
  /-- SW (R422). RST_CTL.SW resets this hub if armed. -/
  | swReset
  /-- PARTNER (R422). RST_CTL.PARTNER sends an authorised RESET frame to the duplex partner if armed and possible. -/
  | partnerReset
  /-- RELEASE (R416). The reset condition ends and PWR_GOOD has been high for 10 ms, so start-up begins. -/
  | release
  /-- SYSTEM_PLL_LOCKED (R416). The system PLL locks, the time unit runs and the gesso pass starts or the wake
  proceeds. -/
  | systemPllLocked
  /-- PLL_FAIL (R29). A PLL fails to lock within twice its lock time: a trouble-log entry and an interrupt follow, and
  a failed modulator PLL halts every chain. Operands: `which`: 0 system, 1 the modulators, 2 to 17 a lane quad. -/
  | pllFail (which : Fin 18)
  /-- MODULATOR_PLL_RELOCK (R29). The modulator PLL relocks after a failure and valid samples return 100 µs later. -/
  | modulatorPllRelock
  /-- LANE_WAKE_FAIL (R29). A lane fails to leave its low-power state within 40 µs and counts as a lost link. -/
  | laneWakeFail (n : Fin 64)
  /-- GESSO_PASS_COMPLETE (R421). The gesso pass finishes wiping memory and engine state, and the ROM loader selects a
  cast. -/
  | gessoPassComplete
  /-- CAST_LOADED (R416). The cast has been read and checked, the management core starts and keeps the carver copy. -/
  | castLoaded
  /-- SETTINGS_LOADED (R124). The patina store and settings are loaded, the link plan is applied and local time is
  loaded from coarse time. -/
  | settingsLoaded
  /-- START_UP_COMPLETE (R416). The hub reaches IDLE or MAINTENANCE, sets READY, raises the reset interrupt and starts
  link attempts. -/
  | startUpComplete
  /-- XTAL_FAIL (R411). The crystal stops for 4 cycles and the plinth runs from its internal oscillator. -/
  | xtalFail
  /-- XTAL_OK (R411). The crystal has delivered 1,024 good cycles and the plinth returns to it. -/
  | xtalOk
  /-- MODE_IDLE (R443). DEV_MODE GO with CMD IDLE leaves MAINTENANCE, discards the maquette, or withdraws the armature
  from an acquisition mode. -/
  | modeIdle
  /-- MODE_DORMANT (R412). DEV_MODE GO with CMD DORMANT starts entry to DORMANT from IDLE unless custody, schedules or
  flash writes forbid it. -/
  | modeDormant
  /-- MODE_MAINTENANCE (R443). DEV_MODE GO with CMD MAINTENANCE enters MAINTENANCE from IDLE. -/
  | modeMaintenance
  /-- DORMANT_ENTRY_COMPLETE (R412). Entry to DORMANT completes: lanes, buffer memory and fast clocks are off. -/
  | dormantEntryComplete
  /-- TIMER_WAKE (R413). Coarse time reaches PWR_WAKE_AT and wakes the hub. -/
  | timerWake
  /-- PIN_WAKE (R413). A TRIG_IN pin shows the selected edge for 2 plinth cycles and wakes the hub. Operands: an edge
  on the pin. -/
  | pinWake (pin : Fin 4) (rising : Bool)
  /-- LINK_WAKE (R413). Signal is detected on an enabled lane for 10 µs and wakes the hub. Operands: wake signalling
  on lane `k`. -/
  | linkWake (k : Fin 64)
  /-- WAKE (R413). PWR_CTL.WAKE written in DORMANT wakes the hub. -/
  | wake
  /-- WAKE_MEMORY_READY (R414). After a wake the buffer memory is powered and wiped, and the hub reaches IDLE with
  lanes starting. -/
  | wakeMemoryReady
  /-- CLOCK_START (R28). The hub starts a gated unit ahead of its next use by the start time plus the wake margin.
  Operands: the unit whose clock starts. -/
  | clockStart (u : ClkUnit)
  /-- STEP (R38). ADJ_GO with ADJ_MODE 0 adds TIME_ADJ to local time at the next tick, unless a grid runs or NS is out
  of range. -/
  | step
  /-- SLEW (R37). ADJ_GO with ADJ_MODE 1 adds TIME_ADJ to the outstanding slew and QUALITY becomes SLEWING. -/
  | slew
  /-- SLEW_END (R37). The outstanding slew reaches 0 and QUALITY leaves SLEWING. -/
  | slewEnd
  /-- SLEW_ABORT (R37). TIME_CTL.SLEW_ABORT discards the outstanding slew and QUALITY leaves SLEWING. -/
  | slewAbort
  /-- SRC_CHANGE (R45). A write to TIME_CTL.SRC changes the time source by a slew of the negated offsetFromMaster.
  Operands: `src` is the value written to TIME_CTL.SRC. -/
  | srcChange (src : Fin 4)
  /-- HOLDOVER_FORCE (R41). Setting or clearing HOLDOVER_FORCE holds or releases the servo, lock test and switchover.
  Operands: `v` is the bit written. -/
  | holdoverForce (v : Bool)
  /-- INCR_ADJ_WRITE (R36). A host write to TIME_INCR_ADJ sets the tick increment or is refused with ADJ_RANGE.
  Operands: `v` is the value written. -/
  | incrAdjWrite (v : Word)
  /-- SYNC_RX (R48). A received Sync is time-stamped and used as a measurement, or corrected and relayed by a
  transparent clock. Operands: `m` as it came in on `lane`, with the instants at which it came in and at which it goes
  out where it is relayed. -/
  | syncRx (lane : Fin 64) (m : PtpMsg) (ingress : Nat) (egress : List (Nat × Nat))
  /-- FOLLOW_UP_RX (R48). A received Follow_Up completes a two-step measurement or is corrected in transparent mode.
  Operands: `m` as it came in on `lane`, but for its preciseOriginTimestamp, which is `ts`. -/
  | followUpRx (lane : Fin 64) (m : PtpMsg) (ts : Nat)
  /-- DELAY_REQ_RX (R48). A received Delay_Req is answered with Delay_Resp by a master port. Operands: `ingress` and
  `egress` as for SYNC_RX. -/
  | delayReqRx (lane : Fin 64) (m : PtpMsg) (ingress : Nat) (egress : List (Nat × Nat))
  /-- DELAY_RESP_RX (R48). A received Delay_Resp completes a path-delay measurement. Operands: `m` as it came in on
  `lane`. -/
  | delayRespRx (lane : Fin 64) (m : PtpMsg)
  /-- PDELAY_REQ_RX (R48). A received Pdelay_Req is answered with Pdelay_Resp and its follow-up. Operands: `egress` is
  the instant at which the answer leaves. -/
  | pdelayReqRx (lane : Fin 64) (m : PtpMsg) (ingress : Nat) (egress : List (Nat × Nat))
  /-- PDELAY_RESP_RX (R48). A received Pdelay_Resp contributes to the peer delay measurement. Operands: `times` holds
  the instant at which it came in and those at which it goes out where it is relayed. -/
  | pdelayRespRx (lane : Fin 64) (m : PtpMsg) (times : Nat × List (Nat × Nat))
  /-- PDELAY_RESP_FOLLOW_UP_RX (R48). A received Pdelay_Resp_Follow_Up completes the peer delay measurement. Operands:
  `m` as it came in on `lane`. -/
  | pdelayRespFollowUpRx (lane : Fin 64) (m : PtpMsg)
  /-- ANNOUNCE_RX (R48). A received Announce feeds the best master clock algorithm of the domain slot. Operands: `m`
  as it came in on `lane`. -/
  | announceRx (lane : Fin 64) (m : PtpMsg)
  /-- SIGNALING_MANAGEMENT_RX (R48). A Signaling or Management message is relayed by a transparent clock or discarded.
  Operands: `m` as it came in on `lane`. -/
  | signalingManagementRx (lane : Fin 64) (m : PtpMsg)
  /-- ANNOUNCE_TIMEOUT (R44). The announce receipt timeout of a domain slot expires and the slot becomes invalid.
  Operands: `d` is the domain slot. -/
  | announceTimeout (d : Fin 2)
  /-- SYNC_SEND (R50). A master port sends Sync at its interval, in one-step or two-step form. Operands: `port` is
  the lane and the domain slot, `egress` the instant at which it leaves. -/
  | syncSend (port : Fin 64 × Fin 2) (egress : Nat)
  /-- TX_TIMESTAMP_RETURN (R50). The transmit stamp of a two-step Sync returns and the firmware sends Follow_Up.
  Operands: `seq` names the Sync, `egress` is its transmit instant. -/
  | txTimestampReturn (lane : Fin 64) (seq : Nat) (egress : Nat)
  /-- ANNOUNCE_SEND (R48). A port sends Announce at its interval once locked to the domain. Operands: `d` is the
  domain slot announced. -/
  | announceSend (lane : Fin 64) (d : Fin 2)
  /-- PDELAY_REQ_SEND (R48). A peer-delay port sends Pdelay_Req at its interval. Operands: `egress` is the instant at
  which it leaves. -/
  | pdelayReqSend (d : Fin 2) (egress : Nat)
  /-- DELAY_REQ_SEND (R48). A request-response slave sends Delay_Req. Operands: `egress` is the instant at which it
  leaves. -/
  | delayReqSend (d : Fin 2) (egress : Nat)
  /-- PPS_IN_EDGE (R47). A PPS_IN edge is captured and applies armed time-of-day or serves as a phase measurement.
  Operands: `e` says whether the edge rises, and its instant. -/
  | ppsInEdge (e : Bool × Nat)
  /-- TOD_ARM (R47). TIME_TOD_SEC_HI.ARM assigns the held second to the next PPS_IN edge. -/
  | todArm
  /-- TOD_MISSED (R47). No PPS_IN edge arrives within 1.5 s of ARM: ARM clears and TOD_MISSED is set. -/
  | todMissed
  /-- PPS_IN_LOST (R47). 3 s pass without a PPS_IN edge: PPS_IN_LOST is set and switchover rules apply. -/
  | ppsInLost
  /-- PPS_OUT_PULSE (R55). PPS_OUT rises at a whole second of local time. -/
  | ppsOutPulse
  /-- PPS_OUT_PULSE_END (R55). WIDTH_MS after its rise, PPS_OUT falls. -/
  | ppsOutPulseEnd
  /-- TRIG_IN_EDGE (R56). An edge on TRIG_IN is noted at its instant and the glitch filter starts. Operands: the pin,
  the edge's direction and its instant `t`. -/
  | trigInEdge (pin : Fin 4) (rising : Bool) (t : Nat)
  /-- GLITCH_FILTER_END (R56). The glitch filter passes an edge: it is captured into the FIFO, and pin triggers and
  injected conversions are requested. -/
  | glitchFilterEnd (pin : Fin 4)
  /-- CAP_W0_READ (R56). A read of CAP_W0 moves the oldest capture into the snapshot, or returns all ones when empty.
  Operands: `path` is 0 for SPI and 1 for remote access, here and below. -/
  | capW0Read (path : Fin 2) (pin : Fin 4)
  /-- TIME_OUT_ARM (R57). TIME_OUT ARM arms the output in its mode, or is refused with MISSED or WERR. -/
  | timeOutArm (pin : Fin 4)
  /-- TIME_OUT_DISARM (R57). TIME_OUT DISARM stops the output after any pulse in progress. -/
  | timeOutDisarm (pin : Fin 4)
  /-- TIME_OUT_PULSE (R57). A TIME_OUT instant is reached in ONCE, PERIODIC or GRID mode and the pulse starts.
  Operands: `n` is the index in GRID mode. -/
  | timeOutPulse (pin : Fin 4) (n : Nat)
  /-- TIME_OUT_PULSE_END (R57). WIDTH ticks after its start, a TIME_OUT pulse ends. -/
  | timeOutPulseEnd (pin : Fin 4)
  /-- SCHED_CANCEL (R58). CANCEL in a scheduler slot cancels its pending action and the owner reports it. -/
  | schedCancel (slot : Fin 8)
  /-- GRID_INSTANT (R60). The instant of a grid index passes: GRID-mode pulses, grid scans, injected conversions and
  GRID triggers fall due. -/
  | gridInstant (g : Fin 8)
  /-- GRID_START (R62). The instant of RESUME_INDEX is reached and a WAITING grid becomes RUNNING. -/
  | gridStart (g : Fin 8)
  /-- STOP_INDEX_PASSED (R62). The instant of the stop index passes and a STOPPING grid becomes IDLE. -/
  | stopIndexPassed (g : Fin 8)
  /-- MUX_WRITE (R69). A write of CH[n].CFG.MUX changes the input connection as a disturbance instant. Operands: `m`
  is the value written to MUX. -/
  | muxWrite (n : Fin 192) (m : Fin 4)
  /-- RANGE_WRITE (R75). A write to CH[n].RANGE.RANGE changes the range at the next modulator edge, or is refused.
  Operands: `v` is the value written to RANGE. -/
  | rangeWrite (n : Fin 192) (v : Fin 8)
  /-- RANGE_LIMIT_WRITE (R76). A write of RANGE_MIN or RANGE_MAX that leaves the range outside the span steps it at
  once to the nearest limit. Operands: the two limits written. -/
  | rangeLimitWrite (n : Fin 192) (lo : Fin 8) (hi : Fin 8)
  /-- AUTORANGE_STEP_UP (R76). The peak exceeds 95 % of full scale for 4 samples and the range steps up, or waits for
  the dwell end. -/
  | autorangeStepUp (n : Fin 192)
  /-- DWELL_END (R77). A dwell ends: a deferred up step is taken, or the range steps down if the dwell peak stayed
  below 80 %. Operands: `upHolds`: the condition of the deferred step up still holds; `lowPeak`: the dwell's peak
  stayed below 80 % of the next lower full scale. -/
  | dwellEnd (n : Fin 192) (upHolds : Bool) (lowPeak : Bool)
  /-- OPEN_DECLARED (R80). An open condition has held for EXC_OPEN_TIME and the channel is declared open. Operands:
  `c` is the condition and the instant it began. -/
  | openDeclared (n : Fin 192) (c : OpenCond × Nat)
  /-- OPEN_ENDED (R81). An open condition has been absent for EXC_OPEN_TIME and OPEN clears. Operands: `n` is the channel
  and the instant from which no condition has held. -/
  | openEnded (n : Fin 192 × Nat)
  /-- APPLY (R94). CH[n].EXC_CFG.APPLY applies MODE, LEVEL and carrier values as one excitation change, or refuses it.
  -/
  | apply (n : Fin 192)
  /-- RESTORE (R93). CH[n].EXC_CFG.RESTORE restores a shed channel if the budget allows, else sets RESTORE_REFUSED. -/
  | restore (n : Fin 192)
  /-- AUTO_RESTORE (R93). With AUTO_RESTORE, at most every 100 ms the governor restores one shed channel with enough
  headroom. -/
  | autoRestore
  /-- GOVERNOR_WINDOW_END (R90). At the end of EXC_GOV_WINDOW the governor compares the averaged draw with the budget
  and sheds channels. Operands: `draws`: the mean draw of each channel over the window, in µW. -/
  | governorWindowEnd (draws : List (Nat × Nat))
  /-- FAST_TRIP (R91). Five consecutive measurements exceed 1.25 times the budget and the governor decides at once.
  Operands: one 10 µs measurement; `draws`: the draw of each channel in it, in µW. -/
  | fastTrip (draws : List (Nat × Nat))
  /-- FOLD_BACK (R86). A load holds a channel at its limit for 50 µs and the limiter folds back to 1.2 mA. -/
  | foldBack (n : Fin 192)
  /-- FOLD_RETRY (R86). Every FOLD_RETRY period the limiter restores full limits for 1 ms. -/
  | foldRetry (n : Fin 192)
  /-- FOLD_RETRY_END (R86). A 1 ms retry ends without a new fold-back and FOLDED clears. -/
  | foldRetryEnd (n : Fin 192)
  /-- VEXC_LOSS (R87). Loss of VEXC discharges excitation and sets EXCF with REASON FAULT on every excited channel. -/
  | vexcLoss
  /-- EXC_BUDGET_WRITE (R89). A host write to EXC_BUDGET takes effect or is refused with WERR. Operands: `v` is the
  budget written. -/
  | excBudgetWrite (v : BitVec 12)
  /-- EXC_GROUP_START (R95). At commit, each group of 16 channels starts excitation 20 µs after the previous group. -/
  | excGroupStart
  /-- OVERLOAD (R106). A modulator is in overload and resets its integrators, marking samples clipped. -/
  | overload (n : Fin 192)
  /-- OVERLOAD_RECOVERY_END (R106). 32 clocks of overload recovery end and the modulator output is used again. -/
  | overloadRecoveryEnd (n : Fin 192)
  /-- MODULATOR_VALID (R107). 100 µs after a bank's analogue clock starts, its modulator output becomes valid. -/
  | modulatorValid (b : Fin 12)
  /-- SCAN_START (R112). HK_CTL.SCAN_START starts a single scan, or the start is skipped. -/
  | scanStart
  /-- SCAN_TIMER (R112). In timer mode a scan starts every PERIOD µs, or the start is skipped. -/
  | scanTimer
  /-- SCAN_STOP (R112). HK_CTL.SCAN_STOP ends the scan after the conversion in progress and sets SCAN_ABORT. -/
  | scanStop
  /-- HK_SETTLE_END (R112). The settling before a regular conversion ends and the conversion slot begins. -/
  | hkSettleEnd
  /-- HK_CONVERSION_DONE (R108). A housekeeping conversion slot ends and its result goes to HK_DATA or an injected
  slot, and to HK_TEMP_LAST. Operands: `raw` is the code converted. -/
  | hkConversionDone (raw : BitVec 16)
  /-- INJ_GO (R115). HK_INJ GO requests an injected conversion, served under R116 or dropped with MISS. -/
  | injGo (j : Fin 4)
  /-- CAL_START (R117). HK_CAL_CTL.START in STREAM or SEGMENT enters CALIBRATION and starts the sequencer. -/
  | calStart
  /-- CAL_WAIT_CONV_DONE (R119). The running conversion and pending injected conversions end and calibration owns the
  converter. -/
  | calWaitConvDone
  /-- CAL_HK_SELF_DONE (R120). 256 conversions of the internal zero give a new HK_OFFSET. Operands: `sum` is the sum
  of the 256 codes. -/
  | calHkSelfDone (sum : Int)
  /-- CAL_REF_CHECK_DONE (R123). 64 conversions of the reference are compared with CALSRC, setting REF_DRIFT if
  needed. Operands: `sum` is the sum of the 64 codes. -/
  | calRefCheckDone (sum : Nat)
  /-- CAL_SETTLE_END (R120). After the range transient plus CAL_SETTLE, averaging of raw modulator samples begins. -/
  | calSettleEnd
  /-- CAL_AVERAGE_DONE (R121). Averaging over AVG_MS ends for ZERO or REFERENCE and the sequencer moves on. Operands:
  `m`: each channel's average as a fraction of MFS. -/
  | calAverageDone (m : List (Nat × ℚ))
  /-- CAL_APPLY (R122). Accepted entries enter the patina store at the edge where every multiplexer and range is
  restored, and DONE is set. -/
  | calApply
  /-- CAL_ABORT (R123). HK_CAL_CTL.ABORT discards staged entries, restores ranges and multiplexers and sets ABORTED.
  -/
  | calAbort
  /-- SAVE (R127). HK_CAL_CTL.SAVE writes the field patina entries and HK_OFFSET into the settings slot, or sets
  SAVE_REFUSED. -/
  | save
  /-- HK_PAT_DATA_ACCESS (R126). An access to HK_PAT_DATA reads or writes a patina store word and advances
  HK_PAT_ADDR. Operands: `wr` is the value of a write, none for a read. -/
  | hkPatDataAccess (path : Fin 2) (wr : Option Word)
  /-- CHECK (R126). HK_PAT_CTL.CHECK tests the patina store and reloads it on failure. -/
  | check
  /-- RELOAD (R126). HK_PAT_CTL.RELOAD reloads the patina store from flash. -/
  | reload
  /-- CHAIN_RESTART (R152). CH[n].CHAIN_CTL.RESTART restarts the chain at the next modulator edge. -/
  | chainRestart (n : Fin 192)
  /-- DEMOD_PHASE_WRITE (R134). A write to DEMOD_PHASE takes effect at the next modulator edge and flags SETTLE.
  Operands: `v` is the value written. -/
  | demodPhaseWrite (n : Fin 192) (v : BitVec 16)
  /-- DCB_K_WRITE (R139). A write to DCB_K changes the DC-blocking corner from the next chain sample, or is refused.
  Operands: `k` is the value written. -/
  | dcbKWrite (n : Fin 192) (k : Fin 32)
  /-- DCB_FREEZE_WRITE (R141). A write of DCB_FREEZE holds or releases the DC estimate. Operands: `v` is the bit
  written. -/
  | dcbFreezeWrite (n : Fin 192) (v : Bool)
  /-- DCB_EST_WRITE (R141). A write to DCB_EST sets the held estimate while frozen, or is refused. Operands: `v` is
  the value written. -/
  | dcbEstWrite (n : Fin 192) (v : Word)
  /-- OUTPUT_READY (R150). A grid output is ready and is handed to linearisation, the trigger and acquisition unit and
  the carvers. -/
  | outputReady (n : Fin 192)
  /-- ENGINEERING_WORD_READY (R158). The linearisation unit finishes an engineering word. -/
  | engineeringWordReady (n : Fin 192)
  /-- LIN_LOAD (R172). CH[n].LIN_CFG.LOAD applies the staged LIN_GAIN and LIN_OFFSET from the next output. -/
  | linLoad (n : Fin 192)
  /-- TRG_ARM (R183). TRG[t].CTL.ARM arms the unit into FILLING or ARMED. -/
  | trgArm (t : Fin 32)
  /-- TRG_DISARM (R190). TRG[t].CTL.DISARM disarms the unit, at once or at the end of REARM. -/
  | trgDisarm (t : Fin 32)
  /-- FORCE (R181). TRG[t].CTL.FORCE fires the unit as source HOST, or is refused in DISARMED. -/
  | force (t : Fin 32)
  /-- ARM_ALL (R191). ACQ_CTL.ARM_ALL arms every unit with MODE not 0. -/
  | armAll
  /-- DISARM_ALL (R191). ACQ_CTL.DISARM_ALL disarms every unit. -/
  | disarmAll
  /-- AUTO_TIMEOUT (R185). In AUTO mode TRG_AUTO_TIMEOUT passes without an accepted trigger and the unit forces one.
  -/
  | autoTimeout (t : Fin 32)
  /-- REARM_END (R183). Re-arm bookkeeping ends and the unit becomes ARMED or DISARMED. -/
  | rearmEnd (t : Fin 32)
  /-- TRIG_OUT_PULSE_END (R187). WIDTH ticks after the last decision, a TRIG_OUT pulse ends. -/
  | trigOutPulseEnd (pin : Fin 4)
  /-- FRAME_INPUT_COMPLETE (R196). A carver frame's input is complete and the carver runs its tasks, or skips the
  frame on overrun. -/
  | frameInputComplete (e : Fin 16)
  /-- FRAME_DONE (R196). A carver finishes a frame's tasks, delivers its local contribution and DETECT events. -/
  | frameDone (e : Fin 16)
  /-- ENG_FAULT (R214). A carver faults on ECC, code check or bus violation, stops, breaks its locks and may restart.
  Operands: `code`: 0 ECC, 1 CODE, 2 BUS; the task and the address at fault. -/
  | engFault (e : Fin 16) (code : Fin 3) (task : Fin 8) (addr : Fin (2 ^ 18))
  /-- HANG (R213). A task runs longer than 4 frame durations and the carver faults with HANG. Operands: the task and
  the address it hung at. -/
  | hang (e : Fin 16) (task : Fin 8) (addr : Fin (2 ^ 18))
  /-- ENG_RESTART (R215). ENG[e].CTL.RESTART reloads a FAULTED or HALTED carver. -/
  | engRestart (e : Fin 16)
  /-- HALT (R214). ENG[e].CTL.HALT stops the carver as a fault without code. -/
  | halt (e : Fin 16)
  /-- RESTART_COMPLETE (R215). A carver restart's reload and check end, and the carver becomes READY or FAULTED.
  Operands: `ok`: the code checked. -/
  | restartComplete (e : Fin 16) (ok : Bool)
  /-- WIN_DATA_ACCESS (R205). An access to ENG[e].WIN_DATA reads or writes local SRAM and advances WIN_ADDR. Operands:
  `wr` is the value of a write, none for a read. -/
  | winDataAccess (path : Fin 2) (e : Fin 16) (wr : Option Word)
  /-- PARAM_SWAP (R208). The mailbox command PARAM_SWAP makes the shadow matrix bank the bank in force at a named
  frame. -/
  | paramSwap (e : Fin 16)
  /-- TASK_QUERY (R207). The mailbox command TASK_QUERY returns a task's frame count, last frame and cycles. -/
  | taskQuery (e : Fin 16)
  /-- DETECT_RESET (R207). The mailbox command DETECT_RESET restarts a DETECT task from the next frame. -/
  | detectReset (e : Fin 16)
  /-- DETECT_SET (R207). The mailbox command DETECT_SET changes THRESH, ON and OFF of a DETECT task. -/
  | detectSet (e : Fin 16)
  /-- LOCK_TRY (R209). A read of LOCK[i].TRY is a host acquisition attempt returning its result. -/
  | lockTry (path : Fin 2) (lock : Fin 64)
  /-- LOCK_RELEASE (R211). LOCK[i].STAT.RELEASE frees a lock that the host owns. -/
  | lockRelease (lock : Fin 64)
  /-- BREAK (R211). LOCK[i].STAT.BREAK frees a lock held by the host or a faulted carver and sets BROKEN. -/
  | lockBreak (lock : Fin 64)
  /-- RELIEF_CONTRIBUTION (R221). A local or downstream relief contribution is combined into its frame, dropped, or
  issued as RELIEF_LATE. -/
  | reliefContribution (q : Fin 256)
  /-- RELIEF_DEADLINE (R221). Local time reaches t_last plus RELIEF_WAIT and the frame is emitted, PARTIAL if short.
  -/
  | reliefDeadline (slot : Fin 64)
  /-- CMP_ATTEMPT_DONE (R241). A compression attempt ends with its code and the packet is committed compressed or raw.
  Operands: `fault`: 0 none, 1 a verification mismatch, 2 a poisoned source word. -/
  | cmpAttemptDone (fault : Fin 3)
  /-- CMP_PAGE_GRANTED (R242). A stalled compression receives its output page and continues from the same bit. -/
  | cmpPageGranted
  /-- CMP_STALL_LIMIT (R242). A stall reaches CMP_STALL_LIMIT and the attempt ends with CMP_ERR_STALL. -/
  | cmpStallLimit
  /-- DCMP_GO (R245). DCMP GO starts a host decompression job, or is refused with WERR. -/
  | dcmpGo
  /-- DCMP_ABORT (R245). DCMP ABORT ends a job with code 8. Operands: `out` is how many bytes had come out. -/
  | dcmpAbort (out : Nat)
  /-- DCMP_JOB_DONE (R246). A decompression job ends with or without error, applying inverse transforms if clean. -/
  | dcmpJobDone
  /-- SCRUB_PASS (R249). The scrubber reads and rewrites pages once per MEM_SCRUB.HOURS. Operands: `ce` words
  corrected, and the addresses of the uncorrectable ones in units of one byte of the 256 MiB. -/
  | scrubPass (ce : Nat) (ues : List (Fin (2 ^ 28)))
  /-- WINDOW_ACCESS (R448). An access to the paged window reads or writes buffer memory under the host-region and ECC
  merge rules. Operands: `wr`: none for a read, else one word or the two of a WRITE64; `err`: 0 none, 1 a single-bit
  error, 2 an uncorrectable one found in the word. -/
  | windowAccess (path : Fin 2) (off : Fin (2 ^ 20)) (wr : Option (Word × Option Word)) (err : Fin 3)
  /-- STARVED (R259). A producer waits 50 µs without credit and abandons the packet, covered by a DISCARD gap record.
  -/
  | starved (q : Fin 256)
  /-- GAP_RECORD_SLOT_OBTAINED (R267). A waiting gap record obtains a slot on a spill page and is issued. -/
  | gapRecordSlotObtained (q : Fin 256)
  /-- PUSH_LEN (R260). A write to Q[q].PUSH_LEN opens a software packet and reserves its space. Operands: `n` is the
  value written. -/
  | pushLen (q : Fin 256) (n : Fin (2 ^ 13))
  /-- PUSH (R260). A write to Q[q].PUSH appends a word and commits the packet at its last word. Operands: `v` is the
  word written. -/
  | push (q : Fin 256) (v : Word)
  /-- POP_LO_READ (R263). A read of Q[q].POP_LO pops one word and takes the POP_HI snapshot. -/
  | popLoRead (path : Fin 2) (q : Fin 256)
  /-- ACK (R264). A write to Q[q].ACK frees that SENT packet and every earlier one. Operands: `v` is the number
  written. -/
  | ack (q : Fin 256) (v : Word)
  /-- REPLAY (R264). Q[q].CTL.REPLAY returns every SENT packet to COMMITTED. -/
  | replay (q : Fin 256)
  /-- FLUSH (R262). Q[q].CTL.FLUSH starts a flush at each producer's next packet boundary. -/
  | flush (q : Fin 256)
  /-- FLUSH_COMPLETE (R262). Every packet in progress at the flush has ended and the COMMITTED packets are discarded
  with gap records. -/
  | flushComplete (q : Fin 256)
  /-- DMA_GO (R272). DMA[c] GO starts the descriptor chain at DESC. -/
  | dmaGo (c : Fin 32)
  /-- DMA_RESUME (R275). DMA[c] RESUME retries the faulting word and continues. -/
  | dmaResume (c : Fin 32)
  /-- DMA_ABORT (R275). DMA[c] ABORT ends the chain, rewinds a destination packet and breaks the channel's locks. -/
  | dmaAbort (c : Fin 32)
  /-- DMA_DESCRIPTOR_DONE (R270). A descriptor completes, writes back its status and continues at NEXT or ends.
  Operands: `wait` in cycles and DELAYED as the fabric measured them; `ext` is what a source outside the model held.
  -/
  | dmaDescriptorDone (c : Fin 32) (wait : Nat) (delayed : Bool) (ext : List Word)
  /-- DMA_LOCK_RETRY (R273). Every 1 µs a channel in LOCK_WAIT retries its lock, halting on timeout or a broken lock.
  -/
  | dmaLockRetry (c : Fin 32)
  /-- DMA_FAULT (R274). A fault halts the channel at the exact word, writes back status and logs DMA_FAULT. Operands:
  `off` is the offset the fault stands at; `ext` as for DMA_DESCRIPTOR_DONE. -/
  | dmaFault (c : Fin 32) (cause : DmaCause) (off : Nat) (ext : List Word)
  /-- ARBITRATION_ROUND (R281). A resource is free and a request arrives, so the fabric grants it by class and
  rotation. Operands: at instant `t`: `ends`, the holder's transfer was cut short; the requests withdrawn and those
  that come. -/
  | arbitrationRound (r : Fin 20) (t : Nat) (ends : Bool) (withdrawn : List (Fin 64)) (new : List Arrival)
  /-- QUOTA_WINDOW_END (R282). A WIN_CYC window ends and class A quotas and masks restart. -/
  | quotaWindowEnd
  /-- STARVE (R286). A class B request waits longer than ARB_STARVE_LIMIT: STARVE is set, counted and interrupted. -/
  | starve (r : Fin 20) (who : Fin 64)
  /-- REFUSED_OVERLOAD (R287). A class C request waits longer than ARB_C_DEADLINE and is refused. Operands: `off` and
  `ext` as for DMA_FAULT. -/
  | refusedOverload (r : Fin 20) (who : Fin 64) (off : Nat) (ext : List Word)
  /-- ARB_PRIO_WRITE (R289). A write to ARB_PRIO changes a class B level at the next round or by pre-emption.
  Operands: `v` is the value written. -/
  | arbPrioWrite (v : Fin 8)
  /-- LINK_PLAN_WRITE (R296). A write of MODE, RATE or width takes the affected links down and begins a new attempt,
  or is refused. Operands: `what`: 0 MODE, 1 RATE, 2 width; `v` is the value written. -/
  | linkPlanWrite (n : Fin 64) (what : Fin 3) (v : Fin 8)
  /-- SIGNAL_DETECT (R307). Every lane detects signal for LOS.TIME_US and the link moves to ALIGN or ends a wait. -/
  | signalDetect (k : Fin 64)
  /-- CDR_LOCK (R299). Clock recovery locks on a lane. -/
  | cdrLock (n : Fin 64)
  /-- SLIP_STEP (R304). A bit-slip offset has been tried for 66 blocks and block lock is found or the next offset is
  tried. Operands: `found`: 64 valid headers in a row were found at this offset. -/
  | slipStep (n : Fin 64) (found : Bool)
  /-- SLIP_WRITE (R304). A host write to RX.SLIP under MANUAL_ALIGN moves the word boundary. Operands: `run` is the
  run of valid headers the new boundary gives. -/
  | slipWrite (n : Fin 64) (v : Fin 128) (run : Nat)
  /-- AUTO_POL (R305). 1,024 blocks after lock show only inverted TRAIN sets and the hub toggles RX_INV and searches
  again. -/
  | autoPol (n : Fin 64)
  /-- ADAPTATION_DONE (R298). Receiver equaliser adaptation ends with the chosen PEAK or EYE_LOW. Operands: eye
  openings in 1/64 UI: `eye` at the setting in force, which CTLE_MANUAL keeps, `eyes` one for each of the 16 PEAK codes. -/
  | adaptationDone (n : Fin 64) (eye : Fin 65) (eyes : List (Fin 65))
  /-- TRAIN_RX (R307). A TRAIN ordered set is received; the 16th matching set with READY moves the link to DESKEW or
  ACTIVE. Operands: the set's O code (0 is TRAIN) and RATE in `head`, its width code, position and READY. -/
  | trainRx (n : Fin 64) (head : Fin 16 × Fin 16) (width : Fin 4) (pos : Fin 4) (ready : Bool)
  /-- MARKER_RX (R303). A MARKER column is received and the lanes are aligned, completing DESKEW or failing with
  SKEW_ERR. Operands: `skew` is the skew of the lanes in blocks. -/
  | markerRx (k : Fin 64) (skew : Nat)
  /-- TRAIN_TIMEOUT (R308). An attempt is not ACTIVE within TIMEOUT_MS and fails into BACKOFF or QUIET. -/
  | trainTimeout (k : Fin 64)
  /-- BACKOFF_END (R308). The BACKOFF wait ends and a new attempt begins. -/
  | backoffEnd (k : Fin 64)
  /-- QUIET_PROBE (R308). Every 1 s a parked link makes one probe attempt. -/
  | quietProbe (k : Fin 64)
  /-- LOS (R309). A lane loses signal: the link returns to DETECT or, if ACTIVE, is lost. -/
  | los (n : Fin 64)
  /-- BLOCK_LOCK_LOSS (R304). SH_BAD64 reaches 16 on an ACTIVE lane and block lock and the link are lost. -/
  | blockLockLoss (n : Fin 64)
  /-- HI_BER_WINDOW_END (R306). A 19,531-block window ends and HI_BER is set or cleared. Operands: `bad` invalid
  headers in the window. -/
  | hiBerWindowEnd (n : Fin 64) (bad : Nat)
  /-- HI_BER_TIMEOUT (R306). HI_BER stays set for 1 ms on an ACTIVE link and the link is lost. -/
  | hiBerTimeout (n : Fin 64)
  /-- LP_ENTRY (R311). After LP.IDLE_US of idles the transmitter sends LP_REQ and goes electrically idle. -/
  | lpEntry (k : Fin 64)
  /-- LP_REQ_RX (R311). A received LP_REQ sets RX_LP, suppresses LOS and holds the CDR phase. -/
  | lpReqRx (n : Fin 64)
  /-- LANE_WAKE (R311). A transmitter in low power is started ahead of its next frame and sends WAKE columns. -/
  | laneWake (k : Fin 64)
  /-- WAKE_END (R311). 20 µs after leaving idle the transmitter stops WAKE columns and sends frames. -/
  | wakeEnd (k : Fin 64)
  /-- WAKE_RX (R311). A received WAKE column starts CDR relock and a block-lock check at the previous SLIP. Operands:
  `locked`: the receiver finds lock at its previous SLIP. -/
  | wakeRx (n : Fin 64) (locked : Bool)
  /-- LP_FAIL (R311). The receiver is not locked within 40 µs of signal return: the link is lost. -/
  | lpFail (n : Fin 64)
  /-- MARKER_SEND (R303). Every 16,384 blocks per lane the transmitter sends a MARKER column. -/
  | markerSend (k : Fin 64)
  /-- IDLE_COLUMN_SEND (R299). The transmitter places an idle column at least every 4,096 blocks. -/
  | idleColumnSend (k : Fin 64)
  /-- RETRAIN (R314). LANE[k].CTL.RETRAIN takes the link down and begins a new attempt. -/
  | retrain (n : Fin 64)
  /-- ERR_INJECT (R313). LANE[k].CTL.ERR_INJECT inverts one transmitted test-pattern bit. -/
  | errInject (n : Fin 64)
  /-- PRBS_SYNC (R313). After 1,024 error-free bits the checker declares sync and starts counting. -/
  | prbsSync (n : Fin 64)
  /-- SYNC_LOST (R313). 64 errors within 1,024 bits lose checker sync and the checker reseeds. Operands: `bits`
  checked since the counts were last read, with `errs` errors. -/
  | syncLost (n : Fin 64) (bits : Nat) (errs : Nat)
  /-- ETH_FRAME_RX (R312). An Ethernet frame is received and passed to PTP or Kamrel-over-Ethernet, or dropped into
  ETH_DROPS. Operands: what the frame is, its source address, and KFID, fragment number and fragment count of a Kamrel
  fragment. -/
  | ethFrameRx (k : Fin 64) (kind : EthKind) (src : BitVec 48) (kfid : Word) (frag : Fin 256) (fcount : Fin 256)
  /-- FRAGMENT_TIMEOUT (R343). A Kamrel frame over Ethernet is incomplete 1 ms after its first fragment and is
  errored. -/
  | fragmentTimeout (k : Fin 64)
  /-- DATA_RX (R331). A DATA frame is received, deduplicated, committed to its receive queue or handed to the
  combiner. Operands: `flags`: the frame is poisoned, and the UP link of its receive queue was idle when the frame's header and
  first 64 bytes had arrived; `body` is the packet. -/
  | dataRx (k : Fin 64) (vc : Fin 4) (lseq : Word) (cseq : Word) (flags : Bool × Bool) (body : List Byte)
  /-- ERRORED_FRAME_RX (R317). An errored or aborted frame is discarded, counted and answered with LINK_NAK. Operands:
  `crc`: its CRC failed; `f`: what else was wrong with it, and what had arrived of it. -/
  | erroredFrameRx (k : Fin 64) (crc : Bool) (f : BrokenFrame)
  /-- LINK_ACK_RX (R321). A LINK_ACK releases every sequenced frame before ACK_LSEQ from the replay store. Operands:
  `a` is the LSEQ acknowledged. -/
  | linkAckRx (k : Fin 64) (a : Word)
  /-- LINK_NAK_RX (R321). A LINK_NAK makes the sender resend every unacknowledged frame. Operands: `a` is the LSEQ of
  the last good frame. -/
  | linkNakRx (k : Fin 64) (a : Word)
  /-- REPLAY_TIMEOUT (R321). REPLAY_US passes with no new ACK_LSEQ and unacknowledged frames are resent. -/
  | replayTimeout (k : Fin 64)
  /-- ACK_DELAY (R320). ACK_DELAY_US after accepting a frame the receiver sends LINK_ACK. -/
  | ackDelay (k : Fin 64)
  /-- CREDIT_RX (R325). A CREDIT frame updates grants and limits, or is a protocol error. -/
  | creditRx (k : Fin 64) (m : CreditMsg)
  /-- CREDIT_REPEAT (R323). Every 100 µs until 1 ms after the last change the latest CREDIT and CUSTODY_ACK frames are
  repeated. -/
  | creditRepeat (k : Fin 64)
  /-- CUSTODY_ACK_RX (R326). A CUSTODY_ACK frees every SENT packet of each VC before CACK. Operands: `c` is the
  frame's list of words. -/
  | custodyAckRx (k : Fin 64) (c : List Word)
  /-- TIME_RX (R52). A TIME frame delivers one PTP message on a Kamrel link. Operands: `kind` says which message it
  carries, `ts` is the message's timestamp in place of `m`'s; the rest as for that message's own command. -/
  | timeRx (k : Fin 64) (kind : PtpKind) (m : PtpMsg) (ingress : Nat) (egress : List (Nat × Nat)) (ts : Nat)
  /-- TRIGGER_RX (R342). A TRIGGER frame is accepted once, fires distributed units and is flooded onward. Operands: its
  LSEQ and what it carries. -/
  | triggerRx (k : Fin 64) (lseq : Word) (m : TrigFrame)
  /-- HELLO_RX (R338). A HELLO is stored, roles are checked and ASSIGN is sent to an unassigned partner. -/
  | helloRx (k : Fin 64) (lseq : Word) (m : HelloMsg)
  /-- ASSIGN_RX (R339). An ASSIGN on an UP link gives the hub its route address, or is ignored or a ROUTE_CONFLICT.
  Operands: the route address and depth assigned. -/
  | assignRx (k : Fin 64) (lseq : Word) (route : BitVec 48) (depth : Fin 256)
  /-- RACC_REQ_RX (R340). A remote access request is routed by DEST or carried out and answered. Operands: `refused`:
  a memory access in it is refused by the fabric. -/
  | raccReqRx (k : Fin 64) (lseq : Word) (m : RaccMsg) (refused : Bool)
  /-- RACC_RESP_RX (R340). A remote access response is routed or completes the requester's port or DMA. -/
  | raccRespRx (k : Fin 64) (lseq : Word) (m : RaccMsg)
  /-- RESET_RX (R341). A RESET frame resets the target if AUTH matches its reset code, else counts RST_REFUSED.
  Operands: the destination and the authority word. -/
  | resetRx (k : Fin 64) (lseq : Word) (dest : BitVec 48) (auth : Word)
  /-- COMMIT_NOTE_RX (R330). A COMMIT_NOTE closes or keeps open the DOWNSTREAM_RESET records of its sender. Operands:
  the hub's route address, T_C as a wire stamp, and the streams of the new armature. -/
  | commitNoteRx (k : Fin 64) (lseq : Word) (route : BitVec 48) (stamp : BitVec 96) (streams : List Nat)
  /-- RACC_GO (R345). LINK remote-access GO sends a register request routed by DEST. -/
  | raccGo (k : Fin 64)
  /-- RACC_TIMEOUT (R340). No response arrives within RACC_TIMEOUT and the request ends with a timeout or LINK fault.
  Operands: whose request it is. -/
  | raccTimeout (who : RaccWho)
  /-- HEARTBEAT_SEND (R354). Every 100 µs a hub sends HEARTBEAT on its DUPLEX links. -/
  | heartbeatSend
  /-- HEARTBEAT_RX (R354). A HEARTBEAT from the partner is received and its ARM_CRC and flags compared. Operands: `head`: the
  frame's SUBTYPE (1 is HEARTBEAT) and an EVENT's KIND; the sender's route address; `body`: its FLAGS and its armature CRC. -/
  | heartbeatRx (k : Fin 64) (lseq : Word) (head : BitVec 8 × BitVec 8) (route : BitVec 48) (body : BitVec 8 × Word)
  /-- SAMPLES_RX (R350). A SAMPLES frame delivers the active's modulator codes to the standby's chains. Operands: the
  frame. -/
  | samplesRx (k : Fin 64) (m : SamplesMsg)
  /-- TIMEMAP_RX (R350). A TIMEMAP frame delivers the active's edge-time map. Operands: the active's edge number;
  `map`: its time and the period. -/
  | timemapRx (k : Fin 64) (lseq : Word) (edge : Nat) (map : Nat × Nat)
  /-- DIGEST_RX (R356). A DIGEST frame is held and compared with the member's own digest. Operands: the digest window
  and its entries: kind, id, count, CRC. -/
  | digestRx (k : Fin 64) (lseq : Word) (window : Nat) (entries : List (Nat × Nat × Nat × Nat))
  /-- RANGE_STEP_EVENT (R351). An EVENT of kind RANGE_STEP applies the active's range step at the named edge.
  Operands: channel `n` steps to range `r` at the active's edge `edge`. -/
  | rangeStepEvent (k : Fin 64) (lseq : Word) (n : Fin 192) (r : Fin 8) (edge : Nat)
  /-- REG_WRITE_EVENT (R351). An EVENT of kind REG_WRITE applies the active's accepted register write. Operands: the
  edge; `w`: the register and the value the active wrote. -/
  | regWriteEvent (k : Fin 64) (lseq : Word) (edge : Nat) (w : Word × Word)
  /-- TRIGGER_EVENT (R351). An EVENT of kind TRIGGER applies the active's trigger decision. Operands: unit `u` fired
  at T, a wire stamp, for `source`. -/
  | triggerEvent (k : Fin 64) (lseq : Word) (u : Fin 32) (source : Fin 256) (forced : Bool) (stamp : BitVec 96)
  /-- SHED_EVENT (R351). An EVENT of kind SHED records the active's shed or restore. Operands: `e`: the edge at which
  channel `n` is shed (true) or restored. -/
  | shedEvent (k : Fin 64) (lseq : Word) (n : Fin 192) (e : Nat × Bool)
  /-- PATINA_EVENT (R351). An EVENT of kind PATINA applies the active's patina entry. Operands: the edge, and the new
  offset and gain of the channel and entry that `slot` names. -/
  | patinaEvent (k : Fin 64) (lseq : Word) (slot : Fin 192 × Fin 10) (edge : Nat) (offset : Int) (gain : Word)
  /-- SWAP_EVENT (R362). An EVENT of kind SWAP sets SWAP_PENDING for instant S. Operands: S as a wire stamp. -/
  | swapEvent (k : Fin 64) (lseq : Word) (stamp : BitVec 96)
  /-- DUPLEX_SYNC_PULSE (R349). The standby stamps a DUPLEX_SYNC pulse and runs the time cross-check. Operands:
  `stamp` is the standby's stamp of the pulse, `edge` the edge it marks. -/
  | duplexSyncPulse (stamp : Nat) (edge : Nat)
  /-- DIGEST_READY (R355). All outputs of a group's digest window are ready and its digest is sent. Operands: KIND and ID of
  the group, those of the groups that complete together with it, and their window. -/
  | digestReady (kind : Fin 2) (id : Fin 64) (rest : List (Fin 2 × Fin 64)) (window : Nat)
  /-- DIGEST_MISSING (R356). A digest leaves the 1,024-window span without a counterpart and is counted. -/
  | digestMissing
  /-- CODES_OVERDUE (R360). The active's code for an edge is 100 µs overdue and the standby runs on its own codes,
  DEGRADED. Operands: `t` is the instant of the edge. -/
  | codesOverdue (t : Nat)
  /-- SYNC_PULSE_LOSS (R366). No DUPLEX_SYNC pulse for 300 µs sets SYNC_LOST and pauses the time cross-check. -/
  | syncPulseLoss
  /-- HEARTBEAT_LOSS (R360). No DUPLEX frame and no pulse for TIMEOUT_US: the standby takes over or reports
  PARTNER_LOST. -/
  | heartbeatLoss
  /-- DRIVER_START (R361). 55 µs after takeover or swap, the new active's excitation drivers start. -/
  | driverStart
  /-- SWAP (R362). DUP_CTL.SWAP on the active requests a planned swap at DUP_SWAP_AT, or is refused. -/
  | swap
  /-- SWAP_CANCEL (R362). DUP_CTL.SWAP_CANCEL withdraws a pending swap until 1 ms before S. -/
  | swapCancel
  /-- SWAP_INSTANT (R362). At the first active edge at or after S both members exchange roles. -/
  | swapInstant
  /-- CLEAR_SUSPECT (R359). DUP_CTL.CLEAR_SUSPECT clears SUSPECT on the standby. -/
  | clearSuspect
  /-- LOAD_START (R376). ARM_CTL.LOAD_START begins loading a maquette through the data port. -/
  | loadStart
  /-- ARM_COPY (R377). ARM_CTL.COPY loads a maquette from the host region. -/
  | armCopy
  /-- ARM_LOAD_DATA (R377). A write to ARM_LOAD_DATA appends 4 bytes and runs format checks as bytes arrive. Operands:
  `v` is the word written. -/
  | armLoadData (v : Word)
  /-- VALIDATION_DONE (R375). Content checks of a complete maquette end in VALID or FAILED. -/
  | validationDone
  /-- DISCARD (R376). ARM_CTL.DISCARD empties the maquette and cancels a pending commit. -/
  | discard
  /-- COMMIT (R378). ARM_CTL.COMMIT schedules the maquette's commit, or is refused with REASON. -/
  | commit
  /-- CANCEL_COMMIT (R378). ARM_CTL.CANCEL_COMMIT withdraws a pending commit. -/
  | cancelCommit
  /-- COMMIT_PRESTART (R379). At T_c − 1 ms the hub pre-starts what the maquette needs, or misses the commit. -/
  | commitPrestart
  /-- COMMIT_INSTANT (R380). At T_c the hub applies every changed field of the new armature in one tick and enters its
  mode. -/
  | commitInstant
  /-- WITHDRAW (R383). ARM_CTL.WITHDRAW starts a withdrawal at once or schedules it. -/
  | withdraw
  /-- CANCEL_WITHDRAW (R383). ARM_CTL.CANCEL_WITHDRAW cancels a pending withdrawal and clears its stop indices. -/
  | cancelWithdraw
  /-- WITHDRAWAL_INSTANT (R17). The withdrawal instant sets stop indices and queues enter DRAINING. -/
  | withdrawalInstant
  /-- DRAIN_LIMIT_EXPIRED (R268). The drain limit expires: remaining packets are discarded, WITHDRAWN gap records
  issued and the armature released into IDLE. -/
  | drainLimitExpired
  /-- UPD_START (R393). UPD_CTL.START begins a cast load through the data port, or is refused. -/
  | updStart
  /-- UPD_COPY (R393). UPD_CTL.COPY begins a cast load from the host region, or is refused. -/
  | updCopy
  /-- UPD_DATA (R394). A write to UPD_DATA appends cast bytes, checking the header and blocks as they arrive.
  Operands: `v` is the word written. -/
  | updData (v : Word)
  /-- UPD_ABORT (R396). UPD_CTL.ABORT ends a load with UPD_ERR_ABORTED. -/
  | updAbort
  /-- CAST_CHECK_DONE (R389). Digest, signature and read-back checks end and the cast is STAGED or FAILED. Operands:
  `flash`: 0 no error, 1 a part read back wrong, 2 the flash failed. -/
  | castCheckDone (flash : Fin 3)
  /-- UPD_POWER_CHECK (R396). Every 10 ms during a load the core checks supplies and holdup. Operands: the supplies
  are good, and the measured hold-up in ms. -/
  | updPowerCheck (supplies : Bool) (holdup : BitVec 16)
  /-- SCHEDULE (R397). UPD_CTL.SCHEDULE requests cast activation at UPD_ACT_AT and writes a PENDING record. -/
  | schedule
  /-- UPD_CANCEL (R397). UPD_CTL.CANCEL returns a scheduled activation to STAGED. -/
  | updCancel
  /-- ACTIVATION_INSTANT (R398). At the activation instant the checks are repeated and the hub sets ACT_GO and resets.
  -/
  | activationInstant
  /-- CONFIRM (R400). UPD_CTL.CONFIRM ends probation, writes STABLE and applies the fuses. -/
  | confirm
  /-- REVERT (R400). UPD_CTL.REVERT resets the hub into the previous cast. -/
  | revert
  /-- PROB_END (R400). Local time reaches PROB_END and the hub resets into the previous cast. -/
  | probEnd
  /-- STAGE_PREV (R401). UPD_CTL.STAGE_PREV makes the previous cast the staged cast. -/
  | stagePrev
  /-- SET_DATA_ACCESS (R403). An access to UPD_SET_DATA reads or writes the staged settings image and advances
  SET_ADDR. Operands: `wr` is the value of a write, none for a read. -/
  | setDataAccess (path : Fin 2) (wr : Option Word)
  /-- SETTINGS_WRITE (R403). UPD_SET_CTL.WRITE writes the staged settings image to flash, or is refused. -/
  | settingsWrite
  /-- SETTINGS_LOAD (R409). UPD_SET_CTL.LOAD reloads the staged image from the bound slot. -/
  | settingsLoad
  /-- SETTINGS_WRITE_DONE (R403). A settings write to flash completes and DONE is set. -/
  | settingsWriteDone
  /-- LC_ARM (R407). A write of the arming value to LC_ARM arms life-cycle control for 1 s. Operands: `v` is the value
  written. -/
  | lcArm (v : Word)
  /-- LC_ARM_EXPIRY (R407). The 1 s arming of life-cycle control lapses. -/
  | lcArmExpiry
  /-- LC_GO (R407). LC_CTL.GO makes the life-cycle transition as a reset, or refuses it. Operands: `target` is the
  state written with it. -/
  | lcGo (target : BitVec 3)
  /-- FACTORY_WRITE (R408). LC_FACTORY.WRITE writes the checked patina store to FACTORY_PATINA in MANUFACTURE. -/
  | factoryWrite
  /-- LOG_SEQ_WRITE (R428). A write to LOG_SEQ copies that trouble-log entry into LOG_DATA or sets GONE. Operands: `v`
  is the value written. -/
  | logSeqWrite (v : Word)
  /-- SET (R444). DEV_ROUTE SET gives the top hub its route address as an ASSIGN, or is refused. -/
  | set
  /-- WRITE32 (R437). The SPI command WRITE32 posts one register write. Operands: address and value. -/
  | write32 (addr : Word) (v : Word)
  /-- READ32 (R438). The SPI command READ32 reads one register after earlier writes take effect. Operands: the
  address. -/
  | read32 (addr : Word)
  /-- WRITE64 (R440). The SPI command WRITE64 writes two registers in address order with nothing between. Operands:
  address and the two values, the low register first. -/
  | write64 (addr : Word) (v : Word) (u : Word)
  /-- READ64 (R440). The SPI command READ64 reads two registers in one step. Operands: the address. -/
  | read64 (addr : Word)
  /-- SPI_READ_TIMEOUT (R438). The data of a read are not ready by the 64th wait byte and the access is withdrawn with
  RD_TIMEOUT. -/
  | spiReadTimeout
  /-- SPI_CS_RISE (R439). Chip select rises inside a transaction, leaving a short read or write and SHORT set.
  Operands: what chip select cuts short. -/
  | spiCsRise (c : SpiCut)
  /-- POSTED_WRITE_APPLY (R439). A posted SPI write reaches the head of the queue and takes effect. -/
  | postedWriteApply
  /-- REGISTER_WRITE (R434). A write to a register with no row of its own updates its writable fields, clears W1C bits
  or sets WERR. Operands: address and value; the write is applied. -/
  | registerWrite (addr : Word) (v : Word)
  /-- RS_LOW_READ (R10). A read of the low half of an RS value takes a snapshot of the whole value. Operands: the
  address of the low half. -/
  | rsLowRead (path : Fin 2) (addr : Word)
  /-- RS_HIGH_READ (R10). A read of the high half returns the snapshot, setting SEQERR without a preceding low read.
  Operands: the address of the high half. -/
  | rsHighRead (path : Fin 2) (addr : Word)
  /-- LOST_CLR (R446). TIME_EVT LOST_CLR clears the LOST counter. -/
  | lostClr (pin : Fin 4)
  /-- SHED_CLR (R446). EXC_STAT.SHED_CLR clears EXC_SHED_COUNT. -/
  | shedClr
  /-- EXC_CNT_CLR (R446). CH[n].EXC_STAT.CNT_CLR clears RANGE_STEPS and FOLD_COUNT. -/
  | excCntClr (n : Fin 192)
  /-- CHAIN_CNT_CLR (R446). CH[n].CHAIN_CTL.CNT_CLR clears RESTART_COUNT. -/
  | chainCntClr (n : Fin 192)
  /-- LIN_CNT_CLR (R446). CH[n].LIN_STAT.CNT_CLR clears LIN_DOMAIN_COUNT. -/
  | linCntClr (n : Fin 192)
  /-- HK_CNT_CLR (R446). HK_STAT.CNT_CLR clears the three housekeeping counters. -/
  | hkCntClr
  /-- ACQ_CNT_CLR (R446). ACQ_STAT.CNT_CLR clears ACQ_DIST_RX and ACQ_DIST_DUP. -/
  | acqCntClr
  /-- TRG_CNT_CLR (R446). TRG[t].CTL.CNT_CLR clears the unit's counters. -/
  | trgCntClr (t : Fin 32)
  /-- ENG_CNT_CLR (R446). ENG[e].CTL.CNT_CLR clears the carver's counters. -/
  | engCntClr (e : Fin 16)
  /-- RLF_CNT_CLR (R446). RLF_CTL.CNT_CLR clears the selected slot's counters. -/
  | rlfCntClr
  /-- CMP_CNT_CLR (R446). CMP_CTL.CNT_CLR clears the compression counters and byte counts. -/
  | cmpCntClr
  /-- DCMP_CNT_CLR (R446). DCMP_STAT.CNT_CLR clears DCMP_JOBS and DCMP_ERRORS. -/
  | dcmpCntClr
  /-- MEM_CNT_CLR (R446). MEM_CTL.CNT_CLR clears the four MEM_ counters. -/
  | memCntClr
  /-- DMA_CNT_CLR (R446). DMA[c] CNT_CLR clears DESCS and FAULTS. -/
  | dmaCntClr (c : Fin 32)
  /-- Q_CNT_CLR (R446). Q[q].CTL.CNT_CLR clears DISCARDS and REWINDS. -/
  | qCntClr (q : Fin 256)
  /-- ARB_CNT_CLR (R446). ARB_CTL.CNT_CLR clears the three ARB_ counters. -/
  | arbCntClr
  /-- LANE_CNT_CLR (R446). LANE[k].CTL.CNT_CLR clears the lane counters and PRBS counts. -/
  | laneCntClr (n : Fin 64)
  /-- LINK_CNT_CLR (R446). LINK_CTL.CNT_CLR clears the link counters. -/
  | linkCntClr (n : Fin 64)
  /-- DUP_CNT_CLR (R446). DUP_CTL.CNT_CLR clears the five DUP_ counters. -/
  | dupCntClr
  /-- ARM_CNT_CLR (R446). ARM_CTL.CNT_CLR clears ARM_COMMITS and ARM_FAILS. -/
  | armCntClr
  /-- UPD_CNT_CLR (R446). UPD_CTL.CNT_CLR clears the three UPD_ counters. -/
  | updCntClr
  /-- PWR_CNT_CLR (R446). PWR_CTL.CNT_CLR clears PWR_WAKES. -/
  | pwrCntClr
  /-- RST_CNT_CLR (R446). RST_CTL.CNT_CLR clears RST_COUNT. -/
  | rstCntClr
  /-- FRAME_SEND (R319). Between frames a link's transmitter picks the next due frame by the order of R319 and sends
  it, so a DATA packet's queue copy becomes SENT and credit is consumed. -/
  | frameSend (k : Fin 64)
  /-- SAMPLES_SEND (R350). Every 4 modulator edges the active member of a duplex pair sends a SAMPLES frame holding
  each channel's codes and clip marks. Operands: `first` of the 4 edges. -/
  | samplesSend (first : Nat)
  /-- TIMEMAP_SEND (R349). At every 1,024th modulator edge the active drives its DUPLEX_SYNC pulse, 80 ns at multiples
  of 65,536, and sends a TIMEMAP frame with its edge-time map. Operands: edge 1,024 · `m`. -/
  | timemapSend (m : Nat)
  /-- PLL_LOSES_LOCK (R107). A modulator, system or lane PLL loses lock in service, so chains are starved of samples,
  or every link of the quad is lost. Operands: `which` as for PLL_FAIL. -/
  | pllLosesLock (which : Fin 18)
  /-- LANE_PLL_RELOCK (R314). A lane PLL that lost lock relocks and the links of its quad begin new attempts. -/
  | lanePllRelock (q : Fin 16)
  /-- VEXC_RESTORED (R456). VEXC is applied again after its loss, ending the without-VEXC condition that sets EXCF. -/
  | vexcRestored
  /-- VPLN_LOSS (R457). VPLN falls while other supplies stay: the plinth and trouble log are lost, outputs go
  high-impedance and excitation discharges where VEXC allows. -/
  | vplnLoss
  /-- PLINTH_REALIGN (R40). At every whole second of local time while the time unit runs, the plinth's coarse count is
  realigned with local time. -/
  | plinthRealign
  /-- TEST_EN_FALL (R463). TEST_EN falls and every EXTEST, EXTEST_PULSE, EXTEST_TRAIN, HIGHZ or CLAMP in force becomes
  BYPASS at once, returning the balls to the hub. -/
  | testEnFall
  /-- TAP_INSTRUCTION_LOAD (R463). An instruction loaded through the IEEE 1149.1 TAP takes effect, taking the balls
  when TEST_EN is high or acting as BYPASS otherwise. Operands: the opcode, and the level of TEST_EN. -/
  | tapInstructionLoad (op : Fin 64) (testEn : Bool)
  deriving DecidableEq, Repr

end Sys2Proof
end

