-- ==== Sys2Proof/Decode.lean ====
section
/-! DEFINITION. The command a word spells. The spec gives no row of its opcode table any bits: a command is an access or an
event, not a word. -/

namespace Sys2Proof

/-- No word spells a command (DESIGN CHOICE, log entry 6). -/
def decodeTableWord (_nbits _w : Nat) : Option Instr := none

end Sys2Proof
end

