-- ==== Sys2Proof/Machine/Float.lean ====
section
/-! DEFINITION. IEEE 754 binary32 on bit patterns, rounded to nearest with ties to even (R159), through exact rationals. -/

namespace Sys2Proof.Machine

/-- The quiet NaN the hub produces (R161). -/
def fNaN : Nat := 0x7FC00000
def fInf (neg : Bool) : Nat := 0x7F800000 + b2n neg * 2 ^ 31
def fZero (neg : Bool) : Nat := b2n neg * 2 ^ 31

def fNeg (b : Nat) : Bool := decide (b / 2 ^ 31 % 2 = 1)
def fExp (b : Nat) : Nat := b / 2 ^ 23 % 256
def fMant (b : Nat) : Nat := b % 2 ^ 23

def fIsNaN (b : Nat) : Bool := fExp b == 255 && fMant b != 0
def fIsInf (b : Nat) : Bool := fExp b == 255 && fMant b == 0
def fFinite (b : Nat) : Bool := fExp b != 255

/-- Magnitude of a finite value. -/
def fMag (b : Nat) : ℚ :=
  if fExp b = 0 then (fMant b : ℚ) / 2 ^ 149
  else if 150 ≤ fExp b then ((2 ^ 23 + fMant b : Nat) : ℚ) * 2 ^ (fExp b - 150)
  else ((2 ^ 23 + fMant b : Nat) : ℚ) / 2 ^ (150 - fExp b)

/-- A finite value. -/
def fVal (b : Nat) : ℚ := if fNeg b then -fMag b else fMag b

/-- Quotient rounded to nearest, ties to even. -/
def divRound (n d : Nat) : Nat :=
  let q := n / d
  let r := n % d
  if 2 * r < d then q else if d < 2 * r then q + 1 else q + q % 2

/-- The nearest integer, ties to even. -/
def roundEven (q : ℚ) : Int := if 0 ≤ q then (divRound q.num.natAbs q.den : Int) else -(divRound q.num.natAbs q.den : Int)

/-- The bits of a positive rational rounded to binary32; overflow gives infinity. -/
def fRoundPos (num den : Nat) : Nat :=
  let e0 : Int := (Nat.log2 num : Int) - Nat.log2 den
  let ge := if e0 ≥ 0 then decide (den * 2 ^ e0.toNat ≤ num) else decide (den ≤ num * 2 ^ (-e0).toNat)
  let e := if ge then e0 else e0 - 1
  let ex : Int := max e (-126)
  let m := if ex ≥ 23 then divRound num (den * 2 ^ (ex - 23).toNat) else divRound (num * 2 ^ (23 - ex).toNat) den
  min 0x7F800000 ((ex + 126).toNat * 2 ^ 23 + m)

/-- Round a rational; `zneg` is the sign of a zero result. -/
def fRound (q : ℚ) (zneg : Bool) : Nat :=
  if q = 0 then fZero zneg
  else if q < 0 then 2 ^ 31 + fRoundPos q.num.natAbs q.den
  else fRoundPos q.num.natAbs q.den

def fMul (a b : Nat) : Nat :=
  let s := fNeg a != fNeg b
  if fIsNaN a || fIsNaN b then fNaN
  else if fIsInf a || fIsInf b then
    (if (fFinite a && decide (fVal a = 0)) || (fFinite b && decide (fVal b = 0)) then fNaN else fInf s)
  else fRound (fVal a * fVal b) s

def fAdd (a b : Nat) : Nat :=
  if fIsNaN a || fIsNaN b then fNaN
  else if fIsInf a then (if fIsInf b && fNeg a != fNeg b then fNaN else a)
  else if fIsInf b then b
  else fRound (fVal a + fVal b) (fNeg a && fNeg b)

def fSub (a b : Nat) : Nat := fAdd a (if fNeg b then b - 2 ^ 31 else b + 2 ^ 31)

/-- Fused multiply-add: one rounding. -/
def fFma (a b c : Nat) : Nat :=
  if fFinite a && fFinite b && fFinite c then
    fRound (fVal a * fVal b + fVal c) (fNeg c && (fNeg a != fNeg b))
  else fAdd (fMul a b) c

/-- An integer in binary32. -/
def fOfInt (v : Int) : Nat := fRound (v : ℚ) false

/-- Strictly less, for finite or infinite values; false on NaN. -/
def fLt (a b : Nat) : Bool :=
  if fIsNaN a || fIsNaN b then false
  else if fIsInf a then fNeg a && !(fIsInf b && fNeg b)
  else if fIsInf b then !fNeg b
  else decide (fVal a < fVal b)

def fLe (a b : Nat) : Bool := !fIsNaN a && !fIsNaN b && !fLt b a

end Sys2Proof.Machine
end

