-- ==== Sys2Proof/Machine/Hub.lean ====
section
/-! DEFINITION. The hub as one record, the non-volatile devices beside it, and the accessors every meaning uses. -/

namespace Sys2Proof.Machine

/-- A snapshot of an RS value for one access path (R10, R436): its words after the low half, and which of them have
not been read since the low-half read. -/
structure Snap where
  words : List Nat := []
  unread : List Nat := []
  deriving DecidableEq, Repr

/-- Everything of the hub but its buffer memory and its non-volatile devices. -/
structure Hub where
  regs : RegFile := []
  pwr : Pwr := {}
  time : TimeSt := {}
  exc : Exc := {}
  chans : AMap Chan := []
  hk : Hk := {}
  upd : Upd := {}
  lin : Lin := {}
  arm : ArmSt := {}
  mm : MemSt := {}
  acq : AcqSt := {}
  cmp : CmpSt := {}
  lk : Links := {}
  lanes : AMap LaneSt := []
  pair : DupSt := {}
  carve : CarveSt := {}
  dma : AMap DmaSt := []
  arb : ArbSt := {}
  spi : Spi := {}
  /-- the last word each access path read -/
  rd : AMap Nat := []
  /-- snapshots by path and low-half address -/
  snaps : AMap Snap := []
  /-- draws of free values so far (the model's own field, no state of the spec's) -/
  free : Nat := 0
  deriving DecidableEq, Repr

/-- A register field. -/
def Hub.get (h : Hub) (f : Field) : Nat := rGet h.regs f

/-- A one-bit register field as a truth value. -/
def Hub.bit (h : Hub) (f : Field) : Bool := rGet h.regs f == 1

/-- Write a register field. -/
def Hub.set (h : Hub) (f : Field) (v : Nat) : Hub := { h with regs := rSet h.regs f v }

/-- Set a one-bit field. -/
def Hub.on (h : Hub) (f : Field) : Hub := h.set f 1

/-- Clear a field. -/
def Hub.off (h : Hub) (f : Field) : Hub := h.set f 0

/-- Clear several fields. -/
def Hub.offs (h : Hub) (l : List Field) : Hub := l.foldl Hub.off h

/-- The stored bits of a register, without its SC bits and the bits that are computed. -/
def Hub.storedWord (h : Hub) (addr : Nat) : Nat :=
  ((fieldsAt addr).filter fun f => f.acc != .sc).foldl (fun a f => a + h.get f * 2 ^ f.lo) 0

def Hub.setTime (h : Hub) (t : TimeSt) : Hub := { h with time := t }
def Hub.setPwr (h : Hub) (p : Pwr) : Hub := { h with pwr := p }
def Hub.setHk (h : Hub) (k : Hk) : Hub := { h with hk := k }
def Hub.setExc (h : Hub) (e : Exc) : Hub := { h with exc := e }
def Hub.setLin (h : Hub) (l : Lin) : Hub := { h with lin := l }
def Hub.setArm (h : Hub) (a : ArmSt) : Hub := { h with arm := a }
def Hub.setMm (h : Hub) (m : MemSt) : Hub := { h with mm := m }
def Hub.setAcq (h : Hub) (a : AcqSt) : Hub := { h with acq := a }
def Hub.setLk (h : Hub) (l : Links) : Hub := { h with lk := l }
def Hub.setPair (h : Hub) (d : DupSt) : Hub := { h with pair := d }
def Hub.setCarve (h : Hub) (c : CarveSt) : Hub := { h with carve := c }
def Hub.setArb (h : Hub) (a : ArbSt) : Hub := { h with arb := a }
def Hub.setSpi (h : Hub) (s : Spi) : Hub := { h with spi := s }
def Hub.setCmp (h : Hub) (c : CmpSt) : Hub := { h with cmp := c }
def Hub.setUpd (h : Hub) (u : Upd) : Hub := { h with upd := u }

/-- The hidden record of channel `n`. -/
def Hub.chan (h : Hub) (n : Nat) : Chan := aGet h.chans n {}

def Hub.setChan (h : Hub) (n : Nat) (c : Chan) : Hub := { h with chans := aInsert h.chans n c }

/-- The key of a snapshot: path 0 is SPI, path 1 remote access (R436). -/
def snapKey (path addr : Nat) : Nat := path * 2 ^ 32 + addr

/-- A low-half read is still waiting for its high half, on either path (R10). -/
def Hub.snapOpen (h : Hub) (addr : Nat) : Bool :=
  !(aGet h.snaps (snapKey 0 addr) {}).unread.isEmpty || !(aGet h.snaps (snapKey 1 addr) {}).unread.isEmpty

/-- The source of an RS value changes: OVR is set where a snapshot is still being read (R10). -/
def Hub.rsChange (h : Hub) (addr : Nat) (ovr : Field) : Hub := if h.snapOpen addr then h.on ovr else h

/-- Advance the draw counter (DESIGN CHOICE, log entry 96). -/
def Hub.draw (h : Hub) : Hub := { h with free := h.free + 1 }

end Sys2Proof.Machine
end

