-- ==== Sys2Proof/Machine/Operands.lean ====
section
/-! DEFINITION. The forms in which values stand in registers, records and frames: little-endian bytes (R8), wire
time stamps (R35), signed fields, CRC-32C, and the grid instant of R60. -/

namespace Sys2Proof.Machine

/-- Units of 2^-32 ns in one nanosecond, one microsecond, one millisecond and one second. -/
def nsU : Nat := 2 ^ 32
def usU : Nat := 1000 * 2 ^ 32
def msU : Nat := 1000000 * 2 ^ 32
def secU : Nat := 1000000000 * 2 ^ 32

/-- The span of local time: the seconds field wraps at 2^48 (R34). -/
def timeWrap : Nat := 2 ^ 48 * secU

/-- The parts of an instant. -/
def tSec (t : Nat) : Nat := t / secU % 2 ^ 48
def tNs (t : Nat) : Nat := t % secU / nsU
def tFrac (t : Nat) : Nat := t % nsU

/-- The instant of seconds, nanoseconds and a 32-bit fraction. -/
def mkTime (sec ns frac : Nat) : Nat := sec * secU + ns * nsU + frac

/-- A value as `n` little-endian bytes (R8). -/
def leBytes : Nat → Nat → List (BitVec 8)
  | 0, _ => []
  | n + 1, v => BitVec.ofNat 8 v :: leBytes n (v / 256)

/-- The value of little-endian bytes. -/
def ofLe : List (BitVec 8) → Nat
  | [] => 0
  | b :: t => b.toNat + 256 * ofLe t

/-- The wire time stamp of an instant: 12 bytes, the fraction truncated to 2^-16 ns (R35). -/
def wireStamp (t : Nat) : List (BitVec 8) :=
  leBytes 6 (tSec t) ++ leBytes 4 (tNs t) ++ leBytes 2 (tFrac t / 2 ^ 16)

/-- The instant a wire time stamp names. -/
def ofWireStamp (b : List (BitVec 8)) : Nat :=
  mkTime (ofLe (b.take 6)) (ofLe ((b.drop 6).take 4)) (ofLe ((b.drop 10).take 2) * 2 ^ 16)

/-- The instant of a wire time stamp as it arrives, its 12 bytes read as one number; none where it is malformed (R35). -/
def stampOf (s : BitVec 96) : Option Nat :=
  let v := s.toNat
  if 999999999 < v / 2 ^ 48 % 2 ^ 32 then none
  else some (mkTime (v % 2 ^ 48) (v / 2 ^ 48 % 2 ^ 32) (v / 2 ^ 80 * 2 ^ 16))

/-- The triplet W0 to W2 of an instant in the TIME_ layout. -/
def triplet (t : Nat) : List Nat :=
  [tNs t, tSec t % 2 ^ 32, tSec t / 2 ^ 32 + 2 ^ 16 * (tFrac t / 2 ^ 16)]

/-- A two's-complement field of `w` bits as an integer. -/
def toSigned (w v : Nat) : Int := if v < 2 ^ (w - 1) then v else (v : Int) - 2 ^ w

/-- An integer as a two's-complement field of `w` bits. -/
def ofSigned (w : Nat) (v : Int) : Nat := (v % 2 ^ w).toNat

/-- One bit step of CRC-32C, reflected form (polynomial 0x1EDC6F41). -/
def crcBit (c : Nat) : Nat := if c % 2 = 1 then (c / 2) ^^^ 0x82F63B78 else c / 2

def crcByte (c : Nat) (b : BitVec 8) : Nat :=
  crcBit (crcBit (crcBit (crcBit (crcBit (crcBit (crcBit (crcBit (c ^^^ b.toNat))))))))

/-- CRC-32C of bytes (initial value and final inversion all ones). -/
def crc32c (bs : List (BitVec 8)) : Nat := (bs.foldl crcByte 0xFFFFFFFF) ^^^ 0xFFFFFFFF

/-- The instant of grid index `n` for epoch `e` and rate `p`/`q`, truncated to 2^-32 ns (R60). -/
def gridInstant (e p q n : Nat) : Nat :=
  mkTime (e + n * q / p) (n * q % p * 1000000000 / p) (n * q % p * 1000000000 % p * 2 ^ 32 / p)

/-- The first index whose instant is at or after `t`; 0 where the epoch lies after `t` (R62). -/
def firstIndexAt (e p q t : Nat) : Nat :=
  let c := (t - e * secU) * p / (q * secU)
  if gridInstant e p q c < t then c + 1 else c

/-- The bytes of a byte-addressed image, `n` of them from `off`. -/
def imgBytes (m : AMap Nat) : Nat → Nat → List (BitVec 8)
  | _, 0 => []
  | off, n + 1 => BitVec.ofNat 8 (aGet m off 0) :: imgBytes m (off + 1) n

/-- A little-endian value of an image. -/
def imgVal (m : AMap Nat) (off n : Nat) : Nat := ofLe (imgBytes m off n)

/-- Write little-endian bytes into an image; a zero byte is not listed. -/
def imgPut (m : AMap Nat) (off : Nat) : List (BitVec 8) → AMap Nat
  | [] => m
  | b :: t => imgPut (if b.toNat = 0 then aErase m off else aInsert m off b.toNat) (off + 1) t

/-- The bits of a value from `lo`, `w` of them. -/
def bitsAt (v lo w : Nat) : Nat := v / 2 ^ lo % 2 ^ w

end Sys2Proof.Machine
end

