-- ==== Sys2Proof/Machine/Ops.lean ====
section
/-! DEFINITION. The operations many meanings share: counters (R446), the trouble log (R424 to R427), interrupts (R445),
local time, the scheduler slots (R58) and the mode. -/

namespace Sys2Proof.Machine

/-! ## Counters -/

/-- Add `k` to a saturating counter; reaching the maximum sets its SAT bit, once (R446). -/
def Hub.bumpBy (h : Hub) (cnt sat : Field) (k : Nat) : Hub :=
  let v := h.get cnt
  let v' := min (v + k) cnt.top
  if v < cnt.top ∧ v' = cnt.top then (h.set cnt v').on sat else h.set cnt v'

def Hub.bump (h : Hub) (cnt sat : Field) : Hub := h.bumpBy cnt sat 1

/-! ## Interrupt summary (R442, R445) -/

/-- Set bit `i` of a field. -/
def Hub.setBit (h : Hub) (f : Field) (i : Nat) : Hub := if h.get f / 2 ^ i % 2 = 1 then h else h.set f (h.get f + 2 ^ i)

/-- Clear bit `i` of a field. -/
def Hub.clrBit (h : Hub) (f : Field) (i : Nat) : Hub := if h.get f / 2 ^ i % 2 = 1 then h.set f (h.get f - 2 ^ i) else h

/-- Carver `e`, DMA channel `c` or the link led by lane `k` raises its interrupt. -/
def Hub.irqEng (h : Hub) (e : Nat) : Hub := h.setBit DEV_PEND_ENG e
def Hub.irqDma (h : Hub) (c : Nat) : Hub := h.setBit DEV_PEND_DMA c
def Hub.irqLane (h : Hub) (k : Nat) : Hub :=
  if k < 32 then h.setBit DEV_PEND_LANE_LO k else h.setBit DEV_PEND_LANE_HI (k - 32)

/-! ## Time -/

/-- The outstanding slew after `d` of local time whose ticks add `inc` each and use up `r` of it; the tick that ends it is left to
SLEW_END and to the tick itself (R37) (DESIGN CHOICE, log entry 1). -/
def slewLeft (slew : Int) (r d : Nat) (inc : Int) : Int :=
  let k : Int := min ((d : Int) / max 1 inc) (((slew.natAbs + r - 1) / r - 1 : Nat) : Int)
  if 0 ≤ slew then slew - k * r else slew + k * r

/-- slew_term of the next tick: SLEW_RATE towards the outstanding amount, the residue at the end (R36, R37). -/
def Hub.slewTerm (h : Hub) : Int :=
  let r : Int := h.get TIME_SLEW_RATE
  if h.time.slew ≥ 0 then min r h.time.slew else -(min r (-h.time.slew))

/-- The signed TIME_INCR_ADJ in force. -/
def Hub.incrAdj (h : Hub) : Int := toSigned 32 (h.get TIME_INCR_ADJ)

/-- The increment of a tick (R36). -/
def Hub.tickInc (h : Hub) : Int := 4 * 2 ^ 32 + h.incrAdj + h.slewTerm

/-- Local time moves on to an instant an event names; it never moves back by this, and its ticks use up the outstanding slew (R37)
 (DESIGN CHOICE, log entry 1). -/
def Hub.upTo (h : Hub) (t : Nat) : Hub :=
  h.setTime { h.time with now := max h.time.now t
                          slew := slewLeft h.time.slew (max 1 (h.get TIME_SLEW_RATE)) (t - h.time.now) h.tickInc }

/-- Coarse time of the plinth: its own count, which goes on from the last realignment while the time unit runs (R40); a step does not
reach it before the next whole second. -/
def Hub.coarse (h : Hub) : Nat :=
  if h.time.running then h.pwr.coarse + (h.time.now - h.pwr.coarseAt) * 32768 / secU else h.pwr.coarse

/-- The instant a coarse count stands for. -/
def coarseInstant (c : Nat) : Nat := c * secU / 32768

def Hub.now (h : Hub) : Nat := h.time.now

/-- The nominal modulator period, 97.656 25 ns of the reference clock (R102). -/
def modNominal : Nat := 97 * 2 ^ 32 + 0xA8000000

/-- One modulator period in local time: the modulator clock and the time clock come from one reference, so the period
stretches with the increment of a tick (R36, R43) (DEDUCED, log entry 15). -/
def Hub.modPeriod (h : Hub) : Nat := (modNominal * h.tickInc / (4 * 2 ^ 32)).toNat

/-- The stretch of the measured modulator clock an instant falls in: first edge, its instant, the period (R43). -/
def Hub.edgeStretch (h : Hub) (t : Nat) : Nat × Nat × Nat :=
  if h.time.edge0 ≤ t then (h.time.edgeN, h.time.edge0, h.modPeriod)
  else (h.time.edgeHist.find? fun e => decide (e.2.1 ≤ t)).getD (h.time.edgeN, h.time.edge0, h.modPeriod)

/-- The number of the last modulator edge at or before an instant. -/
def Hub.edgeIndex (h : Hub) (t : Nat) : Nat :=
  let e := h.edgeStretch t
  e.1 + (t - e.2.1) / e.2.2

/-- The first modulator edge after an instant. -/
def Hub.edgeAfter (h : Hub) (t : Nat) : Nat :=
  let e := h.edgeStretch t
  if t < e.2.1 then e.2.1 else e.2.1 + ((t - e.2.1) / e.2.2 + 1) * e.2.2

/-- The local-time instant of modulator edge `n`, as the time unit measures it (R43, R142). -/
def Hub.edgeTime (h : Hub) (n : Nat) : Nat :=
  let e := if h.time.edgeN ≤ n then (h.time.edgeN, h.time.edge0, h.modPeriod)
    else (h.time.edgeHist.find? fun e => decide (e.1 ≤ n)).getD (h.time.edgeN, h.time.edge0, h.modPeriod)
  e.2.1 + (n - e.1) * e.2.2

/-- The period is about to change with the increment of a tick: the edges so far keep their instants (R43) (DEDUCED, log entry 15). -/
def Hub.edgeFix (h : Hub) : Hub :=
  let k := (h.time.now - h.time.edge0) / h.modPeriod
  if k = 0 then h
  else h.setTime { h.time with edge0 := h.time.edge0 + k * h.modPeriod, edgeN := h.time.edgeN + k
                               edgeHist := (h.time.edgeN, h.time.edge0, h.modPeriod) :: h.time.edgeHist }

/-- The modulator clock starts at a phase of its own; its edges go on being numbered (R43, R102) (DESIGN CHOICE, log entry 16). -/
def Hub.modPhased (h : Hub) : Hub :=
  let k := (h.time.now - h.time.edge0) / h.modPeriod + 1
  (h.setTime { h.time with edge0 := h.time.now + Config.modPhase h.free, edgeN := h.time.edgeN + k
                           edgeHist := (h.time.edgeN, h.time.edge0, h.modPeriod) :: h.time.edgeHist }).draw

/-! ## The trouble log -/

/-- The codes of R426. -/
inductive LogCode where
  | reset | wake | wdtWarn | xtalFail | pllFail | laneWakeFail | excShed | calFail | patinaMissing | patinaBad
  | engOverrun | engFault | lockBroken | rlfMismatch | cmpVerify | cmpAbandon | memUe | memDiscard | gapSpill
  | qFlush | creditErr | dmaFault | laneParked | routeConflict | duplexDiverge | dupTakeover | castRefused | castBad
  | castFallback | settingsUnreadable | lcChange
  deriving DecidableEq, Repr

/-- CODE and SEV of each entry (R426). -/
def logCode : LogCode → Nat × Nat
  | .reset => (0x0001, 1) | .wake => (0x0002, 0) | .wdtWarn => (0x0003, 1) | .xtalFail => (0x0004, 1)
  | .pllFail => (0x0005, 2) | .laneWakeFail => (0x0006, 2) | .excShed => (0x0010, 1) | .calFail => (0x0011, 1)
  | .patinaMissing => (0x0012, 1) | .patinaBad => (0x0013, 2) | .engOverrun => (0x0020, 1) | .engFault => (0x0021, 2)
  | .lockBroken => (0x0022, 1) | .rlfMismatch => (0x0023, 1) | .cmpVerify => (0x0030, 2) | .cmpAbandon => (0x0031, 1)
  | .memUe => (0x0040, 2) | .memDiscard => (0x0041, 1) | .gapSpill => (0x0042, 1) | .qFlush => (0x0043, 0)
  | .creditErr => (0x0044, 2) | .dmaFault => (0x0045, 2) | .laneParked => (0x0050, 1) | .routeConflict => (0x0051, 2)
  | .duplexDiverge => (0x0060, 2) | .dupTakeover => (0x0061, 1) | .castRefused => (0x0070, 1) | .castBad => (0x0071, 2)
  | .castFallback => (0x0072, 1) | .settingsUnreadable => (0x0073, 2) | .lcChange => (0x0074, 1)

/-- The ring holds 512 entries (R424). -/
def logRing : Nat := 512

/-- The entry an event writes now (R425): local time while the time unit runs, else coarse time with COARSE set. -/
def Hub.logEntry (h : Hub) (c : LogCode) (p0 p1 p2 : Nat) : LogEntry :=
  { code := (logCode c).1, sev := (logCode c).2
    tq := if h.time.running then h.get TIME_STAT_QUALITY else h.get TIME_STAT_QUALITY + 0x80
    seq := h.pwr.logSeq
    time := if h.time.running then h.time.now else coarseInstant h.pwr.coarse
    p0 := p0 % 2 ^ 32, p1 := p1 % 2 ^ 32, p2 := p2 % 2 ^ 32 }

/-- LOG_ENTRY: write an entry with the next SEQ, overwriting the oldest when the ring is full (R424); an entry at or
above IRQ_SEV sets NEW and raises the log interrupt (R427). Entries stand newest first. -/
def Hub.log (h : Hub) (c : LogCode) (p0 p1 p2 : Nat) : Hub :=
  let e := h.logEntry c p0 p1 p2
  let full := logRing ≤ h.pwr.log.length
  let h := h.setPwr { h.pwr with log := (e :: h.pwr.log).take logRing, logSeq := (h.pwr.logSeq + 1) % 2 ^ 32 }
  let h := if full then h.bump LOG_OVERWRITES LOG_SAT else h
  if h.get LOG_IRQ_SEV ≤ e.sev then (h.on LOG_NEW).on DEV_IRQ_LOG else h

/-- An entry that its rule limits to the first per second of its subject (DEDUCED, log entry 123). -/
def Hub.logFirst (h : Hub) (c : LogCode) (subject p0 p1 p2 : Nat) : Hub :=
  let k := (logCode c).1 * 2 ^ 16 + subject
  let sec := tSec (if h.time.running then h.time.now else coarseInstant h.pwr.coarse)
  if aFind h.pwr.logLast k = some sec then h
  else (h.setPwr { h.pwr with logLast := aInsert h.pwr.logLast k sec }).log c p0 p1 p2

/-! ## Mode -/

def mDormant : Nat := 0
def mIdle : Nat := 1
def mStaging : Nat := 2
def mCal : Nat := 3
def mStream : Nat := 4
def mSegment : Nat := 5
def mMirror : Nat := 6
def mMaint : Nat := 7

def Hub.mode (h : Hub) : Nat := h.get DEV_MODE_MODE

/-- Enter a mode; the completed transition raises the mode interrupt (R442). -/
def Hub.enter (h : Hub) (m : Nat) : Hub :=
  ((h.set DEV_MODE_MODE m).off DEV_MODE_IN_TRANSITION).on DEV_IRQ_MODE

/-- CALIBRATION, STREAM, SEGMENT and MIRROR run a committed armature (R4). -/
def Hub.acquiring (h : Hub) : Bool := h.mode == mCal || h.mode == mStream || h.mode == mSegment || h.mode == mMirror

/-! ## Scheduler slots (R58) -/

/-- STATE codes of a slot. -/
def scPending : Nat := 1
def scFired : Nat := 2
def scMissed : Nat := 3
def scCancelled : Nat := 4

/-- Owner codes of a slot. -/
def ownCommit : Nat := 1
def ownWithdraw : Nat := 2
def ownCast : Nat := 3

def Hub.schedPending (h : Hub) (s : Nat) : Bool := h.get (SCHED_STATE s) == scPending

/-- The lowest-numbered slot that is not pending. -/
def Hub.schedFree (h : Hub) : Option Nat := (List.range 8).find? (fun s => !h.schedPending s)

/-- Take a slot for an action; none where all eight are pending. -/
def Hub.schedTake (h : Hub) (owner t : Nat) : Option (Nat × Hub) :=
  h.schedFree.map fun s =>
    (s, ((h.setTime { h.time with schedAt := aInsert h.time.schedAt s t }).set (SCHED_OWNER s) owner).set
      (SCHED_STATE s) scPending)

/-- The pending slot of an owner. -/
def Hub.schedOf (h : Hub) (owner : Nat) : Option Nat :=
  (List.range 8).find? (fun s => h.schedPending s && h.get (SCHED_OWNER s) == owner)

def Hub.schedInstant (h : Hub) (s : Nat) : Nat := aGet h.time.schedAt s 0

/-- End a slot's pending action with a state. -/
def Hub.schedEnd (h : Hub) (s st : Nat) : Hub := h.set (SCHED_STATE s) st

/-- End the pending slot of an owner, where it has one. -/
def Hub.schedEndOf (h : Hub) (owner st : Nat) : Hub :=
  match h.schedOf owner with
  | some s => h.schedEnd s st
  | none => h

/-! ## Grids -/

def Hub.gridState (h : Hub) (g : Nat) : Nat := h.get (GRID_STATE g)
def gIdle : Nat := 0
def gWaiting : Nat := 1
def gRunning : Nat := 2
def gStopping : Nat := 3

def Hub.gridEpoch (h : Hub) (g : Nat) : Nat := h.get (GRID_EPOCH_LO g) + 2 ^ 32 * h.get (GRID_EPOCH_HI g)
def Hub.gridResume (h : Hub) (g : Nat) : Nat := h.get (GRID_RESUME_LO g) + 2 ^ 32 * h.get (GRID_RESUME_HI g)
def Hub.gridStop (h : Hub) (g : Nat) : Nat := h.get (GRID_STOP_LO g) + 2 ^ 32 * h.get (GRID_STOP_HI g)

def Hub.setGridStop (h : Hub) (g n : Nat) : Hub :=
  (h.set (GRID_STOP_LO g) n).set (GRID_STOP_HI g) (n / 2 ^ 32)

def noStop : Nat := 2 ^ 64 - 1

/-- The instant of an index of a grid (R60). -/
def Hub.gridTime (h : Hub) (g n : Nat) : Nat :=
  gridInstant (h.gridEpoch g) (h.get (GRID_RATE_P g)) (h.get (GRID_RATE_Q g)) n

/-- Some grid is WAITING, RUNNING or STOPPING (R38). -/
def Hub.anyGrid (h : Hub) : Bool := (List.range 8).any (fun g => h.gridState g != gIdle)

/-! ## Flag spans of a channel (R149) -/

/-- Mark the samples of a closed span of time (DEDUCED, log entry 19). -/
def Hub.mark (h : Hub) (n : Nat) (f : Flag) (lo hi : Nat) : Hub :=
  let c := h.chan n
  h.setChan n { c with spans := ⟨f, lo, some hi⟩ :: c.spans }

/-- A condition begins: mark from now until it ends. -/
def Hub.markFrom (h : Hub) (n : Nat) (f : Flag) (lo : Nat) : Hub :=
  let c := h.chan n
  h.setChan n { c with spans := ⟨f, lo, none⟩ :: c.spans }

/-- A condition ends: close its open spans. -/
def Hub.markEnd (h : Hub) (n : Nat) (f : Flag) (hi : Nat) : Hub :=
  let c := h.chan n
  h.setChan n { c with spans := c.spans.map fun s => if s.flag = f ∧ s.hi = none then { s with hi := some hi } else s }

/-- An excitation or multiplexer disturbance: SETTLE from its instant for its settle time; a later change inside the
span extends it (R69, R97). -/
def Hub.disturb (h : Hub) (n lo dur : Nat) : Hub :=
  let h := h.mark n .settle lo (lo + dur)
  let c := h.chan n
  h.setChan n { c with settleEnd := max c.settleEnd (lo + dur) }

/-! ## Host accesses (R413, R417, R351, R352) -/

/-- The address is answered now: everything in service, PWR_, CLK_, RST_ and LOG_ during start-up once the system PLL
has locked (R416, R417, R457), PWR_, RST_ and LOG_ in DORMANT (R413), the device-global and LC_ registers in RETIRED (R406). -/
def Hub.served (h : Hub) (addr : Nat) : Bool :=
  let plinth := decide (0x9000 ≤ addr) && decide (addr < 0xA000)
  match h.pwr.phase with
  | .run | .entering => true
  | .retired => decide (addr < 0x1000) || (decide (0x8800 ≤ addr) && decide (addr < 0x8810))
  | .gesso | .casting | .loading | .loaded => plinth
  | .dormant | .waking | .wakingMem => plinth && !(decide (0x9100 ≤ addr) && decide (addr < 0x9200))
  | .held | .released | .dead => false

/-- The registers whose accepted host writes the active member mirrors (R351) (DEDUCED, log entry 33). -/
def mirroredAddr (addr : Nat) : Bool :=
  (decide (0x10000 ≤ addr) && decide (addr < 0x1C000)) || addr == 0x2200 || (decide (0xD000 ≤ addr) && decide (addr < 0xE000))
    || (decide (0x50000 ≤ addr) && decide (addr < 0x51000)) || (decide (0xB000 ≤ addr) && decide (addr < 0xB200))
    || (decide (0x30000 ≤ addr) && decide (addr < 0x40000))

/-- The WERR bit that reports a refused write of a mirrored register (R352) (DEDUCED, log entry 33). -/
def mirrorWerr (addr : Nat) : Field :=
  if 0x10000 ≤ addr ∧ addr < 0x1C000 then CH_EXCS_WERR ((addr - 0x10000) / 0x100)
  else if addr = 0x2200 then HK_CAL_WERR
  else if 0x50000 ≤ addr ∧ addr < 0x51000 then TRG_WERR ((addr - 0x50000) / 0x80)
  else if 0x30000 ≤ addr ∧ addr < 0x40000 then ENG_WERR ((addr - 0x30000) / 0x1000)
  else ACQ_WERR

/-- A duplex section is committed and this hub is its active member. -/
def Hub.dupActive (h : Hub) : Bool := h.get DUP_PSTATE != 0 && h.get DUP_ROLE == 0

/-- This hub is the standby member of a pair. -/
def Hub.dupStandby (h : Hub) : Bool := h.mode == mMirror

/-! ## Links -/

/-- The hidden record of the link whose lead lane is `k`. -/
def Hub.link (h : Hub) (k : Nat) : LinkSt := aGet h.lk.links k {}
def Hub.setLink (h : Hub) (k : Nat) (l : LinkSt) : Hub := h.setLk { h.lk with links := aInsert h.lk.links k l }
def Hub.modLink (h : Hub) (k : Nat) (f : LinkSt → LinkSt) : Hub := h.setLink k (f (h.link k))

/-- A control frame becomes ready on a link; nothing is kept for a link that is not ACTIVE. -/
def Hub.sendCtrl (h : Hub) (k : Nat) (c : Ctrl) : Hub :=
  if h.bit (LINK_UP k) then h.modLink k fun l => { l with ready := l.ready ++ [c] } else h

/-- The active sends an EVENT frame naming its next modulator edge (R351). -/
def Hub.dupSend (h : Hub) (k : EventKind) (subject value stamp : Nat) : Hub :=
  if h.dupActive then
    h.sendCtrl (h.get DUP_LINK) (.duplex (.event
      { kind := k, subject := subject, value := value, time := h.edgeAfter h.time.now, edge := h.edgeIndex (h.edgeAfter h.time.now)
        stamp := stamp }))
  else h

def Hub.dupEvent (h : Hub) (k : EventKind) (subject value : Nat) : Hub := h.dupSend k subject value 0

/-- A host write of one register, with what it does once the hub takes it: ignored where the address is not served,
refused in MIRROR where the register is mirrored, and mirrored by the active where it is accepted (R351, R352) (DEDUCED, log entry 33). -/
def Hub.hostWr (h : Hub) (addr val : Nat) (f : Hub → Hub) : Hub :=
  if !h.served addr then h
  else if mirroredAddr addr then
    if h.dupStandby then (if 0xD000 ≤ addr ∧ addr < 0xE000 then h else h.on (mirrorWerr addr))
    else if h.dupActive ∧ (f (h.off (mirrorWerr addr))).get (mirrorWerr addr) = 0 then (f h).dupEvent .regWrite addr val
    else f h
  else f h

/-- A host write of a register of CH[n]; `sc` are the self-clearing bits the write sets. -/
def Hub.hostCh (h : Hub) (n off sc : Nat) (f : Hub → Hub) : Hub :=
  h.hostWr (0x10000 + 0x100 * n + off) ((f h).storedWord (0x10000 + 0x100 * n + off) + sc) f

/-- The excitation in force on a channel changes at an instant (R166). -/
def Hub.noteExc (h : Hub) (n t : Nat) : Hub :=
  let c := h.chan n
  h.setChan n { c with exHist := (t, if c.shed then 0 else c.exMode, c.exLevel) :: c.exHist }

/-! ## Folding over instances -/

/-- Apply an operation for each number of a list, first to last. -/
def Hub.each (h : Hub) (l : List Nat) (f : Hub → Nat → Hub) : Hub := l.foldl f h

end Sys2Proof.Machine
end

