-- ==== Sys2Proof/Machine/Time.lean ====
section
/-! DEFINITION. The time unit (chapter 02): local time and its steering, PTP, PPS, captures, pulses, grid states. -/

namespace Sys2Proof.Machine

/-! ## Quality and steering (R36 to R41) -/

def qUnset : Nat := 0
def qFree : Nat := 1
def qLocked : Nat := 2
def qSlewing : Nat := 3
def qHoldover : Nat := 4

def Hub.quality (h : Hub) : Nat := h.get TIME_STAT_QUALITY

/-- Change QUALITY; the code that held at each instant is kept for the packets that name it (R42) (DEDUCED, log entry 9). -/
def Hub.setQuality (h : Hub) (q : Nat) : Hub :=
  if h.quality = q then h
  else
    let past := if h.time.qHist.isEmpty then [(0, h.quality)] else h.time.qHist
    (h.set TIME_STAT_QUALITY q).setTime { h.time with qHist := (h.time.now, q) :: past }

/-- The QUALITY that held at an instant (R42) (DEDUCED, log entry 9). -/
def Hub.qualityAt (h : Hub) (t : Nat) : Nat :=
  match h.time.qHist.find? (fun e => decide (e.1 ≤ t)) with
  | some e => e.2
  | none => h.quality
def Hub.forced (h : Hub) : Bool := h.bit TIME_CTL_HOLDOVER_FORCE

/-- The outstanding slew may not reach 2^31 ns (R37). -/
def slewLimit : Int := 2 ^ 63

/-- Local time moved by a signed amount, wrapping (R34). -/
def timeAdd (t : Nat) (d : Int) : Nat := (((t : Int) + d) % (timeWrap : Int)).toNat

/-- The source passes the lock test: LOCK_COUNT consecutive measurements within LOCK_THRESH (R41). -/
def Hub.lockPassed (h : Hub) : Bool :=
  decide (h.get TIME_LOCK_COUNT ≤ h.time.lockRun) && h.get TIME_STAT_SRC_ACTIVE != 3

def Hub.dom (h : Hub) (d : Nat) : DomState := aGet h.time.doms d {}
def Hub.setDom (h : Hub) (d : Nat) (x : DomState) : Hub := h.setTime { h.time with doms := aInsert h.time.doms d x }

/-- The hub has been LOCKED to the source that steers it: it may announce that domain (R48). -/
def Hub.lockedTo (h : Hub) : Hub :=
  let a := h.get TIME_STAT_SRC_ACTIVE
  h.setDom a { h.dom a with everLocked := true }

/-- QUALITY leaves SLEWING (R41): HOLDOVER under HOLDOVER_FORCE or where the source was lost meanwhile, else by the lock test (DEDUCED, log entry 98). -/
def Hub.leaveSlew (h : Hub) : Hub :=
  if h.quality = qSlewing then
    if h.forced ∨ h.time.srcLost then h.setQuality qHoldover
    else if h.lockPassed then (h.setQuality qLocked).lockedTo else h.setQuality qFree
  else h

/-- Set the outstanding slew; a slew started makes QUALITY SLEWING, one ended leaves it (R37, R41). -/
def Hub.putSlew (h : Hub) (v : Int) : Hub :=
  let was := h.time.slew
  let h := h.edgeFix
  let h := h.setTime { h.time with slew := v }
  if v ≠ 0 then h.setQuality qSlewing
  else if was ≠ 0 then h.leaveSlew else h

/-- Add an amount to the outstanding slew, refused with ADJ_RANGE where the total would reach the limit (R37). -/
def Hub.addSlew (h : Hub) (d : Int) : Hub × Bool :=
  let v := h.time.slew + d
  if v ≥ slewLimit ∨ -v ≥ slewLimit then (h.on TIME_STAT_ADJ_RANGE, false) else (h.putSlew v, true)

/-- TICK: the time clock's 4 ns tick (R36); the slew is used up, and its last tick ends it (R37). -/
def Hub.tick (h : Hub) : Hub :=
  let t := h.slewTerm
  let h := h.setTime { h.time with now := timeAdd h.time.now h.tickInc }
  if h.time.slew = 0 then h else h.putSlew (h.time.slew - t)

/-- The signed offset in TIME_ADJ (R37, R38). -/
def Hub.adjOffset (h : Hub) : Int :=
  let m : Int := mkTime (h.get TIME_ADJ_SEC_LO + 2 ^ 32 * h.get TIME_ADJ_SEC_HI) (h.get TIME_ADJ_NS) (h.get TIME_ADJ_FRAC)
  if h.bit TIME_ADJ_SIGN then -m else m

def Hub.adjBad (h : Hub) : Bool := decide (999999999 < h.get TIME_ADJ_NS)

/-! ## Steps and their effect on the other users (R38, R39) -/

/-- An instant a forward step from P to N jumps over. -/
def jumped (p n t : Nat) : Bool := decide (p < t) && decide (t < n)

def Hub.pin (h : Hub) (i : Nat) : PinIn := aGet h.time.pins i {}
def Hub.setPin (h : Hub) (i : Nat) (p : PinIn) : Hub := h.setTime { h.time with pins := aInsert h.time.pins i p }
def Hub.out (h : Hub) (i : Nat) : PinOut := aGet h.time.outs i {}
def Hub.setOut (h : Hub) (i : Nat) (o : PinOut) : Hub := h.setTime { h.time with outs := aInsert h.time.outs i o }

/-- The owner of a scheduled action reports that a step jumped over it (R39, R379, R398). -/
def Hub.ownerMissed (h : Hub) (owner : Nat) : Hub :=
  if owner = ownCommit then
    ((((h.setArm { h.arm with prestarted := false }).off ARM_STAT_COMMIT_PENDING).off ARM_COMMIT_SLOT_VALID).on ARM_STAT_COMMIT_MISSED).set
      ARM_STAT_REASON 5
  else if owner = ownWithdraw then (h.off ARM_STAT_WITHDRAW_PENDING).off ARM_WD_SLOT_VALID
  else if owner = ownCast then h.set UPD_STAT_STATE 3
  else h

/-- A step jumps over a pending action: the slot reads MISSED and its owner reports it (R39). -/
def Hub.schedStep (p n : Nat) (h : Hub) (s : Nat) : Hub :=
  if h.schedPending s && jumped p n (h.schedInstant s) then
    ((h.schedEnd s scMissed).on TIME_STAT_SCHED_MISSED).ownerMissed (h.get (SCHED_OWNER s))
  else h

/-- START and PERIOD of an output. -/
def Hub.outStart (h : Hub) (i : Nat) : Nat :=
  mkTime (h.get (TOUT_START_SEC_LO i) + 2 ^ 32 * h.get (TOUT_START_SEC_HI i)) (h.get (TOUT_START_NS i) % 2 ^ 30) 0
def Hub.outPeriod (h : Hub) (i : Nat) : Nat :=
  mkTime (h.get (TOUT_PERIOD_SEC i)) (h.get (TOUT_PERIOD_NS i)) (h.get (TOUT_PERIOD_FRAC i))

/-- The first START + k PERIOD, k whole and of either sign, at or after an instant (DESIGN CHOICE, log entry 99). -/
def periodicFrom (start period t : Nat) : Nat :=
  if t ≤ start then start - (start - t) / period * period else start + ((t - start + period - 1) / period) * period

/-- WIDTH in units of 2^-32 ns; 0 is treated as 1 tick. -/
def Hub.outWidth (h : Hub) (i : Nat) : Nat := max 1 (h.get (TOUT_WIDTH i)) * 4 * nsU

/-- A pulse begins; the ball is inactive on a standby (R347). -/
def Hub.pulseOn (h : Hub) (i t : Nat) : Hub :=
  if h.dupStandby then h else h.setOut i { h.out i with pulse := true, pulseEnd := t + h.outWidth i }

/-- A step from P to N acts on an armed output (R39): a jumped ONCE pulse is missed; a PERIODIC one due at or before P is given at that tick,
and the output resumes at the first instant from N on. -/
def Hub.outStep (p n : Nat) (h : Hub) (i : Nat) : Hub :=
  if h.bit (TOUT_ARMED i) then
    if h.get (TOUT_MODE i) = 1 ∧ jumped p n (h.out i).nextAt then (h.on (TOUT_MISSED i)).off (TOUT_ARMED i)
    else if h.get (TOUT_MODE i) = 2 then
      let h := if (h.out i).nextAt ≤ p then h.pulseOn i n else h
      h.setOut i { h.out i with nextAt := periodicFrom (h.outStart i) (h.outPeriod i) n }
    else h
  else h

/-- An instant carried over a step: what elapses goes on (DESIGN CHOICE, log entry 8). -/
def shifted (d : Int) (t : Nat) : Nat := ((t : Int) + d).toNat

/-- Captures made before a step read with STEPPED set (R39). -/
def Hub.capStep (d : Int) (h : Hub) (i : Nat) : Hub :=
  let p := h.pin i
  let h := h.setPin i { p with fifo := p.fifo.map fun c => { c with stepped := true }
                               noted := p.noted.map fun e => { e with stepped := true, due := shifted d e.due } }
  if p.snapped then h.on (EVT_STEPPED i) else h

/-- The whole second before the first at or after an instant. -/
def secondBefore (t : Nat) : Nat := (t + secU - 1) / secU - 1

/-- What runs for a length of time goes on over a step: the watchdog's period, the second of RST_KEY, the limits of PPS_IN, pulses in
progress, the limits of links, loads and the governor, the measured modulator edges (DESIGN CHOICE, log entry 8). -/
def Hub.shiftTimers (h : Hub) (d : Int) : Hub :=
  let h := h.setPwr { h.pwr with wdtFrom := shifted d h.pwr.wdtFrom, rstArmAt := shifted d h.pwr.rstArmAt, coarseAt := shifted d h.pwr.coarseAt }
  let h := h.setTime { h.time with ppsLast := shifted d h.time.ppsLast, todArmAt := shifted d h.time.todArmAt, ppsOutEnd := shifted d h.time.ppsOutEnd
                                   edge0 := shifted d h.time.edge0
                                   edgeHist := h.time.edgeHist.map fun e => (e.1, shifted d e.2.1, e.2.2)
                                   outs := aMapVals (fun o => { o with pulseEnd := shifted d o.pulseEnd }) h.time.outs }
  let h := { h with lanes := aMapVals (fun l => { l with backoffEnd := shifted d l.backoffEnd, deadline := shifted d l.deadline
                                                         quietAt := l.quietAt.map (shifted d), wakeEnd := l.wakeEnd.map (shifted d)
                                                         hiBerAt := l.hiBerAt.map (shifted d) }) h.lanes }
  let h := h.setLk { h.lk with links := aMapVals (fun l => { l with
    ackFrom := shifted d l.ackFrom, replayFrom := shifted d l.replayFrom, raccAt := shifted d l.raccAt, changedAt := shifted d l.changedAt
    idleFrom := shifted d l.idleFrom, nakAt := l.nakAt.map fun e => (e.1, shifted d e.2) }) h.lk.links }
  let h := h.setUpd { h.upd with startedAt := shifted d h.upd.startedAt, partnerUpdAt := h.upd.partnerUpdAt.map (shifted d)
                                 lcArmAt := shifted d h.upd.lcArmAt }
  let h := h.setExc { h.exc with windowAt := shifted d h.exc.windowAt, fastAt := shifted d h.exc.fastAt, lastRestore := shifted d h.exc.lastRestore
                                 headroom := h.exc.headroom.map fun e => (shifted d e.1, e.2) }
  let h := h.setAcq { h.acq with pulses := aMapVals (shifted d) h.acq.pulses
                                 seen := h.acq.seen.map fun e => (e.1, e.2.1, e.2.2.1, shifted d e.2.2.2) }
  h.setHk { h.hk with tempAt := aMapVals (shifted d) h.hk.tempAt, convAt := shifted d h.hk.convAt, calAt := shifted d h.hk.calAt }

/-- Apply a step of local time (R38, R39): P is the instant the next tick would give, N = P + offset; the outstanding
slew is discarded, the servo's filters restart and QUALITY becomes FREE (HOLDOVER under HOLDOVER_FORCE) (DESIGN CHOICE, log entry 8). -/
def Hub.doStep (h : Hub) (d : Int) : Hub :=
  let p := timeAdd h.time.now h.tickInc
  let n := timeAdd p d
  let h := (h.edgeFix).shiftTimers d
  let h := h.setTime { h.time with now := n, slew := 0, lockRun := 0, srcLost := false, ppsDone := secondBefore n, alignDone := secondBefore n }
  let h := h.setQuality (if h.forced then qHoldover else qFree)
  let h := h.each (List.range 8) (Hub.schedStep p n)
  let h := h.each (List.range 4) (Hub.outStep p n)
  h.each (List.range 4) (Hub.capStep d)

/-- STEP: ADJ_GO with ADJ_MODE 0 (R38). -/
def Hub.adjStep (h : Hub) : Hub :=
  let h := h.off TIME_CTL_ADJ_MODE
  if h.adjBad then h.on TIME_STAT_ADJ_RANGE
  else if h.anyGrid then h.on TIME_STAT_STEP_REFUSED
  else h.doStep h.adjOffset

/-- SLEW: ADJ_GO with ADJ_MODE 1 (R37). -/
def Hub.adjSlew (h : Hub) : Hub :=
  let h := h.on TIME_CTL_ADJ_MODE
  if h.adjBad then h.on TIME_STAT_ADJ_RANGE else (h.addSlew h.adjOffset).1

/-- Ticks the outstanding slew still needs. -/
def Hub.slewTicks (h : Hub) : Nat :=
  let r := max 1 (h.get TIME_SLEW_RATE)
  (h.time.slew.natAbs + r - 1) / r

/-- SLEW_END: the ticks that use up the outstanding slew pass, and QUALITY leaves SLEWING (R37, R41). -/
def Hub.slewEnd (h : Hub) : Hub :=
  if h.time.slew = 0 then h
  else
    let d := (h.slewTicks : Int) * (4 * 2 ^ 32 + h.incrAdj) + h.time.slew
    (h.setTime { h.time with now := timeAdd h.time.now d }).putSlew 0

/-- SLEW_ABORT: what is outstanding is discarded (R37). -/
def Hub.slewAbort (h : Hub) : Hub := h.putSlew 0

/-- HOLDOVER_FORCE written (R41): setting it moves FREE and LOCKED to HOLDOVER at once, and the count of the lock test ends. -/
def Hub.holdoverForce (h : Hub) (v : Bool) : Hub :=
  let h := h.set TIME_CTL_HOLDOVER_FORCE (b2n v)
  let h := if v then h.setTime { h.time with lockRun := 0 } else h
  if v ∧ (h.quality = qFree ∨ h.quality = qLocked) then h.setQuality qHoldover else h

/-- The accepted range of TIME_INCR_ADJ (R36). -/
def incrMax : Int := 8589934

/-- INCR_ADJ_WRITE (R36). -/
def Hub.incrWrite (h : Hub) (v : Word) : Hub :=
  let x := toSigned 32 v.toNat
  if x < -incrMax ∨ incrMax < x then h.on TIME_STAT_ADJ_RANGE else h.edgeFix.set TIME_INCR_ADJ v.toNat

/-! ## Sources (R44 to R46) -/

/-- DOM0_VALID and DOM1_VALID. -/
def domValidF (d : Nat) : Field := if d = 0 then TIME_STAT_DOM0_VALID else TIME_STAT_DOM1_VALID

/-- Take over a source by a slew of its negated offset; refused with ADJ_RANGE at the limit (R45). The new source passes the lock test by
one good measurement where the old one passed it, as the worked example has it (R41) (DEDUCED, log entry 98). -/
def Hub.takeSource (h : Hub) (src : Nat) : Hub × Bool :=
  let r := h.addSlew (-(h.dom src).lastOff * 2 ^ 16)
  if r.2 then ((r.1.setTime { r.1.time with lockRun := min r.1.time.lockRun (h.get TIME_LOCK_COUNT - 1), srcLost := false }).set TIME_STAT_SRC_ACTIVE src, true)
  else (r.1, false)

/-- SRC_CHANGE: a write of TIME_CTL.SRC (R44, R45). Source 3 free-runs. -/
def Hub.srcChange (h : Hub) (src : Fin 4) : Hub :=
  if h.get TIME_CTL_SRC = src.val ∧ h.get TIME_STAT_SRC_ACTIVE = src.val then h
  else if src.val = 3 then
    let h := ((h.set TIME_CTL_SRC 3).set TIME_STAT_SRC_ACTIVE 3)
    let h := h.setTime { h.time with lockRun := 0, srcLost := false }
    if h.quality = qLocked ∨ (h.quality = qHoldover ∧ !h.forced) then h.setQuality qFree else h
  else
    let r := h.takeSource src.val
    if r.2 then r.1.set TIME_CTL_SRC src.val else r.1

/-- HOLDOVER on loss of the selected source (R41, R46): at once, at the end of a slew in progress, never from UNSET (DEDUCED, log entry 98). -/
def Hub.toHoldover (h : Hub) : Hub :=
  let h := h.setTime { h.time with lockRun := 0, srcLost := true }
  if h.quality = qLocked ∨ h.quality = qFree then h.setQuality qHoldover else h

/-- AUTO_SWITCH: the selected source is lost (R46). -/
def Hub.sourceLost (h : Hub) : Hub :=
  let a := h.get TIME_STAT_SRC_ACTIVE
  let o := 1 - a
  if !h.forced && h.bit TIME_CTL_AUTO_SW && decide (a ≤ 1) && h.bit (domValidF o) then
    let r := h.takeSource o
    if r.2 then r.1.on TIME_STAT_AUTO_SWITCHED else r.1.toHoldover
  else h.toHoldover

/-- A domain slot becomes valid or invalid (R44). -/
def Hub.domValid (h : Hub) (d : Nat) (v : Bool) : Hub :=
  let was := h.bit (domValidF d)
  let h := h.set (domValidF d) (b2n v)
  if was && !v && h.get TIME_STAT_SRC_ACTIVE == d then h.sourceLost else h

/-- What the servo firmware writes: some value of the accepted range (R36). -/
def servoValue (k : Nat) : Int := (Config.servoAdj k) % (2 * incrMax + 1) - incrMax

/-- LOCK_TEST: one more measurement of the selected source (R41); the offset is in 2^-16 ns. -/
def Hub.lockTest (h : Hub) (off : Int) : Hub :=
  let ok : Bool := decide (off.natAbs ≤ h.get TIME_LOCK_THRESH * 2 ^ 16)
  let h := h.setTime { h.time with lockRun := if ok then h.time.lockRun + 1 else 0, srcLost := false }
  if h.lockPassed ∧ (h.quality = qUnset ∨ h.quality = qFree ∨ h.quality = qHoldover) then (h.setQuality qLocked).lockedTo else h

/-- A measurement of source `d` (R44, R45): the slot keeps its offset; the selected slot's servo steers, and the phase error it finds beyond
what is outstanding while a slew runs is added to that (DESIGN CHOICE, log entry 10). -/
def Hub.measure (h : Hub) (d : Nat) (off : Int) : Hub :=
  let h := h.setDom d { h.dom d with lastOff := off }
  let h := if d < 2 then
      ((h.rsChange (0x1048 + 0x20 * d) (DOM_OVR d)).set (DOM_OFFSET_LO d) (ofSigned 64 off)).set (DOM_OFFSET_HI d)
        (ofSigned 64 off / 2 ^ 32)
    else h
  if h.get TIME_STAT_SRC_ACTIVE = d ∧ !h.forced then
    let e := off + h.time.slew / 2 ^ 16
    let h := if h.time.slew ≠ 0 then (h.addSlew (-e * 2 ^ 16)).1 else h
    let h := (h.edgeFix.set TIME_INCR_ADJ (ofSigned 32 (servoValue h.free))).draw
    h.lockTest e
  else h

/-- DOM[d] word 0 written (R44, R48): a slot no longer tracked is invalid, and a new domain has not been locked to. -/
def Hub.domWrite (h : Hub) (d : Nat) (f : Hub → Hub) : Hub :=
  let g := f h
  let g := if g.get (DOM_DOMAIN_NUMBER d) = h.get (DOM_DOMAIN_NUMBER d) ∧ g.get (DOM_SDO_ID d) = h.get (DOM_SDO_ID d) then g
    else g.setDom d { g.dom d with everLocked := false }
  if g.bit (DOM_ENABLE d) ∧ g.get (DOM_TRANSPORT d) ≠ 3 then g else (g.off (DOM_PORT_STATE d)).domValid d false

/-! ## PTP (R48 to R52) -/

/-- The role of a port in the settings in use: 0 off, 1 boundary clock, 2 master only, 3 transparent (R402). -/
def Hub.ptpRole (h : Hub) (lane : Nat) : Nat := aGet h.upd.inUse (0x138 + lane) 0

/-- PTP_RATES byte 3 bit 0: one-step (R50). -/
def Hub.oneStep (h : Hub) : Bool := aGet h.upd.inUse 0x17B 0 % 2 == 1

/-- A PTP message's port is on an Ethernet lane. -/
def Hub.ptpEth (h : Hub) (lane : Nat) : Bool := h.get (LANE_MODE lane) == 2

/-- The role a port takes (R49): transparent clocks stand only among the Ethernet ports on lanes 0 to 7. -/
def Hub.portRole (h : Hub) (lane : Nat) : Nat :=
  let r := h.ptpRole lane
  if r = 3 ∧ !(h.ptpEth lane ∧ lane < 8) then 0 else r

/-- The port is one of a transparent clock. -/
def Hub.portTc (h : Hub) (lane : Nat) : Bool := h.portRole lane == 3

/-- The slot a message belongs to: enabled, its domain and sdoId, its slave lane, a boundary or ordinary clock's port (R44, R48, R49). -/
def Hub.slotOf (h : Hub) (lane : Nat) (m : PtpMsg) : Option Nat :=
  if h.portRole lane = 1 then
    (List.range 2).find? fun d =>
      h.bit (DOM_ENABLE d) && h.get (DOM_TRANSPORT d) != 3 && h.get (DOM_DOMAIN_NUMBER d) == m.domain
        && h.get (DOM_SDO_ID d) == m.sdo && h.get (DOM_SLAVE_LANE d) == lane
  else none

/-- A picosecond delay in 2^-16 ns. -/
def psTo16 (ps : Int) : Int := ps * 2 ^ 16 / 1000

/-- A receive stamp in 2^-16 ns with the board delay taken off (R54). -/
def Hub.rxStamp (h : Hub) (lane t : Nat) : Int := (t : Int) / 2 ^ 16 - psTo16 (h.get (PORTDLY_RX_EXT lane))

/-- A transmit stamp in 2^-16 ns with the board delay added (R54). -/
def Hub.txStamp (h : Hub) (lane t : Nat) : Int := (t : Int) / 2 ^ 16 + psTo16 (h.get (PORTDLY_TX_EXT lane))

def Hub.asym (h : Hub) (lane : Nat) : Int := psTo16 (toSigned 32 (h.get (PORTDLY_ASYM lane)))

/-- CLOCK_IDENTITY of the settings in use (R49, R402). -/
def Hub.clockIdentity (h : Hub) : Nat := imgVal h.upd.inUse 0xA0 8

/-- The port may send (R49): its link is ACTIVE, its role is not off, and on Ethernet a clockIdentity is set. -/
def Hub.ptpMaySend (h : Hub) (lane : Nat) : Bool :=
  h.get (LANE_STATE lane) == 5 && h.portRole lane != 0 && (!h.ptpEth lane || h.clockIdentity != 0)

/-- A message leaves: on an ACTIVE Kamrel link it is one TIME frame, ready for the transmitter (R52). -/
def Hub.ptpOut (h : Hub) (o : PtpOut) : Hub :=
  let h := h.setTime { h.time with ptpTx := o :: h.time.ptpTx }
  if !h.ptpEth o.lane ∧ h.bit (LINK_UP o.lane) then h.modLink o.lane fun l => { l with times := l.times ++ [o] } else h

/-- A message leaves by a port that may send; it carries the port's identity, zeroes for the clockIdentity on a Kamrel link, where it is
one TIME frame (R49, R52). What a transparent clock relays keeps the identity it came with (DEDUCED, log entry 100). -/
def Hub.ptpSend (h : Hub) (o : PtpOut) : Hub :=
  if h.ptpMaySend o.lane then h.ptpOut { o with clockId := if h.ptpEth o.lane then h.clockIdentity else 0, port := o.lane + 1 } else h

/-- A relayed message leaves by another port of the transparent clock, changed in nothing but what R51 updates. -/
def Hub.ptpForward (h : Hub) (k : PtpKind) (m : PtpMsg) (port : Nat) (corr : Int) : Hub :=
  if h.ptpMaySend port then
    h.ptpOut { lane := port, kind := k, domain := m.domain, sdo := m.sdo, seq := m.seq, corr := corr, ts := m.ts
               clockId := m.clockId, port := m.port, cls := m.cls, prio1 := m.prio1, steps := m.steps, utc := m.utc }
  else h

/-- The other ports of the transparent clock. -/
def Hub.tcPorts (h : Hub) (lane : Nat) : List Nat := (List.range 8).filter fun p => p != lane && h.portTc p

/-- A slot tracks the message's domain by the peer mechanism: the transparent clock is a peer-to-peer one (R49, R51) (DEDUCED, log entry 100). -/
def Hub.tcPeer (h : Hub) (m : PtpMsg) : Bool :=
  (List.range 2).any fun d => h.bit (DOM_ENABLE d) && h.get (DOM_DOMAIN_NUMBER d) == m.domain && h.get (DOM_SDO_ID d) == m.sdo && h.get (DOM_DELAY_MECH d) == 1

/-- The measured mean link delay of a port, 2^-16 ns: that of the peer-mechanism slot on its lane. -/
def Hub.linkDelay (h : Hub) (lane : Nat) : Int :=
  (((List.range 2).find? fun d => h.get (DOM_SLAVE_LANE d) == lane && h.get (DOM_DELAY_MECH d) == 1).map fun d => (h.dom d).meanDelay).getD 0

/-- The residence time of a message by a port (R51). -/
def Hub.residence (h : Hub) (lane ingress port egress : Nat) : Int := h.txStamp port egress - h.rxStamp lane ingress

/-- An event message leaves by every other port that gives it an egress stamp, its residence time and `extra` added (R51). -/
def Hub.relayEvent (h : Hub) (k : PtpKind) (m : PtpMsg) (lane ingress : Nat) (egress : List (Nat × Nat)) (extra : Int) : Hub :=
  (h.tcPorts lane).foldl (fun h p => match (egress.find? fun e => e.1 == p).map (·.2) with
    | some t => h.ptpForward k m p (m.corr + h.residence lane ingress p t + extra)
    | none => h) h

/-- A general message leaves unchanged by every other port. -/
def Hub.relayGeneral (h : Hub) (k : PtpKind) (m : PtpMsg) (lane : Nat) : Hub :=
  (h.tcPorts lane).foldl (fun h p => h.ptpForward k m p m.corr) h

/-- The master port condition of the send rows. -/
def Hub.ptpMaster (h : Hub) (lane : Nat) : Bool := (h.portRole lane == 1 || h.portRole lane == 2) && h.ptpMaySend lane

/-- The transparent clock's half of SYNC_RX (R51): a one-step Sync is corrected in flight, a two-step one in its Follow_Up; in peer-to-peer mode
the mean link delay of the port it came by is added. -/
def Hub.relaySync (h : Hub) (lane : Nat) (m : PtpMsg) (ingress : Nat) (egress : List (Nat × Nat)) : Hub :=
  let x := if h.tcPeer m then h.linkDelay lane else 0
  if m.twoStep then
    (h.tcPorts lane).foldl (fun h p => match (egress.find? fun e => e.1 == p).map (·.2) with
      | some t =>
        let h := h.ptpForward .sync m p m.corr
        h.setTime { h.time with relayed := ⟨lane, p, m.domain, m.seq, h.residence lane ingress p t + x⟩ :: h.time.relayed }
      | none => h) h
  else h.relayEvent .sync m lane ingress egress x

/-- SYNC_RX (R48, R50, R51): a measurement for a slave port, or relayed with its residence time added. `egress` gives the stamps at which it
leaves by other ports. -/
def Hub.syncRx (h : Hub) (lane : Nat) (m : PtpMsg) (ingress : Nat) (egress : List (Nat × Nat)) : Hub :=
  let h := h.upTo ingress
  if h.portTc lane then h.relaySync lane m ingress egress
  else
    match h.slotOf lane m with
    | none => h
    | some d =>
      if h.get (DOM_PORT_STATE d) ≠ 9 then h
      else
        let x := h.dom d
        let c := m.corr + h.asym lane
        if m.twoStep then
          h.setDom d { x with syncSeq := m.seq, syncIngress := h.rxStamp lane ingress, syncCorr := c, syncPending := true }
        else
          let t21 := h.rxStamp lane ingress - (m.ts : Int) / 2 ^ 16 - c
          (h.setDom d { x with lastT21 := t21, syncPending := false }).measure d (t21 - x.meanDelay)

/-- The Follow_Up of a relayed two-step Sync leaves where the Sync left, corrected by its residence time (R51). -/
def Hub.relayFollowUp (h : Hub) (lane : Nat) (m : PtpMsg) : Hub :=
  let mine := fun (r : Relayed) => r.lane == lane && r.domain == m.domain && r.seq == m.seq
  let h' := (h.time.relayed.filter mine).foldl (fun h r => h.ptpForward .followUp m r.port (m.corr + r.corr)) h
  h'.setTime { h'.time with relayed := h'.time.relayed.filter fun r => !mine r }

/-- FOLLOW_UP_RX: completes a two-step Sync (R48), or is corrected by the residence time of its Sync (R51). -/
def Hub.followUpRx (h : Hub) (lane : Nat) (m : PtpMsg) : Hub :=
  if h.portTc lane then h.relayFollowUp lane m
  else
    match h.slotOf lane m with
    | none => h
    | some d =>
      let x := h.dom d
      if x.syncPending ∧ x.syncSeq = m.seq ∧ h.get (DOM_PORT_STATE d) = 9 then
        let t21 := x.syncIngress - (m.ts : Int) / 2 ^ 16 - x.syncCorr - m.corr
        (h.setDom d { x with lastT21 := t21, syncPending := false }).measure d (t21 - x.meanDelay)
      else h

/-- DELAY_REQ_RX: a master port answers with Delay_Resp carrying the receive stamp; a transparent clock relays. -/
def Hub.delayReqRx (h : Hub) (lane : Nat) (m : PtpMsg) (ingress : Nat) (egress : List (Nat × Nat)) : Hub :=
  let h := h.upTo ingress
  if h.portTc lane then h.relayEvent .delayReq m lane ingress egress 0
  else if h.ptpMaster lane then
    h.ptpSend { lane := lane, kind := .delayResp, domain := m.domain, sdo := m.sdo, seq := m.seq, corr := m.corr, ts := (h.rxStamp lane ingress * 2 ^ 16).toNat }
  else h

/-- meanPathDelay of a slot, also in DOM.DELAY in 2^-8 ns. -/
def Hub.setDelay (h : Hub) (d : Nat) (v : Int) : Hub :=
  (h.setDom d { h.dom d with meanDelay := v }).set (DOM_DELAY d) (ofSigned 32 (v / 2 ^ 8))

/-- DELAY_RESP_RX: completes a request-response delay measurement (R48): half of (t2 - t1) + (t4 - t3). The asymmetry taken off the request's
correctionField comes back in the answer's (R54). -/
def Hub.delayRespRx (h : Hub) (lane : Nat) (m : PtpMsg) : Hub :=
  if h.portTc lane then h.relayGeneral .delayResp m lane
  else
    match h.slotOf lane m with
    | none => h
    | some d =>
      let x := h.dom d
      if x.reqPending ∧ x.reqSeq = m.seq ∧ h.get (DOM_DELAY_MECH d) = 0 then
        let t43 := (m.ts : Int) / 2 ^ 16 - m.corr - x.reqEgress
        (h.setDom d { x with reqPending := false }).setDelay d ((x.lastT21 + t43) / 2)
      else h

/-- PDELAY_REQ_RX: answered with Pdelay_Resp and its follow-up, which carries the transmit stamp; an end-to-end transparent clock relays it
(R49, R51). -/
def Hub.pdelayReqRx (h : Hub) (lane : Nat) (m : PtpMsg) (ingress : Nat) (egress : List (Nat × Nat)) : Hub :=
  let h := h.upTo ingress
  if h.portTc lane ∧ !h.tcPeer m then h.relayEvent .pdelayReq m lane ingress egress 0
  else
    let t := ((egress.find? fun e => e.1 == lane).map (·.2)).getD ingress
    let o : PtpOut := { lane := lane, kind := .pdelayResp, domain := m.domain, sdo := m.sdo, seq := m.seq, corr := 0, ts := (h.rxStamp lane ingress * 2 ^ 16).toNat }
    (h.ptpSend o).ptpSend { o with kind := .pdelayRespFollowUp, corr := m.corr, ts := (h.txStamp lane t * 2 ^ 16).toNat }

/-- PDELAY_RESP_RX: keeps t2 of the answer and its receive stamp t4; the asymmetry is added to what arrives (R54). -/
def Hub.pdelayRespRx (h : Hub) (lane : Nat) (m : PtpMsg) (ingress : Nat) (egress : List (Nat × Nat)) : Hub :=
  let h := h.upTo ingress
  if h.portTc lane ∧ !h.tcPeer m then h.relayEvent .pdelayResp m lane ingress egress 0
  else match h.slotOf lane m with
    | none => h
    | some d =>
      let x := h.dom d
      if x.reqPending ∧ x.reqSeq = m.seq then
        h.setDom d { x with respT2 := (m.ts : Int) / 2 ^ 16 - (m.corr + h.asym lane), respIngress := h.rxStamp lane ingress, respPending := true }
      else h

/-- PDELAY_RESP_FOLLOW_UP_RX: half of (t4 - t1) - (t3 - t2), and the neighbour rate ratio from two exchanges. -/
def Hub.pdelayFollowUpRx (h : Hub) (lane : Nat) (m : PtpMsg) : Hub :=
  if h.portTc lane ∧ !h.tcPeer m then h.relayGeneral .pdelayRespFollowUp m lane
  else match h.slotOf lane m with
  | none => h
  | some d =>
    let x := h.dom d
    if x.respPending ∧ x.reqSeq = m.seq then
      let t3 := (m.ts : Int) / 2 ^ 16 + m.corr
      let t4 := x.respIngress
      let dt4 := t4 - x.prevT4
      let h := if x.prevT4 ≠ 0 ∧ dt4 ≠ 0 then
          h.set (DOM_RATE d) (ofSigned 32 (((t3 - x.prevT3) - dt4) * 2 ^ 40 / dt4))
        else h
      (h.setDom d { x with respPending := false, reqPending := false, prevT3 := t3, prevT4 := t4 }).setDelay d
        (((t4 - x.reqEgress) - (t3 - x.respT2)) / 2)
    else h

/-- ANNOUNCE_RX: the best-master firmware chooses the port state (R48); the slot is valid in SLAVE (R44). The
currentUtcOffset is kept to be passed on (R34) (DESIGN CHOICE, log entry 10). -/
def Hub.announceRx (h : Hub) (lane : Nat) (m : PtpMsg) : Hub :=
  if h.portTc lane then h.relayGeneral .announce m lane
  else match h.slotOf lane m with
  | none => h
  | some d =>
    let st := (Config.bmcaState h.free).toNat
    let h := h.setDom d { h.dom d with utc := m.utc }
    let h := ((h.draw).set (DOM_PORT_STATE d) st).set (DOM_STEPS_REMOVED d) m.steps
    h.domValid d (st == 9)

/-- SIGNALING_MANAGEMENT_RX: relayed by a transparent clock, otherwise discarded (R48). -/
def Hub.signalingRx (h : Hub) (lane : Nat) (m : PtpMsg) : Hub :=
  if h.portTc lane then h.relayGeneral .signaling m lane else h

/-- ANNOUNCE_TIMEOUT: the slot becomes invalid (R44). -/
def Hub.announceTimeout (h : Hub) (d : Fin 2) : Hub :=
  if h.bit (DOM_ENABLE d.val) then (h.on (DOM_ANNOUNCE_TIMEOUT d.val)).domValid d.val false else h

def Hub.nextPtpSeq (h : Hub) (lane kind : Nat) : Nat := aGet h.time.ptpSeq (lane * 16 + kind) 0
def Hub.bumpPtpSeq (h : Hub) (lane kind : Nat) : Hub :=
  h.setTime { h.time with ptpSeq := aInsert h.time.ptpSeq (lane * 16 + kind) ((h.nextPtpSeq lane kind + 1) % 2 ^ 16) }

/-- SYNC_SEND: one-step carries the whole nanoseconds of the transmit instant in originTimestamp and the rest in
correctionField; two-step leaves both to Follow_Up (R50). -/
def Hub.syncSend (h : Hub) (lane d egress : Nat) : Hub :=
  let h := h.upTo egress
  if h.ptpMaster lane then
    let t := h.txStamp lane egress
    let q := h.nextPtpSeq lane 0
    let o : PtpOut := { lane := lane, kind := .sync, domain := h.get (DOM_DOMAIN_NUMBER d), sdo := h.get (DOM_SDO_ID d), seq := q, corr := 0, ts := 0 }
    if h.oneStep then (h.ptpSend { o with corr := t % 2 ^ 16, ts := ((t / 2 ^ 16) * 2 ^ 32).toNat }).bumpPtpSeq lane 0
    else
      let h := (h.ptpSend o).bumpPtpSeq lane 0
      h.setTime { h.time with syncOut := (lane, d, q) :: h.time.syncOut }
  else h

/-- TX_TIMESTAMP_RETURN: the firmware sends Follow_Up with the transmit stamp of the two-step Sync that was sent (R50). -/
def Hub.txReturn (h : Hub) (lane seq egress : Nat) : Hub :=
  match h.time.syncOut.find? fun e => e.1 == lane && e.2.2 == seq with
  | none => h
  | some (l, d, q) =>
    let h := h.setTime { h.time with syncOut := h.time.syncOut.erase (l, d, q) }
    let t := h.txStamp lane egress
    if h.ptpMaster lane then
      h.ptpSend { lane := lane, kind := .followUp, domain := h.get (DOM_DOMAIN_NUMBER d), sdo := h.get (DOM_SDO_ID d), seq := seq
                  corr := t % 2 ^ 16, ts := ((t / 2 ^ 16) * 2 ^ 32).toNat }
    else h

/-- ANNOUNCE_SEND: never before the hub has been LOCKED to the domain; clockClass 248, priority1 255, the currentUtcOffset passed on
(R34, R48). -/
def Hub.announceSend (h : Hub) (lane d : Nat) : Hub :=
  if h.ptpMaster lane ∧ (h.dom d).everLocked then
    (h.ptpSend { lane := lane, kind := .announce, domain := h.get (DOM_DOMAIN_NUMBER d), sdo := h.get (DOM_SDO_ID d), seq := h.nextPtpSeq lane 11
                 corr := 0, ts := 0, cls := 248, prio1 := 255, steps := h.get (DOM_STEPS_REMOVED d) + 1, utc := (h.dom d).utc }).bumpPtpSeq lane 11
  else h

/-- A request sent by the slave port of a slot, with its transmit stamp kept; the asymmetry is taken off its correctionField (R54). -/
def Hub.reqSend (h : Hub) (d : Nat) (k : PtpKind) (egress : Nat) : Hub :=
  let h := h.upTo egress
  let lane := h.get (DOM_SLAVE_LANE d)
  if h.bit (DOM_ENABLE d) && h.ptpMaySend lane then
    let q := h.nextPtpSeq lane 1
    ((h.ptpSend { lane := lane, kind := k, domain := h.get (DOM_DOMAIN_NUMBER d), sdo := h.get (DOM_SDO_ID d), seq := q, corr := -h.asym lane, ts := 0 }).bumpPtpSeq
      lane 1).setDom d { h.dom d with reqSeq := q, reqEgress := h.txStamp lane egress, reqPending := true, respPending := false }
  else h

/-- PDELAY_REQ_SEND. -/
def Hub.pdelayReqSend (h : Hub) (d : Fin 2) (egress : Nat) : Hub :=
  if h.get (DOM_DELAY_MECH d.val) = 1 then h.reqSend d.val .pdelayReq egress else h

/-- DELAY_REQ_SEND. -/
def Hub.delayReqSend (h : Hub) (d : Fin 2) (egress : Nat) : Hub :=
  if h.get (DOM_DELAY_MECH d.val) = 0 ∧ h.get (DOM_PORT_STATE d.val) = 9 then h.reqSend d.val .delayReq egress else h

/-! ## PPS and time-of-day (R47, R55) -/

/-- The offset of an instant from the nearest whole second, in 2^-16 ns. -/
def phaseOff (t : Nat) : Int :=
  let r := t % secU
  if r * 2 < secU then ((r / 2 ^ 16 : Nat) : Int) else ((r / 2 ^ 16 : Nat) : Int) - ((secU / 2 ^ 16 : Nat) : Int)

/-- An instant captured with a resolution of 250 ps: one of its two neighbours on that raster (R47, R56) (DESIGN CHOICE, log entry 101). -/
def captured (k t : Nat) : Nat := t / 2 ^ 30 * 2 ^ 30 + (if t % 2 ^ 30 ≠ 0 ∧ Config.roundUp k then 2 ^ 30 else 0)

/-- An instant to the nearest 250 ps (R57); halfway goes up (DESIGN CHOICE, log entry 101). -/
def near250 (t : Nat) : Nat := (t + 2 ^ 29) / 2 ^ 30 * 2 ^ 30

/-- PPS_IN_EDGE: the chosen edge is captured (R47). -/
def Hub.ppsEdge (h : Hub) (rising : Bool) (at_ : Nat) : Hub :=
  if !h.bit TIME_PPS_CFG_PPS_IN_EN ∨ rising = h.bit TIME_PPS_CFG_PPS_IN_EDGE then h
  else
    let t := captured h.free at_
    let h := (h.draw.upTo at_).rsChange 0x1088 TIME_PPS_STAT_OVR
    let h := (h.setTime { h.time with ppsCap := t, ppsLast := t }).on TIME_PPS_STAT_PPS_IN_SEEN
    if h.time.todArmed then
      let s := h.get TIME_TOD_SEC_LO + 2 ^ 32 * h.get TIME_TOD_SEC_HI
      let d : Int := (s * secU : Nat) - (t : Int)
      let h := (h.setTime { h.time with todArmed := false }).off TIME_ARM
      if h.anyGrid then
        let r := h.addSlew d
        if r.2 then r.1.on TIME_PPS_STAT_TOD_APPLIED else r.1
      else (h.doStep d).on TIME_PPS_STAT_TOD_APPLIED
    else h.measure 2 (phaseOff t)

/-- TOD_ARM (R47). -/
def Hub.todArm (h : Hub) : Hub := (h.setTime { h.time with todArmed := true, todArmAt := h.time.now }).on TIME_ARM

/-- TOD_MISSED: 1.5 s after ARM without an edge (R47). -/
def Hub.todMissed (h : Hub) : Hub :=
  if h.time.todArmed then
    let h := h.upTo (h.time.todArmAt + 3 * secU / 2)
    ((h.setTime { h.time with todArmed := false }).off TIME_ARM).on TIME_PPS_STAT_TOD_MISSED
  else h

/-- PPS_IN_LOST: 3 s without an edge (R47); R46 then applies to a selected PPS_IN. -/
def Hub.ppsLost (h : Hub) : Hub :=
  if h.bit TIME_PPS_CFG_PPS_IN_EN then
    let h := (h.upTo (h.time.ppsLast + 3 * secU)).on TIME_PPS_STAT_PPS_IN_LOST
    if h.get TIME_STAT_SRC_ACTIVE = 2 then h.sourceLost else h
  else h

/-- The next whole second: the first at or after an instant that has not been taken. -/
def nextSecond (done t : Nat) : Nat := max (done + 1) ((t + secU - 1) / secU)

/-- PPS_OUT_PULSE: at every whole second (R55). -/
def Hub.ppsPulse (h : Hub) : Hub :=
  if h.bit TIME_PPS_CFG_PPS_OUT_EN && h.time.running then
    let s := nextSecond h.time.ppsDone h.time.now
    let w := min 999 (max 1 (h.get TIME_PPS_CFG_WIDTH_MS))
    let h := h.upTo (s * secU)
    let h := h.setTime { h.time with ppsDone := s }
    if h.dupStandby then h else h.setTime { h.time with ppsOut := true, ppsOutEnd := s * secU + w * msU }
  else h

/-- PPS_OUT_PULSE_END (R55). -/
def Hub.ppsPulseEnd (h : Hub) : Hub :=
  if h.time.ppsOut then let h := h.upTo h.time.ppsOutEnd; h.setTime { h.time with ppsOut := false } else h

/-! ## Captures (R56) -/

/-- EDGE selects a direction: 1 rising, 2 falling, 3 both. -/
def edgeSelected (e : Nat) (rising : Bool) : Bool := if rising then e % 2 == 1 else decide (e ≥ 2)

/-- TRIG_IN_EDGE: every edge enters the glitch filter; one that comes within FILTER of the edge before it ends a shorter pulse, and both are
rejected (R56) (DEDUCED, log entry 11). -/
def Hub.trigEdge (h : Hub) (i : Nat) (rising : Bool) (t : Nat) : Hub :=
  let h := h.upTo t
  let p := h.pin i
  if !(h.time.running ∧ h.get (EVT_EDGE i) ≠ 0) then h.setPin i { p with level := rising }
  else if (match p.noted.getLast? with
    | some e => decide (t < e.due)
    | none => false) then h.setPin i { p with level := rising, noted := p.noted.dropLast }
  else h.setPin i { p with level := rising, noted := p.noted ++ [{ time := t, rising := rising, due := t + h.get (EVT_FILTER i) * 4 * nsU }] }

/-- Store a capture, or count it lost where the store is full (R56). -/
def Hub.capStore (h : Hub) (i : Nat) (c : Capture) : Hub :=
  let p := h.pin i
  if 8 ≤ p.fifo.length then (h.bump (EVT_LOST i) (EVT_SAT i)).on (EVT_OVR i)
  else (h.setPin i { p with fifo := p.fifo ++ [c] }).set (EVT_LEVEL i) (p.fifo.length + 1)

/-- The capture half of GLITCH_FILTER_END: the oldest edge passes; where its direction is selected it is captured, to 250 ps, and its
instant goes on (R56). -/
def Hub.filterPass (h : Hub) (i : Nat) : Hub × Option Nat :=
  let p := h.pin i
  match p.noted with
  | [] => (h, none)
  | e :: rest =>
    let h := (h.upTo e.due).setPin i { p with noted := rest }
    if edgeSelected (h.get (EVT_EDGE i)) e.rising then
      let t := captured h.free e.time
      (h.draw.capStore i ⟨t, e.rising, e.stepped⟩, some t)
    else (h, none)

/-- CAP_W0_READ: the oldest entry moves into the snapshot, or all ones are returned (R10, R56); a read of the empty store leaves the snapshot
and what of it is unread as they are (DESIGN CHOICE, log entry 12). -/
def Hub.capRead (h : Hub) (path i : Nat) : Hub × Nat :=
  let p := h.pin i
  let a := 0x1188 + 0x20 * i
  match p.fifo with
  | [] => (h, 0xFFFFFFFF)
  | c :: t =>
    let w := triplet c.time
    let h := (h.setPin i { p with fifo := t, snapped := true }).set (EVT_LEVEL i) t.length
    let h := (h.set (EVT_STEPPED i) (b2n c.stepped)).set (EVT_RISING i) (b2n c.rising)
    ({ h with snaps := aInsert h.snaps (snapKey path a) ⟨w.tail, [0, 1]⟩ }, w.headD 0)

/-! ## Pulses (R57) -/

/-- TIME_OUT_ARM (R57); a PERIOD outside 100 ns to 65,535 s is refused as a WIDTH too long is (DESIGN CHOICE, log entry 99). -/
def Hub.outArm (h : Hub) (i : Nat) : Hub :=
  let m := h.get (TOUT_MODE i)
  let now := h.time.now
  if m = 1 then
    if h.outStart i < now + usU then h.on (TOUT_MISSED i)
    else (h.setOut i { h.out i with nextAt := h.outStart i }).on (TOUT_ARMED i)
  else if m = 2 then
    if h.outPeriod i ≤ h.outWidth i ∨ h.outPeriod i < 100 * nsU ∨ 65535 * secU < h.outPeriod i then h.on (TOUT_WERR i)
    else (h.setOut i { h.out i with nextAt := periodicFrom (h.outStart i) (h.outPeriod i) (now + usU) }).on (TOUT_ARMED i)
  else if m = 3 then h.on (TOUT_ARMED i)
  else h

/-- TIME_OUT_DISARM: a pulse in progress runs to its end (R57). -/
def Hub.outDisarm (h : Hub) (i : Nat) : Hub := h.off (TOUT_ARMED i)

/-- The instant of a GRID-mode pulse for index `n`: t_n + OFFSET (R57). -/
def Hub.outGridTime (h : Hub) (i n : Nat) : Nat :=
  timeAdd (h.gridTime (h.get (TOUT_GRID i)) n) (toSigned 32 (h.get (TOUT_START_NS i)) * 2 ^ 32)

/-- A pulse begins at its instant to the nearest 250 ps (R57); a standby holds the ball inactive (R347). -/
def Hub.pulseAt (h : Hub) (i t : Nat) : Hub := (h.upTo (near250 t)).pulseOn i (near250 t)

/-- TIME_OUT_PULSE: the instant of an armed output is reached (R57). In GRID mode `n` names the index (DEDUCED, log entry 14). -/
def Hub.outPulse (h : Hub) (i n : Nat) : Hub :=
  if !h.bit (TOUT_ARMED i) then h
  else
    let m := h.get (TOUT_MODE i)
    if m = 1 then (h.pulseAt i (h.out i).nextAt).off (TOUT_ARMED i)
    else if m = 2 then
      let t := (h.out i).nextAt
      let h := h.pulseAt i t
      h.setOut i { h.out i with nextAt := t + h.outPeriod i }
    else if m = 3 then
      let g := h.get (TOUT_GRID i)
      if h.gridState g = gRunning ∧ n % max 1 (h.get (TOUT_PERIOD_SEC i)) = 0 then h.pulseAt i (h.outGridTime i n) else h
    else h

/-- TIME_OUT_PULSE_END (R57). -/
def Hub.outPulseEnd (h : Hub) (i : Nat) : Hub :=
  if (h.out i).pulse then
    let h := h.upTo (h.out i).pulseEnd
    h.setOut i { h.out i with pulse := false }
  else h

/-- The level of a TIME_OUT ball: POLARITY inverts it. -/
def Hub.outLevel (h : Hub) (i : Nat) : Bool := (h.out i).pulse != h.bit (TOUT_POLARITY i)

/-- GRID_IDLE: an output armed in GRID mode gives no pulse while its grid is not RUNNING (R57). -/
def Hub.outIdle (h : Hub) (i : Nat) : Bool :=
  h.bit (TOUT_ARMED i) && h.get (TOUT_MODE i) == 3 && h.gridState (h.get (TOUT_GRID i)) != gRunning

/-! ## Grid states (R62) -/

def Hub.setGridNext (h : Hub) (g n : Nat) : Hub := h.setTime { h.time with gridNext := aInsert h.time.gridNext g n }
def Hub.gridNext (h : Hub) (g : Nat) : Nat := aGet h.time.gridNext g 0

/-- INDEX: the last index whose instant has passed; 0 before the first (R64) (DESIGN CHOICE, log entry 102). -/
def Hub.gridIndex (h : Hub) (g : Nat) : Nat := if h.gridResume g < h.gridNext g then h.gridNext g - 1 else 0

/-- GRID_START: the instant of RESUME_INDEX is reached and a WAITING grid becomes RUNNING (R62). -/
def Hub.gridStart (h : Hub) (g : Nat) : Hub :=
  if h.gridState g = gWaiting then
    ((h.upTo (h.gridTime g (h.gridResume g))).set (GRID_STATE g) gRunning).setGridNext g (h.gridResume g)
  else h

/-- A grid goes IDLE: its registers read 0 (R62, R64). -/
def Hub.gridClear (h : Hub) (g : Nat) : Hub :=
  let h := (((h.off (GRID_EPOCH_LO g)).off (GRID_EPOCH_HI g)).off (GRID_RATE_P g)).off (GRID_RATE_Q g)
  let h := (((h.off (GRID_RESUME_LO g)).off (GRID_RESUME_HI g)).off (GRID_STOP_LO g)).off (GRID_STOP_HI g)
  let h := (h.off (GRID_OVR g)).off (GRID_SEQERR g)
  (h.off (GRID_STATE g)).setTime { h.time with gridNext := aErase h.time.gridNext g, gridWd := aErase h.time.gridWd g }

/-- STOP_INDEX_PASSED: a STOPPING grid becomes IDLE (R62). -/
def Hub.gridStopPassed (h : Hub) (g : Nat) : Hub :=
  if h.gridState g = gStopping then (h.upTo (h.gridTime g (h.gridStop g))).gridClear g else h

/-- PLINTH_REALIGN: at a whole second the plinth's count is realigned with local time (R40). -/
def Hub.realign (h : Hub) : Hub :=
  if h.time.running then
    let s := nextSecond h.time.alignDone h.time.now
    let h := h.upTo (s * secU)
    (h.setTime { h.time with alignDone := s }).setPwr { h.pwr with coarse := h.time.now * 32768 / secU, coarseAt := h.time.now }
  else h

end Sys2Proof.Machine
end

