-- ==== Sys2Proof/Machine/Digital.lean ====
section
/-! DEFINITION. The digital path of a channel, from the modulator's codes to the value of an output (R103 to R107, R129 to R147,
R156): correction, carrier and demodulator, decimation, DC blocking, pointing, post-decimation. Values are exact rationals
except where the spec rounds. -/

namespace Sys2Proof.Machine

/-! ## Ranges (R70 to R72) -/

/-- Analogue delay D_a of a range in ns, and its transient in ns (the tables of R70 and R71) (DESIGN CHOICE, log entry 17). -/
def rangeFigures (kind code : Nat) : Nat × Nat :=
  if kind = 0 then
    match code with
    | 0 => (1130, 4700)
    | 1 => (1000, 4000)
    | _ => (760, 2800)
  else
    match code with
    | 0 => (159750, 797800)
    | 1 => (16520, 81600)
    | 2 => (3780, 17900)
    | 3 => (1400, 6000)
    | _ => (1000, 4000)

/-- Full scale of a range in V or A (R70, R71), exact. -/
def fullScale (kind code : Nat) : ℚ :=
  if kind = 0 then
    match code with
    | 0 => 1 / 100
    | 1 => 1 / 10
    | 2 => 1
    | _ => 5
  else (25 : ℚ) * 10 ^ min code 5 / 1000000000

/-- The highest range code of a kind (R75). -/
def maxCode (kind : Nat) : Nat := if kind = 0 then 3 else 5

def Hub.kind (h : Hub) (n : Nat) : Nat := h.get (CH_CFG_KIND n)

/-- The range decided last; a change decided now comes into force at the next modulator edge (R73). -/
def Hub.rangeNow (h : Hub) (n : Nat) : Nat := h.get (CH_RANGE_RANGE_NOW n)

/-- The range a history of changes has at an instant: a change stands from its modulator edge (R73, R75). -/
def Hub.inRanges (h : Hub) (n : Nat) (l : List (Nat × Nat)) (t : Nat) : Nat :=
  ((l.find? fun e => decide (e.1 ≤ t)).map (·.2)).getD (h.rangeNow n)

/-- The range in force in the input cell. -/
def Hub.rangeInForce (h : Hub) (n : Nat) : Nat := h.inRanges n (h.chan n).ranges h.time.now

/-- D_a of a range, in units of 2^-32 ns. -/
def Hub.delayOf (h : Hub) (n r : Nat) : Nat := (rangeFigures (h.kind n) r).1 * nsU
def Hub.transientOf (h : Hub) (n r : Nat) : Nat := (rangeFigures (h.kind n) r).2 * nsU

/-! ## Numbers -/

/-- The nearest integer; of two equally near the upper. -/
def roundNear (x : ℚ) : Int := (x + 1 / 2).floor

/-- π to 80 digits. -/
def piQ : ℚ := 314159265358979323846264338327950288419716939937510582097494459230781640628620899 / 10 ^ 80

/-- cos of an angle in cycles, by its series to far below the 18 bits kept of it. -/
def cosTurns (x : ℚ) : ℚ :=
  let y := 2 * piQ * (x - x.floor)
  ((List.range 40).map fun i => (-1) ^ i * y ^ (2 * i) / (Nat.factorial (2 * i) : ℚ)).sum

/-- sin of an angle in cycles. -/
def sinTurns (x : ℚ) : ℚ := cosTurns (x - 1 / 4)

/-- A value in 18 bits: a multiple of 2^-17 (R132). -/
def in18 (x : ℚ) : ℚ := roundNear (x * 2 ^ 17) / 2 ^ 17

/-- An instant of local time in ns. -/
def instNs (t : Nat) : ℚ := (t : ℚ) / 4294967296

/-! ## Modulator samples (R103 to R107) -/

/-- Fractions of the modulator's full scale (R104): range full scale, the amplifier's output limit, the modulator's stable input
limit, the nominal calibration reference. -/
def mfsRange : ℚ := 4 / 5
def mfsAmpLimit : ℚ := 22 / 25
def mfsStable : ℚ := 19 / 20
def mfsCalRef : ℚ := 16 / 25

/-- The entry of the partner's edge-time map that an edge or an instant falls in; before the oldest, the oldest (R350). -/
def Hub.mapFor (h : Hub) (p : Nat × Nat × Nat → Bool) : Option (Nat × Nat × Nat) := (h.pair.maps.find? p).or h.pair.maps.getLast?

/-- The local time of a member's edge: the hub's own measure, or the partner's map where one has arrived. -/
def Hub.memberEdge (h : Hub) (own : Bool) (e : Nat) : Nat :=
  match if own then none else h.mapFor fun m => decide (m.1 ≤ e) with
  | some (e0, t, p) => if e0 ≤ e then t + (e - e0) * p else t - (e0 - e) * p
  | none => h.edgeTime e

/-- A member's last edge at or before an instant. -/
def Hub.memberIndex (h : Hub) (own : Bool) (t : Nat) : Nat :=
  match if own then none else h.mapFor fun m => decide (m.2.1 ≤ t) with
  | some (e0, t0, p) => if t0 ≤ t then e0 + (t - t0) / max 1 p else e0 - (t0 - t + max 1 p - 1) / max 1 p
  | none => h.edgeIndex t

/-- The measured modulator period of a member at an instant. -/
def Hub.memberPeriod (h : Hub) (own : Bool) (t : Nat) : Nat :=
  match if own then none else h.mapFor fun m => decide (m.2.1 ≤ t) with
  | some (_, _, p) => p
  | none => (h.edgeStretch t).2.2

/-- A member's edge nearest an instant. -/
def Hub.memberNear (h : Hub) (own : Bool) (t : Nat) : Nat := h.memberIndex own (t + h.memberPeriod own t / 2)

/-- The member's edge that stands for a chain edge of a source (DEDUCED, log entry 93). -/
def Hub.srcEdge (h : Hub) (s : ChainSrc) (k : Nat) : Nat := h.memberNear s.own s.at_ + (k - s.first)

/-- The instant a source begins. -/
def Hub.srcStart (h : Hub) (s : ChainSrc) : Nat := h.memberEdge s.own (h.memberNear s.own s.at_)

/-- The source of a chain edge, and the one of an instant (R360, R362, R364). -/
def Hub.srcOf (h : Hub) (k : Nat) : Option ChainSrc := h.pair.srcs.find? fun s => decide (s.first ≤ k)
def Hub.srcAt (h : Hub) (t : Nat) : Option ChainSrc := h.pair.srcs.find? fun s => decide (h.srcStart s ≤ t)

/-- The chains take the partner's codes: now, and at an instant (R350). -/
def Hub.shadowing (h : Hub) : Bool := (h.pair.srcs.head?).any fun s => !s.own
def Hub.shadowAt (h : Hub) (t : Nat) : Bool := (h.srcAt t).any fun s => !s.own

/-- Whose edge a chain edge is, and its number there. -/
def Hub.chainOf (h : Hub) (k : Nat) : Bool × Nat :=
  match h.srcOf k with
  | some s => (s.own, h.srcEdge s k)
  | none => (true, k)

/-- T(k): the local time of chain edge `k` (R142, R143). -/
def Hub.chainEdge (h : Hub) (k : Nat) : Nat := h.memberEdge (h.chainOf k).1 (h.chainOf k).2

/-- The last chain edge at or before an instant. -/
def Hub.chainIndex (h : Hub) (t : Nat) : Nat :=
  match h.srcAt t with
  | some s => s.first + (h.memberIndex s.own t - h.memberNear s.own s.at_)
  | none => h.edgeIndex t

/-- The measured modulator period at an instant. -/
def Hub.chainPeriod (h : Hub) (t : Nat) : Nat := h.memberPeriod (!h.shadowAt t) t

/-- The first edge after an instant that the chains count. -/
def Hub.nextEdge (h : Hub) (t : Nat) : Nat :=
  if h.shadowing then h.memberEdge false (h.memberIndex false t + 1) else h.edgeAfter t

/-- The chains take codes of their own or of the partner from the edge nearest an instant (R360). -/
def Hub.feed (h : Hub) (own : Bool) (t : Nat) : Hub :=
  h.setPair { h.pair with srcs := ⟨h.chainIndex (t + h.chainPeriod t / 2), own, t⟩ :: h.pair.srcs }

/-- The range samples of an instant were taken on, by a member (R351). -/
def Hub.rangeBy (h : Hub) (own : Bool) (n t : Nat) : Nat := h.inRanges n (if own then (h.chan n).ranges else (h.chan n).actRanges) t

/-- The range the samples of an instant were taken on; the standby's chains follow the active's edges (R351). -/
def Hub.rangeWas (h : Hub) (n t : Nat) : Nat := h.rangeBy (!h.shadowAt t) n t

/-- The code a modulator delivers, −8 to +8 (R103). -/
def rawCode (n k : Nat) : Int := max (-8) (min 8 (Config.modCode n k))

/-- An overload recovery covers edge `k`: the edge at which it was detected (R106). -/
def Hub.recovering (h : Hub) (n k : Nat) : Option Nat := (h.chan n).recov.find? fun e => decide (e ≤ k) && decide (k < e + 32)

/-- The hub's own code after the substitution of R106: the extreme code of the last valid sample's sign. -/
def Hub.ownCode (h : Hub) (n k : Nat) : Int :=
  match h.recovering n k with
  | some e => if 0 ≤ rawCode n (e - 1) then 8 else -8
  | none => rawCode n k

/-- The sample was taken while the amplifier sat at its output limit, or is one of the 8 before an overload or the 32 of its recovery
(R78, R106). -/
def Hub.ownClip (h : Hub) (n k : Nat) : Bool :=
  Config.ampLimit n k || (h.chan n).recov.any fun e => decide (e ≤ k + 8) && decide (k < e + 32)

/-- The code and clip mark a SAMPLES frame gave for an edge of the partner (R350). -/
def Hub.heldCode (h : Hub) (own : Bool) (n e : Nat) : Option Nat := if own then none else (aFind h.pair.codes e).map fun l => l.getD n 8

/-- The code the correction stage receives at a member's edge; one of the partner's that has not come leaves the hub's own (R360). -/
def Hub.codeBy (h : Hub) (own : Bool) (n e : Nat) : Int :=
  match h.heldCode own n e with
  | some c => (c % 32 : Nat) - 8
  | none => h.ownCode n (if own then e else h.memberNear true (h.memberEdge false e))

def Hub.clipBy (h : Hub) (own : Bool) (n e : Nat) : Bool :=
  match h.heldCode own n e with
  | some c => c.testBit 5
  | none => h.ownClip n (if own then e else h.memberNear true (h.memberEdge false e))

/-- The code and the clip mark of chain edge `k`. -/
def Hub.codeAt (h : Hub) (n k : Nat) : Int := h.codeBy (h.chainOf k).1 n (h.chainOf k).2
def Hub.clipAt (h : Hub) (n k : Nat) : Bool := h.clipBy (h.chainOf k).1 n (h.chainOf k).2

/-- A sample taken in the first 100 µs of its bank's clock is discarded (R107). -/
def Hub.sampleValid (h : Hub) (n t : Nat) : Bool := decide (aGet h.pwr.bankAt (n / 16) 0 + 100 * usU ≤ t)

/-! ## Correction (R105, R123) -/

def patEntryAt (n i : Nat) : Nat := 0x230 + (n * 10 + i) * 12

/-- The entry of a channel and range is VALID. -/
def patValid (m : AMap Nat) (n i : Nat) : Bool := aGet m (patEntryAt n i + 10) 0 % 2 == 1

/-- The index of a range among the entries of a channel (R118). -/
def rangeIdx (kind r : Nat) : Nat := if kind = 0 then r else r + 4

/-- The patina image of a member in force at an instant; those of the active are the entries it has sent (R350). -/
def Hub.patinaBy (h : Hub) (own : Bool) (t : Nat) : AMap Nat :=
  let mine := ((h.hk.forceHist.find? fun e => decide (e.1 ≤ t)).map (·.2)).getD h.hk.inForce
  if own then mine else ((h.pair.pats.find? fun e => decide (e.1 ≤ t)).map (·.2)).getD mine

/-- OFFSET and GAIN of a channel and range: 0 and 1.0 where the entry is not VALID (R123). -/
def patFigures (m : AMap Nat) (n i : Nat) : ℚ × ℚ :=
  if patValid m n i then
    (toSigned 32 (imgVal m (patEntryAt n i) 4) / 2 ^ 31, (imgVal m (patEntryAt n i + 4) 4 : ℚ) / 2 ^ 30)
  else (0, 1)

/-- The multiplexer setting at an instant. -/
def Hub.muxWas (h : Hub) (n t : Nat) : Nat := (((h.chan n).muxHist.find? fun e => decide (e.1 ≤ t)).map (·.2)).getD (h.get (CH_CFG_MUX n))

/-- The corrected sample of a member's edge: a fraction of the top range's full scale (R105). EXC_SENSE is measured on the ±5 V range
whatever the range in force (R68). -/
def Hub.correctedBy (h : Hub) (own : Bool) (n e : Nat) : ℚ :=
  let t := h.memberEdge own e
  let r := if h.muxWas n t = 3 then 3 else h.rangeBy own n t
  let f := patFigures (h.patinaBy own t) n (rangeIdx (h.kind n) r)
  let s := fullScale (h.kind n) r / fullScale (h.kind n) (h.chan n).topRange
  if h.sampleValid n t then ((h.codeBy own n e : ℚ) / 8 - f.1) * f.2 * s / mfsRange else 0

/-- The correction stage at chain edge `k`. -/
def Hub.corrected (h : Hub) (n k : Nat) : ℚ := h.correctedBy (h.chainOf k).1 n (h.chainOf k).2

/-- The mean of a member's corrected samples over a span of time, none where it has none (R357). -/
def Hub.meanBy (h : Hub) (own : Bool) (n lo hi : Nat) : ℚ :=
  let a := h.memberIndex own (lo - 1) + 1
  let c := h.memberIndex own (hi - 1) + 1 - a
  ((List.range c).map fun i => h.correctedBy own n (a + i)).sum / c

/-! ## Carrier and demodulator (R130 to R132) -/

/-- θ in units of 2^-32 cycle for f_c = `p`/`q` and the epoch `e` in s (R130). -/
def carrierPhase (p q e t : Nat) : Nat := ((p * ((t : Int) - e * secU) * 2 ^ 32 / (q * secU)) % 2 ^ 32).toNat

/-- θ of a channel at an instant. -/
def Hub.theta (h : Hub) (n t : Nat) : Nat :=
  carrierPhase (h.chan n).demP (h.chan n).demQ (h.gridEpoch (h.get (CH_CHAIN_GRID n))) t

/-- A raised-cosine ramp from one value to another, at a fraction of one carrier period (R131). -/
def ramp (a b x : ℚ) : ℚ := if 1 ≤ x then b else a + (b - a) * (1 - cosTurns (x / 2)) / 2

/-- The amplitude of the carrier at an instant, in 100 µV: each start or change of amplitude ramps over one carrier period from the value
then reached; what discharges stops at once (R87, R131). The history stands newest first. -/
def carrierAmplitude (p q : Nat) : List (Nat × Nat × Nat) → Nat → ℚ
  | [], _ => 0
  | (t0, mode, level) :: l, t =>
    if t < t0 then carrierAmplitude p q l t
    else if mode < 3 then 0
    else ramp (carrierAmplitude p q l t0) level ((instNs t - instNs t0) / 1000000000 * p / q)

/-- v(EXC) − v(SNS) of a carrier channel at an instant, in 100 µV (R131). -/
def Hub.carrierVoltage (h : Hub) (n t : Nat) : ℚ :=
  let c := h.chan n
  let x := cosTurns ((h.theta n t : ℚ) / 2 ^ 32)
  let a := carrierAmplitude c.demP c.demQ c.exHist t
  if !c.driving then 0 else if c.demMode = 4 then (if 0 ≤ x then a else -a) else a * x

/-- DEMOD_PHASE in force at an instant. -/
def Hub.psiWas (h : Hub) (n t : Nat) : Nat :=
  (((h.chan n).psiHist.find? fun e => decide (e.1 ≤ t)).map (·.2)).getD (h.get (CH_DEMOD_PHASE n))

/-- What the chain takes at edge `k`: the corrected sample, or its I or Q product with the reference at the sample's instant at the
input balls (R129, R132). -/
def Hub.chainInput (h : Hub) (n : Nat) (q : Bool) (k : Nat) : ℚ :=
  let y := h.corrected n k
  if h.bit (CH_CHAIN_DEMOD n) then
    let t := h.chainEdge k
    let ref : ℚ := (h.theta n (t - h.delayOf n (h.rangeWas n t)) : ℚ) / 2 ^ 32 + (h.psiWas n t : ℚ) / 65536
    if q then -2 * y * in18 (sinTurns ref) else 2 * y * in18 (cosTurns ref)
  else y

/-! ## Decimation (R129, R135, R137) -/

/-- A sum of products. -/
def dot (c : List ℚ) (x : Nat → ℚ) : ℚ := (c.mapIdx fun i a => a * x i).sum

/-- One decimating stage: output `m` is complete with input `d`·`m` + `d` − 1. -/
def stage (c : List ℚ) (d : Nat) (x : Int → ℚ) (m : Int) : ℚ := dot c fun i => x (d * m + d - 1 - i)

/-- The product of two polynomials, by coefficients. -/
def polyMul (a b : List ℚ) : List ℚ := (List.range (a.length + b.length - 1)).map fun i =>
  ((List.range (i + 1)).map fun j => a.getD j 0 * b.getD (i - j) 0).sum

/-- The mean of `d`, cascaded `m` times. -/
def boxTaps (d : Nat) : Nat → List ℚ
  | 0 => [1]
  | m + 1 => polyMul (List.replicate d (1 / (d : ℚ))) (boxTaps d m)

/-- The 36 taps of the fifth-order sinc stage. -/
def sincTaps : List ℚ := boxTaps 8 5

/-- Taps of half-band stage `j` (R135). -/
def hbLength (j : Nat) : Nat := if j = 1 then 15 else if j = 2 then 23 else if j = 3 then 63 else 47

/-- Its coefficients are symmetric; their values are not given (R135, R136) (DESIGN CHOICE, log entry 17). -/
def hbTaps (j : Nat) : List ℚ := (List.range (hbLength j)).map fun i => Config.halfBand j (min i (hbLength j - 1 - i))

/-- The chain with `hb` optional half-bands over input indexed from a restart, before which there is no history (R152). -/
def decimate (hb : Nat) (x : Int → ℚ) : Int → ℚ :=
  (List.range (3 + hb)).foldl (fun x j => stage (hbTaps (j + 1)) 2 x) (stage sincTaps 8 x)

/-- Modulator periods in a chain period (R129). -/
def chainRatio (hb : Nat) : Nat := 64 * 2 ^ hb

/-- Twice the group delay G(H) in modulator periods (R137). -/
def groupDelay2 : Nat → Nat
  | 0 => 2483
  | h + 1 => groupDelay2 h + 2944 * 2 ^ h

/-- DELAY_NS: nominal removed delay, rounded to the nearest ns (R137). -/
def removedDelayNs (hb da : Nat) : Nat := (groupDelay2 hb * 9765625 + 100000) / 200000 + da

/-- DELAY_NS as a read shows it: that of the range in force. -/
def Hub.delayNow (h : Hub) (n : Nat) : Nat := removedDelayNs (h.get (CH_CHAIN_HB_COUNT n)) (rangeFigures (h.kind n) (h.rangeInForce n)).1

/-- The first edge of a channel's history: the first at or after its last restart. -/
def Hub.edge0Of (h : Hub) (n : Nat) : Nat := h.chainIndex ((h.chan n).restartAt - 1) + 1

/-- M_k: the edge at which chain sample `k` is complete, counted from the restart (R142) (DEDUCED, log entry 109). -/
def Hub.edgeOf (h : Hub) (n hb : Nat) (k : Int) : Nat := ((h.edge0Of n : Int) + chainRatio hb * (k + 1) - 1).toNat

/-- Chain samples of a path before the DC-blocking stage. -/
def Hub.chainSample (h : Hub) (n hb : Nat) (q : Bool) : Int → ℚ :=
  decimate hb fun i => if i < 0 then 0 else h.chainInput n q (h.edge0Of n + i.toNat)

/-! ## DC blocking (R139, R141) -/

/-- The stage between samples: K, whether it is frozen, the estimate m of a path once seeded, and whether the next sample seeds. -/
structure DcState where
  k : Nat
  frozen : Bool
  m : Option ℚ := none
  seed : Bool := false

/-- A write of K, of the freeze, or of DCB_EST, which is the I path's. -/
def DcState.write (s : DcState) (q : Bool) : DcWrite → DcState
  | .k v => if v = 0 then { s with k := 0, m := none, seed := false } else if s.k = 0 then { s with k := v, m := none, seed := true } else { s with k := v }
  | .freeze b => { s with frozen := b }
  | .est v => if q then s else { s with m := some (v / (7340032 * 256)) }

/-- One sample through the stage; `whole` says that its own support lies after the restart. Until seeded the stage passes its
input; the seeding sample is its own estimate (DEDUCED, log entry 18). -/
def DcState.sample (s : DcState) (x : ℚ) (whole : Bool) : DcState × ℚ :=
  if s.k = 0 then (s, x)
  else match s.m with
    | none => if s.seed || whole then ({ s with m := some x, seed := false }, 0) else (s, x)
    | some m => if s.frozen then (s, x - m) else ({ s with m := some (m + (x - m) / 2 ^ s.k) }, x - m)

/-- The stage after samples 0 to `k` − 1 of a path: writes act from the next sample on. -/
def Hub.dcAfter (h : Hub) (n hb : Nat) (q : Bool) : Nat → DcState × ℚ
  | 0 => (⟨(h.chan n).dcK0, (h.chan n).dcFrozen0, none, false⟩, 0)
  | k + 1 =>
    let s := (h.dcAfter n hb q k).1
    let t0 := if k = 0 then 0 else h.chainEdge (h.edgeOf n hb ((k : Int) - 1))
    let t1 := h.chainEdge (h.edgeOf n hb k)
    let s := ((h.chan n).dcWrites.filter fun e => decide (t0 ≤ e.1) && decide (e.1 < t1)).foldr (fun e s => s.write q e.2) s
    s.sample (h.chainSample n hb q k) (decide (groupDelay2 hb + 1 ≤ chainRatio hb * (k + 1)))

/-- Chain samples of a path as the pointing stage takes them. -/
def Hub.blocked (h : Hub) (n hb : Nat) (q : Bool) (k : Int) : ℚ := if k < 0 then 0 else (h.dcAfter n hb q (k.toNat + 1)).2

/-- Chain samples complete by now. -/
def Hub.samplesDone (h : Hub) (n hb : Nat) : Nat := (h.chainIndex h.time.now + 1 - h.edge0Of n) / chainRatio hb

/-- The stage as it stands now: the last complete sample, then the writes since. -/
def Hub.dcNow (h : Hub) (n : Nat) (q : Bool) : DcState :=
  let hb := h.get (CH_CHAIN_HB_COUNT n)
  let k := h.samplesDone n hb
  let t0 := if k = 0 then 0 else h.chainEdge (h.edgeOf n hb ((k : Int) - 1))
  ((h.chan n).dcWrites.filter fun e => decide (t0 ≤ e.1)).foldr (fun e s => s.write q e.2) (h.dcAfter n hb q k).1

/-- The estimate has been seeded. -/
def Hub.dcSeeded (h : Hub) (n : Nat) : Bool := (h.chan n).live && (h.dcNow n false).m.isSome

/-- DCB_EST: m of the I path in 2^-8 VALUE LSB, ties to even; 0 until seeded (R141). -/
def Hub.dcbShown (h : Hub) (n : Nat) : Nat :=
  if (h.chan n).live then (h.dcNow n false).m.elim 0 fun m => ofSigned 32 (roundEven (m * 7340032 * 256)) else 0

/-! ## Pointing (R142 to R144) -/

/-- The prototype response h_c at `a`/512 chain periods: symmetric, spanning 24 to each side, every phase row summing to 1 (R143)
 (DESIGN CHOICE, log entry 17). -/
def protoAt (a : Int) : ℚ :=
  let raw := fun b : Int => if b.natAbs < 24 * 512 then Config.prototype b.natAbs else 0
  let row := (List.range 48).map fun j => (23 - (j : Int)) * 512 + a % 512
  let inside := row.filter fun b => decide (b.natAbs < 24 * 512)
  let sum := (inside.map raw).sum
  if 24 * 512 ≤ a.natAbs then 0 else if sum = 0 then 1 / inside.length else raw a / sum

/-- h[p][j]. -/
def protoRow (p j : Nat) : ℚ := protoAt ((23 - (j : Int)) * 512 + p)

/-- The interpolation of R143 at `i` + μ over chain samples `x`. -/
def interpolate (x : Int → ℚ) (i : Int) (mu : ℚ) : ℚ :=
  let mu : ℚ := roundNear (mu * 2 ^ 24) / 2 ^ 24
  let p := (mu * 512).floor.toNat
  let beta := mu * 512 - p
  ((List.range 48).map fun j => ((1 - beta) * protoRow p j + beta * protoRow (p + 1) j) * x (i - 23 + j)).sum

/-- The chain time of chain sample `k` in ns: T(M_k) − G(H) · T_mod (R142). -/
def Hub.chainTime (h : Hub) (n hb : Nat) (k : Int) (tmod : ℚ) : ℚ := instNs (h.chainEdge (h.edgeOf n hb k)) - (groupDelay2 hb : ℚ) / 2 * tmod

/-- The value of a path at the instant `t` (ns) at the input balls, for the delay of range `r` (R142, R143). -/
def Hub.pointed (h : Hub) (n hb : Nat) (q : Bool) (r : Nat) (t : ℚ) : ℚ :=
  let at' := t + (rangeFigures (h.kind n) r).1
  let tmod := instNs (h.chainPeriod (at' * 4294967296).floor.toNat)
  let th := chainRatio hb * tmod
  let tau0 := h.chainTime n hb 0 tmod
  let k0 := ((at' - tau0) / th).floor
  let u := (at' - h.chainTime n hb k0 tmod) / th
  interpolate (h.blocked n hb q) (k0 + u.floor) (u - u.floor)

/-! ## Post-decimation and the value (R147, R156) -/

/-- The weights of the fine samples of an output: one, a mean of D, or three cascaded means (R147). -/
def fineWeights (mode d : Nat) : List ℚ := boxTaps d (if mode = 1 then 1 else if mode = 2 then 3 else 0)

/-- T_p in ns. -/
def Run.tp (r : Run) : ℚ := 1000000000 * (r.q : ℚ) / ((r.d : ℚ) * r.p)

/-- The exact instant of an index in ns (R148). -/
def indexNs (r : Run) (n : Nat) : ℚ := ((r.epoch : ℚ) + (n : ℚ) * r.q / r.p) * 1000000000

/-- s_(n,j). -/
def fineInstant (r : Run) (n j : Nat) : ℚ :=
  indexNs r n + ((j : ℚ) - (((fineWeights r.mode r.d).length : ℚ) - 1) / 2) * r.tp

/-- The fine sample nearest t_n: t_n itself, or with an even number of them the earlier of the two beside it (R156) (DESIGN CHOICE, log entry 110). -/
def nearestFine (r : Run) (n : Nat) : ℚ := fineInstant r n (((fineWeights r.mode r.d).length - 1) / 2)

/-- The range at the modulator sample nearest an instant (ns) at the input balls, once the delay has been removed (R74). -/
def Hub.rangeAt (h : Hub) (n : Nat) (t : ℚ) : Nat :=
  let l := if h.shadowAt (t * 4294967296).floor.toNat then (h.chan n).actRanges else (h.chan n).ranges
  match l.find? fun e => decide (instNs e.1 ≤ t + instNs (h.delayOf n e.2) + instNs h.modPeriod / 2) with
  | some e => e.2
  | none => (l.getLast?).elim (h.rangeNow n) (·.2)

/-- The RANGE an output reports. -/
def Hub.outputRange (h : Hub) (n : Nat) (r : Run) (idx : Nat) : Nat := h.rangeAt n (nearestFine r idx)

/-- The value of one path of an output as a fraction of the top range's full scale. -/
def Hub.outputValue (h : Hub) (n : Nat) (r : Run) (q : Bool) (idx : Nat) : ℚ :=
  dot (fineWeights r.mode r.d) fun j => h.pointed n r.hb q (h.outputRange n r idx) (fineInstant r idx j)

/-- VALUE before saturation: 7,340,032 is the top range's full scale (R156). -/
def Hub.outputCount (h : Hub) (n : Nat) (r : Run) (q : Bool) (idx : Nat) : Int := roundEven (h.outputValue n r q idx * 7340032)

end Sys2Proof.Machine
end

