-- ==== Sys2Proof/Machine/Chain.lean ====
section
/-! DEFINITION. The decimation chain and the pointing stage (chapter 05): supports, flags, restarts, the DC-blocking
stage, and the grid-sample word. -/

namespace Sys2Proof.Machine

/-! ## Supports (R148) -/

/-- Filter support half-width W in ns, an exact rational (R148) (DEDUCED, log entry 19). -/
def supportW (hb mode d p q : Nat) : ℚ :=
  let w0 : ℚ := (groupDelay2 hb : ℚ) / 2 * (3125 / 32) + 24 * 6250 * 2 ^ hb
  let tp : ℚ := 1000000000 * (q : ℚ) / ((d : ℚ) * p)
  if mode = 1 then w0 + ((d : ℚ) - 1) / 2 * tp
  else if mode = 2 then w0 + (3 * (d : ℚ) - 3) / 2 * tp
  else w0

/-- W of a run. -/
def Run.w (r : Run) : ℚ := supportW r.hb r.mode r.d r.p r.q

/-- A span meets the support of an output (R149). -/
def meets (s : Span) (lo hi : ℚ) : Bool :=
  decide (instNs s.lo ≤ hi) && (match s.hi with
    | none => true
    | some e => decide (lo ≤ instNs e))

/-- The modulator samples that can lie in a stretch of time (ns) at the input balls. -/
def Hub.edgesFor (h : Hub) (lo hi : ℚ) : List Nat :=
  let a := h.chainIndex (lo * 4294967296).floor.toNat
  let b := h.chainIndex ((hi + 160000) * 4294967296).ceil.toNat
  (List.range (b + 2 - a)).map (a + ·)

/-- The time of a modulator sample at the input balls: its edge time minus D_a (R149). -/
def Hub.ballTime (h : Hub) (n k : Nat) : ℚ :=
  let t := h.chainEdge k
  instNs t - (rangeFigures (h.kind n) (h.rangeWas n t)).1

/-- A span of a flag and a support share a modulator sample (R149) (DEDUCED, log entry 19). -/
def Hub.sharesSample (h : Hub) (n : Nat) (s : Span) (lo hi : ℚ) : Bool :=
  let a := max lo (instNs s.lo)
  let b := s.hi.elim hi fun e => min hi (instNs e)
  decide (a ≤ b) && (h.edgesFor a b).any fun k => decide (a ≤ h.ballTime n k) && decide (h.ballTime n k ≤ b)

/-- An output of channel `n` carries a flag: its support contains a sample marked for it; a time without samples counts by itself (R149) (DEDUCED, log entry 19). -/
def Hub.carries (h : Hub) (n : Nat) (r : Run) (idx : Nat) (f : Flag) : Bool :=
  let w := r.w
  let t := indexNs r idx
  (h.chan n).spans.any fun s => s.flag == f && (if f = .pll then meets s (t - w) (t + w) else h.sharesSample n s (t - w) (t + w))

/-- The support of an output contains a clipped sample (R78, R106). -/
def Hub.clipped (h : Hub) (n : Nat) (r : Run) (idx : Nat) : Bool :=
  let lo := indexNs r idx - r.w
  let hi := indexNs r idx + r.w
  (h.edgesFor lo hi).any fun k => h.clipAt n k && decide (lo ≤ h.ballTime n k) && decide (h.ballTime n k ≤ hi)

/-! ## Restarts (R152, R153) -/

/-- The first index with t_n - W at or after an instant (R153). -/
def settledFrom (r : Run) (w : ℚ) (t n0 : Nat) : Nat :=
  max n0 ((((instNs t + w) / 1000000000 - r.epoch) * r.p / r.q).ceil).toNat

/-- The run a channel produces now: the newest. -/
def Chan.run (c : Chan) : Option Run := c.runs.getLast?

/-- A chain restart at an instant, with its cause (R152): history is cleared, N is recomputed and replaces SETTLE_N. -/
def Hub.restartChain (h : Hub) (n t cause : Nat) : Hub :=
  let c := h.chan n
  match c.run with
  | none => h
  | some r =>
    let n0 := if cause = 1 then r.resume else firstIndexAt r.epoch r.p r.q t
    let s := settledFrom r (r.w) t n0
    let h := h.setChan n { c with
      restartAt := t, n0 := n0, settledAt := s, dcWrites := []
      dcK0 := h.get (CH_CHAIN_DCB_K n), dcFrozen0 := h.bit (CH_CHAIN_DCB_FREEZE n) }
    let h := ((h.set (CH_SETTLE_N n) (min 65535 (s - n0))).on (CH_CHAIN_SETTLING n)).set (CH_CHAIN_LAST_CAUSE n) cause
    let h := (h.bump (CH_RESTART_COUNT n) (CH_CHAIN_SAT n)).off (CH_DCB_EST n)
    if 2 ≤ cause then h.on (CH_CHAIN_RESTARTED n) else h

/-- CHAIN_RESTART (R152, R157): refused where the channel is not in the committed armature. -/
def Hub.chainRestart (h : Hub) (n : Nat) : Hub :=
  if (h.chan n).live then h.restartChain n (h.nextEdge h.time.now) 2 else h.on (CH_EXCS_WERR n)

/-- DEMOD_PHASE_WRITE: from the next edge on; SETTLE on every output whose support contains that edge's sample (R134). -/
def Hub.demodPhaseWrite (h : Hub) (n v : Nat) : Hub :=
  let e := h.nextEdge h.time.now
  let c := h.chan n
  let hist := if c.psiHist.isEmpty then [(0, h.get (CH_DEMOD_PHASE n))] else c.psiHist
  let at' := e - h.delayOf n (h.rangeWas n e)
  ((h.setChan n { c with psiHist := (e, v) :: hist }).set (CH_DEMOD_PHASE n) v).mark n .settle at' at'

/-- A write reaches the DC-blocking stage: it acts from the next chain sample (R139, R141). -/
def Hub.dcWrite (h : Hub) (n : Nat) (w : DcWrite) : Hub := h.setChan n { h.chan n with dcWrites := (h.time.now, w) :: (h.chan n).dcWrites }

/-- DCB_K_WRITE (R139, R141). -/
def Hub.dcbKWrite (h : Hub) (n k : Nat) : Hub :=
  if k ≠ 0 ∧ (k < 4 ∨ 24 < k) then h.on (CH_EXCS_WERR n)
  else
    let was := h.get (CH_CHAIN_DCB_K n)
    let h := (h.set (CH_CHAIN_DCB_K n) k).dcWrite n (.k k)
    if was = 0 ∨ k = 0 then h.off (CH_DCB_EST n) else h

/-- DCB_FREEZE_WRITE: no disturbance and no flag (R141). -/
def Hub.dcbFreezeWrite (h : Hub) (n : Nat) (v : Bool) : Hub :=
  ((h.set (CH_CHAIN_DCB_FREEZE n) (b2n v)).set (CH_CHAIN_DCB_FROZEN n) (b2n v)).dcWrite n (.freeze v)

/-- DCB_EST_WRITE: only while the stage is on, seeded and frozen (R141). -/
def Hub.dcbEstWrite (h : Hub) (n v : Nat) : Hub :=
  if h.get (CH_CHAIN_DCB_K n) ≠ 0 ∧ h.dcSeeded n ∧ h.bit (CH_CHAIN_DCB_FREEZE n) then
    (h.set (CH_DCB_EST n) v).dcWrite n (.est (toSigned 32 v))
  else h.on (CH_EXCS_WERR n)

/-! ## The grid-sample word (R156) -/

/-- Saturate to ±8,388,607; the flag says that it did. -/
def saturate (v : Int) : Int × Bool :=
  if v > 8388607 then (8388607, true) else if v < -8388607 then (-8388607, true) else (v, false)

/-- Pack a grid-sample word. -/
def sampleWord (value : Int) (settle xsit clip excf openw : Bool) (range : Nat) : Nat :=
  ofSigned 24 value * 256 + b2n settle * 128 + b2n xsit * 64 + b2n clip * 32 + b2n excf * 16 + b2n openw * 8 + range % 8

/-- One word of output `idx` of a channel: its value with the flags of its support (R29, R149, R156). -/
def Hub.outputWord (h : Hub) (n : Nat) (r : Run) (q : Bool) (idx : Nat) : Nat :=
  let lost := h.carries n r idx .pll
  let v := if lost then (0, false) else saturate (h.outputCount n r q idx)
  let c := h.chan n
  let tr := instNs c.restartAt
  let t := indexNs r idx
  let settling := (decide (idx < c.settledAt) && c.run == some r) || (decide (t - r.w < tr) && decide (tr ≤ t + r.w))
  sampleWord v.1 (lost || settling || h.carries n r idx .settle) (h.carries n r idx .xsit)
    (lost || v.2 || h.clipped n r idx) (h.carries n r idx .excf) (h.carries n r idx .openw)
    (h.outputRange n r idx)

/-- The words of output `idx`: one, of the path DEMOD_OUT names, or I then Q with the same status bits (R132). -/
def Hub.outputWords (h : Hub) (n : Nat) (r : Run) (idx : Nat) : List Nat :=
  if r.two then
    let a := h.outputWord n r false idx
    let b := h.outputWord n r true idx
    let fl := (a % 256) ||| (b % 256)
    [a / 256 * 256 + fl, b / 256 * 256 + fl]
  else [h.outputWord n r (h.bit (CH_CHAIN_DEMOD n) && h.get (CH_CHAIN_DEMOD_OUT n) == 1) idx]

/-- The oldest run of a channel that still has an output due. -/
def Chan.due (c : Chan) : Option Run :=
  c.runs.find? fun r => match r.stop with
    | none => true
    | some s => decide (r.next < s)

/-- Move a channel's due run on by one output; runs that have reached their stop index are done. -/
def stepRuns : List Run → List Run
  | [] => []
  | r :: t =>
    if (match r.stop with | none => true | some s => decide (r.next < s)) then { r with next := r.next + 1 } :: t
    else stepRuns t

/-- OUTPUT_READY, the chain's half: the due output of a channel with its words, and the state after; the chain has settled with the
first settled output of its newest run (R150, R153, R156) (DEDUCED, log entry 20). -/
def Hub.takeOutput (h : Hub) (n : Nat) : Option (Output × Run × Hub) :=
  match (h.chan n).due with
  | none => none
  | some r =>
    let idx := r.next
    let t := gridInstant r.epoch r.p r.q idx
    let ws := h.outputWords n r idx
    let w := (r.w * 4294967296).ceil.toNat
    let newest : Bool := (h.chan n).run == some r
    let h := h.upTo (t + w + h.delayOf n (h.outputRange n r idx) + 4 * usU)
    let h := h.setChan n { h.chan n with runs := stepRuns (h.chan n).runs }
    let h := if newest && decide ((h.chan n).settledAt ≤ idx) then h.off (CH_CHAIN_SETTLING n) else h
    some (⟨idx, ws, h.qualityAt t⟩, r, h)

end Sys2Proof.Machine
end

