-- ==== Sys2Proof/Machine/Excite.lean ====
section
/-! DEFINITION. Input cells, ranges, excitation and the budget governor (chapter 03). -/

namespace Sys2Proof.Machine

/-- The channels of the hub. -/
def chanList : List Nat := List.range 192

/-! ## Multiplexer (R68, R69) -/

/-- The effective settle time of a multiplexer change (R69). -/
def Hub.muxSettle (h : Hub) (n : Nat) : Nat :=
  max (h.get (CH_CFG_MUX_SETTLE n) * usU) (h.transientOf n (h.rangeNow n))

/-- The dwell of a channel: the larger of EXC_RANGE_DWELL and the transient of the last step (R77). -/
def Hub.dwellLen (h : Hub) (n : Nat) : Nat := max (h.get EXC_DWELL_US * usU) (h.chan n).stepTr

/-- The detector begins a fresh peak at an instant: no run of high samples is kept (R76) (DEDUCED, log entry 103). -/
def Hub.freshDwell (h : Hub) (n t : Nat) : Hub :=
  h.setChan n { h.chan n with dwellEnd := t + h.dwellLen n, upWait := false }

/-- Change the multiplexer: a disturbance instant; SETTLE also while a setting other than SENSOR is in force (R69). When SENSOR
returns the detector begins anew once the change has settled (R76). -/
def Hub.muxSet (h : Hub) (n m : Nat) : Hub :=
  let was := h.get (CH_CFG_MUX n)
  if was = m then h
  else
    let t := h.time.now
    let h := h.set (CH_CFG_MUX n) m
    let h := h.mark n .settle t (t + h.muxSettle n)
    let hist := if (h.chan n).muxHist.isEmpty then [(0, was)] else (h.chan n).muxHist
    let h := h.setChan n { h.chan n with muxEnd := t + h.muxSettle n, muxHist := (t, m) :: hist }
    if m = 0 then (h.markEnd n .settle t).freshDwell n (t + h.muxSettle n)
    else if was = 0 then h.markFrom n .settle t else h

/-- MUX_WRITE: 3 on a current-kind channel is ignored with WERR (R68). -/
def Hub.muxWrite (h : Hub) (n m : Nat) : Hub :=
  if m = 3 ∧ h.kind n = 1 then h.on (CH_EXCS_WERR n) else h.muxSet n m

/-! ## Range changes (R73 to R77) -/

/-- A range change at a modulator edge (R73): XSIT for the larger transient; it counts and starts a dwell (R77). `a` is the edge at which
the chains take it, `e` the one at which the input cell does: they differ in a standby alone (R79, R351). -/
def Hub.rangeStepAt (h : Hub) (n r a e : Nat) : Hub :=
  let was := h.rangeNow n
  if was = r then h
  else
    let tr := max (h.transientOf n was) (h.transientOf n r)
    let h := h.mark n .xsit a (a + tr)
    let c := h.chan n
    let h := h.setChan n { c with
      xsitEnd := max c.xsitEnd (e + tr), ranges := (e, r) :: c.ranges, actRanges := (a, r) :: c.actRanges, upWait := false, stepTr := tr
      dwellEnd := e + max (h.get EXC_DWELL_US * usU) tr, holdEnd := e + max (h.get EXC_DWELL_US * usU) tr }
    let h := (h.set (CH_RANGE_RANGE_NOW n) r).bump (CH_RANGE_STEPS n) (CH_EXCS_SAT n)
    h.set (CH_DELAY_NS n) (removedDelayNs (h.get (CH_CHAIN_HB_COUNT n)) (rangeFigures (h.kind n) r).1)

/-- A range change decided at an instant: at the next edge the chains count, and at the hub's own next edge (R73, R351). -/
def Hub.rangeStep (h : Hub) (n r t : Nat) : Hub := h.rangeStepAt n r (h.nextEdge t) (h.edgeAfter t)

/-- RANGE_WRITE (R75). -/
def Hub.rangeWrite (h : Hub) (n v : Nat) : Hub :=
  if h.bit (CH_CFG_AUTORANGE n) ∨ maxCode (h.kind n) < v then h.on (CH_EXCS_WERR n)
  else (h.set (CH_RANGE_RANGE n) v).rangeStep n v h.time.now

/-- The span of autorange: where RANGE_MIN exceeds RANGE_MAX, RANGE_MAX counts as RANGE_MIN (R76); a limit above the top code of
the kind counts as the top code (DESIGN CHOICE, log entry 104). -/
def Hub.rangeSpan (h : Hub) (n : Nat) : Nat × Nat :=
  let lo := min (h.get (CH_CFG_RANGE_MIN n)) (maxCode (h.kind n))
  (lo, max lo (min (h.get (CH_CFG_RANGE_MAX n)) (maxCode (h.kind n))))

/-- RANGE_LIMIT_WRITE: a range left outside the new span steps at once to the nearest limit (R76). -/
def Hub.rangeLimitWrite (h : Hub) (n lo hi : Nat) : Hub :=
  let h := (h.set (CH_CFG_RANGE_MIN n) lo).set (CH_CFG_RANGE_MAX n) hi
  let s := h.rangeSpan n
  let r := h.rangeNow n
  if h.bit (CH_CFG_AUTORANGE n) ∧ (h.chan n).live then
    if r < s.1 then h.rangeStep n s.1 h.time.now
    else if s.2 < r then h.rangeStep n s.2 h.time.now
    else h
  else h

/-- The detector acts: autorange on, SENSOR connected and settled, not in CALIBRATION, not the standby (R76, R79). -/
def Hub.autoActs (h : Hub) (n : Nat) : Bool :=
  (h.chan n).live && h.bit (CH_CFG_AUTORANGE n) && h.get (CH_CFG_MUX n) == 0 && decide ((h.chan n).muxEnd ≤ h.time.now)
    && h.mode != mCal && h.mode != mMirror

/-- An autorange step by the detector of this hub, told to the standby (R73, R79). -/
def Hub.autoStep (h : Hub) (n r : Nat) : Hub :=
  (h.rangeStep n r h.time.now).dupEvent .rangeStep n r

/-- AUTORANGE_STEP_UP: the peak exceeds 95 % for 4 samples; inside the dwell of a step it waits for its end (R76, R77). -/
def Hub.autoUp (h : Hub) (n : Nat) : Hub :=
  if h.autoActs n then
    if h.time.now < (h.chan n).holdEnd then h.setChan n { h.chan n with upWait := true }
    else if h.rangeNow n < (h.rangeSpan n).2 then h.autoStep n (h.rangeNow n + 1)
    else h
  else h

/-- DWELL_END: a deferred up step is taken if the condition still holds; else the range steps down where the dwell's
peak stayed below 80 % of the next lower full scale; a dwell without a step is followed by the next (R76, R77). -/
def Hub.dwellEnd (h : Hub) (n : Nat) (upHolds lowPeak : Bool) : Hub :=
  let h := h.upTo (h.chan n).dwellEnd
  let wait := (h.chan n).upWait
  let r := h.rangeNow n
  let next := h.freshDwell n (h.chan n).dwellEnd
  if h.autoActs n ∧ wait ∧ upHolds ∧ r < (h.rangeSpan n).2 then h.autoStep n (r + 1)
  else if h.autoActs n ∧ !(wait && upHolds) ∧ lowPeak ∧ (h.rangeSpan n).1 < r then h.autoStep n (r - 1)
  else next

/-! ## Open-wire detection (R80, R81) -/

/-- EXC_OPEN_TIME; 0 counts as 1 µs (R101). -/
def Hub.openTime (h : Hub) : Nat := max 1 (h.get EXC_OPEN_US) * usU

/-- A condition applies to a channel (R80). The standby's test currents, its SNS guard and its drivers are off (R99). -/
def Hub.openApplies (h : Hub) (n : Nat) (c : OpenCond) : Bool :=
  let x := h.chan n
  x.live && h.mode != mMirror && match c with
    | .testCurrent => h.kind n == 0 && h.get (CH_CFG_OPEN_I n) != 0
    | .compliance => x.driving && x.exMode == 2
    | .dcVoltage => x.driving && x.exMode == 1 && decide (5000 ≤ x.exLevel) && h.get (CH_CFG_OPEN_I n) != 0
    | .sns => h.get (CH_CFG_WIRING n) == 2 && h.get (CH_CFG_SNS_ROLE n) == 1
    | .carrier => h.get (CH_CFG_WIRING n) == 3 && x.driving && decide (3 ≤ x.exMode)

/-- OPEN_DECLARED: a condition that began at `since` has held for EXC_OPEN_TIME. COMPLIANCE shows a DC current source at its
compliance voltage, whatever declared the channel open (R80, R101). -/
def Hub.openDeclared (h : Hub) (n : Nat) (c : OpenCond) (since : Nat) : Hub :=
  if h.openApplies n c then
    let h := h.upTo (since + h.openTime)
    let h := if c = .compliance then h.on (CH_EXCS_COMPLIANCE n) else h
    if h.bit (CH_EXCS_OPEN n) then h else (h.on (CH_EXCS_OPEN n)).markFrom n .openw h.time.now
  else h

/-- OPEN_ENDED: no open condition since `since`, for EXC_OPEN_TIME (R81). -/
def Hub.openEnded (h : Hub) (n since : Nat) : Hub :=
  if h.bit (CH_EXCS_OPEN n) then
    let h := h.upTo (since + h.openTime)
    ((h.off (CH_EXCS_OPEN n)).off (CH_EXCS_COMPLIANCE n)).markEnd n .openw h.time.now
  else h

/-! ## Excitation (R82, R88, R94, R96) -/

/-- Round up a quotient. -/
def ceilDiv (a b : Nat) : Nat := if b = 0 then 0 else (a + b - 1) / b

/-- Static demand in µW of a mode at a level on a declared load (R88). -/
def staticDemand (mode level load : Nat) : Nat :=
  if mode = 0 then 0
  else if load = 0 then 18000
  else min 18000
    (if mode = 1 then ceilDiv (level * level) (100 * load)
     else if mode = 2 then ceilDiv (level * level * load) 10000000000
     else if mode = 3 then ceilDiv (level * level) (200 * load)
     else ceilDiv (level * level) (100 * load))

/-- LEVEL is in the accepted range of a mode (R82). -/
def levelOk (mode level : Nat) : Bool :=
  if mode = 0 then true
  else if mode = 1 ∨ mode = 3 ∨ mode = 4 then decide (level ≤ 50000)
  else if mode = 2 then decide (1000 ≤ level) && decide (level ≤ 1000000)
  else false

/-- A mode suits a wiring form (R82). -/
def modeSuits (mode wiring : Nat) : Bool :=
  if mode = 0 then true
  else if mode = 1 ∨ mode = 2 then wiring != 3
  else if mode = 3 ∨ mode = 4 then wiring == 3
  else false

/-- The limits of R130 and the image rule of R133 on a carrier fraction. -/
def carrierOk (p q hb : Nat) : Bool :=
  decide (1 ≤ p) && decide (p ≤ 2 ^ 24) && decide (1 ≤ q) && decide (q ≤ 2 ^ 16) && decide (1000 * q ≤ p)
    && decide (p ≤ 100000 * q) && decide (960000 * q ≤ 20 * p * 2 ^ hb)

/-- The channel is carrier-excited or demodulates: the carrier rules bind it (R130). -/
def Hub.carrierBound (h : Hub) (n mode : Nat) : Bool := mode == 3 || mode == 4 || h.bit (CH_CHAIN_DEMOD n)

/-- X, the extra settle time of R96. -/
def Hub.extra (h : Hub) (n : Nat) : Nat := h.get (CH_SETTLE_EXTRA n) * usU

/-- Excitation settle time for starting a mode or changing its level (R96). -/
def Hub.startSettle (h : Hub) (n mode p q : Nat) : Nat :=
  if mode = 0 then 50 * usU + h.extra n
  else if mode = 1 then 20 * usU + h.extra n
  else if mode = 2 then 50 * usU + h.extra n
  else 2 * (secU * q / p) + 20 * usU + h.extra n

/-- Delivered: the drivers are on, the mode is not off, the channel is not shed. -/
def Hub.setStatic (h : Hub) (n : Nat) : Hub :=
  let d := staticDemand (h.chan n).exMode (h.chan n).exLevel (h.get (CH_EXC_LOAD_OHM n))
  let old := h.get (CH_EXC_STATIC_UW n)
  (h.set (CH_EXC_STATIC_UW n) d).set EXC_STATIC_UW (h.get EXC_STATIC_UW + d - old)

/-- REASON and EXCF of a channel, and its EXCF span (R86, R92, R98). -/
def Hub.showExcf (h : Hub) (n : Nat) : Hub :=
  let shed := (h.chan n).shed
  let fault := h.bit (CH_EXCS_FOLDED n) || (!h.pwr.vexcOk && (h.chan n).exMode != 0)
  let was := h.bit (CH_EXCS_EXCF n)
  let now := shed || fault
  let h := (h.set (CH_EXCS_EXCF n) (b2n now)).set (CH_EXCS_REASON n) (if shed then 2 else if fault then 1 else 0)
  if now && !was then h.markFrom n .excf h.time.now
  else if was && !now then h.markEnd n .excf h.time.now
  else h

/-- The drivers of a channel may deliver: VEXC is there and this hub is not the standby (R87, R99). -/
def Hub.mayDrive (h : Hub) : Bool := h.pwr.vexcOk && h.mode != mMirror

/-- A source that is no DC current source is not at its compliance voltage (R101). -/
def Hub.complianceOff (h : Hub) (n : Nat) : Hub :=
  if (h.chan n).driving ∧ (h.chan n).exMode = 2 then h else h.off (CH_EXCS_COMPLIANCE n)

/-- Start or change the excitation of a channel at an instant, as an excitation change of the given settle time; without VEXC
the channel shows EXCF instead (R96, R98). -/
def Hub.drive (h : Hub) (n t settle : Nat) : Hub :=
  let c := h.chan n
  let h := h.setChan n { c with driving := c.exMode != 0 && h.mayDrive, demMode := c.exMode, demP := c.carP, demQ := c.carQ }
  (((h.noteExc n t).disturb n t settle).complianceOff n).showExcf n

/-- EXC_DISCHARGE of one channel: the drivers stop (R87). -/
def Hub.discharge (h : Hub) (n : Nat) : Hub := (h.setChan n { h.chan n with driving := false }).complianceOff n

/-- The carrier a channel's settings give differs in frequency or waveform from the one it follows (R96, R134). -/
def Hub.carrierChanged (h : Hub) (n : Nat) : Bool :=
  let c := h.chan n
  h.carrierBound n c.exMode && (c.carP * c.demQ != c.demP * c.carQ || (c.demMode != c.exMode && c.demMode ≥ 3 && c.exMode ≥ 3))
    && (c.demMode ≥ 3 || h.bit (CH_CHAIN_DEMOD n))

/-- Excitation settle time of a changed carrier (R96). -/
def Hub.carrierSettle (h : Hub) (n : Nat) : Nat := 4 * (secU * (h.chan n).carQ / (h.chan n).carP) + 20 * usU + h.extra n

/-- The stored settings take effect at an instant as one excitation change; a change of carrier frequency or waveform restarts the
chain (R96, R134). -/
def Hub.excite (h : Hub) (n t : Nat) : Hub :=
  let c := h.chan n
  if h.carrierChanged n then (h.drive n t (h.carrierSettle n)).restartChain n t 3
  else h.drive n t (h.startSettle n c.exMode c.carP c.carQ)

/-- APPLY is refused (R82, R94, R133). -/
def Hub.applyRefused (h : Hub) (n : Nat) : Bool :=
  let mode := h.get (CH_EXC_MODE n)
  let level := h.get (CH_EXC_LEVEL n)
  let d := staticDemand mode level (h.get (CH_EXC_LOAD_OHM n))
  !(h.chan n).live || !levelOk mode level || !modeSuits mode (h.get (CH_CFG_WIRING n))
    || decide (h.get EXC_BUDGET_MW * 1000 < h.get EXC_STATIC_UW + d - h.get (CH_EXC_STATIC_UW n))
    || (h.carrierBound n mode && !carrierOk (h.get (CH_CARRIER_P n)) (h.get (CH_CARRIER_Q n)) (h.get (CH_CHAIN_HB_COUNT n)))

/-- APPLY: MODE, LEVEL and the carrier fraction take effect together as one excitation change (R82, R94, R133). A shed channel
stores the settings and stays shed (R92). Settings that are those in force already change nothing and disturb nothing (DESIGN CHOICE, log entry 105). -/
def Hub.apply (h : Hub) (n : Nat) : Hub :=
  if h.applyRefused n then h.on (CH_EXCS_WERR n)
  else
    let c := h.chan n
    let mode := h.get (CH_EXC_MODE n)
    let p := h.get (CH_CARRIER_P n)
    let q := h.get (CH_CARRIER_Q n)
    let h := (h.setChan n { c with exMode := mode, exLevel := h.get (CH_EXC_LEVEL n), carP := p, carQ := q }).setStatic n
    let same := c.exMode == mode && (mode == 0 || c.exLevel == h.get (CH_EXC_LEVEL n)) && !h.carrierChanged n
    if c.shed ∨ same then h else h.excite n h.time.now

/-! ## The governor (R88 to R93) -/

/-- A channel's share of EXC_BANK[b].SHED_MASK and SHED_ACTIVE. -/
def Hub.showShed (h : Hub) (n : Nat) (v : Bool) : Hub :=
  let h := h.setChan n { h.chan n with shed := v }
  let b := n / 16
  let m := ((List.range 16).map fun i => if (h.chan (16 * b + i)).shed then 2 ^ i else 0).sum
  (h.set (BANK_SHED_MASK b) m).set EXC_STAT_SHED_ACTIVE (b2n (chanList.any fun k => (h.chan k).shed))

/-- SHED: a channel is shed (R92): discharged, EXCF with REASON SHED, counted, logged, and told to the standby. -/
def Hub.shed (h : Hub) (n : Nat) : Hub :=
  let h := (h.discharge n).disturb n h.time.now (50 * usU + h.extra n)
  let h := ((h.showShed n true).showExcf n).noteExc n h.time.now
  let h := h.bump EXC_SHED_COUNT EXC_STAT_SAT
  (h.log .excShed n (h.get (CH_EXC_PRIORITY n)) 0).dupEvent .shed n 1

/-- The draw of a channel in the latest window, in µW. -/
def Hub.draw1 (h : Hub) (n : Nat) : Nat := h.get (CH_EXC_MEAS_UW n)

/-- Candidates in shedding order: delivering channels by ascending priority, the highest number first among equals (R90). -/
def Hub.shedBefore (h : Hub) (a b : Nat) : Bool :=
  let pa := h.get (CH_EXC_PRIORITY a)
  let pb := h.get (CH_EXC_PRIORITY b)
  decide (pa < pb) || (pa == pb && decide (b < a))

/-- Insert a candidate in shedding order. -/
def Hub.shedInsert (h : Hub) (x : Nat) : List Nat → List Nat
  | [] => [x]
  | y :: t => if h.shedBefore x y then x :: y :: t else y :: h.shedInsert x t

def Hub.candidates (h : Hub) : List Nat :=
  (chanList.filter fun n => (h.chan n).driving && !(h.chan n).shed).foldl (fun l n => h.shedInsert n l) []

/-- Shed in order until the sum is at or below the budget, all at once; `draw` is each channel's draw (R90). -/
def Hub.shedDown (draw : Nat → Nat) : List Nat → Nat → Nat → Hub → Hub
  | [], _, _, h => h
  | n :: t, sum, budget, h => if sum ≤ budget then h else Hub.shedDown draw t (sum - draw n) budget (h.shed n)

/-- Record the averaged draws of a window (R90): `draws` are channel and µW; a channel the list leaves out keeps its last value
 (DESIGN CHOICE, log entry 106). -/
def Hub.record (h : Hub) (draws : List (Nat × Nat)) : Hub :=
  let h := draws.foldl (fun h d => if d.1 < 192 then h.set (CH_EXC_MEAS_UW d.1) d.2 else h) h
  let h := (List.range 12).foldl (fun h b =>
    h.set (BANK_MEAS_UW b) ((List.range 16).map fun i => h.draw1 (16 * b + i)).sum) h
  h.set EXC_MEAS_UW ((chanList.map h.draw1).sum)

/-- The governor acts: an armature is committed and this hub is not the standby (R352). -/
def Hub.governs (h : Hub) : Bool := h.acquiring && h.mode != mMirror

/-- GOVERNOR_WINDOW_END (R90): the averages are recorded, compared with the budget, and channels shed. The headroom of
this window end is kept for AUTO_RESTORE (R93). -/
def Hub.govWindow (h : Hub) (draws : List (Nat × Nat)) : Hub :=
  if h.governs then
    let h := h.upTo (h.exc.windowAt + h.get EXC_WINDOW_US * usU)
    let h := (h.setExc { h.exc with windowAt := h.time.now }).record draws
    let sum := h.get EXC_MEAS_UW
    let budget := h.get EXC_BUDGET_MW * 1000
    let kept := h.exc.headroom.filter fun e => decide (h.time.now < e.1 + 100 * msU)
    let h := h.setExc { h.exc with headroom := (h.time.now, (budget : Int) - (sum : Int)) :: kept }
    Hub.shedDown h.draw1 h.candidates sum budget h
  else h

/-- The draw of a channel in one 10 µs measurement (R91). -/
def drawIn (draws : List (Nat × Nat)) (n : Nat) : Nat := ((draws.filter fun d => d.1 == n).map (·.2)).sum

/-- FAST_TRIP (R91): a 10 µs measurement. The fifth in a row above 1.25 times the budget makes the decision of R90 with its own draws;
the averages of the window stay (DESIGN CHOICE, log entry 106). -/
def Hub.fastMeasure (h : Hub) (draws : List (Nat × Nat)) : Hub :=
  if h.governs then
    let h := h.upTo (h.exc.fastAt + 10 * usU)
    let h := h.setExc { h.exc with fastAt := h.time.now }
    let budget := h.get EXC_BUDGET_MW * 1000
    let sum := (chanList.map (drawIn draws)).sum
    if 4 * sum ≤ 5 * budget then h.setExc { h.exc with fastRun := 0 }
    else if h.exc.fastRun + 1 < 5 then h.setExc { h.exc with fastRun := h.exc.fastRun + 1 }
    else
      let h := (h.setExc { h.exc with fastRun := 0 }).on EXC_STAT_FAST_TRIP
      Hub.shedDown (drawIn draws) h.candidates sum budget h
  else h

/-- Restore a shed channel: an excitation change with the stored settings (R93). -/
def Hub.restoreChan (h : Hub) (n : Nat) : Hub :=
  (((h.showShed n false).showExcf n).excite n h.time.now).dupEvent .shed n 0

/-- RESTORE by the host (R93). -/
def Hub.restore (h : Hub) (n : Nat) : Hub :=
  if !(h.chan n).shed then h
  else if h.get EXC_MEAS_UW + h.get (CH_EXC_STATIC_UW n) ≤ h.get EXC_BUDGET_MW * 1000 then h.restoreChan n
  else h.on (CH_EXCS_RESTORE_REFUSED n)

/-- The shed channels in restoring order: highest priority first, the lowest number first among equals (R93). -/
def Hub.shedList (h : Hub) : List Nat :=
  ((chanList.filter fun n => (h.chan n).shed).foldl (fun l n => h.shedInsert n l) []).reverse

/-- Enough headroom for a channel at every window end of the last 100 ms (R93). -/
def Hub.headroomFor (h : Hub) (n : Nat) : Bool :=
  let need : Int := (h.get (CH_EXC_STATIC_UW n) : Int) + h.get EXC_BUDGET_MW * 50
  !h.exc.headroom.isEmpty && h.exc.headroom.all fun e => decide (need ≤ e.2) || decide (e.1 + 100 * msU ≤ h.time.now)

/-- AUTO_RESTORE: at most one channel every 100 ms, the first in order of those with the headroom (R93): a channel that lacks it
does not hold back one after it (DESIGN CHOICE, log entry 107). -/
def Hub.autoRestore (h : Hub) : Hub :=
  if h.governs && h.bit EXC_CTL_AUTO_RESTORE && decide (h.exc.lastRestore + 100 * msU ≤ h.time.now) then
    match h.shedList.find? (fun n => h.headroomFor n) with
    | some n => (h.restoreChan n).setExc { h.exc with lastRestore := h.time.now }
    | none => h
  else h

/-- EXC_BUDGET_WRITE (R89). -/
def Hub.budgetWrite (h : Hub) (v : Nat) : Hub :=
  if 2400 < v ∨ v * 1000 < h.get EXC_STATIC_UW then h.on EXC_STAT_WERR else h.set EXC_BUDGET_MW v

/-! ## Fold-back (R86) -/

/-- The limiter of a channel acts: an excitation change of 20 µs + X (R96). -/
def Hub.limiterActs (h : Hub) (n : Nat) : Hub := h.disturb n h.time.now (20 * usU + h.extra n)

/-- FOLD_RETRY_END: 1 ms with no new fold-back; FOLDED clears, and REASON returns to 0 unless the channel is shed. -/
def Hub.foldRetryEnd (h : Hub) (n : Nat) : Hub :=
  match (h.chan n).retryEnd with
  | some e =>
    let h := (h.upTo e).setChan n { h.chan n with retryEnd := none }
    ((h.off (CH_EXCS_FOLDED n)).showExcf n).limiterActs n
  | none => h

/-- The limits drop: FOLDED, EXCF with REASON FAULT, counted. -/
def Hub.fold (h : Hub) (n : Nat) : Hub :=
  (((h.on (CH_EXCS_FOLDED n)).bump (CH_FOLD_COUNT n) (CH_EXCS_SAT n)).showExcf n).limiterActs n

/-- FOLD_BACK: the load has held the channel at a limit for 50 µs, outside a retry or inside the 1 ms of one, whose end comes first
where it has passed. A channel folded back and not in a retry stands at the lower limit already (R86). -/
def Hub.foldBack (h : Hub) (n : Nat) : Hub :=
  if (h.chan n).driving then
    let t := h.time.now
    let h := if (h.chan n).retryEnd.any fun e => decide (e < t) then h.foldRetryEnd n else h
    if !h.bit (CH_EXCS_FOLDED n) then (h.setChan n { h.chan n with foldAt := t }).fold n
    else if (h.chan n).retryEnd.isSome then (h.setChan n { h.chan n with retryEnd := none }).fold n
    else h
  else h

/-- The retry period: FOLD_RETRY in units of 10 ms; 0 counts as 1 (R101). -/
def Hub.retryPeriod (h : Hub) : Nat := max 1 (h.get EXC_CTL_FOLD_RETRY) * 10 * msU

/-- FOLD_RETRY: at the end of each period, full limits for 1 ms; an excitation change (R86) (DEDUCED, log entry 108). -/
def Hub.foldRetry (h : Hub) (n : Nat) : Hub :=
  if h.bit (CH_EXCS_FOLDED n) ∧ (h.chan n).retryEnd = none then
    let t := (h.chan n).foldAt + h.retryPeriod
    let h := h.upTo t
    (h.setChan n { h.chan n with foldAt := h.time.now, retryEnd := some (h.time.now + msU) }).limiterActs n
  else h

/-! ## VEXC (R87, R98, R456) and the start at commit (R95) -/

/-- VEXC_LOSS: every excited channel discharges and shows EXCF with REASON FAULT. -/
def Hub.vexcLoss (h : Hub) : Hub :=
  let h := h.setPwr { h.pwr with vexcOk := false }
  h.each chanList fun h n => if (h.chan n).exMode ≠ 0 then (h.discharge n).showExcf n else h

/-- VEXC_RESTORED: the condition that sets EXCF ends. -/
def Hub.vexcRestored (h : Hub) : Hub :=
  let h := h.setPwr { h.pwr with vexcOk := true }
  h.each chanList fun h n =>
    let h := h.showExcf n
    if (h.chan n).exMode = 0 ∨ (h.chan n).shed then h else h.setChan n { h.chan n with driving := h.mayDrive }

/-- EXC_GROUP_START: the next group of channels starts its excitation (R95); each channel's disturbance instant is its
own start; a changed carrier takes four of its periods to settle (R96). -/
def Hub.groupStart (h : Hub) : Hub :=
  match h.exc.groups with
  | [] => h
  | (t, l) :: rest =>
    let h := (h.upTo t).setExc { h.exc with groups := rest }
    h.each l fun h n =>
      let c := h.chan n
      if c.exMode ≠ 0 ∧ !c.shed then
        h.drive n t (if h.exc.carriers.contains n then h.carrierSettle n else h.startSettle n c.exMode c.carP c.carQ)
      else h

/-- Channels in starting order: descending priority, the channel number breaks ties (R95). -/
def Hub.startOrder (h : Hub) (l : List Nat) : List Nat :=
  (l.foldl (fun acc n => h.shedInsert n acc) []).reverse

/-- Cut a list into groups of 16 that start 20 µs apart from an instant (R95). -/
def startGroups : Nat → Nat → List Nat → List (Nat × List Nat)
  | 0, _, _ => []
  | _, _, [] => []
  | k + 1, t, l => (t, l.take 16) :: startGroups k (t + 20 * usU) (l.drop 16)

/-! ## Overload of a modulator (R103, R106) -/

/-- OVERLOAD at the detecting edge, the last one: the modulator recovers for 32 clocks; the 8 samples before it and the 32 of the recovery
are clipped, and the correction stage receives the extreme code of the last valid sample's sign (`Hub.ownClip`, `Hub.ownCode`). -/
def Hub.overload (h : Hub) (n : Nat) : Hub :=
  let e := h.edgeIndex h.time.now
  h.setChan n { h.chan n with recoverEnd := some (h.edgeTime (e + 32)), recov := e :: (h.chan n).recov }

/-- OVERLOAD_RECOVERY_END: the 32 clocks have passed and the modulator output is used again. -/
def Hub.overloadEnd (h : Hub) (n : Nat) : Hub :=
  match (h.chan n).recoverEnd with
  | some e => (h.upTo e).setChan n { h.chan n with recoverEnd := none }
  | none => h

end Sys2Proof.Machine
end

