-- ==== Sys2Proof/Machine/Lin.lean ====
section
/-! DEFINITION. Linearisation and engineering words (chapter 06). -/

namespace Sys2Proof.Machine

/-- lsb of R159: binary32 nearest to top full scale / 7,340,032. -/
def linLsb (kind top : Nat) : Nat := fRound (fullScale kind top / 7340032) false

/-- x' of R159: three binary32 operations, none fused. -/
def linInput (value : Int) (lsb gain offset : Nat) : Nat := fAdd (fMul (fMul (fOfInt value) lsb) gain) offset

/-- The age of a HK_TEMP_LAST copy in ms; it holds at 65,535 (R114, R164). -/
def Hub.tempAge (h : Hub) (j : Nat) : Nat :=
  match aFind h.hk.tempAt j with
  | none => 65535
  | some t => min 65535 ((h.time.now - t) / msU)

def Hub.maxAge (h : Hub) : Nat := max 1 (h.get LIN_CJ_MAXAGE)

/-! ## Reference functions (R162, R165) -/

/-- IEC 60751 resistance ratio at a temperature, below and above 0 °C (R165). -/
def rtdRatio (t : ℚ) : ℚ :=
  1 + 39083 / 10000000 * t - 5775 / 10000000000 * t ^ 2
    - (if t < 0 then 4183 / 1000000000000000 * (t - 100) * t ^ 3 else 0)

/-- The Ni120 ratio of curve 11 (R165). -/
def niRatio (t : ℚ) : ℚ :=
  1 + 5485 / 1000000 * t + 665 / 100000000 * t ^ 2 + 2805 / 100000000000000 * t ^ 4 - 2 / 100000000000000000 * t ^ 6

/-- Halve an interval `k` times towards the argument at which a rising function reaches `v`. -/
def bisect (f : ℚ → ℚ) (v : ℚ) : Nat → ℚ → ℚ → ℚ
  | 0, lo, hi => (lo + hi) / 2
  | k + 1, lo, hi => if f ((lo + hi) / 2) ≤ v then bisect f v k ((lo + hi) / 2) hi else bisect f v k lo ((lo + hi) / 2)

/-- The largest power of two not above a positive rational. -/
def log2Q (x : ℚ) : Int :=
  let e : Int := (Nat.log2 x.num.natAbs : Int) - Nat.log2 x.den
  if (2 : ℚ) ^ e ≤ x then e else e - 1

/-- ln of a number from 1 to 2, by its series, to far below 40 bits. -/
def lnSeries (m : ℚ) : ℚ :=
  let z := (m - 1) / (m + 1)
  2 * ((List.range 50).map fun i => z ^ (2 * i + 1) / ((2 * i + 1 : Nat) : ℚ)).sum

/-- ln of a positive rational. -/
def lnQ (x : ℚ) : ℚ := log2Q x * lnSeries 2 + lnSeries (x / (2 : ℚ) ^ log2Q x)

/-- What a curve makes of its input (R161): a value, an excursion above or below its domain, a missing cold junction, or a
missing excitation. -/
inductive LinOut where
  | value (bits : Nat)
  | above
  | below
  | noCj
  | noExc
  deriving DecidableEq, Repr

/-- A result within its bound of R170 of the exact one, rounded once to binary32 (DESIGN CHOICE, log entry 21). -/
def within (bound : ℚ) (c x : Nat) (ps : List Nat) (exact : ℚ) : LinOut :=
  .value (fRound (exact + max (-bound) (min bound (Config.curveError c x ps))) false)

/-- A curve whose parameters are no numbers it can be evaluated on: the spec states no result (DESIGN CHOICE, log entry 21). -/
def unstated (c x : Nat) (ps : List Nat) : LinOut := .value (Config.curveValue c x ps).toNat

/-- Invert a rising reference function over a domain (R162, R165). -/
def invert (f : ℚ → ℚ) (lo hi : ℚ) (c x : Nat) (ps : List Nat) (v : ℚ) : LinOut :=
  if v < f lo then .below else if f hi < v then .above else within (2 / 1000) c x ps (bisect f v 60 lo hi)

/-- Steinhart and Hart (R165): the result from R in Ω and the coefficients in binary32; its domain is R > 0 and −80 to 300 °C. -/
def steinhart (c x : Nat) (ps : List Nat) (r : ℚ) : LinOut :=
  if !ps.all fFinite then unstated c x ps
  else if r ≤ 0 then .below
  else
    let l := lnQ r
    let inv := fVal (ps.getD 0 0) + fVal (ps.getD 1 0) * l + fVal (ps.getD 2 0) * l ^ 3
    if inv < 0 then .below
    else if inv = 0 then .above
    else
      let t := 1 / inv - 27315 / 100
      if t < -80 then .below else if 300 < t then .above else within (2 / 1000) c x ps t

/-- A resistance thermometer of curves 9 to 11 (R165). -/
def resistive (c x : Nat) (ps : List Nat) (r : ℚ) : LinOut :=
  if c = 9 then invert rtdRatio (-200) 850 c x ps (r / 100)
  else if c = 10 then invert rtdRatio (-200) 850 c x ps (r / 1000)
  else invert niRatio (-80) 260 c x ps (r / 120)

/-- The domain of inversion of a thermocouple type, curves 1 to 8: B, E, J, K, N, R, S, T (R162). -/
def emfDomain (c : Nat) : ℚ × ℚ :=
  match c with
  | 1 => (250, 1820)
  | 2 => (-200, 1000)
  | 3 => (-210, 1200)
  | 4 => (-200, 1372)
  | 5 => (-200, 1300)
  | 6 => (-50, 17681 / 10)
  | 7 => (-50, 17681 / 10)
  | _ => (-200, 400)

/-- A thermocouple (R162): V = x' · 10^6 + E(t_cj) in µV, inverted over the type's domain. -/
def thermocouple (c x tcj : Nat) : LinOut :=
  invert (Config.emf c) (emfDomain c).1 (emfDomain c).2 c x [tcj] (fVal x * 1000000 + Config.emf c (fVal tcj))

/-! ## Cold junctions (R111, R163, R164) -/

/-- Cold junction i is invalid (R164). -/
def Hub.cjInvalid (h : Hub) (i : Nat) : Bool :=
  decide (h.maxAge < h.tempAge (8 + i))
    || (decide (1 ≤ h.get (CJ_SENSOR i)) && h.get HK_CJ_IEN / 2 ^ i % 2 == 0)
    || aGet h.lin.cjBad i true

/-- LIN_CJ[i].TEMP: NaN while the cold junction is invalid (R164). -/
def Hub.cjTemp (h : Hub) (i : Nat) : Nat := if h.cjInvalid i then fNaN else aGet h.lin.cjTemp i fNaN

/-- Volts of a code of CJ_IN[i] (R109). -/
def cjVolts (code : Nat) : ℚ := (code : ℚ) * 38147 / 1000000000

/-- The resistance at CJ_IN[i] in Ω for the current in pA (R111). -/
def cjOhms (code pA : Nat) : ℚ := cjVolts code / ((pA : ℚ) / 1000000000000)

/-- The conversion of a cold-junction input as SENSOR states; a resistance goes up to 25 kΩ (R111, R163) (DEDUCED, log entry 117). -/
def Hub.cjConvert (h : Hub) (i code : Nat) : LinOut :=
  let s := h.get (CJ_SENSOR i)
  let ps := [h.get (CJ_COEF_A i), h.get (CJ_COEF_B i), h.get (CJ_COEF_C i)]
  let r := cjOhms code (imgVal h.hk.inForce (0x3C + 4 * i) 4)
  if s = 0 then
    if fFinite (ps.getD 0 0) && fFinite (ps.getD 1 0) then .value (fRound (fVal (ps.getD 0 0) + fVal (ps.getD 1 0) * cjVolts code) false)
    else unstated 32 code ps
  else if 25000 < r then .above
  else if s ≤ 3 then resistive (8 + s) code [] r
  else steinhart 12 code ps r

/-- The copy of input 28 + i has been updated: the hub converts it into LIN_CJ[i].TEMP (R163). Without an armature the unit holds no
state (R158). -/
def Hub.cjUpdate (h : Hub) (i : Nat) : Hub :=
  if !h.arm.committed then h
  else match h.cjConvert i (h.get (TEMPLAST_CODE (8 + i))) with
    | .value b => h.setLin { h.lin with cjTemp := aInsert h.lin.cjTemp i b, cjBad := aInsert h.lin.cjBad i false }
    | _ => h.setLin { h.lin with cjBad := aInsert h.lin.cjBad i true }

/-- t_cj of a channel as binary32, or none where its cold junction is invalid or its sensor was never converted (R163, R164). -/
def Hub.coldJunction (h : Hub) (n : Nat) : Option Nat :=
  let s := h.get (CH_LIN_CJ_SRC n)
  if s = 0 then some (h.get (CH_LIN_P0 n))
  else if s ≤ 4 then (if h.cjInvalid (s - 1) then none else some (h.cjTemp (s - 1)))
  else if h.maxAge < h.tempAge (s - 5) ∨ aFind h.hk.tempAt (s - 5) = none then none
  else some (fRound ((h.get (TEMPLAST_CODE (s - 5)) : ℚ) / 128 - 27315 / 100) false)

/-! ## Curves (R160 to R169) -/

/-- Mode and level in force on a channel at an instant (R166). -/
def Hub.excAt (h : Hub) (n t : Nat) : Nat × Nat :=
  match (h.chan n).exHist.find? (fun e => decide (e.1 ≤ t)) with
  | some e => e.2
  | none => (0, 0)

/-- A user table's value (R169). -/
def Hub.tableValue (h : Hub) (u x : Nat) : LinOut :=
  let cnt := h.get (TAB_SEG_COUNT u)
  if fLt x (h.get (SEG_X_LO u 0)) then .below
  else if fLe x (h.get (TAB_X_MAX u)) then
    let s := ((List.range cnt).filter fun i => fLe (h.get (SEG_X_LO u i)) x).getLastD 0
    let d := fSub x (h.get (SEG_X_LO u s))
    .value (fAdd (h.get (SEG_C0 u s)) (fMul d (fAdd (h.get (SEG_C1 u s)) (fMul d (fAdd (h.get (SEG_C2 u s)) (fMul d
      (h.get (SEG_C3 u s))))))))
  else if fIsNaN x then .value fNaN
  else .above

/-- The curve a word takes: the Q words of a channel with a curve from 13 to 15 take curve 0 (R160). -/
def Hub.curveOf (h : Hub) (n : Nat) (isQ : Bool) : Nat :=
  let c := h.get (CH_LIN_CURVE n)
  if isQ ∧ 13 ≤ c ∧ c ≤ 15 then 0 else c

/-- The strain of a bridge in µε for r = x' / V_exc and the gauge factor (R167). -/
def strain (c : Nat) (r gf : ℚ) : ℚ :=
  1000000 * (if c = 13 then -4 * r / (gf * (1 + 2 * r)) else if c = 14 then -2 * r / gf else -r / gf)

/-- A bridge of curves 13 to 15 (R160, R167). -/
def bridge (c x v gf : Nat) : LinOut :=
  let r := fVal x / ((v : ℚ) / 10000)
  if r < -1 / 10 then .below
  else if 1 / 10 < r then .above
  else if !fFinite gf ∨ fVal gf = 0 then unstated c x [v, gf]
  else within (1 / 100) c x [v, gf] (strain c r (fVal gf))

/-- The excitation in force is not the one a curve requires (R160, R166). -/
def excWrong (c mode level : Nat) : Bool :=
  if 1 ≤ c ∧ c ≤ 8 then mode != 0
  else if 9 ≤ c ∧ c ≤ 12 then mode != 2
  else if 13 ≤ c ∧ c ≤ 15 then mode == 0 || mode == 2 || level == 0
  else false

/-- Apply a curve to x' at an output's instant (R160 to R169) (DESIGN CHOICE, log entry 21). -/
def Hub.curve (h : Hub) (n c x t : Nat) : LinOut :=
  let e := h.excAt n t
  if c = 0 then .value x
  else if 24 ≤ c then h.tableValue (c - 24) x
  else if excWrong c e.1 e.2 then .noExc
  else if c ≤ 8 ∧ h.coldJunction n = none then .noCj
  else if fIsNaN x then .value fNaN
  else if fIsInf x then (if fNeg x then .below else .above)
  else if c ≤ 8 then
    match h.coldJunction n with
    | none => .noCj
    | some t => if fFinite t then thermocouple c x t else unstated c x [t]
  else if c ≤ 11 then resistive c x [e.2] (fVal x / ((e.2 : ℚ) / 100000000))
  else if c = 12 then steinhart 12 x [h.get (CH_LIN_P0 n), h.get (CH_LIN_P1 n), h.get (CH_LIN_P2 n)] (fVal x / ((e.2 : ℚ) / 100000000))
  else if c ≤ 15 then bridge c x e.2 (h.get (CH_LIN_P0 n))
  else if fVal x ≤ 0 then .below
  else within (1 / 1000000) 16 x [] (lnQ (fVal x) / lnQ 10)

/-- Bits [63:32] of an engineering word, and the status the word leaves (R161, R164, R166). -/
def Hub.linStatus (h : Hub) (n : Nat) : LinOut → Nat × Hub
  | .value b => (b, h)
  | .above => (fInf false, (h.on (CH_LIN_DOMAIN n)).bump (CH_LIN_DOMAIN_COUNT n) (CH_LIN_SAT n))
  | .below => (fInf true, (h.on (CH_LIN_DOMAIN n)).bump (CH_LIN_DOMAIN_COUNT n) (CH_LIN_SAT n))
  | .noCj => (fNaN, h.on (CH_LIN_CJ_INVALID n))
  | .noExc => (fNaN, h.on (CH_LIN_NOEXC n))

/-- Linearise one grid-sample word: the engineering word and the state after (R158, R173). -/
def Hub.linWord (h : Hub) (n w t : Nat) (isQ : Bool) : Nat × Hub :=
  let c := h.curveOf n isQ
  let x := linInput (toSigned 24 (w / 256)) (linLsb (h.kind n) (h.chan n).topRange) (h.get (CH_LIN_GAIN n)) (h.get (CH_LIN_OFFSET n))
  let r := h.linStatus n (h.curve n c x t)
  let e := r.1 * 2 ^ 32 + c * 256 + w % 256
  let h := r.2.rsChange (0x10080 + 0x100 * n) (CH_LIN_OVR n)
  (e, (h.set (CH_LIN_LAST_LO n) e).set (CH_LIN_LAST_HI n) (e / 2 ^ 32))

/-- Linearise the words of one output in order. -/
def Hub.linWords (h : Hub) (n t : Nat) : List Nat → Bool → List Nat × Hub
  | [], _ => ([], h)
  | w :: ws, isQ =>
    let r := h.linWord n w t isQ
    let rest := r.2.linWords n t ws true
    (r.1 :: rest.1, rest.2)

/-- ENGINEERING_WORD_READY, the unit's half: the oldest waiting output with its engineering words (R158). -/
def Hub.takeLin (h : Hub) (n : Nat) : Option (Output × Run × List Nat × Hub) :=
  match (h.chan n).linQ with
  | [] => none
  | (o, run) :: rest =>
    let h := h.setChan n { h.chan n with linQ := rest }
    let q := h.get (CH_CHAIN_DEMOD n) = 1 ∧ h.get (CH_CHAIN_DEMOD_OUT n) = 1
    let r := h.linWords n (gridInstant run.epoch run.p run.q o.index) o.words (decide q)
    some (o, run, r.1, r.2)

/-- A host write of LIN_GAIN or LIN_OFFSET is staged; a value that is not finite is refused (R172). -/
def Hub.linStage (h : Hub) (n : Nat) (gain : Bool) (v : Nat) : Hub :=
  if !fFinite v then h.on (CH_EXCS_WERR n)
  else if gain then h.setChan n { h.chan n with stGain := some v }
  else h.setChan n { h.chan n with stOffset := some v }

/-- LIN_LOAD: both staged values apply together (R172). -/
def Hub.linLoad (h : Hub) (n : Nat) : Hub :=
  let c := h.chan n
  let h := match c.stGain with
    | some v => h.set (CH_LIN_GAIN n) v
    | none => h
  let h := match c.stOffset with
    | some v => h.set (CH_LIN_OFFSET n) v
    | none => h
  h.setChan n { h.chan n with stGain := none, stOffset := none }

end Sys2Proof.Machine
end

