-- ==== Sys2Proof/Machine/Convert.lean ====
section
/-! DEFINITION. The housekeeping converter, calibration and the patina store (chapter 04). -/

namespace Sys2Proof.Machine

/-- A quotient rounded to one of its two neighbours; which one is free where the spec does not say (DESIGN CHOICE, log entry 22). -/
def freeRound (k : Nat) (n : Int) (d : Nat) : Int := n / d + (if n % d ≠ 0 ∧ Config.roundUp k then 1 else 0)

/-! ## The patina image (R125) -/

def patLen : Nat := 23604
def patCrcAt : Nat := 0x5C30
def patRatioAt (b i : Nat) : Nat := 0x50 + (b * 10 + i) * 4

/-- A fresh CRC over an image. -/
def patSeal (m : AMap Nat) : AMap Nat := imgPut m patCrcAt (leBytes 4 (crc32c (imgBytes m 0 patCrcAt)))

/-- MAGIC, HW_TYPE, LENGTH and the CRC-32C hold (R124, R126). -/
def patOk (m : AMap Nat) : Bool :=
  imgVal m 0 4 == 0x414E5450 && imgVal m 6 2 == Config.hwType && imgVal m 8 4 == patLen
    && imgVal m patCrcAt 4 == crc32c (imgBytes m 0 patCrcAt)

/-- The store the hub fills in when the factory copy fails: every entry GAIN 1.0, OFFSET 0 and VALID clear (R124). The
factory-only values are the model's: gains and ratios 1.0, CALSRC and CJ_I nominal. -/
def patFill : AMap Nat :=
  imgPut [] 0 (leBytes 4 0x414E5450 ++ leBytes 2 1 ++ leBytes 2 Config.hwType ++ leBytes 4 patLen)
    ++ [(0x27, 0x40)] ++ imgPut [] 0x28 (leBytes 4 (53687 * 256))
    ++ imgPut [] 0x3C ((List.range 4).flatMap fun _ => leBytes 4 100000000)
    ++ (List.range 120).map (fun k => (0x53 + 4 * k, 0x40)) ++ (List.range 1920).map (fun k => (0x237 + 12 * k, 0x40))

/-- Write an entry marked VALID and FIELD. -/
def patEntryPut (m : AMap Nat) (n i : Nat) (offset : Int) (gain : Nat) (temp : Int) : AMap Nat :=
  imgPut m (patEntryAt n i) (leBytes 4 (ofSigned 32 offset) ++ leBytes 4 gain ++ leBytes 2 (ofSigned 16 temp) ++ [3, 0])

/-- Overlay the VALID field entries and the field HK_OFFSET of a settings image (R124, R402). -/
def patOverlay (m set : AMap Nat) : AMap Nat :=
  let m := imgPut m 0x20 (imgBytes set 0x380 4)
  (List.range 1920).foldl (fun m k =>
    if aGet set (0x390 + 12 * k + 10) 0 % 2 = 1 then imgPut m (0x230 + 12 * k) (imgBytes set (0x390 + 12 * k) 12) else m) m

/-- An image is in force from an instant (R105, R122, R126). -/
def Hub.patForce (h : Hub) (m : AMap Nat) (t : Nat) : Hub := h.setHk { h.hk with inForce := m, forceHist := (t, m) :: h.hk.forceHist }

/-- The store holds an image, whose CRC is checked; it is in force at once where no armature is committed, else from the next commit
(R126) (DEDUCED, log entry 111). -/
def Hub.patTake (h : Hub) (m : AMap Nat) : Hub :=
  let h := h.setHk { h.hk with patina := m, checked := m }
  if h.arm.committed then h else h.patForce m h.time.now

/-- The factory copy is whole. -/
def factoryGood (factory : Option (AMap Nat)) : Bool :=
  match factory with
  | some f => patOk f
  | none => false

/-- The image that the factory copy and the settings make: the factory copy, or the fill, and over it the field entries of the
settings slot in use, where there is one (R124). -/
def patMade (factory set : Option (AMap Nat)) : AMap Nat :=
  let base := if factoryGood factory then factory.getD [] else patFill
  patSeal (match set with
    | some s => patOverlay base s
    | none => base)

/-- Load the store from flash: with no whole factory copy, FACTORY_BAD and PATINA_BAD (R124). -/
def Hub.patLoad (h : Hub) (factory set : Option (AMap Nat)) : Hub :=
  let h := if factoryGood factory then h.off HK_PAT_FACTORY_BAD else (h.on HK_PAT_FACTORY_BAD).log .patinaBad 0 0 0
  (h.patTake (patMade factory set)).set HK_PAT_FIELD_LOADED (b2n set.isSome)

/-- A write to the HK_ block is refused: its own bit and HK_STAT.WERR (R128) (DEDUCED, log entry 112). -/
def Hub.hkRefuse (h : Hub) (f : Field) : Hub := (h.on f).on HK_STAT_WERR

/-- HK_PAT_DATA_ACCESS, the write half: only in IDLE and MAINTENANCE, else BAD (R126). -/
def Hub.patWrite (h : Hub) (v : Nat) : Hub :=
  let a := h.get HK_PAT_ADDR / 4 * 4
  let h := h.set HK_PAT_ADDR (a + 4)
  if h.mode ≠ mIdle ∧ h.mode ≠ mMaint then h.hkRefuse HK_PAT_BAD
  else if patCrcAt < a then h
  else h.setHk { h.hk with patina := imgPut h.hk.patina a (leBytes 4 v) }

/-- The read half: the word, and the advanced address (R126). -/
def Hub.patRead (h : Hub) : Nat × Hub :=
  let a := h.get HK_PAT_ADDR / 4 * 4
  (if patCrcAt < a then 0 else imgVal h.hk.patina a 4, h.set HK_PAT_ADDR (a + 4))

/-- CHECK: a store that passes applies from the next commit; one that fails is reloaded (R126). -/
def Hub.patCheck (h : Hub) (factory : Option (AMap Nat)) (set : Option (AMap Nat)) : Hub :=
  if patOk h.hk.patina then h.setHk { h.hk with checked := h.hk.patina }
  else (h.on HK_PAT_BAD).patLoad factory set

/-! ## Codes (R108, R109) -/

/-- Correct a raw code with HK_OFFSET, HK_GAIN and the sensor trims, saturated to 16 bits (R108). -/
def hkCorrect (m : AMap Nat) (k input raw : Nat) : Nat :=
  let off := toSigned 32 (imgVal m 0x20 4)
  let c := freeRound k (((raw : Int) * 256 - off) * imgVal m 0x24 4) (2 ^ 38)
  let c := if 20 ≤ input ∧ input < 28 then c + toSigned 16 (imgVal m (0x2C + 2 * (input - 20)) 2) else c
  (min 65535 (max 0 c)).toNat

/-- The words W0 to W3 of a result (R113). -/
def hkWords : Option HkRes → List Nat
  | none => [0, 0, 0, 0]
  | some r => [r.code + r.input * 2 ^ 16 + b2n r.unread * 2 ^ 22 + b2n r.delayed * 2 ^ 23 + r.seq % 256 * 2 ^ 24,
      tNs r.time, tSec r.time % 2 ^ 32, tSec r.time / 2 ^ 32]

/-! ## Service of the converter (R112, R116, R119) -/

/-- Pending injected requests run in ascending slot number. -/
def Hub.injNext (h : Hub) : Option Nat := (List.range 4).find? fun j => h.bit (INJ_PENDING j)

/-- Calibration waits for the converter: the rest of a scan is abandoned (R119). -/
def Hub.scanAbandon (h : Hub) : Hub :=
  if h.get HK_CAL_STATE = 1 ∧ h.bit HK_STAT_SCAN_BUSY then
    ((h.on HK_STAT_SCAN_ABORT).off HK_STAT_SCAN_BUSY).setHk { h.hk with scan := [] }
  else h

/-- The converter is free: a pending injected request, else the scan, takes it (R116); while calibration waits or owns it, there is
no scan (R119). -/
def Hub.hkServe (h : Hub) : Hub :=
  let h := (h.off HK_STAT_WAIT_STALL).scanAbandon
  match h.injNext with
  | some j => (h.off (INJ_PENDING j)).setHk { h.hk with conv := .inject j, convAt := h.time.now }
  | none =>
    if h.get HK_CAL_STATE = 1 then h.setHk { h.hk with conv := .idle }
    else if h.get HK_CAL_STATE ≠ 0 then h.setHk { h.hk with conv := if h.hk.calEnding.isSome then .idle else .cal }
    else match h.hk.scan with
      | [] => (h.off HK_STAT_SCAN_BUSY).setHk { h.hk with conv := .idle }
      | i :: _ => h.setHk { h.hk with conv := .settle i, convAt := h.time.now }

/-- The converter can be taken at once: it is free, or settling or waiting before a regular conversion (R116). -/
def Hub.hkFree (h : Hub) : Bool :=
  match h.hk.conv with
  | .idle | .settle _ | .stalled _ => true
  | _ => false

/-- Start a scan, or skip it (R112). -/
def Hub.scanGo (h : Hub) : Hub :=
  if h.bit HK_STAT_SCAN_BUSY ∨ h.get HK_CAL_STATE ≠ 0 then h.bump HK_SCAN_SKIP HK_STAT_SAT
  else
    let mask := h.get HK_SCAN_MASK_LO + 2 ^ 32 * h.get HK_SCAN_MASK_HI
    let l := (List.range 48).filter fun i => mask / 2 ^ i % 2 == 1
    let h := (h.on HK_STAT_SCAN_BUSY).setHk { h.hk with scan := l, settleUs := h.get HK_CTL_SETTLE_US }
    if h.hkFree then h.hkServe else h

/-- SCAN_START: in single mode (R112). -/
def Hub.scanStart (h : Hub) : Hub := if h.get HK_CTL_SCAN_MODE = 1 then h.scanGo else h

/-- PERIOD in timer mode; 0 counts as 1 (R128). -/
def Hub.scanPeriod (h : Hub) : Nat := max 1 (h.get HK_SCAN_PERIOD) * usU

/-- SCAN_TIMER: in timer mode a scan starts every PERIOD µs; a new PERIOD counts from the next start (R112). -/
def Hub.scanTimer (h : Hub) : Hub :=
  match h.hk.timerAt with
  | some t =>
    if h.get HK_CTL_SCAN_MODE = 2 then
      let h := h.upTo t
      (h.setHk { h.hk with timerAt := some (t + h.scanPeriod) }).scanGo
    else h
  | none => h

/-- SCAN_MODE is written: timer mode begins with a whole period (DESIGN CHOICE, log entry 113). -/
def Hub.scanModeSet (h : Hub) (was : Nat) : Hub :=
  let m := h.get HK_CTL_SCAN_MODE
  if m = was then h else h.setHk { h.hk with timerAt := if m = 2 then some (h.time.now + h.scanPeriod) else none }

/-- SCAN_STOP: the scan ends after the conversion in progress (R112). -/
def Hub.scanStop (h : Hub) : Hub :=
  if h.bit HK_STAT_SCAN_BUSY then
    let h := h.on HK_STAT_SCAN_ABORT
    match h.hk.conv with
    | .regular i => h.setHk { h.hk with scan := [i] }
    | .inject _ => h.setHk { h.hk with scan := [] }
    | _ => (h.setHk { h.hk with scan := [], conv := .idle }).hkServe
  else h

/-- The conversion of the input under the multiplexer begins now (R112). -/
def Hub.hkConvert (h : Hub) (i : Nat) : Hub :=
  (h.off HK_STAT_WAIT_STALL).setHk { h.hk with conv := .regular i, convAt := h.time.now }

/-- A result is unread. -/
def unreadRes : Option HkRes → Bool
  | some r => r.unread
  | none => false

/-- HK_SETTLE_END: the conversion slot begins, unless WAIT_READ holds it back (R112, R113). WAIT_READ cleared during the wait does not end
it: the scan goes on once W0 has been read (DESIGN CHOICE, log entry 114). -/
def Hub.hkSettleEnd (h : Hub) : Hub :=
  match h.hk.conv with
  | .settle i =>
    let h := h.upTo (h.hk.convAt + h.hk.settleUs * usU)
    if h.bit HK_CTL_WAIT_READ && unreadRes h.hk.data then (h.on HK_STAT_WAIT_STALL).setHk { h.hk with conv := .stalled i }
    else h.hkConvert i
  | _ => h

/-- The W0 of HK_DATA has been read: the result is read, and a stalled scan goes on (R113). -/
def Hub.hkTaken (h : Hub) : Hub :=
  let h := h.setHk { h.hk with data := h.hk.data.map fun r => { r with unread := false } }
  match h.hk.conv with
  | .stalled i => h.hkConvert i
  | _ => h

/-- The W0 of an injected slot has been read. -/
def Hub.injTaken (h : Hub) (j : Nat) : Hub :=
  h.setHk { h.hk with injRes := match aFind h.hk.injRes j with
    | some r => aInsert h.hk.injRes j { r with unread := false }
    | none => h.hk.injRes }

/-- Mean die temperature times 8, in 1/128 °C (R122): the sum of the copies of inputs 20 to 27. -/
def Hub.dieSum (h : Hub) : Int := (((List.range 8).map fun j => h.get (TEMPLAST_CODE j)).sum : Int) - 8 * 34963

/-- The entries in use: those of the ranges the committed channels can use. -/
def Hub.usedEntries (h : Hub) : List (Nat × Nat) :=
  (List.range 192).flatMap fun n =>
    if (h.chan n).live then (h.chan n).usable.map fun r => (n, if h.get (CH_CFG_KIND n) = 0 then r else 4 + r) else []

/-- STALE (R123). -/
def Hub.staleNow (h : Hub) : Bool :=
  h.usedEntries.any fun e =>
    decide (8 * (h.get HK_CAL_TEMP_LIMIT : Int) < |h.dieSum - 8 * toSigned 16 (imgVal h.hk.inForce (patEntryAt e.1 e.2 + 8) 2)|)

/-- UNCAL: some usable range has no VALID entry; each is logged (R123). -/
def Hub.uncalCheck (h : Hub) : Hub :=
  let bad := h.usedEntries.filter fun e => !patValid h.hk.inForce e.1 e.2
  let h := h.set HK_CAL_UNCAL (b2n (!bad.isEmpty))
  bad.foldl (fun h e => h.log .patinaMissing e.1 e.2 0) h

/-- A result for inputs 20 to 31 is copied (R114); a die temperature is held against STALE, a cold-junction input is
converted (R123, R163). -/
def Hub.tempCopy (h : Hub) (input code : Nat) : Hub :=
  if 20 ≤ input ∧ input ≤ 31 then
    let h := (h.set (TEMPLAST_CODE (input - 20)) code).setHk
      { h.hk with tempAt := aInsert h.hk.tempAt (input - 20) h.time.now }
    if input < 28 then h.set HK_CAL_STALE (b2n h.staleNow) else h.cjUpdate (input - 28)
  else h

/-- The sequence is over: the state is IDLE, `bit` (DONE or ABORTED) is set, and the hub returns to the armature's mode; the standby
stays in MIRROR (R117, R122). -/
def Hub.calFinish (h : Hub) (bit : Field) : Hub :=
  let h := (((h.off HK_CAL_STATE).off HK_STAT_CAL_OWNS).setHk { h.hk with calEnding := none }).on bit
  let h := if h.hkFree then h.hkServe else h
  if h.mode = mCal then h.enter h.arm.acqMode else h

/-- After a conversion: a sequence whose held requests have all run is over. -/
def Hub.calEndCheck (h : Hub) : Hub :=
  match h.hk.calEnding with
  | some done => if h.hk.delayed.isEmpty then h.calFinish (if done then HK_CAL_DONE else HK_CAL_ABORTED) else h
  | none => h

/-- HK_CONVERSION_DONE (R108, R113, R115): `raw` is the converter's code. SEQ counts the results from 0, that of
the first. The last held conversion of a calibration ends the sequence (R122) (DESIGN CHOICE, log entry 23) (DESIGN CHOICE, log entry 114). -/
def Hub.hkDone (h : Hub) (raw : Nat) : Hub :=
  let hold := h.hk.convAt + 250 * nsU
  let h := match h.hk.conv with
    | .regular _ | .inject _ => h.upTo (h.hk.convAt + usU)
    | _ => h
  match h.hk.conv with
  | .regular i =>
    let code := hkCorrect h.hk.inForce h.free i raw
    let h := if unreadRes h.hk.data then (h.on HK_STAT_OVR).bump HK_LOST HK_STAT_SAT else h
    let h := h.rsChange 0x2020 HK_STAT_OVR
    let h := h.draw.setHk { h.hk with
      data := some { code := code, input := i, seq := h.hk.seq, time := hold }, seq := (h.hk.seq + 1) % 256
      scan := h.hk.scan.tail }
    (h.tempCopy i code).hkServe
  | .inject j =>
    let i := h.get (INJ_INPUT j)
    let code := hkCorrect h.hk.inForce h.free i raw
    let h := if unreadRes (aFind h.hk.injRes j) then h.on (INJ_OVR j) else h
    let h := h.rsChange (0x2110 + 0x20 * j) (INJ_OVR j)
    let q := aGet h.hk.injSeq j 0
    let h := h.draw.setHk { h.hk with
      injRes := aInsert h.hk.injRes j { code := code, input := i, seq := q, time := hold, delayed := h.hk.delayed.contains j }
      injSeq := aInsert h.hk.injSeq j ((q + 1) % 256), delayed := h.hk.delayed.filter (· != j) }
    (h.tempCopy i code).hkServe.calEndCheck
  | _ => h

/-- A request of an enabled slot (R115, R116, R119). -/
def Hub.injRequest (h : Hub) (j : Nat) : Hub :=
  if !h.bit (INJ_ENABLE j) then h
  else if h.bit (INJ_PENDING j) ∨ h.bit (INJ_HELD j) then (h.on (INJ_MISS j)).bump HK_INJ_MISS HK_STAT_SAT
  else if h.get HK_CAL_STATE ≠ 0 ∧ h.hk.calEnding = none then h.on (INJ_HELD j)
  else
    let h := h.on (INJ_PENDING j)
    if h.hkFree then h.hkServe else h

/-- INJ_GO: SRC 0 (R115); the host does not write slot 3. -/
def Hub.injGo (h : Hub) (j : Nat) : Hub :=
  if j = 3 then h.hkRefuse (INJ_WERR 3) else if h.get (INJ_SRC j) = 0 then h.injRequest j else h

/-- The requests of SRC 1 at the end of a pin's glitch filter (R115). -/
def Hub.injPin (h : Hub) (i : Nat) : Hub :=
  h.each (List.range 4) fun h j => if h.get (INJ_SRC j) = 1 ∧ h.get (INJ_TRIG j) = i then h.injRequest j else h

/-- What the instant of an index makes due in the converter: grid scans and the requests of SRC 2 (R112, R115). -/
def Hub.hkGrid (h : Hub) (g n : Nat) : Hub :=
  let h := if h.get HK_CTL_SCAN_MODE = 3 ∧ h.get HK_CTL_GRID = g ∧ h.gridState g = gRunning ∧ n % max 1 (h.get HK_SCAN_PERIOD) = 0 then h.scanGo else h
  h.each (List.range 4) fun h j =>
    if h.get (INJ_SRC j) = 2 ∧ h.get (INJ_GRID j) = g ∧ n % max 1 (h.get (INJ_K j)) = 0 then h.injRequest j else h

/-! ## Calibration (R117 to R123) -/

/-- The range indices a channel is calibrated on (R118). -/
def Hub.calOwn (h : Hub) (n : Nat) : List Nat :=
  if (h.chan n).live && h.hk.calBanks / 2 ^ (n / 16) % 2 == 1 then
    (List.range 10).filter fun i =>
      decide ((i < 4) = (h.get (CH_CFG_KIND n) = 0)) &&
        (if h.hk.calRanges = 0 then (h.chan n).usable.contains (if i < 4 then i else i - 4) else h.hk.calRanges / 2 ^ i % 2 == 1)
  else []

/-- The channels of a step. -/
def Hub.calStep (h : Hub) (i : Nat) : List Nat := (List.range 192).filter fun n => (h.calOwn n).contains i

def calCode (i : Nat) : Nat := if i < 4 then i else i - 4

/-- Return a channel to SENSOR and to the range it had (R122). -/
def Hub.calRestore (h : Hub) (n : Nat) : Hub :=
  let h := h.muxSet n 0
  h.rangeStep n (aGet h.hk.calRange n (h.rangeNow n)) h.time.now

/-- Enter ZERO or REFERENCE for an index (R120): the channels of the step take its range and the multiplexer setting. -/
def Hub.calEnter (h : Hub) (st i : Nat) : Hub :=
  let h := (h.set HK_CAL_STATE st).set HK_CAL_RANGE_IDX i
  let trs := (h.calStep i).map fun n => max (h.transientOf n (calCode i)) (if h.rangeNow n = calCode i then 0 else h.transientOf n (h.rangeNow n))
  let h := h.setHk { h.hk with calAveraging := false, calAt := h.time.now, calTr := trs.foldl max 0 }
  h.each (h.calStep i) fun h n =>
    let h := if aFind h.hk.calRange n = none then
        h.setHk { h.hk with calRange := aInsert h.hk.calRange n (h.rangeNow n) } else h
    (h.rangeStep n (calCode i) h.time.now).muxSet n (st - 3)

/-- The sequence begins (R117, R119): the scan's rest is abandoned and pending injected conversions run first. -/
def Hub.calBegin (h : Hub) (banks : Nat) : Hub :=
  let h := h.setHk { h.hk with
    calBanks := if banks = 0 then 0xFFF else banks, calRanges := h.get HK_CAL_RANGES, calIdx := [], calRange := []
    calZero := [], calStaged := [], calEnding := none }
  let h := h.setHk { h.hk with calIdx := (List.range 10).filter fun i => !(h.calStep i).isEmpty }
  let h := h.set HK_CAL_STATE 1
  if h.hkFree then h.hkServe else h

/-- CAL_START: by the host in STREAM and SEGMENT with no transition in progress; the standby takes the active's start and stays in
MIRROR (R117, R351). -/
def Hub.calStart (h : Hub) : Hub :=
  if h.mode = mMirror ∧ h.get HK_CAL_STATE = 0 then h.calBegin (h.get HK_CAL_BANKS)
  else if (h.mode = mStream ∨ h.mode = mSegment) ∧ !h.bit DEV_MODE_IN_TRANSITION then (h.enter mCal).calBegin (h.get HK_CAL_BANKS)
  else h.hkRefuse HK_CAL_WERR

/-- The state the sequence acts in: none once it ends and only its held requests still run (R122). -/
def Hub.calState (h : Hub) : Nat := if h.hk.calEnding = none then h.get HK_CAL_STATE else 0

/-- CAL_WAIT_CONV_DONE: calibration owns the converter (R119). -/
def Hub.calWaitDone (h : Hub) : Hub :=
  if h.calState = 1 ∧ h.hk.conv = .idle then
    ((h.set HK_CAL_STATE 2).on HK_STAT_CAL_OWNS).setHk { h.hk with conv := .cal, calAt := h.time.now }
  else h

/-- CAL_HK_SELF_DONE: the mean of 256 conversions of input 7, in 2^-8 LSB, is their sum (R120, R125). -/
def Hub.calSelfDone (h : Hub) (sum : Int) : Hub :=
  if h.calState = 2 then
    let h := (h.upTo (h.hk.calAt + 256 * usU)).set HK_CAL_STATE 3
    h.setHk { h.hk with calHkOffset := sum, calAt := h.time.now }
  else h

/-- Go on with the remaining indices, or to APPLY (R120). -/
def Hub.calNext (h : Hub) : Hub :=
  match h.hk.calIdx with
  | [] => h.set HK_CAL_STATE 6
  | i :: _ => h.calEnter 4 i

/-- CAL_REF_CHECK_DONE: the mean of 64 conversions of input 33 against CALSRC (R123); `sum` is the sum of their codes. -/
def Hub.calRefDone (h : Hub) (sum : Nat) : Hub :=
  if h.calState = 3 then
    let h := h.upTo (h.hk.calAt + 64 * usU)
    let src : Int := imgVal h.hk.inForce 0x28 4
    let h := if 200 * src < 1000000 * |4 * (sum : Int) - src| then h.on HK_CAL_REF_DRIFT else h
    h.calNext
  else h

/-- CAL_SETTLE_END: the range transient, the larger of two ranges' where the range changes, plus CAL_SETTLE has passed (R73, R120). -/
def Hub.calSettleEnd (h : Hub) : Hub :=
  if (h.calState = 4 ∨ h.calState = 5) ∧ !h.hk.calAveraging then
    let h := h.upTo (h.hk.calAt + h.hk.calTr + h.get HK_CAL_CAL_SETTLE * usU)
    h.setHk { h.hk with calAveraging := true, calAt := h.time.now }
  else h

/-- The entry of R121 for one channel, rounded to the nearest as the worked example has it: VALID and FIELD within
the limits, else OUT_OF_LIMITS (DESIGN CHOICE, log entry 22). -/
def calEntry (ratio : Nat) (zero ref : ℚ) : Int × Nat × Nat :=
  let g : ℚ := (ratio : ℚ) / 2 ^ 30 * mfsCalRef / (ref - zero)
  (roundEven (zero * 2 ^ 31), (roundEven (g * 2 ^ 30)).toNat, if |zero| ≤ 1 / 50 ∧ 19 / 20 ≤ g ∧ g ≤ 21 / 20 then 3 else 4)

/-- Stage the entry of one channel; a rejected one sets FAIL and is logged (R121). -/
def Hub.calStage (h : Hub) (n i : Nat) (ref : ℚ) : Hub :=
  let ratio := imgVal h.hk.inForce (patRatioAt (n / 16) i) 4
  let (o, g, f) := calEntry ratio (aGet h.hk.calZero n 0) ref
  let h := h.setHk { h.hk with calStaged := ⟨n, i, o, g, f⟩ :: h.hk.calStaged }
  if f = 3 then h else (h.on HK_CAL_FAIL).log .calFail n i 0

/-- The mean a list of channel averages gives a channel. -/
def meanOf (m : List (Nat × ℚ)) (n : Nat) : ℚ := ((m.find? fun e => e.1 == n).map (·.2)).getD 0

/-- CAL_AVERAGE_DONE: `m` holds each channel's average as a fraction of MFS (R120, R121) (DESIGN CHOICE, log entry 23). -/
def Hub.calAverageDone (h : Hub) (m : List (Nat × ℚ)) : Hub :=
  if h.hk.calAveraging then
    let i := h.get HK_CAL_RANGE_IDX
    let h := h.upTo (h.hk.calAt + h.get HK_CAL_AVG_MS * msU)
    if h.get HK_CAL_STATE = 4 then
      (h.setHk { h.hk with calZero := (h.calStep i).map fun n => (n, meanOf m n) }).calEnter 5 i
    else
      let h := h.each (h.calStep i) fun h n => h.calStage n i (meanOf m n)
      let done := h.calStep i
      let h := h.setHk { h.hk with calIdx := h.hk.calIdx.tail, calAveraging := false }
      let next := match h.hk.calIdx with
        | [] => done
        | j :: _ => h.calStep j
      let h := h.each (done.filter fun n => !next.contains n) Hub.calRestore
      h.calNext
  else h

/-- Held requests become pending and carry the delay flag, and the converter is given back; the sequence is over once they have run
(R119, R122). -/
def Hub.calEnd (h : Hub) (done : Bool) : Hub :=
  let held := (List.range 4).filter fun j => h.bit (INJ_HELD j)
  let h := h.each held fun h j => (h.off (INJ_HELD j)).on (INJ_PENDING j)
  let h := h.setHk
    { h.hk with calIdx := [], calRange := [], calZero := [], calStaged := [], calAveraging := false
                delayed := held ++ h.hk.delayed, calEnding := some done, conv := match h.hk.conv with
                  | .cal => .idle
                  | c => c }
  let h := if h.hkFree then h.hkServe else h
  if held.isEmpty then h.calFinish (if done then HK_CAL_DONE else HK_CAL_ABORTED) else h

/-- Every multiplexer returns to SENSOR and every range to the one before calibration (R122). -/
def Hub.calRestoreAll (h : Hub) : Hub := h.each (h.hk.calRange.map (·.1)) Hub.calRestore

/-- Write an entry to the store and its checked image. -/
def Hub.patEnter (h : Hub) (n i : Nat) (offset : Int) (gain : Nat) (temp : Int) : Hub :=
  h.setHk { h.hk with
    patina := patEntryPut h.hk.patina n i offset gain temp, checked := patEntryPut h.hk.checked n i offset gain temp }

/-- CAL_APPLY (R122): the accepted entries and HK_OFFSET enter the store together, in force from the modulator edge at which multiplexers
and ranges return. The active tells the standby each entry (R351). The standby's own entries wait for it to act alone. -/
def Hub.calApply (h : Hub) : Hub :=
  if h.calState = 6 then
    let temp := roundEven ((h.dieSum : ℚ) / 8)
    let acc := h.hk.calStaged.filter (·.flags == 3)
    let force := acc.foldl (fun m e => patEntryPut m e.chan e.idx e.offset e.gain temp) h.hk.inForce
    let h := acc.foldl (fun h e => (h.patEnter e.chan e.idx e.offset e.gain temp).dupEvent .patina (e.chan * 10 + e.idx)
      (ofSigned 32 e.offset + 2 ^ 32 * e.gain)) h
    let put := fun m => patSeal (imgPut m 0x20 (leBytes 4 (ofSigned 32 h.hk.calHkOffset)))
    let h := (h.setHk { h.hk with patina := put h.hk.patina, checked := put h.hk.checked }).patForce (put force) (h.edgeAfter h.time.now)
    h.calRestoreAll.uncalCheck.calEnd true
  else h

/-- CAL_ABORT: outside APPLY the sequence ends with nothing stored (R120, R123). -/
def Hub.calAbort (h : Hub) : Hub :=
  if h.calState = 0 ∨ h.calState = 6 then h else h.calRestoreAll.calEnd false

/-- The sequence ends at once: a commit, a withdrawal or a takeover ends the mode it runs in; APPLY, which no abort stops, is completed
(R4, R117, R120) (DEDUCED, log entry 115). -/
def Hub.calDrop (h : Hub) : Hub :=
  let h := h.calApply.calAbort
  if h.get HK_CAL_STATE = 0 then h else h.calFinish (if h.hk.calEnding = some false then HK_CAL_ABORTED else HK_CAL_DONE)

/-! ## Modulators (R107) -/

/-- The modulator PLL runs locked: it has not failed, nor lost lock since it locked. -/
def Hub.modLocked (h : Hub) : Bool := h.pwr.modRunning && !h.pwr.modFailed && !h.pwr.modUnlocked

/-- The time without modulator samples begins. -/
def Hub.modLost (h : Hub) : Hub :=
  h.each (chanList.filter fun n => (h.chan n).live && !(h.chan n).spans.any fun s => s.flag == .pll && s.hi.isNone)
    fun h n => h.markFrom n .pll h.time.now

/-- MODULATOR_VALID: 100 µs after a bank's analogue clock starts; its PLL is locked by then (R107) (DEDUCED, log entry 50). -/
def Hub.modulatorValid (h : Hub) (b : Nat) : Hub :=
  if h.get CLK_BANK_ON / 2 ^ b % 2 == 1 && !h.pwr.modValid.contains b then
    let h := h.upTo (aGet h.pwr.bankAt b 0 + 100 * usU)
    (h.setPwr { h.pwr with modValid := b :: h.pwr.modValid }).set CLK_MOD_LOCK (b2n h.modLocked)
  else h

end Sys2Proof.Machine
end

