-- ==== Sys2Proof/Machine/Memory.lean ====
section
/-! DEFINITION. Buffer memory as queues use it: partitions, credits, packets, sacrificial discard and gap records
(chapter 10, R250 to R268), and the push and pop ports. Pages are accounted in words: a queue's packets lie end to end
at rising word offsets of its chain (R254). -/

namespace Sys2Proof.Machine

/-! ## Words and bytes -/

/-- Little-endian bytes as 32-bit words; a short tail is padded with zero bytes. -/
def wordsOf (n : Nat) (b : List (BitVec 8)) : List Nat := (List.range n).map fun i => ofLe ((b.drop (4 * i)).take 4)

/-- Words as little-endian bytes. -/
def bytesOf (w : List Nat) : List (BitVec 8) := w.flatMap (leBytes 4)

/-- Stored size of a packet of `b` bytes, in words (R254). -/
def need (b : Nat) : Nat := 2 + 2 * ((b + 7) / 8)

def pageWords : Nat := 1024

/-- Serial-number order of 32-bit numbers. -/
def serialLe (a b : Nat) : Bool := decide ((b + 2 ^ 32 - a) % 2 ^ 32 < 2 ^ 31)

/-- This hub's route address. -/
def Hub.route (h : Hub) : Nat := h.lk.held

/-- The 64 bytes of a gap record (R328). -/
def gapBytes (g : GapInfo) : List (BitVec 8) :=
  leBytes 1 0x20 ++ leBytes 1 (b2n g.openRec + 2 * b2n g.close + 4 * b2n g.ended) ++ leBytes 1 (b2n g.relief)
    ++ leBytes 1 g.reason ++ leBytes 1 g.grid ++ leBytes 1 1 ++ leBytes 2 g.stream ++ leBytes 6 g.origin ++ leBytes 2 0
    ++ leBytes 8 g.first ++ leBytes 8 g.last ++ leBytes 6 g.issuer ++ leBytes 2 0 ++ wireStamp g.time
    ++ (if g.ended then wireStamp g.endTime else leBytes 12 0)

/-- Set POISON in the first word of a header that has the flag: bit 2 of FLAGS of an acquisition packet, bit 7 of a
relief frame (R179, R219). -/
def poisonWord (w : Nat) : Nat :=
  let ty := w % 256
  let b := if 1 ≤ ty ∧ ty ≤ 3 then 2 ^ 10 else if ty = 0x10 ∨ ty = 0x11 then 2 ^ 15 else 0
  if b ≠ 0 ∧ w / b % 2 = 0 then w + b else w

/-- The words a packet delivers, with POISON set in a header that has the flag (R265, R179, R219). -/
def Pkt.out (p : Pkt) : List Nat :=
  match p.gap with
  | some g => wordsOf 16 (gapBytes g)
  | none =>
    match p.words with
    | [] => []
    | w :: t => (if p.poison then poisonWord w else w) :: t

/-- Gap records of this hub are no candidates and no flush or drain discards them (R21). -/
def Pkt.isGap (p : Pkt) : Bool := p.gap.isSome || p.relayedGap

/-! ## Queues -/

def Hub.q (h : Hub) (q : Nat) : QSt := aGet h.mm.queues q {}
def Hub.setQ (h : Hub) (q : Nat) (x : QSt) : Hub := h.setMm { h.mm with queues := aInsert h.mm.queues q x }
def Hub.part (h : Hub) (p : Nat) : Option Part := aFind h.mm.parts p

def qOff : Nat := 0
def qActive : Nat := 1
def qFlushing : Nat := 2
def qDraining : Nat := 3
def Hub.qState (h : Hub) (q : Nat) : Nat := h.get (Q_STATE q)

/-- A producer's bit is in the queue's mask. -/
def Hub.qMask (h : Hub) (q prod : Nat) : Bool := h.get (Q_PRODUCERS q) / 2 ^ prod % 2 == 1

/-- The pages a stretch of words lies on. -/
def pagesOf (off n : Nat) : List Nat := (List.range ((off + n - 1) / pageWords - off / pageWords + 1)).map (· + off / pageWords)

/-- Pages that hold bytes of packets. -/
def QSt.pktPages (x : QSt) : Nat :=
  ((x.pkts.filter fun p => p.gap.isNone).flatMap fun p => pagesOf p.off (need p.len)).dedup.length

/-- Pages backing a producer's grant, without what its outstanding top-up has still to take (R258). -/
def Cred.pages (c : Cred) (n : Nat) : Nat := (n * need c.m - c.owedW + pageWords - 1) / pageWords

/-- Pages the queue holds: packets, reservations of its producers, the open software packet and the compression engine's output (R240, R258)
 (DEDUCED, log entry 122). -/
def Hub.qPages (h : Hub) (q : Nat) : Nat :=
  let x := h.q q
  x.pktPages + ((x.creds.map fun e => e.2.pages (h.get (Q_CREDIT_PKTS q))).sum)
    + (match x.push with
      | some (n, _) => (need (4 * n) + pageWords - 1) / pageWords
      | none => 0)
    + (if h.cmp.out.1 = q then h.cmp.out.2 else 0)

/-- The queues of a partition that exist. -/
def Hub.qsOf (h : Hub) (p : Nat) : List Nat :=
  (h.mm.queues.map (·.1)).filter fun q => h.qState q != qOff && h.get (Q_PARTITION q) == p

/-- Slots that gap records of a partition hold (R267). -/
def Hub.slotsOf (h : Hub) (p : Nat) : List Nat :=
  (h.qsOf p).flatMap fun q => (h.q q).pkts.filterMap fun k => k.gap.map (·.slot)

/-- Spill pages in use. -/
def Hub.spillPages (h : Hub) (p : Nat) (r : Nat) : List Nat := (((h.slotsOf p).filter fun s => decide (32 * r ≤ s)).map (· / 32)).dedup

/-- Pool pages of a partition that nothing holds. -/
def Hub.poolFree (h : Hub) (p : Nat) : Nat :=
  match h.part p with
  | none => 0
  | some x => x.count - x.reserve - x.fixed - ((h.qsOf p).map h.qPages).sum - (h.spillPages p x.reserve).length

/-- FULL: the queue cannot reserve 4,112 words (R260). -/
def Hub.qFull (h : Hub) (q : Nat) : Bool :=
  let k := (4112 + pageWords - 1) / pageWords
  decide (h.poolFree (h.get (Q_PARTITION q)) < k)
    || (h.get (Q_MAX_PAGES q) != 0 && decide (h.get (Q_MAX_PAGES q) < h.qPages q + k))

/-- PRESSED of the PRESSURE streams of a partition (R231): on below ON_PCT of it free, off above OFF_PCT. -/
def Hub.press (h : Hub) (p : Nat) : Hub :=
  let n := (h.part p).elim 0 (·.count)
  let f := 100 * h.poolFree p
  let ss := (h.acq.streams.filter fun e => e.2.any fun r => r.cmp == 2 && h.get (Q_PARTITION r.queue) == p).map (·.1)
  let on := decide (f < h.get CMP_ON_PCT * n)
  let off := decide (h.get CMP_OFF_PCT * n < f)
  if on then h.setAcq { h.acq with pressed := (ss.filter fun s => !h.acq.pressed.contains s) ++ h.acq.pressed }
  else if off then h.setAcq { h.acq with pressed := h.acq.pressed.filter fun s => !ss.contains s }
  else h

/-! ## Errors (R249) -/

/-- A word with an uncorrectable error has been read. -/
def Hub.ueAt (h : Hub) (a : Nat) : Hub :=
  (((h.bump MEM_UE_COUNT MEM_SAT).set MEM_UE_ADDR a).on MEM_UE).logFirst .memUe 0 (a / 4096) a 0

/-! ## Discard and gap records (R266, R267) -/

/-- A packet that a discard may take: COMMITTED, not in the middle of being popped or moved (DEDUCED, log entry 34). -/
def Pkt.candidate (p : Pkt) : Bool := !p.sent && !p.isGap && p.popped == 0 && !p.moving

/-- The oldest candidate of a queue whose mask holds no HOST bit. -/
def Hub.candidate (h : Hub) (q : Nat) : Option Pkt :=
  if h.qMask q prodHost then none else (h.q q).pkts.find? Pkt.candidate

/-- Two ranges are adjacent or overlap. -/
def touches (f l f' l' : Nat) : Bool := decide (f ≤ l' + 1) && decide (f' ≤ l + 1)

/-- A record that may still merge with another of the same stream and reason (R21). -/
def mergeable (g g' : GapInfo) : Bool :=
  g.relief == g'.relief && g.origin == g'.origin && g.stream == g'.stream && g.reason == g'.reason && g.issuer == g'.issuer
    && !g.openRec && !g.close && !g'.openRec && !g'.close && touches g.first g.last g'.first g'.last

/-- The least slot free in the reserve or on a spill page in use. -/
def Hub.freeSlot (h : Hub) (p : Nat) (r : Nat) : Option Nat :=
  let used := h.slotsOf p
  let cand := (List.range (32 * r)) ++ (h.spillPages p r).flatMap fun k => (List.range 32).map (· + 32 * k)
  cand.find? fun s => !used.contains s

/-- Commit a gap record in a slot: it takes the queue's next QSEQ and counts (R254, R267). -/
def Hub.gapCommit (h : Hub) (q : Nat) (g : GapInfo) : Hub :=
  let x := h.q q
  let p : Pkt := { qseq := x.nextSeq, len := 64, gap := some g, relief := g.relief, origin := g.origin, stream := g.stream }
  (h.setQ q { x with pkts := x.pkts ++ [p], nextSeq := (x.nextSeq + 1) % 2 ^ 32 }).bump MEM_GAPS MEM_SAT

/-- A committed record that has not been sent to the next hop and takes a range (R21). -/
def Pkt.takesGap (p : Pkt) (g : GapInfo) : Bool :=
  match p.gap with
  | some g' => !p.sent && !p.again && p.popped == 0 && mergeable g g'
  | none => false

/-- Merge a range into the unsent records of its queue; none where no record takes it (R21). The oldest committed record that it
touches, or else the newest waiting one, takes all the others. -/
def Hub.gapMerge (h : Hub) (q : Nat) (g : GapInfo) : Option Hub :=
  let x := h.q q
  let ws := x.waiting.filter (mergeable g)
  let hits := (x.pkts.filter (·.takesGap g)).filterMap (·.gap) ++ ws
  let wide := fun (w : GapInfo) =>
    { w with first := hits.foldl (fun a e => min a e.first) g.first, last := hits.foldl (fun a e => max a e.last) g.last }
  let rest := x.waiting.filter fun w => !mergeable g w
  match x.pkts.find? (·.takesGap g), ws with
  | none, [] => none
  | none, w :: _ => some (h.setQ q { x with waiting := wide w :: rest })
  | some p0, _ => some (h.setQ q { x with
      pkts := (x.pkts.filter fun p => !p.takesGap g || p.qseq == p0.qseq).map fun p =>
        if p.qseq = p0.qseq then { p with gap := p.gap.map wide } else p
      waiting := rest })

/-- Take a spill page for a record: RESERVE_SPILL and GAP_SPILL (R267). -/
def Hub.gapSpill (h : Hub) (q : Nat) (g : GapInfo) (r : Nat) : Hub :=
  let p := h.get (Q_PARTITION q)
  let k := ((List.range ((h.slotsOf p).length + 1)).map (· + r)).find? (fun k => !(h.spillPages p r).contains k)
  (((h.gapCommit q { g with slot := 32 * k.getD r }).on MEM_RESERVE_SPILL).log .gapSpill p q 0).press p

/-- Issue a record without taking pages from others: merged, in a free slot, on a new spill page of a pool that has
one, or waiting (R267). -/
def Hub.gapPlace (h : Hub) (q : Nat) (g : GapInfo) : Hub :=
  match h.gapMerge q g with
  | some h' => h'
  | none =>
    let p := h.get (Q_PARTITION q)
    let r := (h.part p).elim 0 (·.reserve)
    match h.freeSlot p r with
    | some s => h.gapCommit q { g with slot := s }
    | none =>
      if 0 < h.poolFree p then h.gapSpill q g r
      else h.setQ q { h.q q with waiting := g :: (h.q q).waiting }

/-- The record of a packet (R267). -/
def Hub.gapOf (h : Hub) (p : Pkt) (reason : Nat) : GapInfo :=
  { relief := p.relief, origin := p.origin, stream := p.stream, grid := p.grid, reason := reason, first := p.first
    last := p.first + p.count - 1, issuer := h.route, time := h.time.now }

/-- One data virtual channel of a link. -/
def LinkSt.vc (l : LinkSt) (v : Nat) : VcSt := aGet l.vcs v {}
def Hub.vc (h : Hub) (k v : Nat) : VcSt := (h.link k).vc v
def Hub.setVc (h : Hub) (k v : Nat) (c : VcSt) : Hub := h.modLink k fun l => { l with vcs := aInsert l.vcs v c }

/-- A change of custody is due to be sent. -/
def Hub.custodyDue (h : Hub) (k : Nat) : Hub :=
  h.modLink k fun l => { l with dueCustody := true, changedAt := h.time.now }

/-- A CSEQ is settled: CACK advances in CSEQ order only (R326). -/
def advanceCack : Nat → Nat → List Nat → Nat × List Nat
  | 0, c, l => (c, l)
  | n + 1, c, l => if l.contains c then advanceCack n ((c + 1) % 2 ^ 32) (l.filter (· != c)) else (c, l)

def Hub.settle (h : Hub) (k v cseq : Nat) : Hub :=
  let c := h.vc k v
  let l := cseq :: c.settled
  let r := advanceCack l.length c.cack l
  (h.setVc k v { c with cack := r.1, settled := r.2 }).custodyDue k

/-- Take a packet off its queue and cover its indices; a contribution that waits for the combiner is settled with it. -/
def Hub.dropPkt (h : Hub) (q : Nat) (p : Pkt) (reason : Nat) : Hub :=
  let x := h.q q
  let h := (h.setQ q { x with pkts := x.pkts.filter fun k => k.qseq != p.qseq }).bump (Q_DISCARDS q) (Q_SAT q)
  let h := match p.rx with
    | some r => h.settle r.1 r.2.1 r.2.2
    | none => h
  if p.indexed ∧ 0 < p.count then h.gapPlace q (h.gapOf p reason) else h

/-- SACRIFICIAL_DISCARD of one packet (R266). -/
def Hub.sacrifice (h : Hub) (q : Nat) (p : Pkt) : Hub :=
  let h := (h.dropPkt q p 1).bump MEM_DISCARDS MEM_SAT
  h.logFirst .memDiscard 0 q (h.get (Q_PARTITION q)) 0

/-- A better victim: the lowest SAC_RANK, on a tie the highest queue number. -/
def Hub.victimLt (h : Hub) (a b : Nat) : Bool :=
  decide (h.get (Q_SAC_RANK a) < h.get (Q_SAC_RANK b)) || (h.get (Q_SAC_RANK a) == h.get (Q_SAC_RANK b) && decide (b < a))

def Hub.bestOf (h : Hub) : List Nat → Option Nat
  | [] => none
  | a :: t => match h.bestOf t with
    | none => some a
    | some b => some (if h.victimLt a b then a else b)

/-- The queue that gives a packet when a partition's pool is empty: sheddable queues first (R266). -/
def Hub.victim (h : Hub) (p : Nat) : Option Nat :=
  let s := (h.qsOf p).filter fun q => (h.candidate q).isSome
  match h.bestOf (s.filter fun q => h.get (Q_UNSHEDDABLE q) == 0) with
  | some q => some q
  | none => h.bestOf s

/-- Packets held in a partition: the most discards that can happen. -/
def Hub.pktCount (h : Hub) (p : Nat) : Nat := ((h.qsOf p).map fun q => (h.q q).pkts.length).sum

/-- Discard in sacrificial order until the pool has `k` free pages or no candidate is left (R266). -/
def Hub.makeRoom : Nat → Nat → Nat → Hub → Hub
  | 0, _, _, h => h
  | fuel + 1, p, k, h =>
    if k ≤ h.poolFree p then h
    else match h.victim p with
      | none => h
      | some q => match h.candidate q with
        | none => h
        | some x => Hub.makeRoom fuel p k (h.sacrifice q x)

/-- Discard a queue's own oldest candidates until it has room for `k` pages under MAX_PAGES (R266). -/
def Hub.makeOwnRoom : Nat → Nat → Nat → Hub → Hub
  | 0, _, _, h => h
  | fuel + 1, q, k, h =>
    if h.get (Q_MAX_PAGES q) = 0 ∨ h.qPages q + k ≤ h.get (Q_MAX_PAGES q) then h
    else match h.candidate q with
      | none => h
      | some x => Hub.makeOwnRoom fuel q k (h.sacrifice q x)

/-- GAP_RECORD_ISSUE: a record that finds no slot takes a pool page under R266 (R267). -/
def Hub.gapIssue (h : Hub) (q : Nat) (g : GapInfo) : Hub :=
  let p := h.get (Q_PARTITION q)
  let r := (h.part p).elim 0 (·.reserve)
  let h := if (h.gapMerge q g).isNone && (h.freeSlot p r).isNone then Hub.makeRoom (h.pktCount p) p 1 h else h
  h.gapPlace q g

/-- GAP_RECORD_SLOT_OBTAINED: a waiting record of the queue is issued once a page can be had (R267). -/
def Hub.gapObtained (h : Hub) (q : Nat) : Hub :=
  match (h.q q).waiting.getLast? with
  | none => h
  | some g =>
    let h := h.setQ q { h.q q with waiting := (h.q q).waiting.dropLast }
    h.gapIssue q g

/-! ## Credits (R258) -/

def Hub.cred (h : Hub) (q prod : Nat) : Option Cred := aFind (h.q q).creds prod
def Hub.setCred (h : Hub) (q prod : Nat) (c : Cred) : Hub := h.setQ q { h.q q with creds := aInsert (h.q q).creds prod c }

/-- Pages that an owed top-up still has to take. -/
def Hub.owedPages (h : Hub) (q : Nat) (c : Cred) : Nat :=
  ({ c with owedW := 0 } : Cred).pages (h.get (Q_CREDIT_PKTS q)) - c.pages (h.get (Q_CREDIT_PKTS q))

/-- TOP_UP: the producer's grant is filled again, discarding where there is no room (R258, R266). -/
def Hub.topUp (h : Hub) (q prod : Nat) : Hub :=
  match h.cred q prod with
  | none => h
  | some c =>
    if c.owedP = 0 then h
    else
      let k := h.owedPages q c
      let p := h.get (Q_PARTITION q)
      let h := h.on MEM_DISCARDING
      let h := Hub.makeOwnRoom (h.pktCount p) q k h
      let own := h.get (Q_MAX_PAGES q) = 0 ∨ h.qPages q + k ≤ h.get (Q_MAX_PAGES q)
      let h := if own then Hub.makeRoom (h.pktCount p) p k h else h
      let h := h.off MEM_DISCARDING
      if own ∧ k ≤ h.poolFree p then
        (h.setCred q prod { c with cp := c.cp + c.owedP, cw := c.cw + c.owedW, owedP := 0, owedW := 0 }).press p
      else h.press p

/-- The account has a reservation for a packet of `n` words (R258). -/
def Cred.has (c : Cred) (n : Nat) : Bool := decide (1 ≤ c.cp) && decide (n ≤ c.cw)

/-- Take a reservation. -/
def Cred.take (c : Cred) (n : Nat) : Cred := { c with cp := c.cp - 1, cw := c.cw - n, pp := c.pp + 1, wp := c.wp + n }

/-- The producer holds a reservation for a packet of `b` bytes. -/
def Hub.prodCan (h : Hub) (q prod b : Nat) : Bool :=
  match h.cred q prod with
  | none => false
  | some c => c.has (need b)

/-- Start a packet of at most `b` bytes (R258); a producer without a reservation waits for one (R259). -/
def Hub.prodStart (h : Hub) (q prod tag b : Nat) (id : Pkt) : Hub :=
  match h.cred q prod with
  | none => h
  | some c =>
    let n := need b
    let waits := (h.q q).prods.any fun p => p.prod == prod && !p.granted
    let ok := c.has n && !waits
    let h := if ok then h.setCred q prod (c.take n) else h
    h.setQ q { h.q q with prods := (h.q q).prods ++
      [{ prod := prod, tag := tag, need := n, granted := ok, since := h.time.now, pkt := id }] }

def Hub.prodOf (h : Hub) (q prod tag : Nat) : Option Prod := (h.q q).prods.find? fun p => p.prod == prod && p.tag == tag

/-- A packet PRODUCING covers no index at or above a stop index that becomes known (R17, R25). -/
def Hub.prodCap (h : Hub) (q prod tag s : Nat) : Hub :=
  let x := h.q q
  h.setQ q { x with prods := x.prods.map fun p =>
    if p.prod = prod ∧ p.tag = tag then { p with pkt := { p.pkt with count := min p.pkt.count (s - p.pkt.first) } } else p }

/-- Take one packet off the list of those PRODUCING. -/
def Hub.prodEnd (h : Hub) (q prod tag : Nat) : Hub :=
  let x := h.q q
  h.setQ q { x with prods := x.prods.eraseP fun p => p.prod == prod && p.tag == tag }

/-- A protocol error of a producer (R258). -/
def Hub.creditErr (h : Hub) (q prod : Nat) : Hub := h.log .creditErr 0 q prod

/-- Settle contributions (R326). -/
def Hub.settleAll (h : Hub) (l : List (Nat × Nat × Nat)) : Hub := l.foldl (fun h e => h.settle e.1 e.2.1 e.2.2) h

/-- Store a packet at the end of its queue: it takes the next QSEQ and is COMMITTED (R255), and what it includes is settled (R326). -/
def Hub.qAppend (h : Hub) (q : Nat) (p : Pkt) : Hub :=
  let x := h.q q
  (h.setQ q { x with
    pkts := x.pkts ++ [{ p with qseq := x.nextSeq, off := x.tail, owes := [] }], nextSeq := (x.nextSeq + 1) % 2 ^ 32
    tail := x.tail + need p.len }).settleAll p.owes

/-- Settle the account of a packet that commits, and store it (R258). -/
def Hub.prodStore (h : Hub) (q prod tag : Nat) (p : Pkt) : Hub :=
  match h.prodOf q prod tag, h.cred q prod with
  | some r, some c =>
    let a := need p.len
    let d := { c with pp := c.pp - 1, wp := c.wp - r.need, cw := c.cw + r.need - a }
    let h := (h.prodEnd q prod tag).setCred q prod
      (if c.overP = 0 ∧ c.overW = 0 then { d with owedP := c.owedP + 1, owedW := c.owedW + a }
       else { d with overP := c.overP - 1, overW := c.overW - a, owedP := c.owedP + (1 - c.overP), owedW := c.owedW + (a - c.overW) })
    (h.qAppend q { p with fresh := h.bit (Q_FLUSH_BUSY q) && !r.old }).topUp q prod
  | _, _ => h.creditErr q prod

/-- Give reservations to the packets that wait for one, in order; one whose last word is already there commits (R259). -/
def Hub.prodGrant : Nat → Nat → Nat → Hub → Hub
  | 0, _, _, h => h
  | fuel + 1, q, prod, h =>
    match (h.q q).prods.find? (fun p => p.prod == prod && !p.granted), h.cred q prod with
    | some r, some c =>
      if c.has r.need then
        let x := h.q q
        let h := (h.setQ q { x with prods := x.prods.map fun p =>
          if p.prod = prod ∧ p.tag = r.tag then { p with granted := true } else p }).setCred q prod (c.take r.need)
        Hub.prodGrant fuel q prod (if r.done then h.prodStore q prod r.tag r.pkt else h)
      else h
    | _, _ => h

/-- Grant what waits on a queue. -/
def Hub.grantAll (h : Hub) (q prod : Nat) : Hub := Hub.prodGrant (h.q q).prods.length q prod h

/-- PACKET_COMMIT of a credited producer: a packet that still waits for its reservation commits when it gets one. -/
def Hub.prodCommit (h : Hub) (q prod tag : Nat) (p : Pkt) : Hub :=
  match h.prodOf q prod tag with
  | some r =>
    if r.granted then (h.prodStore q prod tag p).grantAll q prod
    else
      let x := h.q q
      h.setQ q { x with prods := x.prods.map fun e =>
        if e.prod = prod ∧ e.tag = tag then { e with done := true, pkt := p } else e }
  | none => h.creditErr q prod

/-- Pages have come free in a partition: outstanding top-ups are met where they can be, and waiting packets granted. -/
def Hub.refill (h : Hub) (p : Nat) : Hub :=
  (h.each (h.qsOf p) fun h q => h.each ((h.q q).creds.map (·.1)) fun h prod => (h.topUp q prod).grantAll q prod).press p

/-- STARVED: the oldest waiting packet of a queue's ACQ or RELIEF producer is abandoned after 50 µs, covered by a gap
record (R259). -/
def Hub.starve (h : Hub) (q : Nat) : Hub × Option Prod :=
  match (h.q q).prods.find? fun p => !p.granted && decide (p.prod ≤ prodRelief) with
  | none => (h, none)
  | some r =>
    let h := (((h.upTo (r.since + 50 * usU)).prodEnd q r.prod r.tag).on MEM_STARVED).settleAll r.pkt.owes
    (if 0 < r.pkt.count then h.gapIssue q (h.gapOf r.pkt 1) else h, some r)

/-- A packet that fails its check is rewound (R258, R261). -/
def Hub.prodRewind (h : Hub) (q prod tag : Nat) : Hub :=
  match h.prodOf q prod tag, h.cred q prod with
  | some r, some c =>
    let h := h.prodEnd q prod tag
    let h := if r.granted then
        h.setCred q prod { c with pp := c.pp - 1, wp := c.wp - r.need, cp := c.cp + 1, cw := c.cw + r.need } else h
    (h.bump (Q_REWINDS q) (Q_SAT q)).grantAll q prod
  | _, _ => h.creditErr q prod

/-! ## The end of a queue (R251, R257, R268) -/

/-- A queue goes OFF: its configuration reads 0. -/
def Hub.qClear (h : Hub) (q : Nat) : Hub :=
  let h := (((h.off (Q_PRODUCERS q)).off (Q_CONSUMER q)).off (Q_LINK q)).off (Q_PARTITION q)
  let h := (((h.off (Q_UNSHEDDABLE q)).off (Q_SAC_RANK q)).off (Q_MAX_PAGES q)).off (Q_CREDIT_PKTS q)
  (((h.off (Q_STATE q)).off (Q_FLUSH_BUSY q)).off (Q_ACKED_QSEQ q)).setMm { h.mm with queues := aErase h.mm.queues q }

/-- A remnant, or a queue whose drain has ended, goes OFF once it holds nothing. -/
def Hub.qSettle (h : Hub) (q : Nat) : Hub :=
  let x := h.q q
  if (x.remnant || x.ending) && x.pkts.isEmpty && x.waiting.isEmpty then h.qClear q else h

/-- Packets are freed: pages return to the pool (R19, R258). -/
def Hub.freePkts (h : Hub) (q : Nat) (gone : Pkt → Bool) : Hub :=
  let x := h.q q
  let p := h.get (Q_PARTITION q)
  let last := ((x.pkts.filter gone).getLast?).map (·.qseq)
  let h := h.setQ q { x with pkts := x.pkts.filter fun k => !gone k }
  let h := match last with
    | some s => h.set (Q_ACKED_QSEQ q) s
    | none => h
  (h.refill p).qSettle q

/-! ## Software producers (R260, R261) -/

/-- PUSH_LEN (R260). -/
def Hub.pushLen (h : Hub) (q n : Nat) : Hub :=
  if !h.qMask q prodHost then h.on (Q_WERR q)
  else if h.qFull q then h.on (Q_OVR q)
  else if n = 0 ∨ 4110 < n then h.on (Q_WERR q)
  else
    let x := h.q q
    let h := if x.push.isSome then h.bump (Q_REWINDS q) (Q_SAT q) else h
    (h.setQ q { x with push := some (n, []), prods := (x.prods.filter fun p => p.prod != prodHost) ++
      [{ prod := prodHost, tag := 0, need := need (4 * n) }] }).press (h.get (Q_PARTITION q))

/-- PUSH (R260): the packet commits at its last word. -/
def Hub.push (h : Hub) (q v : Nat) : Hub :=
  if !h.qMask q prodHost then h.on (Q_WERR q)
  else match (h.q q).push with
    | none => if h.qFull q then h.on (Q_OVR q) else h.on (Q_WERR q)
    | some (n, ws) =>
      if ws.length + 1 < n then h.setQ q { h.q q with push := some (n, v :: ws) }
      else
        let old := (h.prodOf q prodHost 0).elim false (·.old)
        let h := (h.setQ q { h.q q with push := none }).prodEnd q prodHost 0
        (h.qAppend q { words := (v :: ws).reverse, len := 4 * n, fresh := h.bit (Q_FLUSH_BUSY q) && !old }).press (h.get (Q_PARTITION q))

/-! ## The pop port and acknowledgement (R263, R264) -/

/-- The packet a consumer takes next: the one it is in the middle of, else a gap record, else the oldest COMMITTED
packet (R256). -/
def QSt.front (x : QSt) : Option Pkt :=
  match x.pkts.find? fun p => !p.sent && decide (0 < p.popped) with
  | some p => some p
  | none =>
    match x.pkts.find? fun p => !p.sent && p.gap.isSome with
    | some p => some p
    | none => x.pkts.find? fun p => !p.sent

/-- Change one packet of a queue. -/
def Hub.modPkt (h : Hub) (q qseq : Nat) (f : Pkt → Pkt) : Hub :=
  let x := h.q q
  h.setQ q { x with pkts := x.pkts.map fun p => if p.qseq = qseq then f p else p }

/-- A packet is read for its consumer: an uncorrectable error that has come to lie in it is found, and it goes on with POISON (R249, R265)
 (DESIGN CHOICE, log entry 121). -/
def Hub.readPkt (h : Hub) (q : Nat) (p : Pkt) : Pkt × Hub :=
  if p.poison ∨ p.isGap then (p, h)
  else match Config.storedUe q p.qseq with
    | none => (p, h)
    | some a => ({ p with poison := true }, (h.ueAt a.toNat).modPkt q p.qseq fun k => { k with poison := true })

/-- POP_LO_READ: the next word, and the POP_HI word its snapshot holds (R263). -/
def Hub.popRead (h : Hub) (path q : Nat) : Nat × Hub :=
  let snap := fun (h : Hub) (hi : Nat) => { h with snaps := aInsert h.snaps (snapKey path (0x40018 + 0x40 * q)) ⟨[hi], [0]⟩ }
  let none' := (h.q q).nextSeq % 2 ^ 16
  if h.get (Q_CONSUMER q) = 0 then (0, snap (h.on (Q_WERR q)) none')
  else match (h.q q).front with
    | none => (0, snap h none')
    | some p0 =>
      let (p, h) := if p0.popped = 0 then h.readPkt q p0 else (p0, h)
      let ws := p.out
      let i := p.popped
      let left := ws.length - i - 1
      let tag := if left = 0 then 3 else if i = 0 then 1 else 2
      let h := h.modPkt q p.qseq fun k => if left = 0 then { k with sent := true, popped := 0 } else { k with popped := i + 1 }
      let h := h.setQ q { h.q q with popLen := ws.length, popPoison := p.poison }
      let h := if p.poison then h.on (Q_POISON q) else h
      (ws.getD i 0, snap h (tag * 2 ^ 30 + left % 2 ^ 14 * 2 ^ 16 + p.qseq % 2 ^ 16))

/-- POP_LO_READ by a path: the word goes to the reader. -/
def Hub.popLo (h : Hub) (path q : Nat) : Hub :=
  if h.served 0x40000 then { (h.popRead path q).2 with rd := aInsert (h.popRead path q).2.rd path (h.popRead path q).1 } else h

/-- ACK: the named SENT packet and every earlier one are freed (R264) (DEDUCED, log entry 80). -/
def Hub.ackWrite (h : Hub) (q v : Nat) : Hub :=
  let x := h.q q
  if h.get (Q_CONSUMER q) = 0 then h.on (Q_WERR q)
  else if x.pkts.any fun p => p.sent && p.qseq == v then h.freePkts q fun p => p.sent && serialLe p.qseq v
  else if serialLe v (h.get (Q_ACKED_QSEQ q)) ∧ !(x.pkts.any fun p => p.qseq == v) ∧ x.nextSeq ≠ 0 then h
  else h.on (Q_WERR q)

/-- REPLAY: every SENT packet returns to COMMITTED; a partly popped one starts again (R264) (DEDUCED, log entry 80). -/
def Hub.replay (h : Hub) (q : Nat) : Hub :=
  if h.get (Q_CONSUMER q) = 0 then h.on (Q_WERR q)
  else
    let x := h.q q
    h.setQ q { x with pkts := x.pkts.map fun p =>
      { p with sent := false, popped := 0, again := p.again || p.sent || decide (0 < p.popped) } }

/-! ## Flush (R262) -/

/-- FLUSH: the packets in progress are marked, and the queue waits for them. -/
def Hub.flush (h : Hub) (q : Nat) : Hub :=
  if h.qState q = qOff ∨ h.bit (Q_FLUSH_BUSY q) then h.on (Q_WERR q)
  else
    let x := h.q q
    let h := h.setQ q { x with
      prods := x.prods.map fun p => { p with old := true }, pkts := x.pkts.map fun p => { p with fresh := false } }
    let h := h.on (Q_FLUSH_BUSY q)
    if h.qState q = qActive then h.set (Q_STATE q) qFlushing else h

/-- FLUSH_COMPLETE: every packet in progress at the flush has ended; the COMMITTED ones are discarded with gap records (DEDUCED, log entry 34). -/
def Hub.flushComplete (h : Hub) (q : Nat) : Hub :=
  let x := h.q q
  if h.bit (Q_FLUSH_BUSY q) && !x.prods.any (·.old) then
    let l := x.pkts.filter fun p => !p.sent && !p.isGap && !p.fresh && p.popped == 0 && !p.moving
    let h := l.foldl (fun h p => h.dropPkt q p 1) h
    let h := ((h.off (Q_FLUSH_BUSY q)).on (Q_FLUSHED q)).log .qFlush q l.length 0
    let h := if h.qState q = qFlushing then h.set (Q_STATE q) qActive else h
    h.refill (h.get (Q_PARTITION q))
  else h

/-! ## Packets of streams that end or fail -/

/-- Every SENT packet of a queue returns to COMMITTED: its link is lost (R256). -/
def Hub.qUnsend (h : Hub) (q : Nat) : Hub :=
  let x := h.q q
  h.setQ q { x with pkts := x.pkts.map fun p => { p with sent := false, again := p.again || p.sent } }

/-- The account of a producer when a queue is created (R258). -/
def newCred (n m : Nat) : Cred := { m := m, cp := n, cw := n * need m }

end Sys2Proof.Machine
end

