-- ==== Sys2Proof/Machine/Deflate.lean ====
section
/-! DEFINITION. The DEFLATE subset the compression engine produces: its match search (R238) and its blocks (R236). What R239 leaves open,
the lengths of a dynamic block's codes and how its header spells them, is a free value held to RFC 1951. -/

namespace Sys2Proof.Machine

/-! ## RFC 1951 -/

def lenBase : List Nat := [3, 4, 5, 6, 7, 8, 9, 10, 11, 13, 15, 17, 19, 23, 27, 31, 35, 43, 51, 59, 67, 83, 99, 115, 131,
  163, 195, 227, 258]
def lenExtra : List Nat := [0, 0, 0, 0, 0, 0, 0, 0, 1, 1, 1, 1, 2, 2, 2, 2, 3, 3, 3, 3, 4, 4, 4, 4, 5, 5, 5, 5, 0]
def distBase : List Nat := [1, 2, 3, 4, 5, 7, 9, 13, 17, 25, 33, 49, 65, 97, 129, 193, 257, 385, 513, 769, 1025, 1537, 2049,
  3073, 4097, 6145, 8193, 12289, 16385, 24577]
def distExtra : List Nat := [0, 0, 0, 0, 1, 1, 2, 2, 3, 3, 4, 4, 5, 5, 6, 6, 7, 7, 8, 8, 9, 9, 10, 10, 11, 11, 12, 12, 13, 13]

def fixedLit : List Nat := List.replicate 144 8 ++ List.replicate 112 9 ++ List.replicate 24 7 ++ List.replicate 8 8
def fixedDist : List Nat := List.replicate 30 5

def clOrder : List Nat := [16, 17, 18, 0, 8, 7, 9, 6, 10, 5, 11, 4, 12, 3, 13, 2, 14, 1, 15]

/-- Codes of each length. -/
def codeCount (l : List Nat) (n : Nat) : Nat := (l.filter (· == n)).length

/-- Code space left over by a set of lengths, negative where it is over-subscribed. -/
def codeLeft (l : List Nat) : Int :=
  (List.range 15).foldl (fun (left : Int) n => 2 * left - codeCount l (n + 1)) 1

/-- A set of lengths a dynamic header may declare: complete, or a single code of one bit. -/
def codeOk (l : List Nat) : Bool :=
  codeLeft l == 0 || (codeCount l 1 == 1 && (l.filter (· != 0)).length == 1)

/-! ## The match search (R238) -/

/-- A literal byte, or a match: its length and distance. -/
inductive Tok where
  | lit (b : Nat)
  | copy (len dist : Nat)
  deriving DecidableEq, Repr

/-- The hash of the three bytes from a position. -/
def hash3 (b : Nat → Nat) (p : Nat) : Nat := (b p * 2 ^ 10 ^^^ b (p + 1) * 2 ^ 5 ^^^ b (p + 2)) &&& 0x7FFF

/-- The chain of a position's hash, nearest first, no deeper than the depth. -/
def chainOf (depth : Nat) (b : Nat → Nat) (p : Nat) : List Nat :=
  (((List.range p).filter fun q => hash3 b q == hash3 b p).reverse).take depth

/-- How many bytes from `q` agree with those from `p`, at most `k`. -/
def agree (b : Nat → Nat) : Nat → Nat → Nat → Nat
  | 0, _, _ => 0
  | k + 1, q, p => if b q = b p then agree b k (q + 1) (p + 1) + 1 else 0

/-- The longest match among candidates, nearest first: the nearer of equals, none under 3 bytes, none of 3 bytes farther than 4,096; the search
ends at the nice length. -/
def bestMatch (c : CmpCtl) (b : Nat → Nat) (n p : Nat) : List Nat → Nat × Nat → Nat × Nat
  | [], m => m
  | q :: qs, m =>
    let l := agree b (min 258 (n - p)) q p
    let m := if m.1 < l ∧ 3 ≤ l ∧ ¬(l = 3 ∧ 4096 < p - q) then (l, p - q) else m
    if c.nice ≤ m.1 then m else bestMatch c b n p qs m

/-- The match at a position, of length 0 where there is none. -/
def matchAt (c : CmpCtl) (b : Nat → Nat) (n p : Nat) : Nat × Nat :=
  if n < p + 3 then (0, 0) else bestMatch c b n p (chainOf c.depth b p) (0, 0)

/-- The body from a position as literals and matches; with lazy evaluation a match is deferred by one byte when the next position gives a longer
one. -/
def tokensFrom (c : CmpCtl) (b : Nat → Nat) (n : Nat) : Nat → Nat → List Tok
  | 0, _ => []
  | k + 1, p =>
    if n ≤ p then []
    else
      let m := matchAt c b n p
      if m.1 = 0 ∨ (c.lzy ∧ m.1 < (matchAt c b n (p + 1)).1) then .lit (b p) :: tokensFrom c b n k (p + 1)
      else .copy m.1 m.2 :: tokensFrom c b n k (p + m.1)

/-- (DESIGN CHOICE, log entry 85). -/
def tokens (c : CmpCtl) (body : List (BitVec 8)) : List Tok :=
  let a := body.toArray
  tokensFrom c (fun i => (a.getD i 0).toNat) body.length body.length 0

/-! ## Blocks (R236) -/

/-- The low `n` bits of a value, the least significant first. -/
def lsbBits (n v : Nat) : List Bool := (List.range n).map v.testBit

/-- A code, the most significant bit first. -/
def msbBits (n v : Nat) : List Bool := ((List.range n).map v.testBit).reverse

/-- The canonical code of a symbol under a set of lengths. -/
def codeBits (l : List Nat) (s : Nat) : List Bool :=
  let n := l.getD s 0
  let first := ((List.range n).map fun k => if k = 0 then 0 else codeCount l k * 2 ^ (n - k)).sum
  msbBits n (first + ((l.take s).filter (· == n)).length)

/-- The last entry of a table of bases that is at or below a value. -/
def slotIn (t : List Nat) (v : Nat) : Nat := (t.filter fun a => decide (a ≤ v)).length - 1

/-- The literal/length symbol, and the distance symbol, of a token. -/
def Tok.litSym : Tok → Nat
  | .lit b => b
  | .copy l _ => 257 + slotIn lenBase l

def Tok.distSym : Tok → Option Nat
  | .lit _ => none
  | .copy _ d => some (slotIn distBase d)

/-- A token under the two codes. -/
def Tok.bits (lit dist : List Nat) (t : Tok) : List Bool :=
  match t with
  | .lit b => codeBits lit b
  | .copy l d =>
    let i := slotIn lenBase l
    let j := slotIn distBase d
    codeBits lit (257 + i) ++ lsbBits (lenExtra.getD i 0) (l - lenBase.getD i 0) ++ codeBits dist j
      ++ lsbBits (distExtra.getD j 0) (d - distBase.getD j 0)

/-- The tokens of a block and its end-of-block code. -/
def blockBits (lit dist : List Nat) (ts : List Tok) : List Bool := ts.flatMap (Tok.bits lit dist) ++ codeBits lit 256

/-- The one block of a body as a fixed-Huffman block. -/
def fixedBlock (ts : List Tok) : List Bool := [true] ++ lsbBits 2 1 ++ blockBits fixedLit fixedDist ts

/-- How often each of `n` symbols occurs. -/
def freqs (n : Nat) (l : List Nat) : List Nat := (List.range n).map fun i => (l.filter (· == i)).length

/-- Lengths that give every symbol that occurs, and no other, a code of at most `top` bits, as RFC 1951 allows. -/
def lensFit (top : Nat) (f l : List Nat) : Bool :=
  l.length == f.length && codeOk l && (List.range f.length).all fun i => (f.getD i 0 == 0) == (l.getD i 0 == 0) && decide (l.getD i 0 ≤ top)

/-- A run-length symbol of a dynamic header's lengths: a length, or how often the length before or 0 is repeated. -/
def runOut (acc : List Nat) (r : Nat × Nat) : List Nat :=
  acc ++ (if r.1 < 16 then [r.1] else List.replicate r.2 (if r.1 = 16 then acc.getLastD 0 else 0))

/-- A run-length symbol in the range of RFC 1951. -/
def runOk (r : Nat × Nat) : Bool :=
  decide (r.1 < 16) || (r.1 == 16 && decide (3 ≤ r.2) && decide (r.2 ≤ 6)) || (r.1 == 17 && decide (3 ≤ r.2) && decide (r.2 ≤ 10))
    || (r.1 == 18 && decide (11 ≤ r.2) && decide (r.2 ≤ 138))

/-- Run-length symbols that spell a list of lengths. -/
def runsFit (ls : List Nat) (rs : List (Nat × Nat)) : Bool :=
  rs.all runOk && (rs.headD (0, 0)).1 != 16 && rs.foldl runOut [] == ls

def runExtra (r : Nat × Nat) : List Bool :=
  if r.1 = 16 then lsbBits 2 (r.2 - 3) else if r.1 = 17 then lsbBits 3 (r.2 - 3) else if r.1 = 18 then lsbBits 7 (r.2 - 11) else []

/-- The one block of a body as a dynamic-Huffman block: HLIT and HDIST as small as the codes used allow; a block without a match declares
distance code 0 with length 1. -/
def dynamicBlock (ts : List Tok) : Option (List Bool) :=
  let lits := ts.map Tok.litSym ++ [256]
  let dists := ts.filterMap Tok.distSym
  let fl := freqs (lits.foldl max 0 + 1) lits
  let fd := if dists.isEmpty then [1] else freqs (dists.foldl max 0 + 1) dists
  let lit := Config.codeLengths 15 fl
  let dist := if dists.isEmpty then [1] else Config.codeLengths 15 fd
  let rs := Config.lengthRuns (lit ++ dist)
  let cl := Config.codeLengths 7 (freqs 19 (rs.map (·.1)))
  let hc := max 4 (19 - ((clOrder.map fun i => cl.getD i 0).reverse.takeWhile (· == 0)).length)
  if lensFit 15 fl lit && lensFit 15 fd dist && runsFit (lit ++ dist) rs && lensFit 7 (freqs 19 (rs.map (·.1))) cl then
    some ([true] ++ lsbBits 2 2 ++ lsbBits 5 (lit.length - 257) ++ lsbBits 5 (dist.length - 1) ++ lsbBits 4 (hc - 4)
      ++ (List.range hc).flatMap (fun i => lsbBits 3 (cl.getD (clOrder.getD i 0) 0))
      ++ rs.flatMap (fun r => codeBits cl r.1 ++ runExtra r) ++ blockBits lit dist ts)
  else none

/-- Bits as bytes, the first bit the least significant, padded with zero bits. -/
def packBits (b : List Bool) : List (BitVec 8) :=
  (List.range ((b.length + 7) / 8)).map fun i => BitVec.ofNat 8 (((List.range 8).map fun j => if b.getD (8 * i + j) false then 2 ^ j else 0).sum)

/-- The stream of a body: one block, dynamic where it is shorter in exact bits (R236). -/
def deflate (c : CmpCtl) (body : List (BitVec 8)) : List (BitVec 8) :=
  let ts := tokens c body
  packBits (match dynamicBlock ts with
    | some d => if d.length < (fixedBlock ts).length then d else fixedBlock ts
    | none => fixedBlock ts)

end Sys2Proof.Machine
end

