-- ==== Sys2Proof/Machine/Compress.lean ====
section
/-! DEFINITION. The compression engine and the decompressor (chapter 09). -/

namespace Sys2Proof.Machine

/-! ## Flags of an acquisition header, in its first word (R179) -/

def hdrCmp : Nat := 2 ^ 8
def hdrRaw : Nat := 2 ^ 9
def hdrPoison : Nat := 2 ^ 10
def hdrLast : Nat := 2 ^ 11
def hdrTrunc : Nat := 2 ^ 12

/-- Set a flag of the header. -/
def Pkt.flag (p : Pkt) (b : Nat) : Pkt :=
  match p.words with
  | [] => p
  | w :: t => { p with words := (if w / b % 2 = 0 then w + b else w) :: t }

/-! ## Pre-transforms (R233 to R235) -/

/-- DELTA over rows of `r` units: each later unit less the one above it, modulo 2^32. -/
def deltaFrom (r : Nat) : List Nat → List Nat → List Nat
  | _, [] => []
  | prev, u :: t =>
    match prev.drop (r - 1) with
    | above :: _ => (u + 2 ^ 32 - above) % 2 ^ 32 :: deltaFrom r ((u :: prev).take r) t
    | [] => u :: deltaFrom r (u :: prev) t

def delta (r : Nat) (u : List Nat) : List Nat := deltaFrom r [] u

/-- Undo DELTA: add down each column. -/
def undeltaFrom (r : Nat) : List Nat → List Nat → List Nat
  | _, [] => []
  | prev, d :: t =>
    match prev.drop (r - 1) with
    | above :: _ =>
      let u := (d + above) % 2 ^ 32
      u :: undeltaFrom r ((u :: prev).take r) t
    | [] => d :: undeltaFrom r (d :: prev) t

def undelta (r : Nat) (u : List Nat) : List Nat := undeltaFrom r [] u

/-- SHUFFLE: byte planes 0 to 3 of the units. -/
def shuffle (u : List Nat) : List (BitVec 8) :=
  [0, 1, 2, 3].flatMap fun k => u.map fun w => BitVec.ofNat 8 (w / 256 ^ k)

/-- Undo SHUFFLE on `n` units. -/
def unshuffle (n : Nat) (b : List (BitVec 8)) : List Nat :=
  (List.range n).map fun i => ofLe ([0, 1, 2, 3].map fun k => b.getD (k * n + i) 0)

/-- The transforms on an area of whole units: DELTA first. -/
def transform (x r : Nat) (u : List Nat) : List (BitVec 8) :=
  let u := if x % 2 = 1 then delta r u else u
  if x / 2 % 2 = 1 then shuffle u else bytesOf u

/-- The inverse transforms on an area. -/
def untransform (x r : Nat) (b : List (BitVec 8)) : List (BitVec 8) :=
  let n := b.length / 4
  let u := if x / 2 % 2 = 1 then unshuffle n b else wordsOf n b
  bytesOf (if x % 2 = 1 then undelta r u else u)

/-! ## RFC 1951 (R237) -/

/-- What the decoder reads from and has written: input left, bits taken of its first byte, bytes written newest first. -/
structure Inf where
  src : List (BitVec 8)
  bit : Nat := 0
  out : List (BitVec 8) := []
  len : Nat := 0
  deriving DecidableEq, Repr

def Inf.getBit (s : Inf) : Except (Nat × Inf) (Nat × Inf) :=
  match s.src with
  | [] => .error (6, s)
  | b :: t =>
    let v := b.toNat / 2 ^ s.bit % 2
    if s.bit = 7 then .ok (v, { s with src := t, bit := 0 }) else .ok (v, { s with bit := s.bit + 1 })

/-- `n` bits, the first the least significant. -/
def Inf.getBits : Nat → Inf → Except (Nat × Inf) (Nat × Inf)
  | 0, s => .ok (0, s)
  | n + 1, s => do
    let (b, s) ← s.getBit
    let (v, s) ← Inf.getBits n s
    return (b + 2 * v, s)

/-- The symbols of a set of lengths, in canonical order. -/
def symbolsOf (l : List Nat) : List Nat :=
  (List.range 15).flatMap fun n => (List.range l.length).filter fun i => l.getD i 0 == n + 1

/-- Decode one symbol bit by bit. -/
def Inf.symFrom (l syms : List Nat) : Nat → Nat → Nat → Nat → Inf → Except (Nat × Inf) (Nat × Inf)
  | 0, _, _, _, s => .error (1, s)
  | k + 1, code, first, index, s => do
    let (b, s) ← s.getBit
    let code := 2 * code + b
    let n := codeCount l (15 - k)
    if code < first + n then
      match syms[index + (code - first)]? with
      | some v => return (v, s)
      | none => .error (1, s)
    else Inf.symFrom l syms k code (2 * (first + n)) (index + n) s

def Inf.sym (l : List Nat) (s : Inf) : Except (Nat × Inf) (Nat × Inf) := Inf.symFrom l (symbolsOf l) 15 0 0 0 s

/-- Write one byte, at most `top` of them (R246). -/
def Inf.put (top : Nat) (b : BitVec 8) (s : Inf) : Except (Nat × Inf) Inf :=
  if top ≤ s.len then .error (3, s) else .ok { s with out := b :: s.out, len := s.len + 1 }

/-- Copy a match byte by byte. -/
def Inf.copy (top dist : Nat) : Nat → Inf → Except (Nat × Inf) Inf
  | 0, s => .ok s
  | n + 1, s => do
    let s ← s.put top (s.out.getD (dist - 1) 0)
    Inf.copy top dist n s

/-- The symbols of a block up to its end-of-block code. -/
def Inf.codes (top : Nat) (lit dist : List Nat) : Nat → Inf → Except (Nat × Inf) Inf
  | 0, s => .error (6, s)
  | fuel + 1, s => do
    let (v, s) ← s.sym lit
    if v < 256 then
      let s ← s.put top (BitVec.ofNat 8 v)
      Inf.codes top lit dist fuel s
    else if v = 256 then .ok s
    else if 285 < v then .error (1, s)
    else
      let (e, s) ← Inf.getBits (lenExtra.getD (v - 257) 0) s
      let n := lenBase.getD (v - 257) 0 + e
      let (d, s) ← s.sym dist
      if 29 < d then .error (1, s)
      else
        let (e, s) ← Inf.getBits (distExtra.getD d 0) s
        let far := distBase.getD d 0 + e
        if s.len < far then .error (2, s)
        else
          let s ← Inf.copy top far n s
          Inf.codes top lit dist fuel s

/-- The code-length code's own lengths, in their order of transmission. -/
def Inf.clLens : Nat → Inf → Except (Nat × Inf) (List Nat × Inf)
  | 0, s => .ok ([], s)
  | n + 1, s => do
    let (v, s) ← Inf.getBits 3 s
    let (l, s) ← Inf.clLens n s
    return (v :: l, s)

/-- The literal/length and distance lengths, `n` in all; `acc` newest first. -/
def Inf.lens (cl : List Nat) (n : Nat) : Nat → List Nat → Inf → Except (Nat × Inf) (List Nat × Inf)
  | 0, _, s => .error (1, s)
  | fuel + 1, acc, s =>
    if acc.length = n then .ok (acc.reverse, s)
    else if n < acc.length then .error (1, s)
    else do
      let (v, s) ← s.sym cl
      if v < 16 then Inf.lens cl n fuel (v :: acc) s
      else if v = 16 then
        match acc with
        | [] => .error (1, s)
        | p :: _ => do
          let (r, s) ← Inf.getBits 2 s
          Inf.lens cl n fuel (List.replicate (3 + r) p ++ acc) s
      else if v = 17 then do
        let (r, s) ← Inf.getBits 3 s
        Inf.lens cl n fuel (List.replicate (3 + r) 0 ++ acc) s
      else do
        let (r, s) ← Inf.getBits 7 s
        Inf.lens cl n fuel (List.replicate (11 + r) 0 ++ acc) s

/-- A dynamic block. -/
def Inf.dynamic (top fuel : Nat) (s : Inf) : Except (Nat × Inf) Inf := do
  let (hl, s) ← Inf.getBits 5 s
  let (hd, s) ← Inf.getBits 5 s
  let (hc, s) ← Inf.getBits 4 s
  let (raw, s) ← Inf.clLens (hc + 4) s
  let cl := (List.range 19).map fun i => raw.getD (clOrder.findIdx (· == i)) 0
  if 29 < hl ∨ !codeOk cl then .error (1, s)
  else
    let (ls, s) ← Inf.lens cl (257 + hl + 1 + hd) 400 [] s
    let lit := ls.take (257 + hl)
    let dist := ls.drop (257 + hl)
    if !codeOk lit ∨ !(codeOk dist || dist.all (· == 0)) then .error (1, s)
    else Inf.codes top lit dist fuel s

/-- A stored block, from the next byte boundary. -/
def Inf.stored (top : Nat) (s : Inf) : Except (Nat × Inf) Inf := do
  let s : Inf := if s.bit = 0 then s else { s with src := s.src.tail, bit := 0 }
  let (n, s) ← Inf.getBits 16 s
  let (m, s) ← Inf.getBits 16 s
  if n + m ≠ 0xFFFF then .error (5, s)
  else (List.range n).foldlM (fun (s : Inf) _ => do
    let (v, s) ← Inf.getBits 8 s
    s.put top (BitVec.ofNat 8 v)) s

/-- Blocks up to the one with BFINAL. -/
def Inf.blocks (top fuel : Nat) : Nat → Inf → Except (Nat × Inf) Inf
  | 0, s => .error (6, s)
  | k + 1, s => do
    let (fin, s) ← s.getBit
    let (ty, s) ← Inf.getBits 2 s
    let s ← if ty = 0 then s.stored top
      else if ty = 1 then Inf.codes top fixedLit fixedDist fuel s
      else if ty = 2 then s.dynamic top fuel
      else .error (4, s)
    if fin = 1 then .ok s else Inf.blocks top fuel k s

/-- Decode a stream into at most `top` bytes: the code of R246, the bytes written and the bytes read. -/
def inflate (src : List (BitVec 8)) (top : Nat) : Nat × List (BitVec 8) × Nat :=
  let fuel := 8 * src.length + 1
  let used := fun (s : Inf) => src.length - s.src.length + (if s.bit = 0 then 0 else 1)
  match Inf.blocks top fuel fuel { src := src } with
  | .ok s => (0, s.out.reverse, used s)
  | .error (c, s) => (c, s.out.reverse, used s)

/-! ## The engine (R240 to R243) -/

/-- Packets in the input list that still wait for, or are in, the engine. -/
def Hub.cmpLevel (h : Hub) : Nat := (h.cmp.list.filter fun j => j.ready.isNone).length

/-- BUSY and LIST_LEVEL follow the list. -/
def Hub.cmpShow (h : Hub) : Hub :=
  (h.set CMP_STAT_BUSY (b2n (h.cmpLevel != 0))).set CMP_STAT_LIST_LEVEL (min 64 h.cmpLevel)

/-- Commit every packet whose form is known and that has no earlier packet of its stream before it (R243). -/
def Hub.cmpDrain : Nat → Hub → Hub
  | 0, h => h
  | fuel + 1, h =>
    match h.cmp.list.find? (fun j => j.ready.isSome && (h.cmp.list.find? fun e => e.stream == j.stream) == some j) with
    | none => h.cmpShow
    | some j =>
      let h := h.setCmp { h.cmp with list := h.cmp.list.erase j }
      Hub.cmpDrain fuel (match j.ready with
        | some p => h.prodCommit j.queue prodAcq j.tag p
        | none => h)

def Hub.cmpSettle (h : Hub) : Hub := Hub.cmpDrain (h.cmp.list.length + 1) h

/-- The packet in the engine: the oldest whose attempt has not ended. -/
def Hub.cmpHead (h : Hub) : Option CmpJob := h.cmp.list.find? fun j => j.ready.isNone

/-- The transformed body of a job. -/
def CmpJob.area (j : CmpJob) : List (BitVec 8) :=
  let body := j.pkt.words.drop 14
  bytesOf (body.take (j.skip / 4)) ++ transform j.xform j.row (body.drop (j.skip / 4))

/-- CMP_CTL and CMP_STALL_LIMIT as the engine sees them: the values the limits of R247 leave. -/
def Hub.cmpCtl (h : Hub) : CmpCtl :=
  { depth := min 256 (max 1 (h.get CMP_CHAIN_DEPTH)), lzy := h.bit CMP_LAZY, nice := min 258 (max 3 (h.get CMP_NICE_LEN))
    stallUs := max 1 (h.get CMP_STALL_US) }

/-- What the attempt in the engine runs under. -/
def Hub.cmpRun (h : Hub) : CmpCtl := h.cmp.ctl.getD h.cmpCtl

/-- Pages the output of an attempt takes: it stops at BODY_LEN bytes (R240, R241). -/
def CmpJob.outPages (j : CmpJob) (c : CmpCtl) : Nat :=
  (need (56 + min (deflate c j.area).length (j.pkt.len - 56)) + pageWords - 1) / pageWords

/-- The engine is masked on a memory channel (R282). -/
def Hub.cmpMasked (h : Hub) : Bool := [0, 1].any fun r => (aGet h.arb.res r {}).masked.contains 0x16

/-- The engine waits from now on (R242). -/
def Hub.cmpStall (h : Hub) : Hub :=
  if h.cmpHead.isSome ∧ h.cmp.stallAt.isNone then (h.on CMP_STAT_STALLED).setCmp { h.cmp with stallAt := some h.time.now } else h

/-- The engine takes the output pages it still needs as far as its queue and the pool have them; where one is not granted, it stalls (R240, R242)
 (DEDUCED, log entry 122). -/
def Hub.cmpTake (h : Hub) : Hub :=
  match h.cmpHead with
  | none => h
  | some j =>
    let k := j.outPages h.cmpRun - h.cmp.out.2
    let top := h.get (Q_MAX_PAGES j.queue)
    let own := if top = 0 then k else top - h.qPages j.queue
    let g := if h.cmpMasked then 0 else min k (min own (h.poolFree (h.get (Q_PARTITION j.queue))))
    let h := (h.setCmp { h.cmp with out := (j.queue, h.cmp.out.2 + g) }).press (h.get (Q_PARTITION j.queue))
    if g < k ∨ h.cmpMasked then h.cmpStall else (h.off CMP_STAT_STALLED).setCmp { h.cmp with stallAt := none }

/-- The next packet of the list enters the engine: CMP_CTL and CMP_STALL_LIMIT are taken as they stand (R244). -/
def Hub.cmpBegin (h : Hub) : Hub :=
  if h.cmp.ctl.isSome ∨ h.cmpHead.isNone then h else (h.setCmp { h.cmp with ctl := some h.cmpCtl }).cmpTake

/-- A packet's last word is ready (R178, R240, R241): it joins the input list, is bypassed, or commits as it is. -/
def Hub.packetReady (h : Hub) (r : StreamRun) (tag skip : Nat) (p : Pkt) : Hub :=
  let h := h.press (h.get (Q_PARTITION r.queue))
  let row := match p.count with
    | 0 => 0
    | n => (p.len - 56 - skip) / (4 * n)
  let wants := decide (56 < p.len) && (r.cmp == 1 || (r.cmp == 2 && h.acq.pressed.contains r.stream))
  let job : CmpJob := ⟨r.queue, tag, r.stream, r.xform, skip, row, p, none⟩
  let put := fun (h : Hub) (j : CmpJob) => ((h.setCmp { h.cmp with list := h.cmp.list ++ [j] }).cmpSettle).cmpBegin
  if !wants then put h { job with ready := some p }
  else if 64 ≤ h.cmpLevel then
    put ((h.bump CMP_BYPASS CMP_STAT_SAT).set CMP_STAT_LAST_CODE 5) { job with ready := some (p.flag hdrRaw) }
  else put h job

/-- A 48-bit byte count that saturates at 2^48 - 1. -/
def Hub.addBytes (h : Hub) (lo hi : Field) (n : Nat) : Hub :=
  let v := h.get lo + 2 ^ 32 * h.get hi
  let v' := min (v + n) (2 ^ 48 - 1)
  let h := if v < 2 ^ 48 - 1 ∧ v' = 2 ^ 48 - 1 then h.on CMP_STAT_SAT else h
  (h.set lo v').set hi (v' / 2 ^ 32)

/-- End the attempt of the packet in the engine with its code (R241). -/
def Hub.cmpEnd (h : Hub) (j : CmpJob) (code : Nat) : Hub :=
  let out := deflate h.cmpRun j.area
  let n := j.pkt.len - 56
  let comp : Pkt := { j.pkt.flag hdrCmp with
    words := (j.pkt.flag hdrCmp).words.take 14 ++ wordsOf ((out.length + 3) / 4) out, len := 56 + out.length }
  let raw := j.pkt.flag hdrRaw
  let seq := j.pkt.words.getD 1 0
  let h := h.set CMP_STAT_LAST_CODE code
  let h := (h.off CMP_STAT_STALLED).setCmp { h.cmp with stallAt := none, ctl := none, out := (0, 0) }
  let r := if code = 0 then
      ((((h.bump CMP_PACKETS CMP_STAT_SAT).rsChange 0x5028 CMP_STAT_OVR).rsChange 0x5030 CMP_STAT_OVR).addBytes CMP_BYTES_IN_LO
        CMP_BYTES_IN_HI n |>.addBytes CMP_BYTES_OUT_LO CMP_BYTES_OUT_HI out.length, comp)
    else if code = 1 then (h.bump CMP_NOSHRINK CMP_STAT_SAT, raw)
    else if code = 2 then ((h.bump CMP_VERIFY_FAIL CMP_STAT_SAT).log .cmpVerify j.stream seq 0, raw)
    else if code = 3 then ((h.bump CMP_ABANDON CMP_STAT_SAT).logFirst .cmpAbandon 0 j.stream seq 0, raw)
    else (h.bump CMP_POISON CMP_STAT_SAT, { raw.flag hdrPoison with poison := true })
  let up := fun (e : CmpJob) => if e = j then { e with ready := some r.2 } else e
  (((r.1.setCmp { r.1.cmp with list := r.1.cmp.list.map up }).cmpSettle).refill (h.get (Q_PARTITION j.queue))).cmpBegin

/-- The decoded output agrees byte for byte with the transformed body (R240). -/
def cmpVerified (out area : List (BitVec 8)) : Bool :=
  let r := inflate out area.length
  r.1 == 0 && r.2.1 == area

/-- CMP_ATTEMPT_DONE: `fault` says what the attempt met: 0 nothing, 1 a verification mismatch, 2 a poisoned source word.
An output of BODY_LEN bytes or more ends it with CMP_ERR_NOSHRINK (R241). An engine that stalls has not done. -/
def Hub.cmpAttempt (h : Hub) (fault : Fin 3) : Hub :=
  match h.cmpHead with
  | none => h
  | some j =>
    let out := deflate h.cmpRun j.area
    if h.bit CMP_STAT_STALLED then h
    else h.cmpEnd j (if fault = 1 then 2 else if fault = 2 then 4 else if j.pkt.len - 56 ≤ out.length then 1
      else if cmpVerified out j.area then 0 else 2)

/-- CMP_PAGE_GRANTED: output pages have come free, and compression continues from the same bit (R242). -/
def Hub.cmpGranted (h : Hub) : Hub := if h.bit CMP_STAT_STALLED then h.cmpTake else h

/-- CMP_STALL_LIMIT: a stall reaches its limit, and the attempt ends with CMP_ERR_STALL (R242). -/
def Hub.cmpStallLimit (h : Hub) : Hub :=
  match h.cmpHead, h.cmp.stallAt with
  | some j, some t => (h.upTo (t + h.cmpRun.stallUs * usU)).cmpEnd j 3
  | _, _ => h

/-- CMP_CNT_CLR: the counters and byte counts (R446). -/
def Hub.cmpClr (h : Hub) : Hub :=
  h.offs [CMP_PACKETS, CMP_NOSHRINK, CMP_VERIFY_FAIL, CMP_ABANDON, CMP_BYPASS, CMP_POISON, CMP_BYTES_IN_LO, CMP_BYTES_IN_HI,
    CMP_BYTES_OUT_LO, CMP_BYTES_OUT_HI]

/-! ## Decompression jobs (R245, R246) -/

/-- Two byte ranges overlap. -/
def rangesOverlap (a n b m : Nat) : Bool := decide (a < b + m) && decide (b < a + n)

/-- DCMP_GO (R245). -/
def Hub.dcmpGo (h : Hub) : Hub :=
  let a := h.get DCMP_SRC_ADDR
  let n := h.get DCMP_SRC_LEN
  let b := h.get DCMP_DST_ADDR
  let m := h.get DCMP_DST_MAX
  if h.bit DCMP_BUSY ∨ n = 0 ∨ m = 0 ∨ 2 ^ 28 < a + n ∨ 2 ^ 28 < b + m ∨ rangesOverlap a n b m then h.on DCMP_WERR
  else ((h.on DCMP_BUSY).off DCMP_ERR).setCmp { h.cmp with job := some (a, n, b, m, h.get DCMP_XFORM, h.bit DCMP_SKIP64) }

/-- End a job with its code and counts. -/
def Hub.dcmpEnd (h : Hub) (code out used : Nat) : Hub :=
  let h := (((h.off DCMP_BUSY).on DCMP_DONE).set DCMP_ERR code).setCmp { h.cmp with job := none }
  let h := (h.set DCMP_OUT_LEN out).set DCMP_IN_USED used
  let h := h.bump DCMP_JOBS DCMP_SAT
  if 1 ≤ code ∧ code ≤ 7 then h.bump DCMP_ERRORS DCMP_SAT else h

/-- A job refused by the fabric: no output (R245). -/
def Hub.dcmpRefused (h : Hub) : Hub :=
  if h.bit DCMP_BUSY then (h.dcmpEnd 0 0 0).on DCMP_REFUSED else h

/-- The result of a job: its code, the bytes it writes and the bytes it reads (R246). -/
def dcmpResult (src : List (BitVec 8)) (top x row : Nat) (skip : Bool) : Nat × List (BitVec 8) × Nat :=
  let r := inflate src top
  if r.1 ≠ 0 then r
  else
    let k := if skip then 64 else 0
    if (x ≠ 0 ∧ (r.2.1.length - k) % 4 ≠ 0) ∨ (skip ∧ r.2.1.length < 64) then (7, r.2)
    else (0, (r.2.1.take k ++ untransform x row (r.2.1.drop k)), r.2.2)

end Sys2Proof.Machine
end

