-- ==== Sys2Proof/Machine/LinkBase.lean ====
section
/-! DEFINITION. Links as the other families use them: roles, leads and widths (R294, R338), distributed triggers (R342),
credits and custody of a link (R322 to R326), and what a lost link leaves (R344). -/

namespace Sys2Proof.Machine

/-! ## Leads, roles -/

def roleNone : Nat := 0
def roleUp : Nat := 1
def roleDown : Nat := 2
def roleDuplex : Nat := 3

/-- The role of a link; the link led by lane 63 cannot be DOWN (R337). -/
def Hub.role (h : Hub) (k : Nat) : Nat := if k = 63 ∧ h.get (LINK_ROLE k) = roleDown then roleNone else h.get (LINK_ROLE k)
def Hub.linkUp (h : Hub) (k : Nat) : Bool := h.bit (LINK_UP k)

/-- The lead lane of the link a lane belongs to (R294). -/
def Hub.leadOf (h : Hub) (n : Nat) : Nat := n - h.get (LANE_LINK_POSITION n)

/-- The lanes of the link whose lead lane is `k`. -/
def Hub.linkLanes (h : Hub) (k : Nat) : List Nat := (List.range (2 ^ h.get (LANE_LINK_WIDTH k))).map (· + k)

/-- The lead lanes. -/
def Hub.leads (h : Hub) : List Nat := (List.range 64).filter fun n => h.bit (LANE_LINK_LEAD n)

/-- ACTIVE links of a role. -/
def Hub.activeOf (h : Hub) (r : Nat) : List Nat := h.leads.filter fun k => h.role k == r && h.linkUp k

/-- The UP link by which frames for the root leave: the primary while it is ACTIVE, else the other (R332). -/
def Hub.upLink (h : Hub) : Option Nat := (h.activeOf roleUp).head?

/-- A TRIGGER frame on every ACTIVE UP and DOWN link except the one it arrived on (R342). -/
def Hub.sendTrigger (h : Hub) (m : TrigMsg) (skip : Option Nat) : Hub :=
  h.each ((h.activeOf roleUp ++ h.activeOf roleDown).filter fun k => skip != some k) fun h k => h.sendCtrl k (.trigger m)

/-- This hub has no route address yet (R337). -/
def noRoute : Nat := 2 ^ 48 - 1
def Hub.unassigned (h : Hub) : Bool := h.route == noRoute

/-- Hop `i` (from 1) of a route address. -/
def hop (r i : Nat) : Nat := r / 2 ^ (48 - 6 * i) % 64

/-- A route address with one hop replaced. -/
def setHop (r i v : Nat) : Nat := r - hop r i * 2 ^ (48 - 6 * i) + v * 2 ^ (48 - 6 * i)

/-- Depth: the number of hops used. -/
def routeDepth (r : Nat) : Nat := if r = noRoute then 0 else ((List.range 8).takeWhile fun i => hop r (i + 1) != 63).length

/-- Where a frame with this DEST goes from here (R333): `some none` is this hub, `some (some k)` an ACTIVE link. -/
def Hub.routeTo (h : Hub) (dest : Nat) : Option (Option Nat) :=
  let d := routeDepth h.route
  if dest = h.route ∧ dest ≠ noRoute then some none
  else if dest ≠ noRoute ∧ d ≠ 0 ∧ d < 8 ∧ ((List.range d).all fun i => hop dest (i + 1) == hop h.route (i + 1)) ∧ hop dest (d + 1) ≠ 63 then
    let k := hop dest (d + 1)
    if h.role k = roleDown ∧ h.linkUp k then some (some k) else none
  else h.upLink.map some

/-- Requests of a hub whose root is its local host name the root as their source (R333, R340). -/
def Hub.raccSrc (h : Hub) : Nat := if h.lk.routeSet then noRoute else h.route

/-- A response is for a requester of this hub (DEDUCED, log entry 30). -/
def Hub.raccMine (h : Hub) (dest : Nat) : Bool := (dest == h.route && dest != noRoute) || (h.lk.routeSet && dest == noRoute)

/-! ## Protocol errors -/

/-- A protocol error of a link (R317, R321, R325, R331, R333). -/
def Hub.protoErr (h : Hub) (k : Nat) : Hub := (h.bump (LINK_CNT_PROTO_ERRS k) (LINK_SAT k)).on (LINK_PROTO_ERR k)

/-! ## Credits (R323, R324) -/

/-- Credit the sender has on a VC. -/
def VcSt.availP (c : VcSt) : Nat := (c.grantP + 2 ^ 32 - c.usedP) % 2 ^ 32
def VcSt.availW (c : VcSt) : Nat := (c.grantW + 2 ^ 32 - c.usedW) % 2 ^ 32

/-- AVAIL_PKTS and AVAIL_WORDS follow the counts. -/
def Hub.showVc (h : Hub) (k v : Nat) : Hub :=
  (h.set (VC_AVAIL_PKTS k v) (min 255 (h.vc k v).availP)).set (VC_AVAIL_WORDS k v) (h.vc k v).availW

/-- The receive queue of a VC (R323). -/
def Hub.rxQueue (h : Hub) (k v : Nat) : Option Nat := if h.bit (VC_RXQ_VALID k v) then some (h.get (VC_RXQ k v)) else none

/-- The limits this hub advertises for a VC. -/
def Hub.myLimits (h : Hub) (k v : Nat) : Nat × Nat :=
  match h.rxQueue k v with
  | none => (0, 0)
  | some q => (h.get (Q_CREDIT_PKTS q), h.get (Q_CREDIT_PKTS q) * ((h.cred q prodLink).elim 0 fun c => need c.m))

/-- A change of credit or custody is due to be sent, and repeated until 1 ms later. -/
def Hub.creditDue (h : Hub) (k : Nat) : Hub :=
  h.modLink k fun l => { l with dueCredit := true, changedAt := h.time.now }
/-- Raise the grant of a VC by what is owed, once the queue's top-up has been met (R324). -/
def Hub.raiseGrant (h : Hub) (k v : Nat) : Hub :=
  let c := h.vc k v
  match h.rxQueue k v with
  | none => h
  | some q =>
    match h.cred q prodLink with
    | none => h
    | some a =>
      if a.owedP = 0 ∧ (0 < c.oweP ∨ 0 < c.oweW) then
        (h.setVc k v { c with
          myP := (c.myP + c.oweP) % 2 ^ 32, myW := (c.myW + c.oweW) % 2 ^ 32, oweP := 0, oweW := 0 }).creditDue k
      else h

def Hub.raiseGrants (h : Hub) (k : Nat) : Hub := h.each [0, 1, 2, 3] fun h v => h.raiseGrant k v

/-- Credit returns for a frame that is settled or aborted without a commit (R324). -/
def Hub.returnCredit (h : Hub) (k v b : Nat) : Hub :=
  let c := h.vc k v
  (h.setVc k v { c with myP := (c.myP + 1) % 2 ^ 32, myW := (c.myW + need b) % 2 ^ 32 }).creditDue k

/-! ## Open records (R329, R330) -/

/-- Commit a record that closes an open one. -/
def Hub.closeRec (h : Hub) (o : OpenRec) (last : Nat) (ended : Option Nat) : Hub :=
  let g := { o.gap with
    openRec := false, close := true, last := last, ended := ended.isSome, endTime := ended.getD 0, time := h.time.now }
  (h.setLk { h.lk with opens := h.lk.opens.erase o }).gapIssue o.queue g

def endedIndex : Nat := 2 ^ 64 - 2
def openIndex : Nat := 2 ^ 64 - 1

/-- A DOWN link is lost: an open record for every stream received over it (R329). Where the link maps several receive queues, the
record pends in the first of them (DESIGN CHOICE, log entry 90). -/
def Hub.downstreamReset (h : Hub) (k : Nat) : Hub :=
  let l := h.link k
  let q := ((List.range 4).filterMap fun v => h.rxQueue k v)
  l.streams.foldl (fun h (e : Heard) =>
    let g : GapInfo := { relief := e.relief, origin := e.origin, stream := e.stream, grid := e.grid, reason := 2
                         first := e.last + 1, last := openIndex, openRec := true, issuer := h.route, time := h.time.now }
    match q.head? with
    | none => h
    | some q =>
      if h.lk.opens.any fun o => o.gap.relief == g.relief && o.gap.origin == g.origin && o.gap.stream == g.stream then h
      else (h.setLk { h.lk with opens := ⟨g, q⟩ :: h.lk.opens }).gapIssue q g) (h.modLink k fun l => { l with streams := [] })

/-! ## Loss of a link (R344) -/

/-- What the session of a lost link had still to settle is settled no more: the partner sends those frames again (R326, R344). -/
def Hub.dropSession (h : Hub) (k : Nat) : Hub :=
  let keep := fun (l : List (Nat × Nat × Nat)) => l.filter fun e => e.1 != k
  let old := fun (p : Pkt) => { p with rx := p.rx.filter fun e => e.1 != k, owes := keep p.owes }
  let h := h.setMm { h.mm with queues := h.mm.queues.map fun e =>
    (e.1, { e.2 with pkts := e.2.pkts.map old, prods := e.2.prods.map fun p => { p with pkt := old p.pkt } }) }
  h.setCarve { h.carve with slots := h.carve.slots.map fun e =>
    (e.1, e.2.map fun x => { x with opens := x.opens.map fun f => { f with settle := keep f.settle } }) }

/-- What a lost link leaves: SENT packets are COMMITTED again, sequence numbers, credits and the replay store restart. -/
def Hub.linkLost (h : Hub) (k : Nat) : Hub :=
  if !h.linkUp k then h
  else
    let qs := (List.range 256).filter fun q => h.get (Q_CONSUMER q) == 0 && h.get (Q_LINK q) == k && h.qState q != qOff
    let h := (h.each qs Hub.qUnsend).dropSession k
    let h := if h.role k = roleDown then h.downstreamReset k else h
    let l := h.link k
    let h := h.setLink k { racc := l.racc, raccAt := l.raccAt, kfid := l.kfid, gaveRoute := l.gaveRoute, hello := l.hello, streams := l.streams }
    let h := ((h.off (LINK_UP k)).off (LINK_TX_LSEQ k)).off (LINK_RX_LSEQ k)
    let h := h.each [0, 1, 2, 3] fun h v => (((h.off (VC_TX_CSEQ k v)).off (VC_TX_CACK k v)).off (VC_AVAIL_PKTS k v)).off (VC_AVAIL_WORDS k v)
    if h.role k = roleDuplex ∧ h.get DUP_PSTATE ≠ 0 ∧ h.get DUP_LINK = k then
      let h := h.on DUP_LINK_LOST
      if h.get DUP_PSTATE = 1 ∨ h.get DUP_PSTATE = 2 then h.set DUP_PSTATE 3 else h
    else h

/-- The grants this hub gives at entry to ACTIVE: the reservations its receive queues hold (R323). -/
def Hub.firstGrants (h : Hub) (k : Nat) : Hub :=
  (h.each [0, 1, 2, 3] fun h v =>
    match h.rxQueue k v with
    | none => h
    | some q => match h.cred q prodLink with
      | none => h
      | some a => h.setVc k v { h.vc k v with myP := a.cp, myW := a.cw, oweP := a.owedP, oweW := a.owedW }).creditDue k

/-- COMMIT_NOTE of the committed armature (R330). -/
def Hub.commitNote (h : Hub) (k : Nat) : Hub :=
  if h.role k = roleUp ∧ h.arm.committed then
    h.sendCtrl k (.commitNote h.route (h.get ARM_ID_COMMITTED) h.arm.commitAt ((h.arm.sects.filter fun s => s.type == 8).map (·.inst)))
  else h

/-- HELLO on a link (R338). -/
def Hub.helloFor (h : Hub) (k : Nat) : HelloMsg :=
  { route := h.route, depth := routeDepth h.route
    enumOk := h.role k == roleDown && decide (1 ≤ routeDepth h.route) && decide (routeDepth h.route ≤ 7)
    hw := Config.hwType, rev := Config.revision.toNat, role := h.role k, lead := k, width := 2 ^ h.get (LANE_LINK_WIDTH k) }

def Hub.sendHello (h : Hub) (k : Nat) : Hub := h.sendCtrl k (.hello (h.helloFor k))

/-- LINK_ACTIVE (R307): the link layer starts from its first sequence numbers and sends HELLO, CREDIT and COMMIT_NOTE. -/
def Hub.linkActive (h : Hub) (k : Nat) : Hub :=
  let l := h.link k
  let h := h.setLink k { racc := l.racc, raccAt := l.raccAt, kfid := l.kfid, gaveRoute := l.gaveRoute, hello := l.hello, idleFrom := h.time.now }
  let h := ((h.on (LINK_UP k)).off (LINK_TX_LSEQ k)).off (LINK_RX_LSEQ k)
  let h := (h.firstGrants k).sendHello k
  let h := h.commitNote k
  if h.role k = roleDuplex ∧ h.get DUP_LINK = k then h.off DUP_LINK_LOST else h

end Sys2Proof.Machine
end

