-- ==== Sys2Proof/Machine/Acq.lean ====
section
/-! DEFINITION. Streams, triggers and segmented records (chapter 07). -/

namespace Sys2Proof.Machine

/-! ## Packets (R176, R179) -/

/-- The 56-byte header of an acquisition packet. -/
def acqHeader (type flags stream seq first count grid quality chans fmt origin body tFirst armId : Nat)
    (aux : List (BitVec 8)) : List (BitVec 8) :=
  leBytes 1 type ++ leBytes 1 flags ++ leBytes 1 stream ++ leBytes 1 1 ++ leBytes 4 seq ++ leBytes 8 first ++ leBytes 2 count
    ++ leBytes 1 grid ++ leBytes 1 quality ++ leBytes 1 chans ++ leBytes 1 fmt ++ leBytes 6 origin ++ leBytes 4 body
    ++ wireStamp tFirst ++ leBytes 4 armId ++ aux

/-- Words per channel and index: I and Q where the channel hands on both (R132). -/
def Hub.wordsPer (h : Hub) (n : Nat) : Nat :=
  if h.get (CH_CHAIN_DEMOD n) = 1 ∧ h.get (CH_CHAIN_DEMOD_OUT n) = 2 then 2 else 1

/-- Bytes of one word under a word format (R175). -/
def fmtBytes (fmt : Nat) : Nat := if fmt = 0 then 4 else if fmt = 1 then 8 else 12

/-- Bytes per index of a stream (R176). -/
def Hub.rowBytes (h : Hub) (chans : List Nat) (fmt : Nat) : Nat := (chans.map fun n => h.wordsPer n * fmtBytes fmt).sum

def StreamRun.timeOf (r : StreamRun) (n : Nat) : Nat := gridInstant r.epoch r.p r.q n

/-- A packet of a run as it stands in its queue. -/
def Hub.acqPkt (h : Hub) (r : StreamRun) (type flags seq first count : Nat) (body : List Nat) (aux : List (BitVec 8)) : Pkt :=
  { words := wordsOf 14 (acqHeader type flags r.stream seq first count r.grid (h.qualityAt (r.timeOf first)) r.chans.length r.fmt
      h.route (4 * body.length) (r.timeOf first) r.armId aux) ++ body
    len := 56 + 4 * body.length, origin := h.route, stream := r.stream, grid := r.grid, first := first, count := count
    indexed := true }

/-- The words a channel gives a row, raw before engineering for each word; none until every word is there (R176). -/
def rowWords (r : StreamRun) (idx n : Nat) : Option (List Nat) :=
  let raw := r.cells.find? fun (c : Cell) => c.index == idx && c.chan == n && !c.eng
  let eng := r.cells.find? fun (c : Cell) => c.index == idx && c.chan == n && c.eng
  match raw, eng with
  | some a, some b => some ((List.range a.words.length).flatMap fun i => a.words.getD i 0 :: (b.words.drop (2 * i)).take 2)
  | some a, none => if r.fmt = 0 then some a.words else none
  | none, some b => if r.fmt = 1 then some b.words else none
  | none, none => none

/-- The words of one row in list order. -/
def rowOf (r : StreamRun) (idx : Nat) : Option (List Nat) := (r.chans.mapM (rowWords r idx)).map List.flatten

/-! ## Runs of a stream -/

def Hub.runs (h : Hub) (s : Nat) : List StreamRun := aGet h.acq.streams s []
def Hub.setRuns (h : Hub) (s : Nat) (l : List StreamRun) : Hub :=
  h.setAcq { h.acq with streams := if l.isEmpty then aErase h.acq.streams s else aInsert h.acq.streams s l }

/-- Replace the run of a stream that starts at `r.first`. -/
def Hub.putRun (h : Hub) (r : StreamRun) : Hub :=
  h.setRuns r.stream ((h.runs r.stream).map fun e => if e.first = r.first ∧ e.armId = r.armId then r else e)

def Hub.dropRun (h : Hub) (r : StreamRun) : Hub :=
  h.setRuns r.stream ((h.runs r.stream).filter fun e => !(e.first == r.first && e.armId == r.armId))

/-- A later commit has given the stream another run. -/
def Hub.superseded (h : Hub) (r : StreamRun) : Bool := match (h.runs r.stream).getLast? with
  | some l => !(l.first == r.first && l.armId == r.armId)
  | none => true

/-- A run has reached its stop index: the newest of its stream stays, to be read (R191). -/
def Hub.endRun (h : Hub) (r : StreamRun) : Hub := if h.superseded r then h.dropRun r else h.putRun r

def streamTag (s seq : Nat) : Nat := s + 256 * seq

/-- A run has ended: its stop index is reached. -/
def StreamRun.over (r : StreamRun) : Bool :=
  match r.stop with
  | some s => decide (s ≤ r.next)
  | none => false

/-- Commit the open packet of a run (R178). -/
def Hub.commitOpen (h : Hub) (r : StreamRun) (p : OpenPkt) : Hub :=
  let flags := if r.over then 8 else 0
  let aux := if p.start then leBytes 8 r.resume else leBytes 8 0
  h.packetReady r p.tag 0 (h.acqPkt r (if p.start then 2 else 1) flags p.seq p.first p.count p.body.reverse aux)

/-- The closing packet of a stream whose last packet is already committed (R178). -/
def Hub.closingPacket (h : Hub) (r : StreamRun) : Hub :=
  let tag := streamTag r.stream r.seq
  let p := h.acqPkt r 1 8 r.seq r.next 0 [] (leBytes 8 0)
  (h.prodStart r.queue prodAcq tag 56 { p with words := [] }).packetReady r tag 0 p

/-- Pack one complete row into a CONTINUOUS run: it joins the open packet, or opens one. -/
def Hub.packRow (h : Hub) (r : StreamRun) (row : List Nat) : StreamRun × Hub :=
  let n := r.next
  let r := { r with next := n + 1, cells := r.cells.filter fun c => c.index != n }
  if n < r.skipTo then (r, h)
  else
    let tag := streamTag r.stream r.seq
    let k := match r.stop with
      | some s => min r.k (s - n)
      | none => r.k
    let h := if r.pkt.isNone then h.prodStart r.queue prodAcq tag (56 + r.k * h.rowBytes r.chans r.fmt)
        { origin := h.route, stream := r.stream, grid := r.grid, first := n, count := k } else h
    let p : OpenPkt := r.pkt.getD { first := n, tag := tag, seq := r.seq, start := !r.begun }
    let r := if r.pkt.isNone then { r with seq := (r.seq + 1) % 2 ^ 32, begun := true } else r
    let p := { p with body := row.reverse ++ p.body, count := p.count + 1 }
    if p.count = r.k ∨ r.over then ({ r with pkt := none }, h.commitOpen r p) else ({ r with pkt := some p }, h)

/-! ## Trigger units and records (R183, R188) -/

def Hub.unit (h : Hub) (t : Nat) : TUnit := aGet h.acq.units t {}
def Hub.setUnit (h : Hub) (t : Nat) (u : TUnit) : Hub := h.setAcq { h.acq with units := aInsert h.acq.units t u }
def Hub.uState (h : Hub) (t : Nat) : Nat := h.get (TRG_STATE t)
def uDisarmed : Nat := 0
def uFilling : Nat := 1
def uArmed : Nat := 2
def uCollecting : Nat := 3
def uRearm : Nat := 4

/-- The unit that owns a RECORD stream. -/
def Hub.unitOf (h : Hub) (s : Nat) : Option Nat :=
  (List.range 32).find? fun t => h.get (TRG_MODE t) != 0 && h.get (TRG_STREAM t) == s

/-- The unit's record stream in its newest definition. -/
def Hub.unitRun (h : Hub) (t : Nat) : Option StreamRun := (h.runs (h.get (TRG_STREAM t))).getLast?

/-- The 64-byte record header (R188). -/
def recHeader (t : Nat) (r : Rec) : List (BitVec 8) :=
  leBytes 1 t ++ leBytes 1 (b2n r.short + 2 * b2n r.forced + 4 * b2n r.dist) ++ leBytes 1 r.source
    ++ leBytes 1 (if r.source = 7 then r.group else 0) ++ leBytes 4 r.no ++ leBytes 8 r.ti ++ wireStamp r.time
    ++ leBytes 4 (r.ti - r.first) ++ leBytes 4 r.post ++ leBytes 4 r.missed ++ leBytes 8 r.first
    ++ leBytes 6 r.origin ++ leBytes 2 0 ++ leBytes 4 r.word ++ leBytes 4 0

/-- Commit the open fragment of a record. -/
def Hub.commitFrag (h : Hub) (run : StreamRun) (r : Rec) : Hub :=
  let last := r.next == r.stop
  let flags := if last then 8 + 16 * b2n r.trunc else 0
  let p := h.acqPkt run 3 flags r.seq (r.next - r.count) r.count r.body.reverse (leBytes 4 r.no ++ leBytes 2 r.frag ++ leBytes 2 0)
  h.packetReady run r.tag (if r.frag = 0 then 64 else 0) p

/-- The record in progress, or the one of number `no` that a commit ended. -/
def TUnit.recOf (u : TUnit) : Option Nat → Option Rec
  | none => u.rcd
  | some no => (u.tails.find? fun c => c.rcd.no == no).map (·.rcd)

def TUnit.setRec (u : TUnit) (tl : Option Nat) (r : Option Rec) : TUnit :=
  match tl, r with
  | none, _ => { u with rcd := r }
  | some no, none => { u with tails := u.tails.filter fun c => c.rcd.no != no }
  | some no, some v => { u with tails := u.tails.map fun c => if c.rcd.no = no then { c with rcd := v } else c }

/-- A record ends: RECORDS counts and re-arming begins, unless a commit has given the unit its state. -/
def Hub.recordEnd (h : Hub) (t : Nat) (tl : Option Nat) : Hub :=
  let h := (h.setUnit t ((h.unit t).setRec tl none)).bump (TRG_RECORDS t) (TRG_SAT t)
  if tl.isSome then h else h.set (TRG_STATE t) uRearm

/-- Give the record in progress the row of its next index (R188). -/
def Hub.recRow (h : Hub) (t : Nat) (run : StreamRun) (tl : Option Nat) (idx : Nat) (row : List Nat) : StreamRun × Hub :=
  match (h.unit t).recOf tl with
  | none => (run, h)
  | some r =>
    if r.next ≠ idx ∨ r.stop ≤ idx then (run, h)
    else if idx < r.skipTo then
      let r := { r with next := idx + 1 }
      let h := h.setUnit t ((h.unit t).setRec tl (some r))
      (run, if r.next = r.stop then h.recordEnd t tl else h)
    else
      let fresh := !r.opened
      let tag := streamTag run.stream run.seq
      let hdr := if fresh ∧ r.frag = 0 then wordsOf 16 (recHeader t r) else []
      let h := if fresh then h.prodStart run.queue prodAcq tag
          (56 + (if r.frag = 0 then 64 else 0) + run.k * h.rowBytes run.chans run.fmt)
          { origin := h.route, stream := run.stream, grid := run.grid, first := idx, count := min run.k (r.stop - idx) } else h
      let r := if fresh then { r with opened := true, tag := tag, seq := run.seq, body := hdr.reverse, count := 0 } else r
      let run := if fresh then { run with seq := (run.seq + 1) % 2 ^ 32 } else run
      let r := { r with next := idx + 1, body := row.reverse ++ r.body, count := r.count + 1 }
      if r.count = run.k ∨ r.next = r.stop then
        let h := h.commitFrag run r
        let h := h.setUnit t ((h.unit t).setRec tl (some { r with opened := false, frag := r.frag + 1, body := [], count := 0 }))
        (run, if r.next = r.stop then h.recordEnd t tl else h)
      else (run, h.setUnit t ((h.unit t).setRec tl (some r)))

/-- Give a record the rows the ring already holds. -/
def Hub.recRows (h : Hub) (t : Nat) : StreamRun → List (Nat × List Nat) → StreamRun × Hub
  | run, [] => (run, h)
  | run, (i, row) :: rest =>
    let x := h.recRow t run none i row
    x.2.recRows t x.1 rest

/-- The records that commits ended and whose last rows come from a run: unit and record number. -/
def Hub.tailsOf (h : Hub) (r : StreamRun) : List (Nat × Nat) := (List.range 32).flatMap fun t =>
  ((h.unit t).tails.filter fun c => c.stream == r.stream && c.first == r.first && c.armId == r.armId).map fun c => (t, c.rcd.no)

/-- One complete row of a RECORD run: to the records that commits ended, to the record in progress, then into the ring (R183). -/
def Hub.ringRow (h : Hub) (r : StreamRun) (row : List Nat) : StreamRun × Hub :=
  let n := r.next
  let x := (h.tailsOf r).foldl (fun x e => x.2.recRow e.1 x.1 (some e.2) n row) (r, h)
  let r := { x.1 with next := n + 1, cells := x.1.cells.filter fun c => c.index != n }
  if x.2.superseded r then (r, x.2)
  else match x.2.unitOf r.stream with
    | none => (r, x.2)
    | some t =>
      let x := x.2.recRow t r none n row
      let r := x.1
      let ring := r.ring ++ [(n, row)]
      let ring := ring.drop (ring.length - r.hist)
      let h := x.2.set (TRG_FILL t) ring.length
      ({ r with ring := ring },
        if h.uState t = uFilling ∧ h.get (TRG_PRE t) ≤ ring.length then h.set (TRG_STATE t) uArmed else h)

/-- Pack the complete rows of a run, in index order. -/
def Hub.packRows : Nat → Hub → StreamRun → Hub
  | 0, h, r => h.putRun r
  | fuel + 1, h, r =>
    if r.over then h.endRun r
    else match rowOf r r.next with
      | none => h.putRun r
      | some row =>
        let x := if r.record then h.ringRow r row else h.packRow r row
        Hub.packRows fuel x.2 x.1

/-- The words of a channel at an index reach every run that lists it (R176, R177). -/
def Hub.route1 (h : Hub) (n idx : Nat) (grid : Run) (eng : Bool) (words : List Nat) : Hub :=
  (h.acq.streams.flatMap (·.2)).foldl (fun h r0 =>
    match (h.runs r0.stream).find? fun e => e.first == r0.first && e.armId == r0.armId with
    | none => h
    | some r =>
      let mine := r.chans.contains n && r.epoch == grid.epoch && r.p == grid.p && r.q == grid.q && decide (r.next ≤ idx)
        && (match r.stop with
          | some s => decide (idx < s)
          | none => true)
        && (if eng then r.fmt != 0 else r.fmt != 1)
      if mine then
        let r := { r with cells := r.cells ++ [⟨idx, n, eng, words⟩] }
        Hub.packRows (r.cells.length + 1) h r
      else h) h

/-! ## Stop indices (R17, R178, R190) -/

/-- The stop index of a CONTINUOUS run becomes known. -/
def Hub.stopRun (h : Hub) (r : StreamRun) (s : Nat) : Hub :=
  let r := { r with stop := some s }
  if r.next < s then (match r.pkt with
    | some p => h.prodCap r.queue prodAcq p.tag s
    | none => h).putRun r
  else match r.pkt with
    | some p => (h.commitOpen r p).endRun { r with pkt := none }
    | none => if r.begun then (h.closingPacket r).endRun { r with seq := (r.seq + 1) % 2 ^ 32 } else h.endRun r

/-- A record ends at a stop index: with TRUNC where it falls inside the record (R190). -/
def Hub.cutRecord (h : Hub) (t : Nat) (run : StreamRun) (s : Nat) (tl : Option Nat) : StreamRun × Hub :=
  match (h.unit t).recOf tl with
  | none => (run, h)
  | some r =>
    if r.stop ≤ s then (run, h)
    else
      let r := { r with stop := s, trunc := true }
      let h := if r.opened then h.prodCap run.queue prodAcq r.tag s else h
      if r.next < s then (run, h.setUnit t ((h.unit t).setRec tl (some r)))
      else if r.opened then (run, (h.commitFrag run r).recordEnd t tl)
      else if r.frag = 0 then
        let h := h.setUnit t ((h.unit t).setRec tl none)
        (run, if tl.isSome then h else h.set (TRG_STATE t) uRearm)
      else
        let tag := streamTag run.stream run.seq
        let c := { r with opened := true, tag := tag, seq := run.seq, count := 0, body := [] }
        let h := h.prodStart run.queue prodAcq tag 56 {}
        ({ run with seq := (run.seq + 1) % 2 ^ 32 }, (h.commitFrag run c).recordEnd t tl)

/-- The stop index of a RECORD run becomes known. -/
def Hub.stopRecord (h : Hub) (t : Nat) (run : StreamRun) (s : Nat) : Hub :=
  let x := h.cutRecord t run s none
  x.2.putRun { x.1 with stop := some s }

/-- A commit ends the record in progress at a stop index: it is kept apart while its last rows come (R183, R380). -/
def Hub.tailRecord (h : Hub) (t : Nat) (run : StreamRun) (s : Nat) : Hub :=
  let u := h.unit t
  match u.rcd with
  | none => h
  | some r =>
    let x := (h.setUnit t { u with rcd := none, tails := u.tails ++ [⟨run.stream, run.first, run.armId, r⟩] }).cutRecord t run s (some r.no)
    x.2.putRun x.1

/-- Set the stop index of every run of a grid that has none lower. -/
def Hub.stopStreams (h : Hub) (g s : Nat) : Hub :=
  (h.acq.streams.flatMap (·.2)).foldl (fun h r0 =>
    if r0.grid = g ∧ r0.stop = none then
      match r0.record, h.unitOf r0.stream with
      | true, some t => h.stopRecord t r0 s
      | true, none => h.putRun { r0 with stop := some s }
      | false, _ => h.stopRun r0 s
    else h) h

/-- A packet of the unit is abandoned after STARVED: its indices are not packed (R259). -/
def Hub.acqStarved (h : Hub) (tag first count : Nat) : Hub :=
  let s := tag % 256
  let h := (h.runs s).foldl (fun h r =>
    match r.pkt with
    | some p => if p.tag = tag then h.putRun { r with pkt := none, skipTo := first + count } else h
    | none => h) h
  let skip := fun (r : Rec) =>
    if r.opened ∧ r.tag = tag then
      { r with opened := false, skipTo := first + count, frag := r.frag + 1, count := 0, body := [] } else r
  h.each (List.range 32) fun h t =>
    let u := h.unit t
    h.setUnit t { u with
      rcd := if h.unitOf s = some t then u.rcd.map skip else u.rcd
      tails := u.tails.map fun c => if c.stream = s then { c with rcd := skip c.rcd } else c }

/-- STARVED: the packet given up is one of the unit's, or a relief frame. -/
def Hub.starved (h : Hub) (q : Nat) : Hub :=
  match h.starve q with
  | (h, none) => h
  | (h, some r) => if r.prod = prodAcq then h.acqStarved r.tag r.pkt.first r.pkt.count else h

/-! ## Decisions (R182, R184, R185) -/

/-- Count a missed trigger and keep the first T (R185). -/
def Hub.miss (h : Hub) (t : Nat) (T : Nat) : Hub :=
  let h := h.bump (TRG_MISSED t) (TRG_SAT t)
  let u := h.unit t
  let u := { u with since := min (2 ^ 32 - 1) (u.since + 1) }
  if h.bit (TRG_MISS_HELD t) then h.setUnit t u
  else ((h.rsChange (0x50038 + 0x80 * t) (TRG_OVR t)).setUnit t { u with held := some T }).on (TRG_MISS_HELD t)

/-- Start a record. -/
def Hub.accept (h : Hub) (t : Nat) (run : StreamRun) (g : Trig) (ti first : Nat) (short : Bool) : Hub :=
  let post := h.get (TRG_POST t)
  let stop := ti + post
  let cut := match run.stop with
    | some s => min s stop
    | none => stop
  if cut ≤ first then h
  else
    let u := h.unit t
    let r : Rec := { no := h.get (TRG_RECORD_NO t), post := post, first := first, ti := ti, stop := cut, next := first, short := short
                     forced := g.forced, dist := g.dist, source := g.source, group := g.group, time := g.time
                     missed := u.since, origin := g.origin, word := g.word, trunc := decide (cut < stop) }
    let h := h.rsChange (0x50054 + 0x80 * t) (TRG_TI_OVR t)
    let h := (h.set (TRG_LAST_TI_LO t) ti).set (TRG_LAST_TI_HI t) (ti / 2 ^ 32)
    let h := (h.set (TRG_RECORD_NO t) (r.no + 1)).set (TRG_STATE t) uCollecting
    let h := if short then h.on (TRG_PRE_SHORT t) else h
    let h := if g.forced then h.on (TRG_FORCED t) else h
    let h := h.setUnit t { u with rcd := some r, since := 0, autoAt := none }
    let x := h.recRows t run (run.ring.filter fun e => decide (first ≤ e.1))
    x.2.putRun x.1

/-- TRIGGER_DECISION (R184, R185). -/
def Hub.decide1 (h : Hub) (t : Nat) (g : Trig) : Hub :=
  match h.unitRun t with
  | none => h
  | some run =>
    let st := h.uState t
    if st = uCollecting ∨ st = uRearm then h.miss t g.time
    else if st = uDisarmed then h
    else
      let ti := firstIndexAt run.epoch run.p run.q g.time
      let o := max run.first (match run.ring.head? with
        | some e => e.1
        | none => run.next)
      let pre := h.get (TRG_PRE t)
      if ti < o then h.bump (TRG_LATE t) (TRG_SAT t)
      else if ti < o + pre then
        (if h.bit (TRG_PRE_STRICT t) then h.bump (TRG_PRE_IGNORED t) (TRG_SAT t) else h.accept t run g ti o true)
      else h.accept t run g ti (ti - pre) false

/-- Width of a TRIG_OUT pulse in units of 2^-32 ns. -/
def Hub.trigOutWidth (h : Hub) (i : Nat) : Nat := max 1 (h.get (TRIGOUT_WIDTH i)) * 4 * nsU

/-- The TRIG_OUT balls a unit pulses when it fires (R187); the standby holds them inactive (R347). -/
def Hub.trigOut (h : Hub) (t : Nat) : Hub :=
  if h.dupStandby then h
  else h.each (List.range 4) fun h i =>
    if h.bit (TRIGOUT_EN i) ∧ h.get (TRIGOUT_UNIT i) = t then
      h.setAcq { h.acq with pulses := aInsert h.acq.pulses i (h.time.now + h.trigOutWidth i) }
    else h

/-- An instant as a TRIGGER frame carries it. -/
def wireTime (t : Nat) : Nat := t / 2 ^ 16 * 2 ^ 16

/-- Remember a distributed trigger: the last 64 for 1 s (R342) (DESIGN CHOICE, log entry 79). -/
def Hub.remember (h : Hub) (group origin T : Nat) : Hub :=
  h.setAcq { h.acq with seen := ((group, origin, wireTime T, h.time.now) :: h.acq.seen).take 64 }

/-- (DESIGN CHOICE, log entry 79). -/
def Hub.known (h : Hub) (group origin T : Nat) : Bool :=
  h.acq.seen.any fun e => e.1 == group && e.2.1 == origin && e.2.2.1 == wireTime T && decide (h.time.now ≤ e.2.2.2 + secU)

/-- A unit fires: TRIGGER frames and the hub's own units of the group (R186), UNIT sources, TRIG_OUT, then its decision (DEDUCED, log entry 78). -/
def Hub.fire : Nat → Nat → Trig → Hub → Hub
  | 0, _, _, h => h
  | fuel + 1, t, g, h =>
    if h.uState t = uDisarmed then h
    else
      let h := h.dupSend .trigger t (g.source + 256 * b2n g.forced) g.time
      let h := (h.trigOut t).decide1 t g
      let d := h.get (TRG_DIST_GROUP t)
      let h := if h.bit (TRG_DIST_OUT t) ∧ !g.dist then
          let h := (h.remember d h.route g.time).sendTrigger ⟨d, t, h.route, g.time⟩ none
          h.each ((List.range 32).filter fun u => h.get (TRG_SOURCE u) == 7 && h.get (TRG_SRC_IDX u) == d && u != t)
            fun h u => Hub.fire fuel u { time := g.time, source := 7, group := d, origin := h.route } h
        else h
      h.each ((List.range 32).filter fun u => h.get (TRG_SOURCE u) == 9 && h.get (TRG_SRC_IDX u) == t && u != t)
        fun h u => Hub.fire fuel u { time := g.time, source := 9, origin := g.origin } h

/-- A trigger of this hub's own sources; the standby's sources do not act (R352). -/
def Hub.trigger (h : Hub) (t : Nat) (g : Trig) : Hub := if h.dupStandby then h else Hub.fire 32 t g h

/-! ## Sources (R181) -/

def Hub.thresh (h : Hub) (t : Nat) : Int := toSigned 24 (h.get (TRG_THRESH t))
def Hub.hyst (h : Hub) (t : Nat) : Int := toSigned 24 (h.get (TRG_HYST t))

/-- What a sample does to a unit with a LEVEL, WINDOW or SLOPE source: its new state, and whether it fires. -/
def TUnit.sample (u : TUnit) (source cond : Nat) (th hy v : Int) : TUnit × Bool :=
  let n := { u with prev := some v }
  if source = 1 then
    let rise := u.lo && decide (th ≤ v) && cond != 1
    let fall := u.hi && decide (v ≤ th) && cond != 0
    ({ n with lo := decide (v < th - hy) || (u.lo && decide (v < th)), hi := decide (v > th + hy) || (u.hi && decide (v > th)) },
      rise || fall)
  else if source = 2 then
    let i := decide (hy ≤ v) && decide (v ≤ th)
    ({ n with inside := some i },
      decide (hy ≤ th) && (if cond = 0 then u.inside == some false && i else u.inside == some true && !i))
  else
    (n, match u.prev with
      | none => false
      | some p => if cond = 0 then decide (v - p ≥ th) else decide (v - p ≤ -th))

/-- A sample of a channel reaches the units whose source it is; one that carries SETTLE is not evaluated. -/
def Hub.trigSample (h : Hub) (n T word : Nat) : Hub :=
  if word / 128 % 2 = 1 then h
  else h.each (List.range 32) fun h t =>
    let src := h.get (TRG_SOURCE t)
    if 1 ≤ src ∧ src ≤ 3 ∧ h.get (TRG_SRC_CH t) = n ∧ h.uState t ≠ uDisarmed ∧ h.get (TRG_MODE t) ≠ 0 then
      let r := (h.unit t).sample src (h.get (TRG_COND t)) (h.thresh t) (h.hyst t) (toSigned 24 (word / 256))
      let h := h.setUnit t r.1
      if r.2 then h.trigger t { time := T, source := src, origin := h.route, word := word } else h
    else h

/-- Pin triggers at the end of the glitch filter. -/
def Hub.trigPin (h : Hub) (i T : Nat) : Hub :=
  h.each ((List.range 32).filter fun t => h.get (TRG_SOURCE t) == 4 && h.get (TRG_SRC_IDX t) == i) fun h t =>
    h.trigger t { time := T, source := 4, origin := h.route }

/-- GRID triggers at the instant of an index. -/
def Hub.trigGrid (h : Hub) (g n T : Nat) : Hub :=
  h.each ((List.range 32).filter fun t => h.get (TRG_SOURCE t) == 5 && ((h.unitRun t).map (·.grid)) == some g
      && n % (if h.thresh t ≤ 0 then 1 else (h.thresh t).toNat) == 0) fun h t =>
    h.trigger t { time := T, source := 5, origin := h.route }

/-- CARVER triggers: the event detector on a carver names an instant. -/
def Hub.trigCarver (h : Hub) (e T : Nat) : Hub :=
  h.each ((List.range 32).filter fun t => h.get (TRG_SOURCE t) == 6 && h.get (TRG_SRC_IDX t) == e) fun h t =>
    h.trigger t { time := T, source := 6, origin := h.route }

/-- A distributed trigger reaches the units of its group. -/
def Hub.trigDist (h : Hub) (m : TrigMsg) : Hub :=
  h.each ((List.range 32).filter fun t => h.get (TRG_SOURCE t) == 7 && h.get (TRG_SRC_IDX t) == m.group) fun h t =>
    h.trigger t { time := m.time, source := 7, group := m.group, origin := m.origin }

/-! ## Commands of a unit (R183, R190, R191) -/

/-- TRG_ARM. -/
def Hub.trgArm (h : Hub) (t : Nat) : Hub :=
  if h.get (TRG_MODE t) = 0 then h.on (TRG_WERR t)
  else if h.uState t = uDisarmed then
    let u := h.unit t
    let h := h.setUnit t { u with prev := none, lo := false, hi := false, inside := none, disarm := false, autoAt := some h.time.now }
    h.set (TRG_STATE t) (if h.get (TRG_FILL t) < h.get (TRG_PRE t) then uFilling else uArmed)
  else h

/-- TRG_DISARM. -/
def Hub.trgDisarm (h : Hub) (t : Nat) : Hub :=
  let st := h.uState t
  if st = uFilling ∨ st = uArmed then (h.set (TRG_STATE t) uDisarmed).setUnit t { h.unit t with autoAt := none }
  else if st = uCollecting ∨ st = uRearm then h.setUnit t { h.unit t with disarm := true }
  else h

/-- FORCE. -/
def Hub.trgForce (h : Hub) (t : Nat) : Hub :=
  if h.uState t = uDisarmed then h.on (TRG_WERR t)
  else h.trigger t { time := h.time.now, source := 8, origin := h.route }

def Hub.armAll (h : Hub) : Hub := h.each ((List.range 32).filter fun t => h.get (TRG_MODE t) != 0) Hub.trgArm
def Hub.disarmAll (h : Hub) : Hub := h.each (List.range 32) Hub.trgDisarm

/-- DIST_GROUP of a record with this source (R188). -/
def Hub.groupOf (h : Hub) (t source : Nat) : Nat := if source = 7 then h.get (TRG_SRC_IDX t) else 0

/-- AUTO_TIMEOUT (R185) (DEDUCED, log entry 78). -/
def Hub.autoTimeout (h : Hub) (t : Nat) : Hub :=
  match (h.unit t).autoAt with
  | none => h
  | some a =>
    if h.get (TRG_MODE t) = 3 ∧ (h.uState t = uFilling ∨ h.uState t = uArmed) then
      let T := a + max 1 (h.get (TRG_AUTO_TIMEOUT t)) * msU
      let h := (h.upTo T).setUnit t { h.unit t with autoAt := none }
      h.trigger t { time := T, source := h.get (TRG_SOURCE t), forced := true, group := h.groupOf t (h.get (TRG_SOURCE t)), origin := h.route }
    else h

/-- REARM_END (R183). -/
def Hub.rearmEnd (h : Hub) (t : Nat) : Hub :=
  if h.uState t = uRearm then
    let u := h.unit t
    if u.disarm ∨ h.get (TRG_MODE t) = 1 then (h.set (TRG_STATE t) uDisarmed).setUnit t { u with disarm := false }
    else (h.set (TRG_STATE t) uArmed).setUnit t { u with autoAt := some h.time.now }
  else h

/-- TRIG_OUT_PULSE_END (R187). -/
def Hub.trigOutEnd (h : Hub) (i : Nat) : Hub :=
  match aFind h.acq.pulses i with
  | none => h
  | some e => (h.upTo e).setAcq { h.acq with pulses := aErase h.acq.pulses i }

/-- The level of a TRIG_OUT ball: POLARITY inverts it (R187). -/
def Hub.trigOutLevel (h : Hub) (i : Nat) : Bool := (aFind h.acq.pulses i).isSome != h.bit (TRIGOUT_POLARITY i)

/-- A low-half read of the missed triplet releases the hold (R185). -/
def Hub.missRead (h : Hub) (t : Nat) : Hub := h.off (TRG_MISS_HELD t)

end Sys2Proof.Machine
end

