-- ==== Sys2Proof/Machine/Locks.lean ====
section
/-! DEFINITION. The 64 hardware locks (R209 to R212). -/

namespace Sys2Proof.Machine

def lockAcquired : Nat := 0
def lockAcquiredBroken : Nat := 1
def lockBusy : Nat := 2
def lockOwned : Nat := 3

def ownHost : Nat := 0x11
def ownDma (c : Nat) : Nat := 0x20 + c

/-- An acquisition attempt (R209). -/
def Hub.lockTry (h : Hub) (i owner : Nat) : Nat × Hub :=
  if h.bit (LOCK_STAT_HELD i) then (if h.get (LOCK_STAT_OWNER i) = owner then lockOwned else lockBusy, h)
  else
    (if h.bit (LOCK_STAT_BROKEN i) then lockAcquiredBroken else lockAcquired,
      ((h.on (LOCK_STAT_HELD i)).set (LOCK_STAT_OWNER i) owner).off (LOCK_STAT_BROKEN i))

/-- A release by the owner; any other is ignored. -/
def Hub.lockRelease (h : Hub) (i owner : Nat) : Hub :=
  if h.bit (LOCK_STAT_HELD i) ∧ h.get (LOCK_STAT_OWNER i) = owner then
    (h.off (LOCK_STAT_HELD i)).set (LOCK_STAT_LAST_OWNER i) owner
  else h

/-- The hardware breaks a held lock (R210). -/
def Hub.lockBreak (h : Hub) (i : Nat) : Hub :=
  if h.bit (LOCK_STAT_HELD i) then
    let o := h.get (LOCK_STAT_OWNER i)
    (((h.off (LOCK_STAT_HELD i)).on (LOCK_STAT_BROKEN i)).set (LOCK_STAT_LAST_OWNER i) o).log .lockBroken i o 0
  else h

/-- Break every lock an owner holds. -/
def Hub.breakAll (h : Hub) (owner : Nat) : Hub :=
  h.each ((List.range 64).filter fun i => h.bit (LOCK_STAT_HELD i) && h.get (LOCK_STAT_OWNER i) == owner) Hub.lockBreak

/-- A word read by an access path. -/
def Hub.setRd (h : Hub) (path v : Nat) : Hub := { h with rd := aInsert h.rd path v }

/-- LOCK_TRY: the host's attempt is a read of LOCK[i].TRY (R211). -/
def Hub.hostTry (h : Hub) (path i : Nat) : Hub :=
  let r := h.lockTry i ownHost
  r.2.setRd path (r.1 + 256 * r.2.get (LOCK_STAT_OWNER i))

/-- LOCK_RELEASE by the host. -/
def Hub.hostRelease (h : Hub) (i : Nat) : Hub :=
  if h.bit (LOCK_STAT_HELD i) ∧ h.get (LOCK_STAT_OWNER i) = ownHost then h.lockRelease i ownHost else h.on (LOCK_STAT_WERR i)

/-- BREAK: on a lock held by the host or by a FAULTED or HALTED carver (R211). -/
def Hub.hostBreak (h : Hub) (i : Nat) : Hub :=
  let o := h.get (LOCK_STAT_OWNER i)
  if h.bit (LOCK_STAT_HELD i) ∧ (o = ownHost ∨ (o < 16 ∧ (h.get (ENG_STATE o) = 3 ∨ h.get (ENG_STATE o) = 5))) then h.lockBreak i
  else h.on (LOCK_STAT_WERR i)

end Sys2Proof.Machine
end

