-- ==== Sys2Proof/Machine/Relief.lean ====
section
/-! DEFINITION. Relief elements, the relief combiner and relief frames (R217 to R227). -/

namespace Sys2Proof.Machine

/-! ## Elements (R217) -/

/-- The power of two of a scale. -/
def scalePow (s : Int) : ℚ := if 0 ≤ s then 2 ^ s.toNat else 1 / 2 ^ (-s).toNat

def elemTop : Int := 2 ^ 52 - 1

/-- A value as an element, and whether it was clamped. -/
def elemOf (s : Int) (v : ℚ) : Int × Bool :=
  let e := roundEven (v * scalePow s)
  if e > elemTop then (elemTop, true) else if e < -elemTop then (-elemTop, true) else (e, false)

/-- The identity of a combining rule. -/
def identity (c : Nat) : Int := if c = 0 then 0 else if c = 1 then 2 ^ 63 - 1 else -(2 ^ 63)

/-- An element of a binary32 result, whether it was clamped, and whether it was a NaN. -/
def elemOf32 (c : Nat) (s : Int) (b : Nat) : Int × Bool × Bool :=
  if fIsNaN b then (identity c, false, true)
  else if fIsInf b then (if fNeg b then -elemTop else elemTop, true, false)
  else let r := elemOf s (fVal b); (r.1, r.2, false)

/-- Combine two elements: SUM wraps in 64-bit two's complement. -/
def combine1 (c : Nat) (a b : Int) : Int :=
  if c = 0 then toSigned 64 (ofSigned 64 (a + b)) else if c = 1 then min a b else max a b

def combine (c : Nat) (a b : List Int) : List Int := a.zipWith (combine1 c) b

/-- Combine one element of a list. -/
def combineAt (c i : Nat) (v : Int) (l : List Int) : List Int := l.modify i fun a => combine1 c a v

def satAdd32 (a b : Nat) : Nat := min (2 ^ 32 - 1) (a + b)

/-! ## Slots -/

def Hub.slots (h : Hub) (s : Nat) : List Slot := aGet h.carve.slots s []
def Hub.setSlots (h : Hub) (s : Nat) (l : List Slot) : Hub :=
  h.setCarve { h.carve with slots := if l.isEmpty then aErase h.carve.slots s else aInsert h.carve.slots s l }

/-- The slot in force. -/
def Hub.slot (h : Hub) (s : Nat) : Option Slot := (h.slots s).getLast?

/-- Replace a definition of a slot (definitions differ in their first frame or armature). -/
def Hub.putSlot (h : Hub) (s : Nat) (x : Slot) : Hub :=
  h.setSlots s ((h.slots s).map fun e => if e.first = x.first ∧ e.armId = x.armId then x else e)

def Hub.slotCnt (h : Hub) (s : Nat) : SlotCnt := aGet h.carve.counts s {}
def Hub.setSlotCnt (h : Hub) (s : Nat) (c : SlotCnt) : Hub := h.setCarve { h.carve with counts := aInsert h.carve.counts s c }

/-- Count in a 32-bit counter of a slot. -/
def Hub.slotBump (h : Hub) (s : Nat) (g : SlotCnt → Nat) (p : SlotCnt → Nat → SlotCnt) : Hub :=
  let c := h.slotCnt s
  let v := min (2 ^ 32 - 1) (g c + 1)
  let d := p c v
  h.setSlotCnt s (if g c < 2 ^ 32 - 1 ∧ v = 2 ^ 32 - 1 then { d with sat := true } else d)

/-- The slot and the definition a frame index belongs to: the oldest whose frames are not all below it. -/
def Hub.slotFor (h : Hub) (s idx : Nat) : Option Slot :=
  match (h.slots s).find? fun x => match x.stop with
    | some e => decide (idx < e) && decide (x.first ≤ idx)
    | none => decide (x.first ≤ idx) with
  | some x => some x
  | none => h.slot s

/-- The slot a RELIEF_ID names. -/
def Hub.slotOfId (h : Hub) (id : Nat) : Option Nat :=
  (h.carve.slots.find? fun e => e.2.any fun x => x.id == id).map (·.1)

/-- Indices a frame covers (R195). -/
def Slot.count (x : Slot) (idx : Nat) : Nat := match x.stop with
  | some e => min x.len (e - idx)
  | none => x.len

/-- Every frame of the slot has been emitted. -/
def Slot.over (x : Slot) : Bool := match x.stop with
  | some e => decide (e ≤ x.next)
  | none => false

/-- A frame with nothing included: every element at the identity (R217); LOCAL_SKIP if a carver has skipped it (R197, R214). -/
def Slot.blank (x : Slot) (idx : Nat) : RFrame :=
  { index := idx, elems := List.replicate x.elems (identity x.combine), trunc := decide (x.count idx < x.len)
    skip := x.locals.any fun l => l.index == idx && l.lost }

/-- The carvers that write a frame of the slot. -/
def Slot.engsAt (x : Slot) (idx : Nat) : List Nat := ((x.engsWere.find? fun e => decide (idx < e.1)).map (·.2)).getD x.engs

def Slot.isOut (x : Slot) (idx : Nat) : Bool := decide (idx < x.next) || x.emitted.contains idx

/-- Add what one contribution carries (R219). -/
def RFrame.add (c : Nat) (f g : RFrame) : RFrame :=
  { f with elems := combine c f.elems g.elems, ports := g.ports ++ f.ports, localIn := f.localIn || g.localIn
           sat := f.sat || g.sat, restarted := f.restarted || g.restarted, trunc := f.trunc || g.trunc
           poison := f.poison || g.poison, subPartial := f.subPartial || g.subPartial
           status := f.status ||| g.status, qual := f.qual ||| g.qual, contrib := satAdd32 f.contrib g.contrib
           invalid := satAdd32 f.invalid g.invalid, flagged := satAdd32 f.flagged g.flagged, settle := g.settle ++ f.settle }

/-- Every expected contributor is included; a pair counts once (R220, R221). -/
def Slot.full (x : Slot) (f : RFrame) : Bool :=
  (!x.hasLocal || f.localIn) && x.ports.all fun p =>
    f.ports.contains p || x.pairs.any fun a => (a.1 == p && f.ports.contains a.2) || (a.2 == p && f.ports.contains a.1)

/-- The 64-byte header of R219. -/
def rlfHeader (type flags quality seq idx id grid status count elems issuer scale comb ports contrib expect invalid flagged late
    qual armId : Nat) : List (BitVec 8) :=
  leBytes 1 type ++ leBytes 1 flags ++ leBytes 1 1 ++ leBytes 1 quality ++ leBytes 4 seq ++ leBytes 8 idx ++ leBytes 2 id
    ++ leBytes 1 grid ++ leBytes 1 status ++ leBytes 2 count ++ leBytes 2 elems ++ leBytes 6 issuer ++ leBytes 1 scale
    ++ leBytes 1 comb ++ leBytes 8 ports ++ leBytes 4 contrib ++ leBytes 4 expect ++ leBytes 4 invalid ++ leBytes 4 flagged
    ++ leBytes 1 late ++ leBytes 1 qual ++ leBytes 2 0 ++ leBytes 4 armId

/-- A set of port numbers as a mask. -/
def portMask (l : List Nat) : Nat := (l.dedup.map (2 ^ ·)).sum

/-- Commit a relief packet into the slot's queue (DEDUCED, log entry 75). -/
def Hub.rlfCommit (h : Hub) (x : Slot) (idx count : Nat) (bytes : List (BitVec 8)) (f : RFrame) : Hub :=
  let tag := h.carve.tag
  let h := h.setCarve { h.carve with tag := tag + 1 }
  let p : Pkt := { words := wordsOf ((bytes.length + 3) / 4) bytes, len := bytes.length, relief := true, origin := h.route
                   stream := x.id, grid := x.grid, first := idx, count := count, indexed := true, poison := f.poison, owes := f.settle }
  (h.prodStart x.queue prodRelief tag bytes.length { p with words := [] }).prodCommit x.queue prodRelief tag p

/-- RELIEF_EMIT (R221, R222): the frame is committed, which settles what it includes, and the next frame is known. -/
def Hub.rlfEmit (h : Hub) (s : Nat) (x : Slot) (f : RFrame) : Hub :=
  let part := !x.full f
  let q := h.qualityAt (gridInstant x.epoch x.p x.q f.index)
  let flags := b2n part + 2 * b2n f.subPartial + 4 * b2n f.localIn + 8 * b2n f.sat + 16 * b2n f.restarted + 32 * b2n f.skip
    + 64 * b2n f.trunc + 128 * b2n f.poison
  let bytes := rlfHeader 0x10 flags q x.seq f.index x.id x.grid f.status (x.count f.index) x.elems h.route (ofSigned 8 x.scale)
    x.combine (portMask f.ports) f.contrib x.expect f.invalid f.flagged 0 (f.qual ||| 2 ^ q) x.armId
    ++ f.elems.flatMap fun e => leBytes 8 (ofSigned 64 e)
  let h := h.rlfCommit x f.index (x.count f.index) bytes f
  let outs := f.index :: x.emitted
  let step := fun (r : Nat × List Nat) (_ : Nat) => if r.2.contains r.1 then (r.1 + x.len, r.2.filter (· != r.1)) else r
  let r := (List.range (outs.length + 1)).foldl step (x.next, outs)
  let h := h.slotBump s (·.framesOut) fun c v => { c with framesOut := v }
  let h := if part then h.slotBump s (·.partialOut) fun c v => { c with partialOut := v } else h
  let h := if f.skip then h.slotBump s (·.skips) fun c v => { c with skips := v } else h
  let h := if h.snapOpen 0xC06C ∧ h.get RLF_SEL = s then h.setSlotCnt s { h.slotCnt s with ovr := true } else h
  let y : Slot := { x with seq := (x.seq + 1) % 2 ^ 32, next := r.1, emitted := r.2, opens := x.opens.filter (fun o => o.index != f.index)
                           past := (f.index, f.ports, f.localIn) :: x.past }
  if y.over ∧ 1 < (h.slots s).length then h.setSlots s ((h.slots s).filter fun e => !(e.first == x.first && e.armId == x.armId))
  else h.putSlot s y

/-- Emit an open frame once it is full. -/
def Hub.rlfTry (h : Hub) (s : Nat) (x : Slot) (idx : Nat) : Hub :=
  match x.opens.find? fun f => f.index == idx with
  | some f => if x.full f then h.rlfEmit s x f else h
  | none => h

/-- RELIEF_LATE (R223): a contribution from below goes on unchanged but for its type, ISSUER, LATE_PORT and EXPECT_COUNT, and for SEQ,
which numbers the frames of the stream and its issuer (R219) (DEDUCED, log entry 76). -/
def Hub.rlfLate (h : Hub) (s : Nat) (x : Slot) (g : RFrame) (port : Nat) (quality armId : Nat) (src : Option (List Nat)) : Hub :=
  let hdr := match src with
    | some ws =>
      let b := bytesOf (ws.take 16)
      leBytes 1 0x11 ++ (b.drop 1).take 3 ++ leBytes 4 x.seq ++ (b.drop 8).take 0x10 ++ leBytes 6 h.route ++ (b.drop 0x1E).take 0x0E ++ leBytes 4 0 ++ (b.drop 0x30).take 8
        ++ leBytes 1 port ++ b.drop 0x39
    | none =>
      rlfHeader 0x11 (4 + 8 * b2n g.sat + 16 * b2n g.restarted + 64 * b2n g.trunc) quality x.seq g.index x.id x.grid g.status
        (x.count g.index) x.elems h.route (ofSigned 8 x.scale) x.combine 0 1 0 g.invalid g.flagged port g.qual armId
  let body := match src with
    | some ws => bytesOf (ws.drop 16)
    | none => g.elems.flatMap fun e => leBytes 8 (ofSigned 64 e)
  let h := h.rlfCommit x g.index (x.count g.index) (hdr ++ body) g
  let h := h.slotBump s (·.lateOut) fun c v => { c with lateOut := v }
  h.putSlot s { x with seq := (x.seq + 1) % 2 ^ 32 }

/-- Include a contribution, opening its frame where it can open (R221). -/
def Hub.rlfInclude (h : Hub) (s : Nat) (x : Slot) (g : RFrame) : Hub :=
  let f := (x.opens.find? fun o => o.index == g.index).getD (x.blank g.index)
  let f := f.add x.combine g
  let y := { x with opens := f :: x.opens.filter fun o => o.index != g.index }
  (h.putSlot s y).rlfTry s y g.index

/-- The frame of an index can take a contribution now. -/
def Slot.canOpen (x : Slot) (idx : Nat) : Bool := x.opens.any (fun o => o.index == idx) || decide (x.opens.length < x.openMax)

/-! ## Local contributions -/

/-- One frame's local part goes on (R221, R223): the complete part is included, opening its frame where it can open, or is late; a frame
whose local input is complete opens; a part that was lost is forgotten once its frame is out. -/
def Hub.rlfServe1 (h : Hub) (s : Nat) (x : Slot) (l : RLocal) : Hub :=
  let all := (x.engsAt l.index).all l.done.contains
  let y := { x with locals := x.locals.filter fun e => e.index != l.index }
  if x.isOut l.index then
    if !all then h
    else if l.lost then h.putSlot s y
    else (h.putSlot s y).rlfLate s y l.acc 0xFF (h.qualityAt (gridInstant x.epoch x.p x.q l.index)) x.armId none
  else if !x.canOpen l.index then h
  else if all && !l.lost then (h.putSlot s y).rlfInclude s y l.acc
  else if (x.engsAt l.index).all l.ins.contains && !x.opens.any (fun o => o.index == l.index) then
    h.putSlot s { x with opens := x.blank l.index :: x.opens }
  else h

/-- The local parts of a slot that can go on now go on, in ascending frame order. -/
def Hub.rlfServePass (h : Hub) (s : Nat) : Hub :=
  let keys := (h.slots s).flatMap fun x => (x.locals.map (·.index)).mergeSort (· ≤ ·) |>.map fun i => (x.first, x.armId, i)
  keys.foldl (fun h k =>
    match (h.slots s).find? fun x => x.first == k.1 && x.armId == k.2.1 with
    | some x => match x.locals.find? fun l => l.index == k.2.2 with
      | some l => h.rlfServe1 s x l
      | none => h
    | none => h) h

/-- Every local part that can go on: what one frees, another takes (DEDUCED, log entry 77). -/
def Hub.rlfServe (h : Hub) (s : Nat) : Hub :=
  h.each (List.range (((h.slots s).map fun x => x.locals.length).sum)) fun h _ => h.rlfServePass s

/-! ## Contributions from below -/

/-- A downstream RELIEF frame's contribution, from its words (R219). -/
def contribOf (port : Nat) (rx : Option (Nat × Nat × Nat)) (ws : List Nat) : RFrame :=
  let b := bytesOf (ws.take 16)
  let fl := ofLe ((b.drop 1).take 1)
  { index := ofLe ((b.drop 8).take 8), ports := [port], sat := fl.testBit 3, restarted := fl.testBit 4, trunc := fl.testBit 6
    poison := fl.testBit 7, subPartial := fl.testBit 0 || fl.testBit 1, status := ofLe ((b.drop 0x13).take 1)
    qual := ofLe ((b.drop 0x39).take 1), contrib := ofLe ((b.drop 0x28).take 4), invalid := ofLe ((b.drop 0x30).take 4)
    flagged := ofLe ((b.drop 0x34).take 4), settle := rx.toList
    elems := (List.range ((ws.length - 16) / 2)).map fun i => toSigned 64 (ws.getD (16 + 2 * i) 0 + 2 ^ 32 * ws.getD (17 + 2 * i) 0) }

/-- A contribution does not fit its slot (R225). -/
def Slot.mismatch (x : Slot) (port : Nat) (ws : List Nat) : Bool :=
  let b := bytesOf (ws.take 16)
  !x.ports.contains port || ofLe ((b.drop 0x1E).take 1) != ofSigned 8 x.scale || ofLe ((b.drop 0x1F).take 1) != x.combine
    || ofLe ((b.drop 0x16).take 2) != x.elems || ofLe ((b.drop 0x12).take 1) != x.grid

/-- The pair partner of a port has contributed, or the port itself. -/
def Slot.twice (x : Slot) (port : Nat) (ports : List Nat) : Bool :=
  ports.contains port || x.pairs.any fun a => (a.1 == port && ports.contains a.2) || (a.2 == port && ports.contains a.1)

/-- A dropped contribution is settled at once (R224, R326). -/
def Hub.rlfDrop (h : Hub) (g : RFrame) : Hub := h.settleAll g.settle

/-- The relief frame at the head of a receive queue names a local slot (R331). -/
def Hub.rlfHead (h : Hub) (q : Nat) : Option (Pkt × Nat) :=
  match (h.q q).front with
  | none => none
  | some p =>
    if p.gap.isNone ∧ p.relief ∧ p.words.headD 0 % 256 = 0x10 then (h.slotOfId p.stream).map fun s => (p, s) else none

/-- RELIEF_CONTRIBUTION from downstream: the frame at the head of receive queue `q` is combined, dropped or late (DEDUCED, log entry 75). -/
def Hub.rlfContribution (h : Hub) (q : Nat) : Hub :=
  match h.rlfHead q with
  | none => h
  | some (p0, s) =>
    let (p, h) := h.readPkt q p0
    let port := p.port.getD 255
    let g := contribOf port p.rx (Pkt.out p)
    match h.slotFor s g.index with
    | none => h
    | some x =>
      let take := fun (h : Hub) => h.freePkts q fun k => k.qseq == p.qseq
      if g.index < ((h.slots s).headD x).first then
        (take (h.slotBump s (·.stale) fun c v => { c with stale := v })).rlfDrop g
      else if x.mismatch port p.words then
        (take ((h.slotBump s (·.mismatch) fun c v => { c with mismatch := v }).logFirst .rlfMismatch 0 s port 0)).rlfDrop g
      else if x.isOut g.index then
        if (x.past.any fun e => e.1 == g.index && x.twice port e.2.1) then
          (take (h.slotBump s (·.dup) fun c v => { c with dup := v })).rlfDrop g
        else (take h).rlfLate s x g port 0 0 (some p.words)
      else if (x.opens.any fun o => o.index == g.index && x.twice port o.ports) then
        (take (h.slotBump s (·.dup) fun c v => { c with dup := v })).rlfDrop g
      else if x.canOpen g.index then ((take h).rlfInclude s x g).rlfServe s
      else h

/-! ## What the carvers give (R196, R197, R214) -/

/-- Change the local part of a frame of a slot. -/
def Slot.modLocal (x : Slot) (idx : Nat) (f : RLocal → RLocal) : Slot :=
  let l := (x.locals.find? fun l => l.index == idx).getD { index := idx, acc := x.blank idx }
  { x with locals := f l :: x.locals.filter fun l => l.index != idx }

/-- The input of a carver's part of a frame is complete: the frame opens (R221). -/
def Hub.rlfInput (h : Hub) (s e idx : Nat) : Hub :=
  match h.slotFor s idx with
  | none => h
  | some x => if idx < x.first then h else (h.putSlot s (x.modLocal idx fun l => { l with ins := e :: l.ins })).rlfServe s

/-- The hub's whole local contribution to a frame, from what its carvers gave (R219). -/
def Hub.localWhole (h : Hub) (x : Slot) (g : RFrame) : RFrame :=
  { g with localIn := true, contrib := 1, trunc := g.trunc || decide (x.count g.index < x.len)
           qual := 2 ^ h.qualityAt (gridInstant x.epoch x.p x.q g.index) }

/-- A duplex pair compares the local contribution (R358). -/
def Hub.localCompare (h : Hub) (s : Nat) (x : Slot) (c : RFrame) : Hub :=
  let win := gridInstant x.epoch x.p x.q c.index / msU
  if h.get DUP_PSTATE = 0 then h else
    h.setPair { h.pair with
      parts := (win, 1, s, c.index, leBytes 8 c.index ++ c.elems.flatMap fun v => leBytes 8 (ofSigned 64 v)) :: h.pair.parts
      compareFrom := if c.restarted then aInsert h.pair.compareFrom (256 + s) (win + 1) else h.pair.compareFrom }

/-- One carver has finished its part of a frame, or skipped it, which makes the whole contribution absent and the frame LOCAL_SKIP (R196,
R197, R214) (DEDUCED, log entry 77). -/
def Hub.rlfLocal (h : Hub) (s e idx : Nat) (part : Option RFrame) : Hub :=
  match h.slotFor s idx with
  | none => h
  | some x =>
    if idx < x.first then h
    else
      let y := x.modLocal idx fun l => match part with
        | none => { l with done := e :: l.done, lost := true }
        | some g => { l with done := e :: l.done, acc := l.acc.add x.combine g }
      let y := if part.isSome then y
        else { y with opens := y.opens.map fun o => if o.index = idx then { o with skip := true } else o }
      match y.locals.find? fun l => l.index == idx && !l.lost && (y.engsAt idx).all l.done.contains with
      | none => (h.putSlot s y).rlfServe s
      | some l =>
        let c := h.localWhole y l.acc
        ((h.putSlot s (y.modLocal idx fun l => { l with acc := c })).localCompare s y c).rlfServe s

/-- The deadline of a frame (R221). -/
def Slot.deadline (x : Slot) (idx : Nat) : Nat :=
  gridInstant x.epoch x.p x.q (idx + x.count idx - 1) + x.waitUs * usU

/-- RELIEF_DEADLINE: the next frame of a slot reaches its deadline and is emitted with what it has. -/
def Hub.rlfDeadline (h : Hub) (s : Nat) : Hub :=
  match (h.slots s).find? fun x => !x.over with
  | none => h
  | some x =>
    let h := h.upTo (x.deadline x.next)
    (h.rlfEmit s x ((x.opens.find? fun o => o.index == x.next).getD (x.blank x.next))).rlfServe s

/-- RLF_CNT_CLR: the counters of the slot in RLF_SEL, not its SAT bit (R446). -/
def Hub.slotCntClr (h : Hub) : Hub :=
  let s := h.get RLF_SEL
  let c := h.slotCnt s
  h.setSlotCnt s { sat := c.sat, ovr := c.ovr, seqerr := c.seqerr }

end Sys2Proof.Machine
end

