-- ==== Sys2Proof/Machine/Carver.lean ====
section
/-! DEFINITION. The carver engines: frames, operators, window, mailbox, faults and restarts (R192 to R216). -/

namespace Sys2Proof.Machine

def eOff : Nat := 0
def eReady : Nat := 1
def eRunning : Nat := 2
def eFaulted : Nat := 3
def eRestarting : Nat := 4
def eHalted : Nat := 5

def Hub.eng (h : Hub) (e : Nat) : Eng := aGet h.carve.engs e {}
def Hub.setEng (h : Hub) (e : Nat) (x : Eng) : Hub := h.setCarve { h.carve with engs := aInsert h.carve.engs e x }
def Hub.eState (h : Hub) (e : Nat) : Nat := h.get (ENG_STATE e)

/-! ## Inputs (R194 to R196) -/

/-- A channel input of some task of the carver. -/
def Eng.wants (x : Eng) (n : Nat) (eng : Bool) : Bool :=
  (x.tasks ++ x.old.map (·.2)).any fun t => (t.kind == 1) == eng && t.inputs.any fun i => !i.fromTask && i.num == n

/-- A carver takes the words of a channel at an index if they are of its grid and still to come. -/
def Eng.take (x : Eng) (n idx : Nat) (g : Run) (eng : Bool) (words : List Nat) : Eng :=
  if x.wants n eng && x.epoch == g.epoch && x.p == g.p && x.q == g.q && decide (x.nextIn ≤ idx) then
    { x with cells := x.cells ++ [⟨idx, n, eng, words⟩], gen := x.gen + 1, blank := false }
  else x

/-- The words of a channel at an index reach the carvers that take them. -/
def Hub.carverCells (h : Hub) (n idx : Nat) (g : Run) (eng : Bool) (words : List Nat) : Hub :=
  h.setCarve { h.carve with
    engs := h.carve.engs.map fun e => (e.1, e.2.take n idx g eng words)
    coming := h.carve.coming.map fun e => (e.1, e.2.map fun x => x.take n idx g eng words) }

/-! ## The definitions of a task around a commit (R195) -/

/-- A definition a commit ended has no index at or above this one. -/
def Task.over (t : Task) (idx : Nat) : Bool := match t.stop with
  | some s => decide (s ≤ idx)
  | none => false

/-- The definition of task `k` that processes the frame at an index: the old one up to its stop index, the new one from its
first frame; between the two the task has no frame, and its operator is 0. -/
def Eng.taskAt (x : Eng) (idx k : Nat) : Task :=
  match x.old.find? fun o => o.1 == k && !o.2.over idx with
  | some o => o.2
  | none => match x.tasks[k]? with
    | some t => if idx < t.first then { op := 0 } else t
    | none => { op := 0 }

def Eng.tasksAt (x : Eng) (idx : Nat) : List Task := (List.range 8).map (x.taskAt idx)

/-- Some task has a frame at this index. -/
def Eng.busyAt (x : Eng) (idx : Nat) : Bool := (x.tasksAt idx).any fun t => t.op != 0

/-- The next frame that some task has: frames before the first frames are not requested (R195). -/
def Eng.advance (x : Eng) : Eng :=
  if x.busyAt x.nextIn then x
  else match (x.tasks.map (·.first)).filter (fun n => decide (x.nextIn < n)) with
    | [] => x
    | n :: l => { x with nextIn := l.foldl min n }

/-- Indices of a frame of `n` that a definition covers. -/
def Task.covers (t : Task) (idx n : Nat) : Nat := match t.stop with
  | some s => min n (s - idx)
  | none => n

/-- Indices the next frame holds (R195). -/
def Eng.count (x : Eng) : Nat := match x.stop with
  | some s => min x.len (s - x.nextIn)
  | none => x.len

/-- The next frame's input is complete (R196). -/
def Eng.complete (x : Eng) : Bool :=
  decide (0 < x.count) && x.busyAt x.nextIn && (x.tasksAt x.nextIn).all fun t => t.inputs.all fun i =>
    i.fromTask || (List.range (t.covers x.nextIn x.count)).all fun k => x.cells.any fun c => c.index == x.nextIn + k && c.chan == i.num && c.eng == (t.kind == 1)

/-! ## Operators (R198 to R203) -/

/-- What a task gives the tasks that take it: rows of binary32 results, the status of each row, per frame or per index. -/
structure TOut where
  rows : List (List Nat)
  stat : List Nat
  perFrame : Bool
  deriving DecidableEq, Repr

/-- The result of one task on one frame: its new state, its output, its elements (index, value, clamped, NaN), the counts of
its inputs and the rows at which DETECT fired. -/
structure TRes where
  task : Task
  out : TOut
  elems : List (Nat × Int × Bool × Bool)
  invalid : Nat
  flagged : Nat
  status : Nat
  restarted : Bool
  fires : List Nat
  deriving DecidableEq, Repr

/-- The value and status of one channel input at an index (R194). -/
def Hub.chanInput (h : Hub) (f : CFrame) (kind n : Nat) (q : Bool) (idx : Nat) : Nat × Nat :=
  match f.cells.find? fun (c : Cell) => c.index == idx && c.chan == n && c.eng == (kind == 1) with
  | none => (0, 0)
  | some c =>
    let k := if q ∧ 2 ≤ (if kind = 1 then c.words.length / 2 else c.words.length) then 1 else 0
    if kind = 1 then (c.words.getD (2 * k + 1) 0, c.words.getD (2 * k) 0 % 256 / 8 * 8)
    else
      let w := c.words.getD k 0
      (fMul (fOfInt (toSigned 24 (w / 256))) (linLsb (h.kind n) (h.chan n).topRange), w % 256 / 8 * 8)

/-- How many earlier inputs of the list name the same task: successive entries take its successive results (DEDUCED, log entry 71). -/
def nthOf (l : List TaskIn) (i : Nat) : Nat :=
  ((l.take i).filter fun (a : TaskIn) => a.fromTask && a.num == (l.getD i ⟨0, false, true⟩).num).length

/-- The inputs of a task at row `i` (DEDUCED, log entry 71). -/
def Hub.taskRow (h : Hub) (f : CFrame) (outs : List TOut) (t : Task) (i : Nat) : List (Nat × Nat) :=
  (List.range t.inputs.length).map fun k =>
    match t.inputs[k]? with
    | none => (0, 0)
    | some a =>
      if a.fromTask then
        match outs[a.num]? with
        | some o => ((o.rows.getD i []).getD (nthOf t.inputs k) 0, o.stat.getD i 0)
        | none => (0, 0)
      else h.chanInput f t.kind a.num a.q (f.index + i)

/-- An input is invalid (R203). -/
def Task.invalid (t : Task) (v : Nat × Nat) : Bool := !fFinite v.1 || (t.skip && v.2 != 0)

/-- Round a rational to 53 significant bits, ties to even (binary64 without its exponent limits). -/
def round64 (q : ℚ) : ℚ :=
  if q = 0 then 0
  else
    let n := q.num.natAbs
    let e : Int := (Nat.log2 n : Int) - Nat.log2 q.den
    let e := if (if 0 ≤ e then decide (q.den * 2 ^ e.toNat ≤ n) else decide (q.den ≤ n * 2 ^ (-e).toNat)) then e else e - 1
    roundEven (q * scalePow (52 - e)) * scalePow (e - 52)

/-- MODAL: one row of outputs, each a chain of fused multiply-adds (R199). -/
def modalRow (m : Nat → Nat) (ins outs : Nat) (xs : List Nat) : List Nat :=
  (List.range outs).map fun o => (List.range ins).foldl (fun y i => fFma (m (o * ins + i)) (xs.getD i 0) y) 0

/-- STATS of one channel over its valid values, in binary64 (R200) (DESIGN CHOICE, log entry 72). -/
def statsOf (mode : Nat) (vs : List ℚ) : List ℚ :=
  if mode = 0 then [vs.foldl (fun a v => round64 (a + v)) 0, vs.foldl (fun a v => round64 (a + round64 (v * v))) 0, vs.length]
  else match vs with
    | [] => []
    | v :: t => [t.foldl (if mode = 1 then min else max) v]

/-- One evaluation of DETECT on |x|: its new state and whether it fires (R202) (DEDUCED, log entry 73). -/
def Task.detect (t : Task) (x : Nat) : Task × Bool :=
  let a := x % 2 ^ 31
  let quiet := t.gap ≠ 0
  if t.mode = 0 then
    let fire := !quiet && fLe t.thresh a
    ({ t with evals := t.evals + 1, gap := if fire then t.minGap else t.gap - 1 }, fire)
  else
    let sta := fAdd t.sta (fMul (fSub a t.sta) (fRound (1 / 2 ^ t.staK) false))
    let lta := fAdd t.lta (fMul (fSub a t.lta) (fRound (1 / 2 ^ t.ltaK) false))
    let warm := decide (t.evals < 4 * 2 ^ t.ltaK)
    let pos := decide (0 < fVal lta)
    let high := pos && decide (fVal t.on * fVal lta ≤ fVal sta)
    let low := pos && decide (fVal sta ≤ fVal t.off * fVal lta)
    let fire := !warm && !quiet && t.armed && high
    ({ t with evals := t.evals + 1, sta := sta, lta := lta, armed := (t.armed && !fire) || low
              gap := if fire then t.minGap else t.gap - 1 }, fire)

/-- DETECT over rows; an invalid input is not evaluated. -/
def detectRows : Task → List (Nat × Nat) → Nat → List Nat → Task × List Nat
  | t, [], _, acc => (t, acc.reverse)
  | t, v :: vs, i, acc =>
    if t.invalid v then detectRows t vs (i + 1) acc
    else
      let r := t.detect v.1
      detectRows r.1 vs (i + 1) (if r.2 then i :: acc else acc)

/-! ## BANDPOWER (R201) -/

/-- The history after more rows: the latest `n`. -/
def pushPast (n : Nat) (past rows : List (List Nat)) : List (List Nat) := (past ++ rows).drop (past.length + rows.length - n)

/-- Sample k of N of a channel: history that is missing reads 0. -/
def pastAt (n : Nat) (past : List (List Nat)) (c k : Nat) : ℚ :=
  if k + past.length < n then 0 else fVal ((past.getD (k + past.length - n) []).getD c 0)

/-- A window's coefficient. -/
def windowAt (w n k : Nat) : ℚ := if w = 0 then 1 else Config.window w n k

/-- |X[k]|² of the windowed samples. -/
def binPower (w n : Nat) (x : Nat → ℚ) (k : Nat) : ℚ :=
  let part := fun (f : ℚ → ℚ) => ((List.range n).map fun i => windowAt w n i * x i * f ((k * i : Nat) / (n : ℚ))).sum
  part cosTurns ^ 2 + part sinTurns ^ 2

/-- The normalisation of a bin. -/
def binScale (w n k : Nat) : ℚ := (if k = 0 ∨ k = n / 2 then 1 else 2) / ((List.range n).map (windowAt w n)).sum ^ 2

/-- The power of a band. -/
def bandPower (w n : Nat) (x : Nat → ℚ) (b : Nat × Nat) : ℚ :=
  ((List.range (b.2 + 1 - b.1)).map fun i => binScale w n (b.1 + i) * binPower w n x (b.1 + i)).sum

/-- Free values a task draws in a frame. -/
def Task.draws (t : Task) : Nat := if t.op = 2 then t.inputs.length else if t.op = 3 then t.inputs.length * t.bands.length else 0

/-- The word of a carver's matrix bank. -/
def Eng.bankWord (x : Eng) (base bank size i : Nat) : Nat := aGet x.sram (base + 4 * (bank * size + i)) 0

/-- Run one task on a frame. `k0` is the draw counter for what the spec leaves open: the FFT's error, and what a task fed by STATS receives for
a channel with no valid input under MIN or MAX (DESIGN CHOICE, log entry 72). -/
def Hub.runTask (h : Hub) (e : Nat) (x : Eng) (f : CFrame) (outs : List TOut) (k : Nat) (t : Task) (comb : Nat) (scale : Int)
    (perIdx k0 : Nat) : TRes :=
  let fed := t.inputs.any fun (a : TaskIn) => a.fromTask && ((outs[a.num]?).elim false (·.perFrame))
  let n := if fed then 1 else t.covers f.index f.count
  let rows := (List.range n).map fun i => h.taskRow f outs t i
  let all := rows.flatten
  let stat := rows.map fun r => r.foldl (fun a v => a ||| v.2) 0
  let bad := (all.filter t.invalid).length
  let flg := (all.filter fun v => v.2 != 0).length
  let st := stat.foldl (· ||| ·) 0
  let el := fun (i : Nat) (b : Nat) => let r := elemOf32 comb scale b; (i, r.1, r.2.1, r.2.2)
  let mk := fun (t : Task) (o : TOut) (es : List (Nat × Int × Bool × Bool)) (rst : Bool) (fs : List Nat) =>
    (⟨{ t with frames := t.frames + 1 }, o, es, bad, flg, st, rst, fs⟩ : TRes)
  if t.op = 1 then
    let ins := t.inputs.length
    let m := if t.stop.isSome then (fun i => t.matrix.getD i 0)
      else x.bankWord (h.get (TASK_DATA_BASE e k)) (h.get (TASK_BANK e k)) (ins * t.outs)
    let ys := rows.map fun r => modalRow m ins t.outs (r.map fun v => if t.invalid v then 0 else v.1)
    let es := (List.range n).flatMap fun i => (List.range t.outs).map fun o => el (i * perIdx + t.base + o) ((ys.getD i []).getD o 0)
    mk t ⟨ys, stat, fed⟩ es false []
  else if t.op = 2 then
    let per := (List.range t.inputs.length).map fun c =>
      statsOf t.mode ((rows.map fun r => r.getD c (0, 0)).filterMap fun v => if t.invalid v then none else some (fVal v.1))
    let w := if t.mode = 0 then 3 else 1
    let es := (List.range per.length).flatMap fun c => (List.range w).map fun j =>
      match (per.getD c [])[j]? with
      | some v => let r := elemOf scale v; (t.base + w * c + j, r.1, r.2, false)
      | none => (t.base + w * c + j, identity comb, false, false)
    let given := (List.range per.length).flatMap fun c => match per.getD c [] with
      | [] => [(Config.datum (k0 + c)).toNat % 2 ^ 32]
      | l => l.map fun v => fRound v false
    mk t ⟨[given], [st], true⟩ es false []
  else if t.op = 3 then
    let t := { t with hist := t.hist + n, past := pushPast t.n t.past (rows.map fun r => r.map fun v => if t.invalid v then 0 else v.1) }
    let vs := (List.range t.inputs.length).flatMap fun c => (t.bands.mapIdx fun i b =>
      fRound (bandPower t.mode t.n (pastAt t.n t.past c) b + Config.fftError (k0 + c * t.bands.length + i)) false)
    mk t ⟨[vs], [st], true⟩ ((List.range vs.length).map fun i => el (t.base + i) (vs.getD i 0)) (decide (t.hist < t.n)) []
  else if t.op = 0 then ⟨t, ⟨[], [], false⟩, [], 0, 0, 0, false, []⟩
  else
    let r := detectRows t (rows.map fun l => l.getD 0 (0, 0)) 0 []
    let es := if t.countEn then let c := elemOf scale r.2.length; [(t.base, c.1, c.2, false)] else []
    mk r.1 ⟨rows.map fun l => l.map (·.1), stat, fed⟩ es (t.mode == 1 && decide (t.evals < 4 * 2 ^ t.ltaK)) r.2

/-- Run the tasks of a frame in ascending number (R193). -/
def Hub.runTasks (h : Hub) (e : Nat) (x : Eng) (f : CFrame) : List Task → Nat → List TOut → List TRes → Nat → List TRes
  | [], _, _, acc, _ => acc.reverse
  | t :: ts, k, outs, acc, k0 =>
    let s := t.slot.bind h.slot
    let r := h.runTask e x f outs k t (s.elim 0 (·.combine)) (s.elim 0 (·.scale)) (s.elim 0 fun s => s.elems / max 1 s.len) k0
    Hub.runTasks h e x f ts (k + 1) (outs ++ [r.out]) (r :: acc) (k0 + t.draws)

/-- What the tasks of a carver give one slot in a frame; `short` says that one of them had fewer than L indices. -/
def partOf (x : Slot) (idx : Nat) (short : Bool) (rs : List TRes) : RFrame :=
  rs.foldl (fun (f : RFrame) (r : TRes) =>
    { f with elems := r.elems.foldl (fun l v => combineAt x.combine v.1 v.2.1 l) f.elems
             sat := f.sat || r.elems.any (fun v => v.2.2.1)
             restarted := f.restarted || r.restarted, status := f.status ||| r.status
             invalid := satAdd32 f.invalid (r.invalid + (r.elems.filter fun v => v.2.2.2).length)
             flagged := satAdd32 f.flagged r.flagged }) { x.blank idx with trunc := short }

/-- Cycles of a task's frame (R198). -/
def Task.cycles (t : Task) (len : Nat) : Nat :=
  let c := t.inputs.length
  if t.op = 1 then 200 + len * ((t.outs + 15) / 16) * c
  else if t.op = 2 then 200 + len * ((c + 15) / 16) * 4
  else if t.op = 3 then 400 + c * (t.n * Nat.log2 t.n / 8 + t.n / 16 + t.n / 2)
  else 100 + 4 * len

/-- Operator state starts afresh (R197, R215). -/
def Task.restart (t : Task) : Task := { t with past := [], hist := 0, evals := 0, gap := 0, armed := true, sta := 0, lta := 0 }

/-- A stateful task: its relief carries RESTARTED after a start. -/
def Task.stateful (t : Task) : Bool := t.op == 3 || (t.op == 4 && t.mode == 1)

/-! ## Mailbox (R206 to R208) -/

/-- A reply: MB_OUT, DONE and the carver interrupt. -/
def Hub.mbReply (h : Hub) (e status : Nat) (rest : List Nat) : Hub :=
  let h := (h.set (MBOUT_WORD e 0) status).each (List.range rest.length) fun h i => h.set (MBOUT_WORD e (i + 1)) (rest.getD i 0)
  ((h.off (ENG_MB_BUSY e)).on (ENG_MB_DONE e)).irqEng e

def Hub.mbIn (h : Hub) (e i : Nat) : Nat := h.get (MBIN_WORD e i)

/-- The bytes of a task's shadow bank. -/
def Hub.shadow (h : Hub) (e k : Nat) (x : Eng) (t : Task) : List (BitVec 8) :=
  let n := t.inputs.length * t.outs
  bytesOf ((List.range n).map fun i => x.bankWord (h.get (TASK_DATA_BASE e k)) (1 - h.get (TASK_BANK e k)) n i)

/-- PARAM_SWAP_ATTEMPT at the start of a frame (R208) (DEDUCED, log entry 74). -/
def Hub.swapAttempt (h : Hub) (e idx : Nat) : Hub :=
  let x := h.eng e
  match x.swap with
  | none => h
  | some w =>
    if idx < w.index then h
    else match x.tasks[w.task]? with
      | none => h
      | some t =>
        let done := fun (h : Hub) => h.setEng e { h.eng e with swap := none }
        let r := match t.lock with
          | some l => h.lockTry l e
          | none => (lockAcquired, h)
        let free := fun (h : Hub) => match t.lock with
          | some l => h.lockRelease l e
          | none => h
        if r.1 = lockBusy then
          if w.tries + 1 = 64 then (done h).mbReply e 5 [] else h.setEng e { x with swap := some { w with tries := w.tries + 1 } }
        else if r.1 = lockAcquiredBroken then (done (free r.2)).mbReply e 4 []
        else if crc32c (h.shadow e w.task x t) = w.crc then
          (done ((free r.2).set (TASK_BANK e w.task) (1 - h.get (TASK_BANK e w.task)))).mbReply e (if idx = w.index then 0 else 1)
            [idx % 2 ^ 32, idx / 2 ^ 32]
        else (done (free r.2)).mbReply e 3 []

/-- A mailbox command (R206): refused while BUSY, answered NOT_RUNNING by a carver that is not RUNNING or READY (DEDUCED, log entry 26). -/
def Hub.mbCommand (h : Hub) (e : Nat) (f : Hub → Task → Hub) (takes : Task → Bool) : Hub :=
  if h.bit (ENG_MB_BUSY e) then h.on (ENG_MB_WERR e)
  else if h.eState e ≠ eReady ∧ h.eState e ≠ eRunning then h.mbReply e 6 []
  else match (h.eng e).tasks[h.mbIn e 0]? with
    | none => h.mbReply e 2 []
    | some t => if takes t then f h t else h.mbReply e 2 []

def Hub.modTask (h : Hub) (e k : Nat) (f : Task → Task) : Hub :=
  let x := h.eng e
  h.setEng e { x with tasks := x.tasks.modify k f }

/-- First index of the next frame a carver starts. -/
def Eng.upcoming (x : Eng) : Nat := (x.held.map (·.index)).getD x.nextIn

/-- PARAM_SWAP. -/
def Hub.paramSwap (h : Hub) (e : Nat) : Hub :=
  h.mbCommand e (fun h _ =>
    (h.on (ENG_MB_BUSY e)).setEng e
      { h.eng e with swap := some { task := h.mbIn e 0, index := h.mbIn e 1 + 2 ^ 32 * h.mbIn e 2, crc := h.mbIn e 3 } })
    fun t => t.op == 1

/-- TASK_QUERY. -/
def Hub.taskQuery (h : Hub) (e : Nat) : Hub :=
  h.mbCommand e (fun h t =>
    let k := h.mbIn e 0
    h.mbReply e 0 [t.frames % 2 ^ 32, h.get (TASK_LAST_FRAME_LO e k), h.get (TASK_LAST_FRAME_HI e k), h.get (TASK_LAST_CYCLES e k)])
    fun _ => true

/-- DETECT_RESET: from the next frame the task starts. -/
def Hub.detectReset (h : Hub) (e : Nat) : Hub :=
  h.mbCommand e (fun h _ => (h.modTask e (h.mbIn e 0) fun t => { t with reset := true }).mbReply e 0 []) fun t => t.op == 4

/-- DETECT_SET: values that are finite, not negative and with OFF at most ON. -/
def Hub.detectSet (h : Hub) (e : Nat) : Hub :=
  h.mbCommand e (fun h _ =>
    let a := h.mbIn e 1
    let b := h.mbIn e 2
    let c := h.mbIn e 3
    let ok := fun v => fFinite v && (!fNeg v || decide (fVal v = 0))
    if ok a && ok b && ok c && fLe c b then
      let n := (h.eng e).upcoming
      (h.modTask e (h.mbIn e 0) fun t => { t with staged := some (a, b, c), stagedAt := 0 }).mbReply e 0 [n % 2 ^ 32, n / 2 ^ 32]
    else h.mbReply e 3 []) fun t => t.op == 4

/-! ## Frames (R196, R197) -/

/-- The slots a carver's tasks write in a frame. -/
def Eng.slots (x : Eng) (idx : Nat) : List Nat := ((x.tasksAt idx).filterMap (·.slot)).dedup

/-- The local contribution of a frame is absent. -/
def Hub.skipFrame (h : Hub) (e idx : Nat) : Hub := h.each ((h.eng e).slots idx) fun h s => h.rlfLocal s e idx none

/-- What a task takes up at the start of a frame: a reset and staged values of DETECT. -/
def Task.begin (t : Task) (idx : Nat) : Task :=
  let t := if t.reset then { t.restart with reset := false } else t
  match t.staged with
  | some (a, b, c) => if t.stagedAt ≤ idx then { t with thresh := a, on := b, off := c, staged := none } else t
  | none => t

/-- A matrix that a commit staged comes into force (R380). -/
def Hub.flipBanks (h : Hub) (e idx : Nat) : Hub :=
  h.each (List.range (h.eng e).tasks.length) fun h k =>
    let x := h.eng e
    match (x.tasks[k]?).bind (·.flip) with
    | some n =>
      if n ≤ idx then
        (h.setEng e { x with tasks := x.tasks.modify k fun t => { t with flip := none } }).set (TASK_BANK e k)
          (1 - h.get (TASK_BANK e k))
      else h
    | none => h

/-- Operator state restarts (R197, R215): the relief of the stateful tasks carries RESTARTED. -/
def Hub.restartTasks (h : Hub) (e : Nat) : Hub :=
  let x := h.eng e
  let h := h.setEng e { x with tasks := x.tasks.map (·.restart), old := x.old.map fun o => (o.1, o.2.restart) }
  h.each (List.range x.tasks.length) fun h k =>
    h.set (TASK_RESTARTED e k) (b2n ((x.tasks[k]?).elim false Task.stateful))

/-- The first frame after a skipped one: operator state restarts at the skipped frame (R197). -/
def Hub.afterSkip (h : Hub) (e idx : Nat) : Hub :=
  let x := h.eng e
  if x.skips.any fun n => decide (n < idx) then
    (h.setEng e { x with skips := x.skips.filter fun n => decide (idx ≤ n) }).restartTasks e
  else h

/-- A frame starts: staged values apply, and a pending swap is tried. -/
def Hub.startFrame (h : Hub) (e : Nat) (f : CFrame) : Hub :=
  let h := h.afterSkip e f.index
  let x := h.eng e
  let h := (h.setEng e { x with running := some f, tasks := x.tasks.map (·.begin f.index) }).set (ENG_STATE e) eRunning
  (h.flipBanks e f.index).swapAttempt e f.index

/-- Load the matrices of the committed armature into bank A of each MODAL region; everything else is cleared (DESIGN CHOICE, log entry 44). -/
def Hub.loadMatrices (h : Hub) (e : Nat) : Hub :=
  let x := h.eng e
  let put := fun (m : AMap Nat) (k : Nat) => match x.tasks[k]? with
    | none => m
    | some t => (List.range t.matrix.length).foldl (fun m i => aInsert m (h.get (TASK_DATA_BASE e k) + 4 * i) (t.matrix.getD i 0)) m
  let h := h.setEng e { x with sram := (List.range x.tasks.length).foldl put [], blank := true
                               tasks := x.tasks.map fun t => { t with flip := none } }
  h.each (List.range x.tasks.length) fun h k => h.off (TASK_BANK e k)

/-- Show one task in its TASK registers (R228). -/
def Hub.showTask (h : Hub) (e k len base : Nat) (t : Task) : Hub :=
  let outs := if t.op = 1 then t.outs - 1 else if t.op = 3 then t.bands.length - 1 else 0
  (((((((((h.set (TASK_OP e k) t.op).set (TASK_INPUT_KIND e k) t.kind).set (TASK_SKIP_FLAGGED e k) (b2n t.skip)).set
    (TASK_RLF_SLOT e k) (t.slot.getD 0)).set (TASK_RLF_EN e k) (b2n t.slot.isSome)).set (TASK_INPUTS e k) t.inputs.length).set
    (TASK_OUTPUTS_M1 e k) outs).set (TASK_PARAM_LOCK e k) (t.lock.getD 0)).set (TASK_LOCK_EN e k) (b2n t.lock.isSome)).set
    (TASK_FRAME_LEN e k) len |>.set (TASK_DATA_BASE e k) base

/-- Show a carver's tasks in its TASK registers; an absent task's read 0 (R228). -/
def Hub.showTasks (h : Hub) (e len : Nat) (tasks : List Task) (bases : List Nat) : Hub :=
  h.each (List.range 8) fun h k =>
    match tasks[k]? with
    | none => h.offs [TASK_OP e k, TASK_INPUT_KIND e k, TASK_SKIP_FLAGGED e k, TASK_RLF_SLOT e k, TASK_RLF_EN e k, TASK_INPUTS e k,
        TASK_OUTPUTS_M1 e k, TASK_PARAM_LOCK e k, TASK_LOCK_EN e k, TASK_FRAME_LEN e k, TASK_DATA_BASE e k,
        TASK_LAST_FRAME_LO e k, TASK_LAST_FRAME_HI e k, TASK_LAST_CYCLES e k, TASK_BANK e k, TASK_RESTARTED e k]
    | some t => h.showTask e k len (bases.getD k 0) t

/-- Bytes of a task's data region (R198). -/
def Task.bytes (t : Task) (len : Nat) : Nat :=
  let c := t.inputs.length
  if t.op = 1 then 8 * c * t.outs + 8 * c * len + 4 * t.outs * len
  else if t.op = 2 then 8 * c * len + 24 * c
  else if t.op = 3 then 4 * c * t.n + 6 * t.n + 8 * t.bands.length * c
  else 64

/-- Data regions lie one after another from the base of the data region (DESIGN CHOICE, log entry 44). -/
def taskBases (len : Nat) (tasks : List Task) : List Nat :=
  (List.range tasks.length).map fun k => 0x10000 + ((tasks.take k).map fun t => (t.bytes len + 3) / 4 * 4).sum

/-- Definitions that wait for a carver. -/
def Hub.comings (h : Hub) (e : Nat) : List Eng := aGet h.carve.coming e []
def Hub.setComings (h : Hub) (e : Nat) (l : List Eng) : Hub :=
  h.setCarve { h.carve with coming := if l.isEmpty then aErase h.carve.coming e else aInsert h.carve.coming e l }

/-- The definition the committed armature gives a carver. -/
def Hub.lastEng (h : Hub) (e : Nat) : Eng := ((h.comings e).getLast?).getD (h.eng e)

/-- A carver whose old definition has done its last frame takes up the next definition a commit gave it (R195, R213). -/
def Hub.engSwitch1 (h : Hub) (e : Nat) : Hub :=
  let x := h.eng e
  match h.comings e with
  | [] => h
  | y :: rest =>
    let ended : Bool := match x.stop with
      | some s => decide (s ≤ x.nextIn)
      | none => x.tasks.isEmpty
    if ended ∧ x.running.isNone ∧ x.held.isNone then
      let st := h.eState e
      let h := (h.setEng e { y with swap := x.swap, autos := x.autos, gen := x.gen + y.gen + 1 }).setComings e rest
      let h := ((h.showTasks e y.len y.tasks (taskBases y.len y.tasks)).loadMatrices e).each (List.range y.tasks.length) fun h k =>
        h.set (TASK_RESTARTED e k) (b2n ((y.tasks[k]?).elim false Task.stateful))
      h.set (ENG_STATE e) (if y.tasks.isEmpty then eOff else if 3 ≤ st then st else eReady)
    else h

/-- Every definition that has no frame left gives way. -/
def Hub.engSwitch (h : Hub) (e : Nat) : Hub := h.each (List.range (h.comings e).length) fun h _ => h.engSwitch1 e

/-- FRAME_INPUT_COMPLETE (R196, R197): the frame opens in the slots it feeds (R221). -/
def Hub.frameComplete (h : Hub) (e : Nat) : Hub :=
  let h := h.engSwitch e
  let x := (h.eng e).advance
  if h.eState e = eOff ∨ !x.complete then h
  else
    let n := x.count
    let f : CFrame := ⟨x.nextIn, n, x.cells.filter fun (c : Cell) => decide (c.index < x.nextIn + n)⟩
    let h := h.setEng e { x with nextIn := x.nextIn + x.len, cells := x.cells.filter fun (c : Cell) => decide (x.nextIn + n ≤ c.index) }
    let h := h.each ((h.eng e).slots f.index) fun h s => h.rlfInput s e f.index
    let st := h.eState e
    if st = eFaulted ∨ st = eRestarting ∨ st = eHalted ∨ gridInstant x.epoch x.p x.q f.index < x.resumeAt then
      (h.skipFrame e f.index).engSwitch e
    else if st = eReady then h.startFrame e f
    else if x.held.isNone then h.setEng e { h.eng e with held := some f }
    else
      let h := ((h.bump (ENG_OVERRUNS e) (ENG_SAT e)).on (ENG_OVERRUN e)).logFirst .engOverrun 0 e (f.index % 2 ^ 32) (f.index / 2 ^ 32)
      let h := h.skipFrame e f.index
      h.setEng e { h.eng e with skips := (h.eng e).skips ++ [f.index] }

/-- Put the states of a frame's tasks back into the definitions they came from. -/
def Eng.putTasks (x : Eng) (idx : Nat) (rs : List TRes) : Eng :=
  { x with
    tasks := (List.range x.tasks.length).filterMap fun k =>
      match rs[k]? with
      | some r => if r.task.op ≠ 0 ∧ r.task.stop.isNone then some r.task else x.tasks[k]?
      | none => x.tasks[k]?
    old := (x.old.map fun o =>
      match rs[o.1]? with
      | some r => if !o.2.over idx && r.task.stop == o.2.stop then (o.1, r.task) else o
      | none => o).filter fun o => !o.2.over (idx + x.len) }

/-- FRAME_DONE (R196). -/
def Hub.frameDone (h : Hub) (e : Nat) : Hub :=
  let x := h.eng e
  match h.eState e, x.running with
  | 2, some f =>
    let ts := x.tasksAt f.index
    let rs := h.runTasks e x f ts 0 [] [] h.free
    let h := { h with free := h.free + (ts.map Task.draws).sum }
    let h := h.setEng e { x.putTasks f.index rs with running := none, held := none, gen := x.gen + 1, blank := false }
    let h := h.each ((List.range 8).filter fun k => (ts[k]?).elim false fun t => t.op != 0) fun h k =>
      let h := h.rsChange (0x3010C + 0x1000 * e + 0x20 * k) (TASK_OVR e k)
      let h := (h.set (TASK_LAST_FRAME_LO e k) f.index).set (TASK_LAST_FRAME_HI e k) (f.index / 2 ^ 32)
      (h.set (TASK_LAST_CYCLES e k) ((ts[k]?).elim 0 fun t => t.cycles x.len)).set (TASK_RESTARTED e k)
        (b2n ((rs[k]?).elim false (·.restarted)))
    let h := h.bump (ENG_FRAMES e) (ENG_SAT e)
    let h := h.each (x.slots f.index) fun h s =>
      match h.slotFor s f.index with
      | some sl =>
        let short := ts.any fun t => t.slot == some s && decide (t.covers f.index f.count < x.len)
        h.rlfLocal s e f.index (some (partOf sl f.index short (rs.filter fun r => r.task.slot == some s)))
      | none => h
    let fs := (rs.flatMap fun r => r.fires.map fun i => gridInstant x.epoch x.p x.q (f.index + (if r.out.perFrame then r.task.covers f.index f.count - 1 else i)))
    let h := h.each ((fs.dedup).mergeSort (· ≤ ·)) fun h t => h.trigCarver e t
    let h := h.set (ENG_STATE e) eReady
    match x.held with
    | some g => h.startFrame e g
    | none => h.engSwitch e
  | _, _ => h

/-! ## Faults and restarts (R213 to R216) -/

/-- A carver stops: its locks break, held frames are absent, a waiting swap is answered (DEDUCED, log entry 74). -/
def Hub.stopCarver (h : Hub) (e st : Nat) : Hub :=
  let x := h.eng e
  let h := (h.set (ENG_STATE e) st).breakAll e
  let h := h.each ((x.running.toList ++ x.held.toList).map (·.index)) fun h i => h.skipFrame e i
  let h := h.setEng e { h.eng e with running := none, held := none, swap := none }
  if x.swap.isSome then h.mbReply e 6 [] else h

/-- A restart begins. -/
def Hub.beginRestart (h : Hub) (e : Nat) : Hub :=
  ((h.set (ENG_STATE e) eRestarting).bump (ENG_RESTARTS e) (ENG_SAT e)).setEng e { h.eng e with restartAt := h.time.now }

/-- After a fault: at most 3 automatic restarts in any 60 s (R216). -/
def Hub.autoRestartEng (h : Hub) (e : Nat) : Hub :=
  if h.bit (ENG_AUTO_RESTART e) then
    let l := (h.eng e).autos.filter fun t => decide (h.time.now < t + 60 * secU)
    if l.length < 3 then (h.setEng e { h.eng e with autos := h.time.now :: l }).beginRestart e else h.on (ENG_RESTART_LIMIT e)
  else h

/-- A fault with its code, task and address (R214). -/
def Hub.engFault (h : Hub) (e code task addr : Nat) : Hub :=
  let h := (((h.stopCarver e eFaulted).set (ENG_FAULT e) code).set (ENG_FAULT_TASK e) task).set (ENG_FAULT_ADDR e) addr
  let h := ((h.bump (ENG_FAULTS e) (ENG_SAT e)).log .engFault e code task).irqEng e
  h.autoRestartEng e

/-- ENG_FAULT: ECC, CODE or BUS. -/
def Hub.engFaultEv (h : Hub) (e : Nat) (code : Fin 3) (task addr : Nat) : Hub :=
  if h.eState e = eReady ∨ h.eState e = eRunning then
    h.engFault e (if code = 0 then 1 else if code = 1 then 3 else 4) task addr
  else h

/-- HANG: a task runs longer than 4 frame durations. -/
def Hub.hang (h : Hub) (e task addr : Nat) : Hub := if h.eState e = eRunning then h.engFault e 2 task addr else h

/-- HALT: the same without a fault code. -/
def Hub.halt (h : Hub) (e : Nat) : Hub :=
  if h.eState e = eOff then h
  else
    let h := (h.stopCarver e eHalted).off (ENG_FAULT e)
    ((h.bump (ENG_FAULTS e) (ENG_SAT e)).log .engFault e 0 0).irqEng e

/-- ENG_RESTART by the host: its locks break, and RESTART_LIMIT clears. -/
def Hub.engRestart (h : Hub) (e : Nat) : Hub :=
  if h.eState e = eFaulted ∨ h.eState e = eHalted then ((h.off (ENG_RESTART_LIMIT e)).breakAll e).beginRestart e
  else h.on (ENG_WERR e)

/-- The parameters of the committed armature come into force again, and what the mailbox left for the next frame is gone (R215). -/
def Task.reload (t : Task) : Task :=
  { t with thresh := t.levels.1, on := t.levels.2.1, off := t.levels.2.2, staged := none, reset := false }

def Hub.reloadLevels (h : Hub) (e : Nat) : Hub :=
  let x := h.eng e
  h.setEng e { x with tasks := x.tasks.map (·.reload), skips := [] }

/-- RESTART_COMPLETE: reloaded and checked, or FAULTED with CODE (R215). -/
def Hub.restartComplete (h : Hub) (e : Nat) (ok : Bool) : Hub :=
  if h.eState e = eRestarting then
    let h := h.upTo ((h.eng e).restartAt)
    if ok then
      let h := (((h.loadMatrices e).reloadLevels e).on (ENG_PARAM_RELOADED e)).restartTasks e
      (h.setEng e { h.eng e with resumeAt := h.time.now }).set (ENG_STATE e) eReady
    else h.engFault e 3 0 0
  else h

/-! ## The window (R205) -/

/-- The MODAL task whose bank holds a local address: task number, and whether it is the shadow bank. -/
def Hub.bankAt (h : Hub) (e a : Nat) : Option (Nat × Bool) :=
  let x := h.eng e
  (List.range x.tasks.length).findSome? fun k =>
    match x.tasks[k]? with
    | none => none
    | some t =>
      let b := h.get (TASK_DATA_BASE e k)
      let n := 4 * t.inputs.length * t.outs
      if t.op = 1 ∧ b ≤ a ∧ a < b + 2 * n then some (k, (a - b) / n != h.get (TASK_BANK e k)) else none

def Hub.winNext (h : Hub) (e : Nat) : Hub := h.set (ENG_WIN_ADDR e) (h.get (ENG_WIN_ADDR e) / 4 * 4 + 4)

/-- A write of WIN_DATA: into a shadow bank whose PARAM_LOCK the host owns. -/
def Hub.winWrite (h : Hub) (e v : Nat) : Hub :=
  let a := h.get (ENG_WIN_ADDR e) / 4 * 4
  let x := h.eng e
  match h.bankAt e a with
  | some (k, true) =>
    match (x.tasks[k]?).bind (·.lock) with
    | some l =>
      if h.bit (LOCK_STAT_HELD l) ∧ h.get (LOCK_STAT_OWNER l) = ownHost then
        (h.setEng e { x with sram := aInsert x.sram a v }).winNext e
      else (h.on (ENG_WERR e)).winNext e
    | none => (h.on (ENG_WERR e)).winNext e
  | _ => (h.on (ENG_WERR e)).winNext e

/-- The word the DATA region stores outside the matrix banks: 0 while cleared, else what the operators keep (DESIGN CHOICE, log entry 44). -/
def Eng.kept (x : Eng) (e a : Nat) : Nat := if x.blank then 0 else (Config.sramWord e x.gen a).toNat

/-- A read of WIN_DATA: 0 in the CODE region, in the DATA region the word stored there. -/
def Hub.winRead (h : Hub) (path e : Nat) : Hub :=
  let a := h.get (ENG_WIN_ADDR e) / 4 * 4
  if a < 0x10000 then (h.setRd path 0).winNext e
  else match h.bankAt e a with
    | some _ => (h.setRd path (aGet (h.eng e).sram a 0)).winNext e
    | none => (h.setRd path ((h.eng e).kept e a)).winNext e

/-- An access to WIN_DATA: the hub's own rules for a host write, or a read. -/
def Hub.winAccess (h : Hub) (path e : Nat) (wr : Option Word) : Hub :=
  match wr with
  | some v => h.hostWr (0x30044 + 0x1000 * e) v.toNat fun h => h.winWrite e v.toNat
  | none => if h.served (0x30044 + 0x1000 * e) then h.winRead path e else h

end Sys2Proof.Machine
end

