-- ==== Sys2Proof/Machine/Window.lean ====
section
/-! DEFINITION. The bytes of buffer memory (R248, R249): one list in canonical form, the host region, ECC, the scrubber,
the paged window (R252, R447, R448) and what host decompression jobs do to it (R245, R246). -/

namespace Sys2Proof.Machine

/-! ## Bytes -/

/-- Buffer memory: the bytes that are not zero, addresses rising; the gesso pass wipes it (R22). `bad` lists the 64-bit
words that hold an uncorrectable error, by word number, rising. -/
structure Mem where
  cells : List Host.Cell := []
  bad : List Nat := []
  deriving DecidableEq, Repr

/-- The canonical form of memory: addresses strictly rising, no entry equal to what an unlisted address reads as. -/
def memoryWf : List Host.Cell → Bool
  | [] => true
  | [(_, b)] => b != 0
  | (a, b) :: (a', b') :: t => b != 0 && decide (a < a') && memoryWf ((a', b') :: t)

/-- One byte; an unlisted address reads as zero (DEDUCED, log entry 3). -/
def memRead : List Host.Cell → Nat → BitVec 8
  | [], _ => 0
  | (a', b') :: t, a => if a' = a then b' else memRead t a

/-- Write one byte; a zero byte is taken off the list. -/
def memWrite : List Host.Cell → Nat → BitVec 8 → List Host.Cell
  | [], a, b => if b = 0 then [] else [(a, b)]
  | (a', b') :: t, a, b =>
    if a < a' then (if b = 0 then (a', b') :: t else (a, b) :: (a', b') :: t)
    else if a' = a then (if b = 0 then t else (a, b) :: t)
    else (a', b') :: memWrite t a b

/-- Write bytes at rising addresses. -/
def memPut (m : List Host.Cell) (a : Nat) : List (BitVec 8) → List Host.Cell
  | [] => m
  | b :: t => memPut (memWrite m a b) (a + 1) t

/-- `n` bytes from an address. -/
def memBytes (m : List Host.Cell) (a n : Nat) : List (BitVec 8) := (List.range n).map fun i => memRead m (a + i)

/-- List a number in a rising list, once. -/
def insertNat : List Nat → Nat → List Nat
  | [], k => [k]
  | x :: t, k => if k < x then k :: x :: t else if k = x then x :: t else x :: insertNat t k

/-- Write bytes; a word with an uncorrectable error keeps it (R448). -/
def Mem.put (m : Mem) (a : Nat) (bs : List (BitVec 8)) : Mem := { m with cells := memPut m.cells a bs }

/-- An aligned WRITE64: the whole 64-bit word with fresh check bits, whatever it held (R448). -/
def Mem.put64 (m : Mem) (a : Nat) (bs : List (BitVec 8)) : Mem :=
  { cells := memPut m.cells a bs, bad := m.bad.filter fun w => w != a / 8 }

/-- A 32-bit word. -/
def Mem.word (m : Mem) (a : Nat) : Nat := ofLe (memBytes m.cells a 4)

/-- An uncorrectable error lies in the word of an address. -/
def Mem.isBad (m : Mem) (a : Nat) : Bool := m.bad.contains (a / 8)

def Mem.spoil (m : Mem) (a : Nat) : Mem := { m with bad := insertNat m.bad (a / 8) }

/-! ## The hub with its memory -/

/-- The hub, its buffer memory and its flash and fuses. -/
structure Hw where
  hub : Hub
  mem : Mem
  nv : Nv
  deriving DecidableEq, Repr

/-- A meaning that touches neither memory nor flash. -/
def Hw.onHub (w : Hw) (f : Hub → Hub) : Hw := { w with hub := f w.hub }
def Hw.setHub (w : Hw) (h : Hub) : Hw := { w with hub := h }
def Hw.setMem (w : Hw) (m : Mem) : Hw := { w with mem := m }
def Hw.setNv (w : Hw) (n : Nv) : Hw := { w with nv := n }
def Hw.onNv (w : Hw) (f : Nv → Nv) : Hw := { w with nv := f w.nv }

/-- A host write of a register that reaches memory or flash. -/
def Hw.hostWr (w : Hw) (addr val : Nat) (f : Hw → Hw) : Hw :=
  if !w.hub.served addr then w
  else if mirroredAddr addr then
    if w.hub.dupStandby then (if 0xD000 ≤ addr ∧ addr < 0xE000 then w else w.onHub fun h => h.on (mirrorWerr addr))
    else if w.hub.dupActive ∧ (f (w.onHub fun h => h.off (mirrorWerr addr))).hub.get (mirrorWerr addr) = 0 then
      (f w).onHub fun h => h.dupEvent .regWrite addr val
    else f w
  else f w

/-! ## Pages (R248, R250, R252) -/

def sysPages : Nat := 256
def memPages : Nat := 65536

/-- A page of no partition, above the SYSTEM region. -/
def Hub.hostPage (h : Hub) (p : Nat) : Bool :=
  decide (sysPages ≤ p) && decide (p < memPages) && !h.mm.parts.any fun e => decide (e.2.first ≤ p) && decide (p < e.2.first + e.2.count)

/-- Every page of a range of bytes is host region. -/
def Hub.hostRange (h : Hub) (a n : Nat) : Bool :=
  (List.range ((a + n - 1) / 4096 - a / 4096 + 1)).all fun i => h.hostPage (a / 4096 + i)

/-! ## The scrubber (R249) -/

/-- SCRUB_PASS: the scrubber corrects `ce` words and leaves the uncorrectable ones at `ues` as stored. -/
def Hw.scrubPass (w : Hw) (ce : Nat) (ues : List (Fin (2 ^ 28))) : Hw :=
  if w.hub.bit MEM_SCRUB_EN ∧ w.hub.pwr.phase = .run then
    let m := ues.foldl (fun m a => m.spoil a.val) w.mem
    let h := w.hub.bumpBy MEM_CE_COUNT MEM_SAT ce
    { w with hub := ues.foldl (fun h a => h.ueAt a.val) h, mem := m }
  else w

/-! ## The window (R447, R448) -/

/-- The buffer byte address an offset of the window reaches. -/
def Hub.windowAt (h : Hub) (off : Nat) : Nat := h.get MEM_BASE * 2 ^ 20 + off / 4 * 4

/-- A 32-bit write that merges with its 64-bit word. -/
def Hw.windowMerge (w : Hw) (a v : Nat) : Hw :=
  if !w.hub.hostPage (a / 4096) then w.onHub fun h => h.on MEM_WERR
  else if w.mem.isBad a then w.onHub fun h => h.ueAt a
  else w.setMem (w.mem.put a (leBytes 4 v))

/-- A write of one register of the window, or of two by WRITE64. -/
def Hw.windowWrite (w : Hw) (off v : Nat) (v2 : Option Nat) : Hw :=
  let a := w.hub.windowAt off
  match v2 with
  | none => w.windowMerge a v
  | some u =>
    if a % 8 = 0 then
      if w.hub.hostPage (a / 4096) then w.setMem (w.mem.put64 a (leBytes 4 v ++ leBytes 4 u))
      else w.onHub fun h => h.on MEM_WERR
    else if off / 4 * 4 + 4 < 2 ^ 20 then (w.windowMerge a v).windowMerge (a + 4) u
    else w.windowMerge a v

/-- A read of one register of the window: 0 for a SYSTEM page; how packets lie in the pages of a partition is open (DEDUCED, log entry 81) (DESIGN CHOICE, log entry 82). -/
def Hw.windowRead (w : Hw) (off : Nat) : Nat × Hw :=
  let a := w.hub.windowAt off
  if a / 4096 < sysPages then (0, w)
  else
    let w' := if w.mem.isBad a then w.onHub fun h => h.ueAt a else w
    if w.hub.hostPage (a / 4096) then (w.mem.word a, w')
    else (ofLe ((List.range 4).map fun i => Config.heldByte w.hub.free (a + i)), w'.onHub Hub.draw)

/-- WINDOW_ACCESS. `err` is what the memory finds in the word: nothing, a single-bit error, an uncorrectable one. -/
def Hw.windowAccess (w : Hw) (path off : Nat) (wr : Option (Word × Option Word)) (err : Fin 3) : Hw :=
  if !w.hub.served 0x100000 then w
  else
    let w := if err = 1 then w.onHub fun h => h.bump MEM_CE_COUNT MEM_SAT
      else if err = 2 then w.setMem (w.mem.spoil (w.hub.windowAt off)) else w
    match wr with
    | some (v, v2) => w.windowWrite off v.toNat (v2.map (·.toNat))
    | none =>
      let r := w.windowRead off
      r.2.onHub fun h => h.setRd path r.1

/-! ## Host decompression jobs (R245, R246) -/

/-- The bytes a job reads: pages of a partition hold what their packets put there, which is open (DESIGN CHOICE, log entry 82). -/
def Hw.jobBytes (w : Hw) (a n : Nat) : List (BitVec 8) :=
  (List.range n).map fun i =>
    if w.hub.hostPage ((a + i) / 4096) then memRead w.mem.cells (a + i) else Config.heldByte w.hub.free (a + i)

/-- Write the bytes of a job that fall into host-region pages. -/
def Hw.jobPut (w : Hw) (a : Nat) (bs : List (BitVec 8)) : Hw := if w.hub.hostRange a bs.length then w.setMem (w.mem.put a bs) else w

/-- DCMP_JOB_DONE (DEDUCED, log entry 83). -/
def Hw.dcmpDone (w : Hw) : Hw :=
  match w.hub.cmp.job with
  | none => w
  | some (a, n, b, m, x, skip) =>
    let r := dcmpResult (w.jobBytes a n) m x (max 1 (Config.rowUnits w.hub.free)) skip
    let w := w.jobPut b (r.2.1.take m)
    w.onHub fun h => h.draw.dcmpEnd r.1 r.2.1.length r.2.2

/-- DCMP_ABORT: the job ends with code 8 after `out` bytes. -/
def Hw.dcmpAbort (w : Hw) (out : Nat) : Hw :=
  match w.hub.cmp.job with
  | none => w
  | some (a, n, b, m, _, _) =>
    let r := inflate (w.jobBytes a n) m
    let k := min out r.2.1.length
    (w.jobPut b (r.2.1.take k)).onHub fun h => h.draw.dcmpEnd 8 k (min n r.2.2)

/-! ## The patina store and the flash (R124, R126, R127) -/

/-- The slot number of a settings slot bound to the running cast's slot; none: no slot bound. -/
def Hw.boundSlot (w : Hw) : Option Nat :=
  let s := if w.hub.get UPD_STAT_RUN_SLOT = 0 then w.nv.boot.setA else w.nv.boot.setB
  if s = 0xFF then none else some s

/-- The governing copy of a settings slot: a valid CRC and the higher WRITE_SEQ (R403). -/
def Hw.setCopy (w : Hw) (s : Nat) : Option SetCopy :=
  let a := aGet w.nv.settings (2 * s) {}
  let b := aGet w.nv.settings (2 * s + 1) {}
  if a.ok ∧ b.ok then some (if (b.seq + 2 ^ 32 - a.seq) % 2 ^ 32 < 2 ^ 31 then b else a)
  else if a.ok then some a else if b.ok then some b else none

/-- The settings image in use, as the patina store takes it. -/
def Hw.setImage (w : Hw) : Option (AMap Nat) := (w.boundSlot.bind w.setCopy).map (·.img)

/-- CHECK and RELOAD of the patina store. -/
def Hw.patCheck (w : Hw) : Hw := w.onHub fun h => h.patCheck w.nv.factory w.setImage
def Hw.patReload (w : Hw) : Hw := w.onHub fun h => h.patLoad w.nv.factory w.setImage

/-- HK_PAT_DATA: a write or a read by a path. -/
def Hub.patAccess (h : Hub) (path : Nat) (wr : Option Word) : Hub :=
  if !h.served 0x2214 then h
  else match wr with
    | some v => h.patWrite v.toNat
    | none => (h.patRead.2).setRd path h.patRead.1

end Sys2Proof.Machine
end

