-- ==== Sys2Proof/Machine/Dma.lean ====
section
/-! DEFINITION. The DMA channels (R269 to R276) and the remote memory requests that carry their REMOTE endpoints (R340). -/

namespace Sys2Proof.Machine

def dsIdle : Nat := 0
def dsRunning : Nat := 1
def dsLockWait : Nat := 2
def dsHalted : Nat := 3

/-- The fault codes of R274. -/
def dfPage : Nat := 1
def dfEcc : Nat := 2
def dfLink : Nat := 3
def dfBadDesc : Nat := 4
def dfLockTimeout : Nat := 5
def dfLockBroken : Nat := 6
def dfRefused : Nat := 7
def dfQueue : Nat := 8

/-- Endpoint kinds (R271). -/
def ekMem : Nat := 0
def ekQueue : Nat := 1
def ekFlash : Nat := 2
def ekRemote : Nat := 3

def Hub.dmaSt (h : Hub) (c : Nat) : DmaSt := aGet h.dma c {}
def Hub.setDma (h : Hub) (c : Nat) (d : DmaSt) : Hub := { h with dma := aInsert h.dma c d }

/-- What stops a channel at a word: the code, whether on the destination side, the address. -/
structure Halt where
  code : Nat
  dst : Bool
  addr : Nat
  deriving DecidableEq, Repr

/-- The channel may touch the page of an address (R269). -/
def Hub.dmaPage (h : Hub) (c a : Nat) : Bool :=
  decide (h.get (DMA_PAGE_FIRST c) ≤ a / 4096) && decide (a / 4096 ≤ h.get (DMA_PAGE_LAST c)) && h.hostPage (a / 4096)

/-- LOCK and LOCK_HELD follow the locks the channel owns. -/
def Hub.dmaShowLock (h : Hub) (c : Nat) : Hub :=
  match (List.range 64).find? fun i => h.bit (LOCK_STAT_HELD i) && h.get (LOCK_STAT_OWNER i) == ownDma c with
  | some i => (h.set (DMA_LOCK c) i).on (DMA_LOCK_HELD c)
  | none => (h.off (DMA_LOCK c)).off (DMA_LOCK_HELD c)

/-- A requester that halts gives up its grants at the end of the word in progress (R291). -/
def Hub.arbRelent (h : Hub) (who : Nat) : Hub :=
  h.setArb { h.arb with res := h.arb.res.map fun e =>
    (e.1, { e.2 with holder := e.2.holder.map fun q => if q.who = who then { q with words := q.done + 1 } else q }) }

/-- A requester that is aborted withdraws the requests that wait (R291) (DEDUCED, log entry 87). -/
def Hub.arbWithdraw (h : Hub) (who : Nat) : Hub :=
  (h.arbRelent who).setArb { (h.arbRelent who).arb with res := (h.arbRelent who).arb.res.map fun e =>
    (e.1, { e.2 with waiting := e.2.waiting.filter fun q => q.who != who }) }

/-- Bytes 0x30 to 0x3B of the descriptor (R270). -/
def Hw.dmaWriteBack (w : Hw) (c code : Nat) (delayed poison : Bool) (len wait : Nat) : Hw :=
  let a := w.hub.get (DMA_CUR_DESC c)
  if w.hub.dmaPage c a then
    w.setMem (w.mem.put (a + 0x30)
      (leBytes 4 (code + 16 * b2n delayed + 32 * b2n poison) ++ leBytes 4 len ++ leBytes 4 (min wait (2 ^ 32 - 1))))
  else w

/-- A channel halts at the exact word (R274) (DEDUCED, log entry 36). -/
def Hw.dmaHalt (w : Hw) (c : Nat) (f : Halt) : Hw :=
  let h := w.hub
  let d := h.dmaSt c
  let w := w.dmaWriteBack c f.code false d.poison (h.get (DMA_PROGRESS c)) (h.get (DMA_WAIT c))
  w.onHub fun h =>
    let h := (((h.set (DMA_STATE c) dsHalted).set (DMA_FAULT c) f.code).set (DMA_FAULT_DST c) (b2n f.dst)).set (DMA_FAULT_ADDR c) f.addr
    let h := h.setDma c { h.dmaSt c with reqs := [], asked := h.get (DMA_PROGRESS c) }
    ((((h.bump (DMA_FAULTS c) (DMA_SAT c)).irqDma c).log .dmaFault c f.code f.addr).dmaShowLock c).arbRelent (ownDma c)

/-! ## Descriptors (R270, R271) -/

def parseDesc (addr : Nat) (b : List (BitVec 8)) : Desc :=
  let ctl := ofLe (b.take 4)
  let at8 := fun o => ofLe ((b.drop o).take 8)
  { addr := addr, srcKind := bitsAt ctl 0 3, dstKind := bitsAt ctl 3 3, chain := bitsAt ctl 6 1 == 1, irq := bitsAt ctl 7 1 == 1
    lockAcq := bitsAt ctl 8 1 == 1, lockRel := bitsAt ctl 9 1 == 1, lockNum := bitsAt ctl 10 6, lockWait := bitsAt ctl 16 16
    len := ofLe ((b.drop 4).take 4), src := at8 8, dst := at8 0x10, route := at8 0x18 % 2 ^ 48
    next := ofLe ((b.drop 0x20).take 4) % 2 ^ 28 }

/-- The combinations of endpoints the hub allows. -/
def endpointsOk (s d : Nat) : Bool :=
  (s == ekMem && d == ekMem) || ((s == ekMem || s == ekFlash) && d == ekQueue) || (s == ekQueue && d == ekMem)
    || (s == ekMem && d == ekRemote) || (s == ekRemote && d == ekMem)

def Desc.ok (d : Desc) : Bool :=
  endpointsOk d.srcKind d.dstKind && d.next % 64 == 0 && d.len != 0 && d.len % 4 == 0 && decide (d.len ≤ 16777212)
    && (d.dstKind != ekQueue || decide (d.len ≤ 16440))

/-- The byte address of a MEM endpoint. -/
def memEnd (a : Nat) : Nat := a % 2 ^ 28 / 4 * 4

/-- The byte address of the REMOTE side. -/
def Desc.remoteEnd (d : Desc) : Nat := if d.dstKind = ekRemote then memEnd d.dst else memEnd d.src

/-! ## Moving words (R270, R274) -/

/-- The stored form of a packet (R254). -/
def Pkt.stored (p : Pkt) : List (BitVec 8) :=
  let b := (bytesOf p.out).take p.len
  leBytes 2 p.len ++ leBytes 1 (b2n p.poison + 2 * b2n p.isGap) ++ leBytes 1 0 ++ leBytes 4 p.qseq ++ b
    ++ List.replicate (4 * need p.len - 8 - b.length) 0

def Hub.dmaMoved (h : Hub) (c : Nat) : Hub := h.set (DMA_PROGRESS c) (h.get (DMA_PROGRESS c) + 4)

/-- Move the word at PROGRESS of a descriptor whose source is MEM or FLASH; `v` is the word the flash gives. -/
def Hw.dmaWord (w : Hw) (c : Nat) (d : Desc) (v : Nat) : Hw × Option Halt :=
  let i := w.hub.get (DMA_PROGRESS c)
  let a := memEnd d.src + i
  let b := memEnd d.dst + i
  if d.srcKind = ekMem ∧ !w.hub.dmaPage c a then (w, some ⟨dfPage, false, a⟩)
  else if d.srcKind = ekMem ∧ w.mem.isBad a then (w.onHub fun h => h.ueAt a, some ⟨dfEcc, false, a⟩)
  else
    let x := if d.srcKind = ekMem then w.mem.word a else v
    if d.dstKind = ekMem then
      if w.hub.dmaPage c b then ((w.setMem (w.mem.put b (leBytes 4 x))).onHub fun h => h.dmaMoved c, none)
      else (w, some ⟨dfPage, true, b⟩)
    else (w.onHub fun h => (h.setDma c { h.dmaSt c with words := (h.dmaSt c).words ++ [x] }).dmaMoved c, none)

/-- Move words until `limit` bytes of the descriptor have moved or a word faults. -/
def Hw.dmaWords : Nat → Nat → Desc → List Nat → Nat → Hw → Hw × Option Halt
  | 0, _, _, _, _, w => (w, none)
  | fuel + 1, c, d, ext, limit, w =>
    if limit ≤ w.hub.get (DMA_PROGRESS c) then (w, none)
    else match w.dmaWord c d (ext.headD 0) with
      | (w', some f) => (w', some f)
      | (w', none) => Hw.dmaWords fuel c d ext.tail limit w'

/-- The packet a QUEUE source moves: the one in progress, else the next in order. -/
def QSt.dmaFront (x : QSt) : Option Pkt :=
  match x.pkts.find? fun p => !p.sent && p.moving with
  | some p => some p
  | none =>
    match x.pkts.find? fun p => !p.sent && p.popped == 0 && p.gap.isSome with
    | some p => some p
    | none => x.pkts.find? fun p => !p.sent && p.popped == 0

/-- Write the bytes of one stored packet from where it stands. -/
def Hw.dmaPktWords : Nat → Nat → Desc → List (BitVec 8) → Nat → Hw → Hw × Option Halt
  | 0, _, _, _, _, w => (w, none)
  | fuel + 1, c, d, bs, limit, w =>
    let i := w.hub.get (DMA_PROGRESS c)
    let k := (w.hub.dmaSt c).inPkt
    if bs.length ≤ k ∨ limit ≤ i then (w, none)
    else
      let b := memEnd d.dst + i
      if w.hub.dmaPage c b then
        let w := w.setMem (w.mem.put b ((bs.drop k).take 4))
        Hw.dmaPktWords fuel c d bs limit (w.onHub fun h => (h.setDma c { h.dmaSt c with inPkt := k + 4 }).dmaMoved c)
      else (w, some ⟨dfPage, true, b⟩)

/-- Move whole packets of a QUEUE source until it has none, the next does not fit, `limit` is reached or a word faults. -/
def Hw.dmaPkts : Nat → Nat → Desc → Nat → Hw → Hw × Option Halt
  | 0, _, _, _, w => (w, none)
  | fuel + 1, c, d, limit, w =>
    let q := d.src % 256
    match (w.hub.q q).dmaFront with
    | none => (w, none)
    | some p0 =>
      let r := if p0.moving then (p0, w.hub) else w.hub.readPkt q p0
      let p := r.1
      let w := w.setHub r.2
      let bs := p.stored
      let i := w.hub.get (DMA_PROGRESS c)
      if (!p.moving ∧ d.len < i + bs.length) ∨ limit ≤ i then (w, none)
      else
        let w := w.onHub fun h => h.modPkt q p.qseq fun k => { k with moving := true }
        match Hw.dmaPktWords bs.length c d bs limit w with
        | (w', some f) => (w', some f)
        | (w', none) =>
          if (w'.hub.dmaSt c).inPkt < bs.length then (w', none)
          else
            let w' := w'.onHub fun h =>
              let h := h.modPkt q p.qseq fun k => { k with moving := false, sent := true }
              let h := if p.poison then h.on (Q_POISON q) else h
              h.setDma c { h.dmaSt c with inPkt := 0, poison := (h.dmaSt c).poison || p.poison }
            Hw.dmaPkts fuel c d limit w'

/-- Move words up to `limit`; `ext` holds the words the flash gives, from PROGRESS on. -/
def Hw.dmaAdvance (w : Hw) (c : Nat) (d : Desc) (ext : List Nat) (limit : Nat) : Hw × Option Halt :=
  if d.srcKind = ekRemote ∨ d.dstKind = ekRemote then (w, none)
  else if d.srcKind = ekQueue then Hw.dmaPkts ((w.hub.q (d.src % 256)).pkts.length + 1) c d limit w
  else Hw.dmaWords (d.len / 4) c d ext (min limit d.len) w

/-! ## Remote memory requests (R340) -/

/-- The target's side of a memory request: the host-region rule of R252. -/
def Hw.memReq (w : Hw) (m : RaccMsg) : RaccMsg × Hw :=
  let r := { m with dest := m.src, src := w.hub.route, op := m.op }
  if m.len = 0 ∨ 1024 < m.len ∨ m.len % 4 ≠ 0 then ({ r with status := 3, data := [] }, w)
  else if m.addr + m.len ≤ 2 ^ 28 ∧ w.hub.hostRange m.addr m.len then
    if m.op = 2 then
      let ues := (List.range (m.len / 4)).filter fun i => w.mem.isBad (m.addr + 4 * i)
      ({ r with status := 0, data := memBytes w.mem.cells m.addr m.len }, w.onHub fun h => h.each ues fun h i => h.ueAt (m.addr + 4 * i))
    else ({ r with status := 0, data := [] }, w.setMem (w.mem.put m.addr (m.data.take m.len)))
  else ({ r with status := 2, data := [] }, w)

/-- PROGRESS follows the requests answered in order. -/
def settleReqs : List RemReq → Nat → List RemReq × Nat
  | [], p => ([], p)
  | r :: t, p => if r.done then settleReqs t (r.from_ + r.len) else (r :: t, p)

/-- A response reaches the channel that asked. -/
def Hw.dmaResp (w : Hw) (c : Nat) (d : Desc) (m : RaccMsg) : Hw :=
  match (w.hub.dmaSt c).reqs.find? fun r => r.tag == m.tag with
  | none => w
  | some r =>
    let a := if d.srcKind = ekRemote then memEnd d.src + r.from_ else memEnd d.dst + r.from_
    if m.status = 2 then w.dmaHalt c ⟨dfPage, d.dstKind == ekRemote, a⟩
    else if m.status = 4 then w.dmaHalt c ⟨dfRefused, d.dstKind == ekRemote, a⟩
    else if m.status = 3 then w.dmaHalt c ⟨dfBadDesc, d.dstKind == ekRemote, a⟩
    else if m.status ≠ 0 then w.dmaHalt c ⟨dfLink, d.dstKind == ekRemote, a⟩
    else
      let b := memEnd d.dst + r.from_
      if d.srcKind = ekRemote ∧ !((List.range (r.len / 4)).all fun i => w.hub.dmaPage c (b + 4 * i)) then
        w.dmaHalt c ⟨dfPage, true, b⟩
      else
        let w := if d.srcKind = ekRemote then w.setMem (w.mem.put b (m.data.take r.len)) else w
        w.onHub fun h =>
          let x := h.dmaSt c
          let s := settleReqs (x.reqs.map fun e => if e.tag = m.tag then { e with done := true } else e) (h.get (DMA_PROGRESS c))
          (h.setDma c { x with reqs := s.1 }).set (DMA_PROGRESS c) s.2

/-- One memory request leaves, or is carried out here, or finds no route (DESIGN CHOICE, log entry 38). -/
def Hw.dmaSend (w : Hw) (c : Nat) (d : Desc) (m : RaccMsg) : Hw :=
  match w.hub.routeTo m.dest with
  | some (some k) => w.onHub fun h => h.sendCtrl k (.raccReq m)
  | some none =>
    let r := w.memReq m
    r.2.dmaResp c d r.1
  | none => w.dmaHalt c ⟨dfLink, d.dstKind == ekRemote, m.addr⟩

/-- Ask for the next stretch of a REMOTE endpoint while fewer than 4 requests are outstanding (DESIGN CHOICE, log entry 38). -/
def Hw.dmaAsk : Nat → Nat → Desc → Hw → Hw
  | 0, _, _, w => w
  | fuel + 1, c, d, w =>
    let x := w.hub.dmaSt c
    if w.hub.get (DMA_STATE c) ≠ dsRunning ∨ d.len ≤ x.asked ∨ 4 ≤ x.reqs.length then w
    else if w.hub.unassigned then w.dmaHalt c ⟨dfLink, d.dstKind == ekRemote, d.remoteEnd + x.asked⟩
    else
      let n := min 1024 (d.len - x.asked)
      let toRem := d.dstKind = ekRemote
      let a := memEnd d.src + x.asked
      let good := if toRem then ((List.range (n / 4)).takeWhile fun i => w.hub.dmaPage c (a + 4 * i) && !w.mem.isBad (a + 4 * i)).length else n / 4
      if good = 0 then
        if w.hub.dmaPage c a then (w.onHub fun h => h.ueAt a).dmaHalt c ⟨dfEcc, false, a⟩ else w.dmaHalt c ⟨dfPage, false, a⟩
      else
        let n := 4 * good
        let tag := w.hub.lk.raccTag
        let w := w.onHub fun h => (h.setLk { h.lk with raccTag := (h.lk.raccTag + 1) % 2 ^ 16 }).setDma c
          { x with asked := x.asked + n, reqs := x.reqs ++ [⟨tag, x.asked, n, false⟩] }
        let m : RaccMsg :=
          { dest := d.route, src := w.hub.raccSrc, tag := tag, op := if toRem then 3 else 2, status := 0
            addr := (if toRem then memEnd d.dst else memEnd d.src) + x.asked, len := n
            data := if toRem then memBytes w.mem.cells a n else [] }
        Hw.dmaAsk fuel c d (w.dmaSend c d m)

/-! ## Running a chain (R272, R273) -/

/-- The words of a descriptor may move: a destination queue takes the packet, a REMOTE endpoint its first requests (DEDUCED, log entry 36). -/
def Hw.dmaBegin (w : Hw) (c : Nat) (d : Desc) : Hw :=
  let h := w.hub
  if d.srcKind = ekQueue ∧ h.get (Q_CONSUMER (d.src % 256)) = 0 then w.dmaHalt c ⟨dfQueue, false, d.src % 256⟩
  else if d.dstKind = ekQueue ∧ !(h.dmaSt c).producing ∧ !(h.qState (d.dst % 256) == qActive && h.qMask (d.dst % 256) prodDma) then
    w.dmaHalt c ⟨dfQueue, true, d.dst % 256⟩
  else
    let w := w.onHub fun h =>
      let h := h.set (DMA_STATE c) dsRunning
      let h := if d.dstKind = ekQueue ∧ !(h.dmaSt c).producing then h.prodStart (d.dst % 256) prodDma c d.len {} else h
      h.setDma c { h.dmaSt c with moving := true, producing := d.dstKind == ekQueue }
    if d.srcKind = ekRemote ∨ d.dstKind = ekRemote then Hw.dmaAsk 5 c d w else w

/-- An attempt at the descriptor's lock (R273); `first` while the attempt is the first one. -/
def Hw.dmaLock (w : Hw) (c : Nat) (d : Desc) (first : Bool) : Hw :=
  if !d.lockAcq then w.dmaBegin c d
  else
    let w := if first then w.onHub fun h => h.setDma c { h.dmaSt c with lockAt := h.time.now } else w
    let r := w.hub.lockTry d.lockNum (ownDma c)
    let w' := w.setHub (r.2.dmaShowLock c)
    if r.1 = lockAcquired ∨ r.1 = lockOwned then w'.dmaBegin c d
    else if r.1 = lockAcquiredBroken then w'.dmaHalt c ⟨dfLockBroken, false, d.addr⟩
    else if (w.hub.dmaSt c).lockAt + d.lockWait * usU ≤ w.hub.time.now then w'.dmaHalt c ⟨dfLockTimeout, false, d.addr⟩
    else w'.onHub fun h => h.set (DMA_STATE c) dsLockWait

/-- Fetch the descriptor at CUR_DESC and start it (DEDUCED, log entry 37). -/
def Hw.dmaFetch (w : Hw) (c : Nat) : Hw :=
  let w := w.onHub fun h =>
    (((h.set (DMA_STATE c) dsRunning).off (DMA_FAULT c)).off (DMA_PROGRESS c)).setDma c {}
  let a := w.hub.get (DMA_CUR_DESC c)
  if !w.hub.dmaPage c a then w.dmaHalt c ⟨dfPage, false, a⟩
  else if (List.range 8).any fun i => w.mem.isBad (a + 8 * i) then (w.onHub fun h => h.ueAt a).dmaHalt c ⟨dfEcc, false, a⟩
  else
    let d := parseDesc a (memBytes w.mem.cells a 64)
    if a % 64 ≠ 0 ∨ !d.ok then w.dmaHalt c ⟨dfBadDesc, false, a⟩
    else (w.onHub fun h => h.setDma c { h.dmaSt c with desc := some d }).dmaLock c d true

/-- DMA_GO (R272) (DEDUCED, log entry 37). -/
def Hw.dmaGo (w : Hw) (c : Nat) : Hw :=
  if w.hub.get (DMA_STATE c) = dsIdle then
    (w.onHub fun h => h.set (DMA_CUR_DESC c) (h.get (DMA_DESC c))).dmaFetch c
  else w.onHub fun h => h.on (DMA_WERR c)

/-- DMA_LOCK_RETRY (R273). -/
def Hw.dmaRetry (w : Hw) (c : Nat) : Hw :=
  match (w.hub.dmaSt c).desc with
  | some d =>
    if w.hub.get (DMA_STATE c) = dsLockWait then (w.onHub fun h => h.upTo (h.time.now + usU)).dmaLock c d false else w
  | none => w

/-- DMA_RESUME (R275): the faulting step again, with the current addresses. -/
def Hw.dmaResume (w : Hw) (c : Nat) : Hw :=
  if w.hub.get (DMA_STATE c) ≠ dsHalted then w.onHub fun h => h.on (DMA_WERR c)
  else
    let f := w.hub.get (DMA_FAULT c)
    match (w.hub.dmaSt c).desc with
    | none => w.dmaFetch c
    | some d =>
      let w := w.onHub fun h => (h.set (DMA_STATE c) dsRunning).off (DMA_FAULT c)
      if f = dfLockTimeout then w.dmaLock c d true else w.dmaBegin c d

/-- DMA_ABORT (R275). -/
def Hw.dmaAbort (w : Hw) (c : Nat) : Hw :=
  w.onHub fun h =>
    let x := h.dmaSt c
    let h := match x.desc with
      | none => h
      | some d =>
        let h := if x.producing then h.prodRewind (d.dst % 256) prodDma c else h
        if d.srcKind = ekQueue then
          let q := d.src % 256
          h.setQ q { h.q q with pkts := (h.q q).pkts.map fun (p : Pkt) => { p with moving := false } }
        else h
    ((((h.setDma c {}).set (DMA_STATE c) dsIdle).breakAll (ownDma c)).dmaShowLock c).arbWithdraw (ownDma c)

/-- The reservation of a destination packet has been granted. -/
def Hub.dmaGranted (h : Hub) (c : Nat) (d : Desc) : Bool :=
  d.dstKind != ekQueue || (h.prodOf (d.dst % 256) prodDma c).elim false (·.granted)

/-- Every word of the descriptor has moved. -/
def Hub.dmaOver (h : Hub) (c : Nat) (d : Desc) : Bool := d.srcKind == ekQueue || h.get (DMA_PROGRESS c) == d.len

/-- DMA_DESCRIPTOR_DONE (R270): the rest moves, the status is written back, and the chain goes on or ends. -/
def Hw.dmaDone (w : Hw) (c wait : Nat) (delayed : Bool) (ext : List Word) : Hw :=
  match (w.hub.dmaSt c).desc with
  | none => w
  | some d =>
    let x := w.hub.dmaSt c
    if w.hub.get (DMA_STATE c) ≠ dsRunning ∨ !x.moving ∨ !w.hub.dmaGranted c d then w
    else
      let r := w.dmaAdvance c d (ext.map (·.toNat)) d.len
      if r.2.isSome ∨ !r.1.hub.dmaOver c d then w
      else
        let w := r.1
        let y := w.hub.dmaSt c
        let w := w.onHub fun h =>
          let h := if d.dstKind = ekQueue then h.prodCommit (d.dst % 256) prodDma c { words := y.words, len := d.len } else h
          if d.lockRel then h.lockRelease d.lockNum (ownDma c) else h
        let w := w.dmaWriteBack c 0 delayed y.poison (w.hub.get (DMA_PROGRESS c)) wait
        let w := w.onHub fun h =>
          let h := ((h.bump (DMA_DESCS c) (DMA_SAT c)).set (DMA_DELAYED c) (b2n delayed)).set (DMA_WAIT c) (min wait (2 ^ 32 - 1))
          (if d.irq then (h.on (DMA_DONE c)).irqDma c else h).dmaShowLock c
        if d.chain then (w.onHub fun h => h.set (DMA_CUR_DESC c) d.next).dmaFetch c
        else w.onHub fun h => (h.setDma c {}).set (DMA_STATE c) dsIdle

/-- DMA_FAULT (R274) (DEDUCED, log entry 35). -/
def Hw.dmaFault (w : Hw) (c : Nat) (cause : DmaCause) (off : Nat) (ext : List Word) : Hw :=
  match (w.hub.dmaSt c).desc with
  | none => w
  | some d =>
    if w.hub.get (DMA_STATE c) ≠ dsRunning ∨ !(w.hub.dmaSt c).moving then w
    else
      let limit := if cause = .word then d.len else off / 4 * 4
      let r := w.dmaAdvance c d (ext.map (·.toNat)) limit
      match r.2 with
      | some f => r.1.dmaHalt c f
      | none =>
        let p := r.1.hub.get (DMA_PROGRESS c)
        let rem := d.srcKind = ekRemote ∨ d.dstKind = ekRemote
        match cause with
        | .word => w
        | .ecc =>
          if d.srcKind = ekMem ∧ p < d.len ∧ r.1.hub.dmaPage c (memEnd d.src + p) then
            ((r.1.setMem (r.1.mem.spoil (memEnd d.src + p))).onHub fun h => h.ueAt (memEnd d.src + p)).dmaHalt c
              ⟨dfEcc, false, memEnd d.src + p⟩
          else w
        | .link => if rem then r.1.dmaHalt c ⟨dfLink, d.dstKind == ekRemote, d.remoteEnd + p⟩ else w
        | .refused => if w.hub.get (DMA_CLASS c) = 2 ∨ d.srcKind = ekFlash ∨ rem then r.1.dmaHalt c ⟨dfRefused, false, memEnd d.src + p⟩ else w

/-- A response for a requester of this hub: a DMA channel or a remote-access port (R340, R345). -/
def Hw.raccDeliver (w : Hw) (m : RaccMsg) : Hw :=
  match (List.range 32).find? fun c => (w.hub.dmaSt c).reqs.any fun r => r.tag == m.tag && !r.done with
  | some c =>
    match (w.hub.dmaSt c).desc with
    | some d => Hw.dmaAsk 5 c d (w.dmaResp c d m)
    | none => w
  | none =>
    match (List.range 64).find? fun k => (w.hub.link k).racc == some m.tag with
    | none => w.onHub fun h => h.setPair { h.pair with reports := h.pair.reports.filter (· != m.tag) }
    | some k =>
      w.onHub fun h =>
        let h := h.modLink k fun l => { l with racc := none }
        let h := ((h.off (LINK_RACC_BUSY k)).on (LINK_RACC_DONE k)).set (LINK_RACC_STATUS k) m.status
        if m.status = 0 ∧ m.op = 0 then h.set (LINK_RACC_DATA k) (ofLe (m.data.take 4)) else h

/-- RACC_TIMEOUT of a channel: fault LINK (R340). -/
def Hw.dmaTimeout (w : Hw) (c : Nat) : Hw :=
  match (w.hub.dmaSt c).desc with
  | none => w
  | some d =>
    if (w.hub.dmaSt c).reqs.isEmpty then w
    else w.dmaHalt c ⟨dfLink, d.dstKind == ekRemote, d.remoteEnd + w.hub.get (DMA_PROGRESS c)⟩

end Sys2Proof.Machine
end

