-- ==== Sys2Proof/Machine/Arb.lean ====
section
/-! DEFINITION. The arbitration fabric (chapter 11): rounds at word boundaries, class A quota windows, class B levels and
starvation, class C deadlines. -/

namespace Sys2Proof.Machine

/-! ## Resources and requesters (R278, R279) -/

def reqCore : Nat := 0x10
def reqHost : Nat := 0x11
def reqAcq : Nat := 0x12
def reqCmp : Nat := 0x16
def reqDcmp : Nat := 0x17
def reqScrub : Nat := 0x18
def reqTime : Nat := 0x19
def reqDma (c : Nat) : Nat := 0x20 + c

def resReg : Nat := 2
def resFlash : Nat := 3
def isMem (r : Nat) : Bool := decide (r < 2)
def isEngp (r : Nat) : Bool := decide (4 ≤ r) && decide (r < 20)

/-- The DMA channel of a requester code. -/
def dmaOf (who : Nat) : Option Nat := if 0x20 ≤ who ∧ who < 0x40 then some (who - 0x20) else none

/-- The requester has class A traffic on the resource. -/
def classA (r who : Nat) : Bool := (isMem r && decide (reqAcq ≤ who) && decide (who ≤ reqCmp)) || (isEngp r && who == reqAcq)

/-- The requester has class B traffic on the resource. -/
def Hub.classB (h : Hub) (r who : Nat) : Bool :=
  who == reqCore || (r == resReg && (who == reqHost || who == reqTime))
    || (isMem r && match dmaOf who with
      | some c => h.get (DMA_CLASS c) == 1
      | none => false)

/-- The requester has class C traffic on the resource. -/
def Hub.classC (h : Hub) (r who : Nat) : Bool :=
  (who == reqHost && (isMem r || isEngp r)) || ((who == reqDcmp || who == reqScrub) && isMem r)
    || (who == reqCore && r == resFlash)
    || (match dmaOf who with
      | some c => r == resFlash || (isMem r && h.get (DMA_CLASS c) != 1)
      | none => false)

def Hub.classOk (h : Hub) (r who : Nat) : Cls → Bool
  | .a => classA r who && h.arb.running
  | .b => h.classB r who
  | .c => h.classC r who

/-- Words per window, and words per tenure (R278, R280, R292). -/
def Hub.capOf (h : Hub) (r : Nat) : Nat :=
  if isMem r then 4 * h.get ARB_WIN_CYC / 5 else if isEngp r then h.get ARB_WIN_CYC else 0
def tenureOf (r : Nat) : Nat := if isMem r ∨ isEngp r then 16 else 1

def Hub.arbRes (h : Hub) (r : Nat) : ResSt := aGet h.arb.res r {}
def Hub.setRes (h : Hub) (r : Nat) (x : ResSt) : Hub := h.setArb { h.arb with res := aInsert h.arb.res r x }

def arbKey (r who : Nat) : Nat := r * 64 + who
def Hub.quota (h : Hub) (r who : Nat) : Nat := aGet h.arb.quota (arbKey r who) 0

/-- Levels after reset (R285). -/
def defaultLevel (who : Nat) : Nat := if who = reqTime then 7 else if who = reqCore then 5 else if who = reqHost then 4 else 2
def Hub.level (h : Hub) (r who : Nat) : Nat := aGet h.arb.level (arbKey r who) (defaultLevel who)

/-! ## Rounds (R280, R281) -/

/-- Steps of the rotation from the last winner to a requester. -/
def rotation (last who : Nat) : Nat := (who + 63 - last) % 64

/-- The element that comes first under a strict order. -/
def firstOf (lt : Req → Req → Bool) : List Req → Option Req
  | [] => none
  | a :: t => match firstOf lt t with
    | none => some a
    | some b => some (if lt b a then b else a)

/-- A class A requester has quota left in the window (R281, R282). -/
def Hub.hasQuota (h : Hub) (r : Nat) (x : ResSt) (who : Nat) : Bool :=
  !x.masked.contains who && decide (aGet x.used who 0 < h.quota r who)

/-- The request a round serves. -/
def Hub.winner (h : Hub) (r : Nat) (x : ResSt) : Option Req :=
  match firstOf (fun p q => decide (rotation x.lastA p.who < rotation x.lastA q.who))
      (x.waiting.filter fun q => q.cls == .a && h.hasQuota r x q.who) with
  | some q => some q
  | none =>
    let lt := fun (p q : Req) => decide (h.level r q.who < h.level r p.who)
      || (h.level r p.who == h.level r q.who && decide (rotation x.lastB p.who < rotation x.lastB q.who))
    match firstOf lt (x.waiting.filter fun q => q.cls == .b) with
    | some q => some q
    | none => firstOf (fun p q => decide (p.since < q.since) || (p.since == q.since && decide (p.who < q.who)))
        (x.waiting.filter fun q => q.cls == .c)

/-- A waiting request outranks the holder (R281). -/
def Hub.outranks (h : Hub) (r : Nat) (x : ResSt) (p q : Req) : Bool :=
  match p.cls, q.cls with
  | .a, .b => h.hasQuota r x p.who
  | .a, .c => h.hasQuota r x p.who
  | .b, .c => true
  | .b, .b => decide (h.level r q.who < h.level r p.who)
  | _, _ => false

/-- A word of a class A requester is granted: it counts against the window. -/
def ResSt.use (x : ResSt) (q : Req) : ResSt :=
  if q.cls = .a then { x with used := aInsert x.used q.who (aGet x.used q.who 0 + 1) } else x

/-- A transfer completes with its wait count and DELAYED (R290); a flash command of the core that completes ends a row of refused ones
(R396). -/
def Hub.arbComplete (h : Hub) (r : Nat) (q : Req) (refused : Bool) : Hub :=
  let x := h.arbRes r
  let d := decide (0 < q.waited) || q.pre
  let h := h.setRes r { x with last := aInsert x.last q.who (min q.waited (2 ^ 32 - 1), d) }
  let h := if q.who = reqCore ∧ r = resFlash ∧ !refused then h.setUpd { h.upd with overloads := 0 } else h
  if q.who = reqHost then
    ((h.set ARB_HOST_CPL_DELAYED (b2n d)).set ARB_HOST_CPL_REFUSED (b2n refused)).set ARB_HOST_CPL_WAIT (min q.waited (2 ^ 30 - 1))
  else h

def Hub.cDeadline (h : Hub) : Nat := max 1 (h.get ARB_DEADLINE_US)

/-- The holder's word ends: the transfer ends, or the tenure does, or the quota is spent, or a request pre-empts it. -/
def Hub.wordEnds (h : Hub) (r : Nat) (ends : Bool) : Hub :=
  let x := h.arbRes r
  match x.holder with
  | none => h
  | some q0 =>
    let q := { q0 with done := q0.done + 1 }
    let x := { x with tenure := x.tenure + 1 }
    let spent := q.cls == .a && decide (h.quota r q.who ≤ aGet x.used q.who 0)
    let fresh := spent && !x.masked.contains q.who
    let x := if fresh then { x with masked := q.who :: x.masked } else x
    let h := if fresh then h.bump ARB_MASK_COUNT ARB_SAT else h
    let h := if fresh && q.who == reqCmp then h.cmpStall else h
    let taken := h.arb.preempt / 2 ^ r % 2 == 1 && x.waiting.any fun p => h.outranks r x p q
    let back := { q with since := h.time.now, deadline := h.cDeadline }
    if ends || decide (q.words ≤ q.done) then (h.setRes r { x with holder := none, tenure := 0 }).arbComplete r q false
    else if taken then h.setRes r { x with holder := none, tenure := 0, waiting := x.waiting ++ [{ back with pre := true, preNow := true }] }
    else if spent || decide (tenureOf r ≤ x.tenure) then h.setRes r { x with holder := none, tenure := 0, waiting := x.waiting ++ [back] }
    else h.setRes r ({ x with holder := some q }.use q)

/-- Grant a free resource. -/
def Hub.grant (h : Hub) (r : Nat) : Hub :=
  let x := h.arbRes r
  if x.holder.isSome then h
  else match h.winner r x with
    | none => h
    | some q =>
      let g := { q with waited := q.waited + (h.time.now - q.since) / (2 * nsU), preNow := false }
      let x := { x with
        holder := some g, tenure := 0, waiting := x.waiting.filter fun p => p.who != q.who
        lastA := if q.cls = Cls.a then q.who else x.lastA, lastB := if q.cls = Cls.b then q.who else x.lastB }
      h.setRes r (x.use g)

/-- A request joins, unless its requester has one on the resource or no such traffic there. -/
def Hub.arrive (h : Hub) (r : Nat) (who words : Nat) (cls : Cls) : Hub :=
  let x := h.arbRes r
  if words = 0 ∨ !h.classOk r who cls ∨ (x.waiting.any fun q => q.who == who) ∨ (x.holder.any fun q => q.who == who) then h
  else h.setRes r { x with
    waiting := x.waiting ++ [{ who := who, cls := cls, words := words, since := h.time.now, deadline := h.cDeadline }] }

/-- ARBITRATION_ROUND on a resource at an instant: the holder's word in progress has ended (`ends`: its transfer was cut
short), new requests have come, some have been withdrawn, and the free resource is granted (DEDUCED, log entry 87). -/
def Hub.arbRound (h : Hub) (r t : Nat) (ends : Bool) (withdrawn : List (Fin 64)) (new : List Arrival) : Hub :=
  let h := h.upTo t
  let x := h.arbRes r
  let h := h.setRes r { x with waiting := x.waiting.filter fun q => !(withdrawn.map (·.val)).contains q.who }
  let h := new.foldl (fun h a => h.arrive r a.who.val a.words a.cls) h
  (h.wordEnds r ends).grant r

/-! ## Windows (R282) -/

/-- Used counts and masks restart on every resource. -/
def Hub.windowRestart (h : Hub) (t : Nat) : Hub :=
  h.setArb { h.arb with windowAt := t, res := h.arb.res.map fun e => (e.1, { e.2 with used := [], masked := [] }) }

/-- QUOTA_WINDOW_END. -/
def Hub.windowEnd (h : Hub) : Hub :=
  if h.arb.running then
    let t := h.arb.windowAt + h.get ARB_WIN_CYC * 2 * nsU
    (h.upTo t).windowRestart t
  else h

/-! ## Starvation and refusal (R286, R287) -/

/-- STARVE. -/
def Hub.arbStarve (h : Hub) (r who : Nat) : Hub :=
  let x := h.arbRes r
  match x.waiting.find? fun q => q.who == who && q.cls == .b && !q.starved with
  | none => h
  | some q =>
    let h := h.upTo (q.since + max 1 (h.get ARB_STARVE_US) * usU)
    let h := h.setRes r { x with waiting := x.waiting.map fun p => if p.who = who then { p with starved := true } else p }
    let h := ((h.on ARB_STARVE).bump ARB_STARVE_COUNT ARB_SAT).on DEV_IRQ_ARB
    if h.bit ARB_STARVE_WHO_VALID then h
    else ((h.set ARB_STARVE_WHO_RES r).set ARB_STARVE_WHO_REQ who).on ARB_STARVE_WHO_VALID

/-- The class C request that REFUSED_OVERLOAD names. -/
def Hub.overdue (h : Hub) (r who : Nat) : Option Req := (h.arbRes r).waiting.find? fun q => q.who == who && q.cls == .c

/-- The fabric's part of a refusal: the request is gone, with its count and status. -/
def Hub.arbRefuse (h : Hub) (r : Nat) (q : Req) : Hub :=
  let h := h.upTo (q.since + q.deadline * usU)
  let x := h.arbRes r
  let h := h.setRes r { x with waiting := x.waiting.filter fun p => p.who != q.who }
  ((h.bump ARB_REFUSE_COUNT ARB_SAT).on ARB_REFUSED).arbComplete r { q with waited := q.waited + q.deadline * 500 } true

/-! ## Levels (R285, R289) -/

/-- ARB_PRIO_WRITE, for the requester in QSEL on the resource in RSEL (DEDUCED, log entry 87). -/
def Hub.prioWrite (h : Hub) (v : Nat) : Hub :=
  let r := h.get ARB_RSEL
  let who := h.get ARB_QSEL
  if r < 20 ∧ h.classB r who then h.setArb { h.arb with level := aInsert h.arb.level (arbKey r who) (v % 8) } else h.on ARB_WERR

/-- A commit sets windows, quotas, pre-emption and levels (R282, R291). -/
def Hub.arbCommit (h : Hub) (win preempt : Nat) (quota level : List (Nat × Nat)) (t : Nat) : Hub :=
  let h := (h.set ARB_WIN_CYC win).setArb { h.arb with
    preempt := preempt, quota := quota.foldl (fun m e => aInsert m e.1 e.2) [], running := true
    level := level.foldl (fun m e => aInsert m e.1 (e.2 % 8)) h.arb.level }
  h.windowRestart t

/-- The armature is released: no windows and no class A requests (R282). -/
def Hub.arbRelease (h : Hub) : Hub :=
  (h.set ARB_WIN_CYC 500).setArb { h.arb with
    preempt := 0, quota := [], running := false
    res := h.arb.res.map fun e => (e.1, { e.2 with
      waiting := e.2.waiting.filter fun q => q.cls != .a, holder := e.2.holder.filter fun q => q.cls != .a }) }

/-! ## What ARB_RES to ARB_RWAIT show (R292) -/

def Hub.arbResWord (h : Hub) : Nat :=
  let r := h.get ARB_RSEL
  if 20 ≤ r then 0 else h.capOf r % 2 ^ 16 + tenureOf r * 2 ^ 16 + h.arb.preempt / 2 ^ r % 2 * 2 ^ 21

/-- The requester in QSEL has traffic on the resource in RSEL. -/
def Hub.arbTraffic (h : Hub) (r who : Nat) : Bool := decide (r < 20) && (classA r who || h.classB r who || h.classC r who)

def clsCode : Cls → Nat
  | .a => 1
  | .b => 2
  | .c => 3

/-- The transfer of a requester on a resource. -/
def ResSt.of (x : ResSt) (who : Nat) : Option Req :=
  match x.holder.filter fun q => q.who == who with
  | some q => some q
  | none => x.waiting.find? fun q => q.who == who

def Hub.arbReqWord (h : Hub) : Nat :=
  let r := h.get ARB_RSEL
  let who := h.get ARB_QSEL
  let x := h.arbRes r
  if !h.arbTraffic r who then 0
  else
    let cls := match x.of who with
      | some q => clsCode q.cls
      | none => if classA r who then 1 else if h.classB r who then 2 else 3
    let st := if x.holder.any fun q => q.who == who then 2
      else match x.waiting.find? fun q => q.who == who with
        | some q => if x.masked.contains who then 3 else if q.preNow then 4 else 1
        | none => if x.masked.contains who then 3 else 0
    cls + 4 * st + 32 * b2n (aGet x.last who (0, false)).2 + min (aGet x.used who 0) 65535 * 2 ^ 16

def Hub.arbPrioWord (h : Hub) : Nat :=
  let r := h.get ARB_RSEL
  let who := h.get ARB_QSEL
  if h.arbTraffic r who then (if h.classB r who then h.level r who else 0) + h.quota r who % 2 ^ 16 * 2 ^ 16 else 0

def Hub.arbProgress (h : Hub) : Nat := ((h.arbRes (h.get ARB_RSEL)).of (h.get ARB_QSEL)).elim 0 fun q => q.done % 2 ^ 32
def Hub.arbWait (h : Hub) : Nat := (aGet (h.arbRes (h.get ARB_RSEL)).last (h.get ARB_QSEL) (0, false)).1

end Sys2Proof.Machine
end

