-- ==== Sys2Proof/Machine/Pcs.lean ====
section
/-! DEFINITION. The 66-bit blocks of a Kamrel lane (R300 to R303): the block types, the ordered sets, the scrambler, a frame as blocks, and
the test patterns of R313. -/

namespace Sys2Proof.Machine

/-! ## Block types (R301, R302) -/

/-- A block from its type field and the bytes after it. -/
def ctrlBlock (type : Nat) (bytes : List (BitVec 8)) : Block :=
  ⟨false, BitVec.ofNat 64 (type + 2 ^ 8 * ofLe bytes)⟩

/-- Eight idle characters, or eight error characters of 7 bits. -/
def idleBlock : Block := ctrlBlock 0x1E []
def errorBlock : Block := ⟨false, BitVec.ofNat 64 (0x1E + 2 ^ 8 * ((List.range 8).map fun i => 0x1E * 2 ^ (7 * i)).sum)⟩

/-- An ordered set: D1, D2, D3, a 4-bit O code, 28 zero bits. -/
def orderedSet (o d1 d2 d3 : Nat) : Block :=
  ⟨false, BitVec.ofNat 64 (0x4B + d1 % 256 * 2 ^ 8 + d2 % 256 * 2 ^ 16 + d3 % 256 * 2 ^ 24 + o % 16 * 2 ^ 32)⟩

/-- TRAIN: RATE, width code, position, READY and the sequence number. -/
def trainSet (rate width pos ready seq : Nat) : Block := orderedSet 0 (rate + 2 ^ 4 * width + 2 ^ 6 * pos) ready seq

/-- MARKER: the marker count (DESIGN CHOICE, log entry 124). -/
def markerSet (n : Nat) : Block := orderedSet 1 n (n / 2 ^ 8) (n / 2 ^ 16)
def lpReqSet : Block := orderedSet 2 0 0 0
def wakeSet : Block := orderedSet 3 0 0 0

/-- The type of a terminate block after so many data bytes. -/
def termType (n : Nat) : Nat := [0x87, 0x99, 0xAA, 0xB4, 0xCC, 0xD2, 0xE1, 0xFF].getD n 0xFF

/-- The blocks of a frame after its start block: data blocks of 8 bytes, then the terminate block. -/
def tailBlocks : Nat → List (BitVec 8) → List Block
  | 0, b => [ctrlBlock (termType b.length) b]
  | fuel + 1, b =>
    if b.length < 8 then [ctrlBlock (termType b.length) b]
    else ⟨true, BitVec.ofNat 64 (ofLe (b.take 8))⟩ :: tailBlocks fuel (b.drop 8)

/-- A frame as blocks: Start and 7 data bytes, data, Terminate. -/
def frameBlocks (b : List (BitVec 8)) : List Block := ctrlBlock 0x78 (b.take 7) :: tailBlocks (b.length / 8) (b.drop 7)

/-- A frame that is cut off ends in an error block in place of its terminate block (R316, R335). -/
def cutBlocks (b : List (BitVec 8)) : List Block := (frameBlocks b).dropLast ++ [errorBlock]

/-! ## Scrambler (R300) -/

/-- x^58 + x^39 + 1 over the 64 payload bits, bit 0 first; the sync header stays as it is. -/
def scramble (s : BitVec 58) (p : BitVec 64) : BitVec 58 × BitVec 64 :=
  (List.range 64).foldl (fun (s, o) i =>
    let b := (p.getLsbD i ^^ s.getLsbD 38) ^^ s.getLsbD 57
    (s <<< 1 ||| (BitVec.ofBool b).zeroExtend 58, o ||| (BitVec.ofBool b).zeroExtend 64 <<< i)) (s, 0)

/-- The blocks of a lane as they are serialised, and the scrambler after them. -/
def scrambleAll (s : BitVec 58) : List Block → BitVec 58 × List Block
  | [] => (s, [])
  | b :: t =>
    let r := scramble s b.payload
    let q := scrambleAll r.1 t
    (q.1, ⟨b.data, r.2⟩ :: q.2)

/-! ## Rates (R293) -/

/-- Twice the REFCLK multiple of a RATE code. -/
def rateMult2 (r : Nat) : Nat := [132, 160, 80, 66, 40, 33, 16].getD r 132

/-- The time of `n` blocks: a block is 66 UI, and REFCLK is 156.25 MHz (R293). -/
def blocksTime (rate n : Nat) : Nat := n * 8448 * nsU / (10 * rateMult2 rate)

/-- The bits a lane carries in a time. -/
def bitsIn (rate d : Nat) : Nat := d * 10 * rateMult2 rate * 66 / (8448 * nsU)

/-! ## Test patterns (R313) -/

/-- The feedback taps of PRBS7, 15, 23 and 31. -/
def prbsTaps (pattern : Nat) : Nat × Nat := [(7, 6), (15, 14), (23, 18), (31, 28)].getD (pattern - 1) (7, 6)

/-- O.150 sends the sequences of 15, 23 and 31 stages inverted (PRESUMED, log entry 125). -/
def prbsInverted (pattern : Nat) : Bool := decide (2 ≤ pattern)

/-- The next `n` bits of a sequence after the bits `s`, newest first. -/
def prbsBits (a b : Nat) : Nat → List Bool → List Bool
  | 0, _ => []
  | n + 1, s =>
    let x := s.getD (a - 1) true ^^ s.getD (b - 1) true
    x :: prbsBits a b n ((x :: s).take a)

/-- The first `n` bits the generator sends from all ones, inverted by PRBS.INV; none for pattern 0 (PRESUMED, log entry 125). -/
def testBits (pattern : Nat) (inv : Bool) (n : Nat) : List Bool :=
  if pattern = 0 then []
  else if pattern = 5 then (List.range n).map fun i => decide (i % 2 = 0) ^^ inv
  else
    let t := prbsTaps pattern
    (prbsBits t.1 t.2 n (List.replicate t.1 true)).map fun b => (b ^^ prbsInverted pattern) ^^ inv

end Sys2Proof.Machine
end

