-- ==== Sys2Proof/Machine/Lanes.lean ====
section
/-! DEFINITION. Serial lanes (chapter 12): the link plan, training, low power, test patterns. Training runs per link; every
lane of a link reports the link's state, and the lead lane holds its counts. -/

namespace Sys2Proof.Machine

def Hub.lane (h : Hub) (n : Nat) : LaneSt := aGet h.lanes n {}
def Hub.setLane (h : Hub) (n : Nat) (l : LaneSt) : Hub := { h with lanes := aInsert h.lanes n l }
def Hub.modLane (h : Hub) (n : Nat) (f : LaneSt → LaneSt) : Hub := h.setLane n (f (h.lane n))

/-- STAT.STATE codes (R307). -/
def lsOff : Nat := 0
def lsDetect : Nat := 1
def lsAlign : Nat := 2
def lsTrain : Nat := 3
def lsDeskew : Nat := 4
def lsActive : Nat := 5
def lsLowPower : Nat := 6
def lsBackoff : Nat := 7
def lsQuiet : Nat := 8
def lsTest : Nat := 9

def Hub.laneState (h : Hub) (n : Nat) : Nat := h.get (LANE_STATE n)

/-- Every lane of a link reports its state. -/
def Hub.setLinkState (h : Hub) (k st : Nat) : Hub := h.each (h.linkLanes k) fun h n => h.set (LANE_STATE n) st

def Hub.isEth (h : Hub) (n : Nat) : Bool := h.get (LANE_MODE n) == 2

/-- PEER_MAC of an Ethernet port (R343). -/
def Hub.peerMac (h : Hub) (k : Nat) : Nat := h.get (LINK_PEER_MAC_LO k) + 2 ^ 32 * h.get (LINK_PEER_MAC_HI k)

/-! ## Attempts (R308) -/

def Hub.trainRetries (h : Hub) (k : Nat) : Nat := max 1 (h.get (LANE_TRAIN_RETRIES k))
def Hub.trainTimeout (h : Hub) (k : Nat) : Nat := max 1 (h.get (LANE_TRAIN_TIMEOUT_MS k)) * msU

/-- A lane at the start of an attempt: its search begins at the SLIP in force (R304). -/
def Hub.laneFresh (h : Hub) (n : Nat) : Hub :=
  let l := h.lane n
  ((h.off (LANE_CDR_LOCK n)).off (LANE_BLOCK_LOCK n)).setLane n
    { deadline := l.deadline, backoffEnd := l.backoffEnd, quietAt := l.quietAt, probe := l.probe, pllLost := l.pllLost
      searchStart := h.get (LANE_RX_SLIP n), markers := l.markers, injected := l.injected, prbsAt := l.prbsAt, pattern := l.pattern
      scrambler := l.scrambler, tx := l.tx }

/-- The RATE of a lane's quad. -/
def Hub.rateOf (h : Hub) (n : Nat) : Nat := h.get (LANE_QCFG_RATE (n / 4 * 4))

/-- The slip, adaptation or marker interval of a lane ends after so many blocks, and the next begins. -/
def Hub.blocksPass (h : Hub) (n blocks : Nat) : Hub :=
  let h := h.upTo ((h.lane n).since + blocksTime (h.rateOf n) blocks)
  h.modLane n fun l => { l with since := h.time.now }

/-- A lane sends blocks, through its scrambler. -/
def Hub.laneSend (h : Hub) (n : Nat) (bs : List Block) : Hub :=
  h.modLane n fun l => { l with scrambler := (scrambleAll l.scrambler bs).1, tx := (scrambleAll l.scrambler bs).2 }

/-- A column: the same block on every lane of a link (R299, R303). -/
def Hub.column (h : Hub) (k : Nat) (bs : List Block) : Hub := h.each (h.linkLanes k) fun h n => h.laneSend n bs

/-- The link layer's blocks go to the lanes in turn; those of a time frame start at position 0, after up to w - 1 idle blocks (R303). -/
def Hub.sendBlocks (h : Hub) (k : Nat) (start : Bool) (bs : List Block) : Hub :=
  let w := 2 ^ h.get (LANE_LINK_WIDTH k)
  let p := (h.link k).pos
  let all := (if start then List.replicate ((w - p % w) % w) idleBlock else []) ++ bs
  let h := h.each (List.range w) fun h i => h.laneSend (k + i) ((all.zipIdx.filter fun b => (p + b.2) % w == i).map (·.1))
  h.modLink k fun l => { l with pos := (p + all.length) % w }

/-- An attempt begins: DETECT, with its deadline. -/
def Hub.startAttempt (h : Hub) (k : Nat) (probe : Bool) : Hub :=
  let h := (h.each (h.linkLanes k) Hub.laneFresh).setLinkState k lsDetect
  h.modLane k fun l => { l with deadline := h.time.now + h.trainTimeout k, probe := probe }

/-- The link goes down and a new attempt begins; its lanes wait for their PLL where that has lost lock. -/
def Hub.lose (h : Hub) (k : Nat) : Hub := (h.linkLost k).startAttempt k false

def Hub.training (h : Hub) (k : Nat) : Bool := decide (lsDetect ≤ h.laneState k) && decide (h.laneState k ≤ lsDeskew)

/-- An attempt fails (R308). -/
def Hub.attemptFails (h : Hub) (k : Nat) : Hub :=
  let h := h.bump (LANE_TRAIN_FAILS k) (LANE_SAT k)
  let a := min 255 (h.get (LANE_TRAIN_ATTEMPTS k) + 1)
  let h := h.set (LANE_TRAIN_ATTEMPTS k) a
  if (h.lane k).probe then h.setLinkState k lsQuiet
  else if a < h.trainRetries k then
    (h.setLinkState k lsBackoff).modLane k fun l => { l with backoffEnd := h.time.now + min (2 ^ (a - 1)) 1000 * msU }
  else
    let h := (h.setLinkState k lsQuiet).modLane k fun l => { l with quietAt := some h.time.now }
    ((h.each (h.linkLanes k) fun h n => h.on (LANE_PARKED n)).log .laneParked k 0 0).irqLane k

/-- TRAIN_TIMEOUT. -/
def Hub.trainTimeoutEv (h : Hub) (k : Nat) : Hub :=
  if h.bit (LANE_LINK_LEAD k) && h.training k && !(h.lane k).pllLost then (h.upTo (h.lane k).deadline).attemptFails k else h

/-- BACKOFF_END. -/
def Hub.backoffEnd (h : Hub) (k : Nat) : Hub :=
  if h.bit (LANE_LINK_LEAD k) && h.laneState k == lsBackoff then (h.upTo (h.lane k).backoffEnd).startAttempt k false else h

/-- QUIET_PROBE: every 1 s from the first entry to QUIET. -/
def Hub.quietProbe (h : Hub) (k : Nat) : Hub :=
  if h.bit (LANE_LINK_LEAD k) && h.laneState k == lsQuiet then
    let q := (h.lane k).quietAt.getD h.time.now
    (h.upTo (q + ((h.time.now - q) / secU + 1) * secU)).startAttempt k true
  else h

/-- The standby of a pair holds the transmitters of its ACTIVE_ONLY links idle (R347). -/
def Hub.heldIdle (h : Hub) (k : Nat) : Bool := h.mode == mMirror && h.lk.activeOnly.contains k

/-- The ACTIVE_ONLY links begin an attempt: they go down at a standby, and train again at a new active. -/
def Hub.onlyLinks (h : Hub) : Hub :=
  h.each (h.lk.activeOnly.filter fun k => h.bit (LANE_LINK_LEAD k) && h.laneState k != lsOff && h.laneState k != lsTest) Hub.lose

/-- A link reaches ACTIVE: ATTEMPTS and PARKED clear, and the link layer starts (DEDUCED, log entry 69). -/
def Hub.goActive (h : Hub) (k : Nat) : Hub :=
  if h.heldIdle k then h
  else
    let h := (h.setLinkState k lsActive).off (LANE_TRAIN_ATTEMPTS k)
    let h := h.each (h.linkLanes k) fun h n => h.off (LANE_PARKED n)
    let h := h.modLane k fun l => { l with quietAt := none, probe := false }
    if h.isEth k ∧ h.peerMac k = 0 then h else h.linkActive k

/-! ## Training (R299, R304 to R307) -/

/-- SIGNAL_DETECT: every lane of the link detects signal (R307, R308). A lane of MODE OFF detects nothing, and lanes of different MODEs form
no link that trains (R295) (DEDUCED, log entry 68). -/
def Hub.signalDetect (h : Hub) (k : Nat) : Hub :=
  if !h.bit (LANE_LINK_LEAD k) then h
  else
    let st := h.laneState k
    let seen := h.each (h.linkLanes k) fun h n => h.off (LANE_LOS n)
    if (h.linkLanes k).any fun n => h.get (LANE_MODE n) != h.get (LANE_MODE k) || h.get (LANE_MODE n) == 0 then h
    else if st = lsDetect ∧ !(h.lane k).pllLost then seen.setLinkState k lsAlign
    else if st = lsBackoff then seen.startAttempt k false
    else if st = lsQuiet then seen.startAttempt k true
    else seen

/-- CDR_LOCK (R299). -/
def Hub.cdrLock (h : Hub) (n : Nat) : Hub :=
  let st := h.laneState n
  if st = lsAlign ∨ st = lsTest ∨ ((h.lane n).rxWake).isSome then
    (h.on (LANE_CDR_LOCK n)).modLane n fun l => { l with since := h.time.now }
  else h

/-- Every lane of a link has block lock: a Kamrel link goes to TRAIN; an Ethernet port is up (R312, R343). -/
def Hub.alignDone (h : Hub) (k : Nat) : Hub :=
  if h.laneState k = lsAlign ∧ (h.linkLanes k).all (fun n => h.bit (LANE_BLOCK_LOCK n)) then
    (if h.isEth k then h.goActive k
     else (h.each (h.linkLanes k) fun h n => h.modLane n fun l => { l with since := h.time.now }).setLinkState k lsTrain)
  else h

/-- SLIP_STEP: one offset has been tried for 66 blocks (R304). -/
def Hub.slipStep (h : Hub) (n : Nat) (found : Bool) : Hub :=
  if h.laneState n = lsAlign ∧ h.bit (LANE_CDR_LOCK n) ∧ !h.bit (LANE_BLOCK_LOCK n) ∧ !(h.mode == mMaint && h.bit (LANE_MANUAL_ALIGN n)) then
    let h := h.blocksPass n 66
    let l := h.lane n
    let h := (h.set (LANE_RX_SLIP n) ((l.searchStart + l.tried) % 66)).setLane n { l with tried := (l.tried + 1) % 66 }
    if found then ((h.set (LANE_RX_SH_RUN n) 64).on (LANE_BLOCK_LOCK n)).alignDone (h.leadOf n)
    else h.set (LANE_RX_SH_RUN n) 0
  else h

/-- SLIP_WRITE (R304): `run` is the run of valid headers the new boundary gives (DESIGN CHOICE, log entry 27) (DEDUCED, log entry 70). -/
def Hub.slipWrite (h : Hub) (n v run : Nat) : Hub :=
  if h.mode = mMaint ∧ h.bit (LANE_MANUAL_ALIGN n) ∧ v ≤ 65 then
    let h := (h.set (LANE_RX_SLIP n) v).set (LANE_RX_SH_RUN n) (min 65535 run)
    if 64 ≤ run then (h.on (LANE_BLOCK_LOCK n)).alignDone (h.leadOf n) else h.off (LANE_BLOCK_LOCK n)
  else h.on (LANE_WERR n)

/-- AUTO_POL: RX_INV toggles and the search runs again (R305). -/
def Hub.autoPol (h : Hub) (n : Nat) : Hub :=
  if h.bit (LANE_AUTO_POL n) ∧ h.bit (LANE_BLOCK_LOCK n) ∧ (h.laneState n = lsAlign ∨ h.laneState n = lsTrain) ∧ !h.isEth n then
    let h := ((h.set (LANE_RX_INV n) (1 - h.get (LANE_RX_INV n))).on (LANE_RX_INV_AUTO n)).off (LANE_BLOCK_LOCK n)
    (h.modLane n fun l => { l with searchStart := h.get (LANE_RX_SLIP n), tried := 0 }).setLinkState (h.leadOf n) lsAlign
  else h

/-- The widest of the eye openings measured. -/
def widest (eyes : List Nat) : Nat := eyes.foldl max 0

/-- ADAPTATION_DONE (R298): the eye openings in 1/64 UI, one for each PEAK code; the widest is kept, on a tie the lower code. With
CTLE_MANUAL the eye is measured once, at the setting in force: `eye`. -/
def Hub.adaptationDone (h : Hub) (n : Nat) (eye : Nat) (eyes : List Nat) : Hub :=
  if h.laneState n = lsTrain then
    let done := fun (h : Hub) (w : Nat) => (h.set (LANE_EYE_WIDTH n) w).modLane n fun l => { l with adapted := true }
    if h.bit (LANE_CTLE_MANUAL n) then done h eye
    else
      let w := widest eyes
      let h := (done (h.blocksPass n 65536) w).set (LANE_EYE_PEAK_CHOSEN n) (eyes.findIdx (· == w))
      if w < h.get (LANE_EYE_EYE_MIN n) then (h.on (LANE_EYE_LOW n)).attemptFails (h.leadOf n) else h
  else h

/-- Adaptation and polarity are done on every lane of a link: its TRAIN sets carry READY (R307). -/
def Hub.readyOf (h : Hub) (k : Nat) : Bool := (h.linkLanes k).all fun n => (h.lane n).adapted

/-- A TRAIN set leaves a lane: for each one that arrives, since both ends send nothing else (DESIGN CHOICE, log entry 124). -/
def Hub.trainSend (h : Hub) (n : Nat) : Hub :=
  let k := h.leadOf n
  let r := b2n (h.readyOf k)
  let h := h.laneSend n [trainSet (h.rateOf n) (h.get (LANE_LINK_WIDTH k)) (n - k) r (h.lane n).sets]
  h.modLane n fun l => { l with sets := (l.sets + 1) % 256, readySets := l.readySets + r }

/-- Training of a link is complete: every lane has received 16 consecutive matching sets with READY and sent 16 with READY (R307). -/
def Hub.trained (h : Hub) (k : Nat) : Bool :=
  h.readyOf k && (h.linkLanes k).all fun n => decide (16 ≤ (h.lane n).trains) && decide (16 ≤ (h.lane n).readySets)

/-- TRAIN_RX: a TRAIN set with its RATE, width code, position and READY (R302, R307). -/
def Hub.trainSetRx (h : Hub) (n rate width pos : Nat) (ready : Bool) : Hub :=
  let k := h.leadOf n
  let h := if h.training k then h.trainSend n else h
  if h.laneState n = lsTrain then
    if rate ≠ h.rateOf n ∨ width ≠ h.get (LANE_LINK_WIDTH k) ∨ pos ≠ n - k then
      (h.on (LANE_WIDTH_MISMATCH n)).modLane n fun l => { l with trains := 0 }
    else
      let h := h.modLane n fun l => { l with trains := if ready then l.trains + 1 else 0 }
      if h.trained k then
        (if h.get (LANE_LINK_WIDTH k) = 0 then h.goActive k
         else (h.modLane k fun l => { l with since := h.time.now }).setLinkState k lsDeskew)
      else h
  else h

/-- An ordered set arrives: one of an O code that R302 does not give is counted and otherwise ignored; those of MARKER, LP_REQ and WAKE have
commands of their own. -/
def Hub.trainRx (h : Hub) (n o rate width pos : Nat) (ready : Bool) : Hub :=
  if h.laneState n = lsOff then h
  else if o = 0 then h.trainSetRx n rate width pos ready
  else if o < 4 then h
  else h.bump (LANE_BLOCK_ERRS n) (LANE_SAT n)

/-- MARKER_RX: the lanes are aligned on a MARKER column with a skew in blocks (R303). -/
def Hub.markerRx (h : Hub) (k skew : Nat) : Hub :=
  if h.bit (LANE_LINK_LEAD k) ∧ h.laneState k = lsDeskew then
    (if skew ≤ 32 then h.goActive k else (h.on (LANE_SKEW_ERR k)).attemptFails k)
  else h

/-- MARKER_SEND: every 16,384 blocks a link of more than one lane sends a column of markers, and their count goes on (R303). -/
def Hub.markerSend (h : Hub) (k : Nat) : Hub :=
  if h.bit (LANE_LINK_LEAD k) ∧ h.get (LANE_LINK_WIDTH k) ≠ 0 ∧ !h.isEth k ∧ (h.laneState k = lsActive ∨ h.laneState k = lsDeskew) then
    ((h.blocksPass k 16384).column k [markerSet (h.lane k).markers]).modLane k fun l => { l with markers := (l.markers + 1) % 2 ^ 24 }
  else h

/-- IDLE_COLUMN_SEND: one idle block on every lane of a Kamrel link; it carries no frame data (R299). -/
def Hub.idleColumn (h : Hub) (k : Nat) : Hub :=
  if h.bit (LANE_LINK_LEAD k) ∧ !h.isEth k ∧ (h.laneState k = lsActive ∨ h.laneState k = lsDeskew) then h.column k [idleBlock] else h

/-! ## Losses (R304, R306, R309, R311) -/

/-- LOS (R309): suppressed while the receiver has been told of low power; a signal already lost is not lost again. -/
def Hub.los (h : Hub) (n : Nat) : Hub :=
  if h.bit (LANE_RX_LP n) ∨ h.bit (LANE_LOS n) then h
  else
    let k := h.leadOf n
    let h := (h.bump (LANE_LOS_EVENTS n) (LANE_SAT n)).on (LANE_LOS n)
    let st := h.laneState n
    if st = lsAlign ∨ st = lsTrain ∨ st = lsDeskew then (h.each (h.linkLanes k) Hub.laneFresh).setLinkState k lsDetect
    else if st = lsActive ∨ st = lsLowPower then h.lose k
    else h

/-- BLOCK_LOCK_LOSS (R304). -/
def Hub.blockLockLoss (h : Hub) (n : Nat) : Hub :=
  if h.laneState n = lsActive then ((h.set (LANE_RX_SH_BAD64 n) 16).off (LANE_BLOCK_LOCK n)).lose (h.leadOf n) else h

/-- HI_BER_WINDOW_END: `bad` invalid headers in the window (R306). An Ethernet link is ACTIVE only without HI_BER (R343). -/
def Hub.hiBerWindow (h : Hub) (n bad : Nat) : Hub :=
  if h.laneState n = lsOff then h
  else
  let was := h.bit (LANE_HI_BER n)
  let h := (h.bumpBy (LANE_SYNC_ERRS n) (LANE_SAT n) bad).set (LANE_HI_BER n) (b2n (decide (16 ≤ bad)))
  let h := h.modLane n fun l => { l with hiBerAt := if 16 ≤ bad then some (l.hiBerAt.getD h.time.now) else none }
  if h.isEth n ∧ h.laneState n = lsActive then
    if 16 ≤ bad ∧ !was then h.linkLost n
    else if bad < 16 ∧ was ∧ h.peerMac n ≠ 0 then h.linkActive n
    else h
  else h

/-- HI_BER_TIMEOUT (R306). -/
def Hub.hiBerTimeout (h : Hub) (n : Nat) : Hub :=
  match (h.lane n).hiBerAt with
  | some t =>
    if h.bit (LANE_HI_BER n) ∧ h.laneState n = lsActive then
      ((h.upTo (t + msU)).modLane n fun l => { l with hiBerAt := none }).lose (h.leadOf n)
    else h
  | none => h

/-! ## Low power (R311) -/

/-- LP_REQ_RX. -/
def Hub.lpReqRx (h : Hub) (n : Nat) : Hub := if h.linkUp (h.leadOf n) then h.on (LANE_RX_LP n) else h

/-- LANE_WAKE: the transmitter leaves electrical idle and sends WAKE columns. -/
def Hub.laneWake (h : Hub) (k : Nat) : Hub :=
  if (h.lane k).txLp ∧ (h.lane k).wakeEnd = none then
    (h.column k [wakeSet]).modLane k fun l => { l with wakeEnd := some (h.time.now + 20 * usU) }
  else h

/-- WAKE_END. -/
def Hub.wakeEnd (h : Hub) (k : Nat) : Hub :=
  match (h.lane k).wakeEnd with
  | some t => ((h.upTo t).setLinkState k lsActive).modLane k fun l => { l with txLp := false, wakeEnd := none }
  | none => h

/-- WAKE_RX: the receiver relocks and checks its previous SLIP first. `locked`: it finds lock there. -/
def Hub.wakeRx (h : Hub) (n : Nat) (locked : Bool) : Hub :=
  if h.bit (LANE_RX_LP n) ∨ ((h.lane n).rxWake).isSome then
    let h := h.off (LANE_RX_LP n)
    if locked then ((h.on (LANE_CDR_LOCK n)).on (LANE_BLOCK_LOCK n)).modLane n fun l => { l with rxWake := none }
    else h.modLane n fun l => { l with rxWake := some (l.rxWake.getD h.time.now) }
  else h

/-- LP_FAIL. -/
def Hub.lpFail (h : Hub) (n : Nat) : Hub :=
  match (h.lane n).rxWake with
  | some t =>
    let h := (h.upTo (t + 40 * usU)).on (LANE_LP_FAIL n)
    (h.modLane n fun l => { l with rxWake := none }).lose (h.leadOf n)
  | none => h

/-- LANE_WAKE_FAIL: a lane fails to leave low power within 40 µs (R29). -/
def Hub.laneWakeFail (h : Hub) (n : Nat) : Hub :=
  let k := h.leadOf n
  if (h.lane k).txLp then
    let h := (h.log .laneWakeFail n 0 0).on DEV_IRQ_CLOCK
    (h.modLane k fun l => { l with txLp := false, wakeEnd := none }).lose k
  else h

/-! ## The link plan (R294 to R296) -/

/-- Assign lanes to links in ascending lane order (R294). -/
def Hub.assignLanes : Nat → Nat → Hub → Hub
  | 0, _, h => h
  | fuel + 1, n, h =>
    if 64 ≤ n then h
    else
      let w := h.get (LANE_LINK_WIDTH n)
      let ok := decide (w ≤ 2) && n % 2 ^ w == 0
      let h := if ok then h else h.off (LANE_LINK_WIDTH n)
      let c := if ok then 2 ^ w else 1
      let h := h.each (List.range c) fun h i =>
        (h.set (LANE_LINK_POSITION (n + i)) i).set (LANE_LINK_LEAD (n + i)) (b2n (i == 0))
      Hub.assignLanes fuel (n + c) h

/-- A lane has a test setting (R313). -/
def Hub.tested (h : Hub) (n : Nat) : Bool :=
  h.bit (LANE_PRBS_GEN_EN n) || h.bit (LANE_PRBS_CHK_EN n) || h.get (LANE_LOOPBACK n) != 0 || h.get (LANE_MODE n) == 3

/-- A link starts over under a changed plan: ATTEMPTS clears and an attempt begins; lanes of MODE OFF and in TEST have none. -/
def Hub.replan (h : Hub) (k : Nat) : Hub :=
  let h := (h.linkLost k).off (LANE_TRAIN_ATTEMPTS k)
  let m := h.get (LANE_MODE k)
  if m = 0 then
    ((h.each (h.linkLanes k) Hub.laneFresh).each (h.linkLanes k) fun h n => h.on (LANE_LOS n)).setLinkState k lsOff
  else if h.mode = mMaint ∧ (h.linkLanes k).any h.tested then (h.each (h.linkLanes k) Hub.laneFresh).setLinkState k lsTest
  else h.startAttempt k false

/-- The leads of a set of lanes. -/
def Hub.leadsOf (h : Hub) (l : List Nat) : List Nat := (l.map h.leadOf).dedup

def quadLanes (q : Nat) : List Nat := (List.range 4).map (· + 4 * q)

/-- LINK_PLAN_WRITE: MODE (0), RATE (1) or width (2) of a lane (R293 to R296); the value held is no change. -/
def Hub.planWrite (h : Hub) (n what v : Nat) : Hub :=
  let q := n / 4
  let cfg := h.mode = mIdle ∨ h.mode = mMaint
  if what = 0 then
    if h.get (LANE_MODE n) = v then h
    else if !cfg ∨ (v = 2 ∧ (8 ≤ n ∨ h.get (LANE_LINK_WIDTH (h.leadOf n)) ≠ 0 ∨ h.get (LANE_QCFG_RATE (4 * q)) ≠ 0))
        ∨ (v = 3 ∧ h.mode ≠ mMaint) ∨ 3 < v then h.on (LANE_WERR n)
    else ((h.linkLost (h.leadOf n)).set (LANE_MODE n) v).replan (h.leadOf n)
  else if what = 1 then
    if n % 4 ≠ 0 then h.on (LANE_WERR n)
    else if h.get (LANE_QCFG_RATE n) = v then h
    else if !cfg ∨ v = 7 ∨ (v ≠ 0 ∧ (quadLanes q).any h.isEth) then h.on (LANE_WERR n)
    else
      let ks := h.leadsOf (quadLanes q)
      (h.set (LANE_QCFG_RATE n) v).each ks Hub.replan
  else
    if !h.bit (LANE_LINK_LEAD n) then h.on (LANE_WERR n)
    else if h.get (LANE_LINK_WIDTH n) = v then h
    else if !cfg ∨ 2 < v ∨ (v ≠ 0 ∧ (List.range (2 ^ v)).any fun i => h.isEth (n + i)) ∨ n % 2 ^ v ≠ 0 then h.on (LANE_WERR n)
    else
      let ls := quadLanes q
      let h := h.each (h.leadsOf ls) Hub.linkLost
      let h := Hub.assignLanes 64 0 (h.set (LANE_LINK_WIDTH n) v)
      h.each (h.leadsOf ls) Hub.replan

/-- RETRAIN (R314). -/
def Hub.retrain (h : Hub) (n : Nat) : Hub :=
  let m := h.get (LANE_MODE n)
  if (m = 1 ∨ m = 2) ∧ h.laneState n ≠ lsTest then h.replan (h.leadOf n) else h

/-! ## Lane PLLs (R29, R314) -/

/-- The PLL of a quad loses lock: every link of the quad is lost. -/
def Hub.quadLost (h : Hub) (q : Nat) : Hub :=
  h.each (h.leadsOf (quadLanes q)) fun h k =>
    if h.laneState k = lsOff ∨ h.laneState k = lsTest then h else (h.lose k).modLane k fun l => { l with pllLost := true }

/-- LANE_PLL_RELOCK: the links of the quad begin new attempts. -/
def Hub.quadRelock (h : Hub) (q : Nat) : Hub :=
  h.each (h.leadsOf (quadLanes q)) fun h k =>
    if (h.lane k).pllLost then (h.modLane k fun l => { l with pllLost := false }).startAttempt k false else h

/-! ## Test patterns (R313) -/

/-- A test setting in MAINTENANCE puts the link in TEST, its end begins an attempt. -/
def Hub.testEnter (h : Hub) (n : Nat) : Hub :=
  let k := h.leadOf n
  let t := (h.linkLanes k).any h.tested
  if t ∧ h.laneState k ≠ lsTest then (h.linkLost k).setLinkState k lsTest
  else if !t ∧ h.laneState k = lsTest then
    (if h.get (LANE_MODE k) = 0 then h.setLinkState k lsOff else h.startAttempt k false)
  else h

/-- ERR_INJECT: one transmitted test-pattern bit is inverted; outside MAINTENANCE the write is refused. -/
def Hub.errInject (h : Hub) (n : Nat) : Hub :=
  if h.mode ≠ mMaint then h.on (LANE_WERR n) else h.modLane n fun l => { l with injected := l.injected + 1 }

/-- A 48-bit count of the checker. -/
def Hub.prbsAdd (h : Hub) (n : Nat) (lo hi : Field) (k : Nat) : Hub :=
  let v := h.get lo + 2 ^ 32 * h.get hi
  let v' := min (v + k) (2 ^ 48 - 1)
  let h := if v < 2 ^ 48 - 1 ∧ v' = 2 ^ 48 - 1 then h.on (LANE_SAT n) else h
  (h.set lo v').set hi (v' / 2 ^ 32)

/-- Counted bits and errors; none while the checker has no sync. -/
def Hub.prbsCount (h : Hub) (n bits errs : Nat) : Hub :=
  if h.bit (LANE_PRBS_SYNC n) then
    (h.prbsAdd n (LANE_PRBS_BITS_LO n) (LANE_PRBS_BITS_HI n) bits).prbsAdd n (LANE_PRBS_ERR_LO n) (LANE_PRBS_ERR_HI n) errs
  else h

/-- PRBS_SYNC: 1,024 error-free bits. -/
def Hub.prbsSync (h : Hub) (n : Nat) : Hub :=
  if h.laneState n = lsTest ∧ h.bit (LANE_PRBS_CHK_EN n) ∧ h.get (LANE_PRBS_PATTERN n) ≠ 0 ∧ !h.bit (LANE_PRBS_SYNC n) then
    (h.on (LANE_PRBS_SYNC n)).modLane n fun l => { l with prbsAt := h.time.now, injected := 0 }
  else h

/-- The lane checks its own generator, through the near-end loopback: the only errors are those injected. -/
def Hub.ownTest (h : Hub) (n : Nat) : Bool := h.get (LANE_LOOPBACK n) == 1 && h.bit (LANE_PRBS_GEN_EN n)

/-- The counts as a read finds them: every bit since they were last brought up to date is counted; how many of those that came from
another transmitter were wrong is the world's (PRESUMED, log entry 125). -/
def Hub.prbsRun (h : Hub) (n : Nat) : Hub :=
  if h.bit (LANE_PRBS_SYNC n) then
    let bits := bitsIn (h.rateOf n) (h.time.now - (h.lane n).prbsAt)
    let errs := if h.ownTest n then (h.lane n).injected else min bits (Config.datum h.free).toNat
    (h.draw.prbsCount n bits errs).modLane n fun l => { l with prbsAt := h.time.now, injected := 0 }
  else h

/-- SYNC_LOST: `bits` were checked with `errs` errors since the counts were last brought up to date; counting pauses and the checker reseeds. -/
def Hub.syncLost (h : Hub) (n bits errs : Nat) : Hub :=
  if h.bit (LANE_PRBS_SYNC n) then ((h.prbsCount n bits errs).on (LANE_SYNC_LOST n)).off (LANE_PRBS_SYNC n) else h

/-- Leaving MAINTENANCE clears every test setting; each tested link begins a new attempt (DEDUCED, log entry 68). -/
def Hub.clearTests (h : Hub) : Hub :=
  h.each (List.range 64) fun h n =>
    if h.tested n ∨ h.laneState n = lsTest then
      let h := (((h.off (LANE_PRBS_PATTERN n)).off (LANE_PRBS_GEN_EN n)).off (LANE_PRBS_CHK_EN n)).off (LANE_PRBS_INV n)
      let h := (h.off (LANE_LOOPBACK n)).off (LANE_PRBS_SYNC n)
      let h := if h.get (LANE_MODE n) = 3 then h.set (LANE_MODE n) 1 else h
      if (h.linkLanes (h.leadOf n)).any h.tested then h else h.testEnter n
    else h

/-! ## Ethernet (R312, R343) -/

/-- The Kamrel frame being assembled is errored: it never completes (R343). -/
def Hub.dropAsm (h : Hub) (k : Nat) : Hub := h.modLink k fun l => { l with asm := none }

end Sys2Proof.Machine
end

