-- ==== Sys2Proof/Machine/Wire.lean ====
section
/-! DEFINITION. The bytes of Kamrel frames (R316 to R318): header, payload and CRC of every frame this hub sends, and their Ethernet
fragments (R343). The bytes of a PTP message are those of IEEE 1588-2019, which the spec names and does not give: a TIME frame stands
as its message alone. -/

namespace Sys2Proof.Machine

/-- The payload of CREDIT (R323) (DESIGN CHOICE, log entry 120). -/
def CreditMsg.bytes (m : CreditMsg) : List (BitVec 8) :=
  ([0, 1, 2, 3].flatMap fun v => leBytes 4 (m.pkts.getD v 0) ++ leBytes 4 (m.words.getD v 0)) ++ leBytes 4 m.freed
    ++ ([0, 1, 2, 3].flatMap fun v => leBytes 1 (m.limP.getD v 0)) ++ ([0, 1, 2, 3].flatMap fun v => leBytes 2 (m.limW.getD v 0))

/-- The payload of HELLO (R338). -/
def HelloMsg.bytes (m : HelloMsg) : List (BitVec 8) :=
  leBytes 6 m.route ++ leBytes 1 m.depth ++ leBytes 1 (b2n m.enumOk) ++ leBytes 2 m.hw ++ leBytes 1 m.rev ++ leBytes 1 m.role
    ++ leBytes 1 m.lead ++ leBytes 1 m.width ++ leBytes 2 0

/-- The payload of RACC_REQ, or of RACC_RESP (R340): write requests and read responses carry data. -/
def RaccMsg.bytes (m : RaccMsg) (resp : Bool) : List (BitVec 8) :=
  leBytes 6 m.dest ++ leBytes 6 m.src ++ leBytes 2 m.tag
    ++ (if resp then leBytes 1 m.status ++ leBytes 1 m.op else leBytes 1 m.op ++ leBytes 1 0)
    ++ leBytes 4 m.addr ++ leBytes 2 m.len ++ leBytes 2 0 ++ m.data

/-- KIND of an EVENT (R354). -/
def EventKind.code : EventKind → Nat
  | .rangeStep => 1
  | .regWrite => 2
  | .trigger => 3
  | .shed => 4
  | .patina => 5
  | .swap => 6

/-- DATA of an EVENT, before its unused zero bytes (R354). -/
def DupEvent.data (e : DupEvent) : List (BitVec 8) :=
  match e.kind with
  | .rangeStep => leBytes 1 e.value
  | .regWrite => leBytes 4 e.subject ++ leBytes 4 e.value
  | .trigger => leBytes 1 e.subject ++ leBytes 1 e.value ++ leBytes 1 (e.value / 256) ++ leBytes 1 0 ++ wireStamp e.stamp
  | .shed => leBytes 1 e.value
  | .patina => leBytes 1 (e.subject % 10) ++ leBytes 3 0 ++ leBytes 8 e.value
  | .swap => wireStamp e.stamp

/-- CH of an EVENT (R354). -/
def DupEvent.ch (e : DupEvent) : Nat :=
  match e.kind with
  | .rangeStep | .shed => e.subject
  | .patina => e.subject / 10
  | _ => 0

/-- Fields of 6 bits packed from bit 0 on. -/
def packSix (l : List Nat) : Nat := l.foldr (fun v acc => v % 64 + 64 * acc) 0

/-- The payload of a DUPLEX frame (R354). -/
def DupFrame.bytes : DupFrame → List (BitVec 8)
  | .heartbeat route role flags armCrc count =>
    leBytes 4 1 ++ leBytes 6 route ++ leBytes 1 role ++ leBytes 1 flags ++ leBytes 4 armCrc ++ leBytes 4 count ++ leBytes 4 0
  | .samples first codes => leBytes 4 2 ++ leBytes 4 0 ++ leBytes 8 first ++ leBytes 576 (packSix codes.flatten)
  | .timemap edge time period =>
    leBytes 4 3 ++ leBytes 4 0 ++ leBytes 8 edge ++ leBytes 8 (tSec time) ++ leBytes 4 (tNs time) ++ leBytes 4 (tFrac time)
      ++ leBytes 4 (period / nsU) ++ leBytes 4 (period % nsU)
  | .digest window es =>
    leBytes 4 4 ++ leBytes 1 es.length ++ leBytes 3 0 ++ leBytes 8 window
      ++ es.flatMap fun e => leBytes 1 e.1 ++ leBytes 1 e.2.1 ++ leBytes 2 0 ++ leBytes 4 e.2.2.1 ++ leBytes 4 e.2.2.2
  | .event e =>
    leBytes 4 5 ++ leBytes 1 e.kind.code ++ leBytes 1 e.ch ++ leBytes 2 0 ++ leBytes 8 e.edge ++ (e.data ++ leBytes 24 0).take 24

/-- FTYPE and payload of a sequenced control frame (R318). -/
def Ctrl.parts : Ctrl → Nat × List (BitVec 8)
  | .trigger m => (0x07, leBytes 1 m.group ++ leBytes 1 m.unit ++ leBytes 2 0 ++ leBytes 6 m.origin ++ leBytes 2 0 ++ wireStamp m.time)
  | .hello m => (0x08, m.bytes)
  | .assign route depth => (0x09, leBytes 6 route ++ leBytes 1 depth ++ leBytes 1 0)
  | .raccReq m => (0x0A, m.bytes false)
  | .raccResp m => (0x0B, m.bytes true)
  | .reset dest auth => (0x0C, leBytes 6 dest ++ leBytes 2 0 ++ leBytes 4 auth)
  | .duplex f => (0x0D, f.bytes)
  | .commitNote route armId tc streams =>
    (0x0E, leBytes 6 route ++ leBytes 2 0 ++ leBytes 4 armId ++ wireStamp tc ++ leBytes 32 ((streams.map (2 ^ ·)).sum))

/-- A frame (R316, R317): header, payload, CRC-32C of both. -/
def frameBytes (ftype flags vc lseq cseq : Nat) (payload : List (BitVec 8)) : List (BitVec 8) :=
  let b := leBytes 1 ftype ++ leBytes 1 flags ++ leBytes 1 vc ++ leBytes 1 1 ++ leBytes 4 lseq ++ leBytes 4 cseq
    ++ leBytes 2 payload.length ++ leBytes 2 0 ++ payload
  b ++ leBytes 4 (crc32c b)

/-- The bytes of a frame as they leave (R316 to R318). An aborted one ends after the bytes that had been forwarded. -/
def Frame.bytes : Frame → List (BitVec 8)
  | .nak e => frameBytes 0x03 0 0 0 0 (leBytes 4 e)
  | .ack e => frameBytes 0x02 0 0 0 0 (leBytes 4 e)
  | .custodyAck c => frameBytes 0x05 0 0 0 0 ([0, 1, 2, 3].flatMap fun v => leBytes 4 (c.getD v 0))
  | .credit m => frameBytes 0x04 0 0 0 0 m.bytes
  | .time _ => []
  | .data s c v poison retx len words => frameBytes 0x01 (b2n poison + 2 * b2n retx) v s c ((bytesOf words).take len)
  | .aborted s c v len head =>
    leBytes 1 1 ++ leBytes 1 0 ++ leBytes 1 v ++ leBytes 1 1 ++ leBytes 4 s ++ leBytes 4 c ++ leBytes 2 len ++ leBytes 2 0 ++ head
  | .ctrl s retx c => frameBytes c.parts.1 (2 * b2n retx) 0 s 0 c.parts.2

/-- The frame is a time frame. -/
def Frame.isTime : Frame → Bool
  | .time _ => true
  | _ => false

/-- The blocks of a frame (R301): those of a TIME frame are as its message is, not given. -/
def Frame.blocks : Frame → List Block
  | .time _ => []
  | .aborted s c v len head => cutBlocks (Frame.aborted s c v len head).bytes
  | f => frameBlocks f.bytes

/-- The payloads of the Ethernet frames that carry one Kamrel frame (R343): fragment heads, 1 to 1,488 bytes each, zero padding up to the
46 bytes of the Ethernet minimum. -/
def ethFragments (kfid : Nat) (b : List (BitVec 8)) : List (List (BitVec 8)) :=
  let n := (b.length + 1487) / 1488
  (List.range n).map fun i =>
    let part := (b.drop (1488 * i)).take 1488
    let f := leBytes 1 1 ++ leBytes 1 i ++ leBytes 1 n ++ leBytes 1 0 ++ leBytes 4 kfid ++ leBytes 2 part.length ++ leBytes 2 0 ++ part
    f ++ List.replicate (46 - f.length) 0

end Sys2Proof.Machine
end

