-- ==== Sys2Proof/Machine/Link.lean ====
section
/-! DEFINITION. The link layer at work (chapter 13): what a transmitter sends next, what each arriving frame does,
custody and deduplication, enumeration, and Kamrel over Ethernet. -/

namespace Sys2Proof.Machine

/-! ## Sequence numbers (R320, R321) -/

/-- Resends of the oldest frame not acknowledged. -/
def LinkSt.oldest (l : LinkSt) : Nat := (l.unacked.head?).elim 0 (·.resends)

/-- Every unacknowledged frame is to be resent; after 8 resends of the oldest the link is lost (DEDUCED, log entry 88). -/
def Hub.resendAll (h : Hub) (k : Nat) : Hub :=
  let l := h.link k
  if l.unacked.isEmpty then h
  else if 8 ≤ l.oldest then (h.on (LINK_REPLAY_LIMIT k)).lose k
  else h.setLink k { l with resend := l.unacked.map (·.lseq), replayFrom := h.time.now }

/-- LINK_NAK, at most once per expected LSEQ until the frame is accepted or REPLAY_US passes. -/
def Hub.nakOnce (h : Hub) (k : Nat) : Hub :=
  let e := h.get (LINK_RX_LSEQ k)
  let wait := max 1 (h.get (LINK_REPLAY_US k)) * usU
  match (h.link k).nakAt with
  | some (e', t) => if e' = e ∧ h.time.now < t + wait then h else h.modLink k fun l => { l with dueNak := true, nakAt := some (e, h.time.now) }
  | none => h.modLink k fun l => { l with dueNak := true, nakAt := some (e, h.time.now) }

/-- A frame is accepted: the next LSEQ is expected, and LINK_ACK is owed, at once after 32 frames. -/
def Hub.rxAccept (h : Hub) (k : Nat) : Hub :=
  (h.set (LINK_RX_LSEQ k) (h.get (LINK_RX_LSEQ k) + 1)).modLink k fun l =>
    { l with sinceAck := l.sinceAck + 1, ackFrom := if l.sinceAck = 0 then h.time.now else l.ackFrom, dueAck := l.dueAck || decide (32 ≤ l.sinceAck + 1), nakAt := none }

/-- A sequenced frame arrives: `f` is what accepting it does. -/
def Hub.rxSeq (h : Hub) (k lseq : Nat) (f : Hub → Hub) : Hub :=
  if !h.linkUp k then h
  else
    let e := h.get (LINK_RX_LSEQ k)
    if lseq = e then f h
    else if serialLe lseq e then (h.bump (LINK_RX_DUPS k) (LINK_SAT k)).modLink k fun l => { l with dueAck := true }
    else h.nakOnce k

/-- A control frame is accepted and freed once it has been acted on (R322). -/
def Hub.rxCtrl (h : Hub) (k lseq : Nat) (f : Hub → Hub) : Hub :=
  h.rxSeq k lseq fun h => ((f (h.rxAccept k)).modLink k fun l => { l with myFreed := (l.myFreed + 1) % 2 ^ 32 }).creditDue k

/-- Release every frame before ACK_LSEQ; an ACK_LSEQ beyond the frames sent is a protocol error. -/
def Hub.ackTo (h : Hub) (k a : Nat) : Hub × Bool :=
  if !serialLe a (h.get (LINK_TX_LSEQ k)) then (h.protoErr k, false)
  else
    let l := h.link k
    let gone := l.unacked.filter fun u => serialLe u.lseq a && u.lseq != a
    (h.setLink k { l with
      unacked := l.unacked.filter fun u => !(serialLe u.lseq a && u.lseq != a)
      resend := l.resend.filter fun s => !(serialLe s a && s != a)
      replayFrom := if gone.isEmpty then l.replayFrom else h.time.now
      ctrlAcked := l.ctrlAcked + (gone.filter fun u => u.ctrl.isSome).length }, true)

def Hub.linkAckRx (h : Hub) (k a : Nat) : Hub := if h.linkUp k then (h.ackTo k a).1 else h

def Hub.linkNakRx (h : Hub) (k a : Nat) : Hub :=
  if h.linkUp k then
    let r := h.ackTo k a
    if r.2 then r.1.resendAll k else r.1
  else h

/-- REPLAY_TIMEOUT: REPLAY_US has passed with no new ACK_LSEQ (R321). -/
def Hub.replayTimeout (h : Hub) (k : Nat) : Hub :=
  if h.linkUp k ∧ !(h.link k).unacked.isEmpty then
    (h.upTo ((h.link k).replayFrom + max 1 (h.get (LINK_REPLAY_US k)) * usU)).resendAll k
  else h

/-- ACK_DELAY: ACK_DELAY_US has passed since a frame was accepted (R320). -/
def Hub.ackDelay (h : Hub) (k : Nat) : Hub :=
  if h.linkUp k ∧ 0 < (h.link k).sinceAck then
    (h.upTo ((h.link k).ackFrom + max 1 (h.get (LINK_ACK_DELAY_US k)) * usU)).modLink k fun l => { l with dueAck := true }
  else h

/-! ## The transmitter (R319) -/

/-- Control frames outstanding (R322). -/
def LinkSt.ctrlOut (l : LinkSt) : Nat := l.ctrlSent - min l.ctrlAcked l.ctrlFreed

/-- The pairing of roles that a link carries DATA under (R338). -/
def rolesPair (mine theirs : Nat) : Bool :=
  (mine == roleDown && theirs == roleUp) || (mine == roleUp && theirs == roleDown) || (mine == roleDuplex && theirs == roleDuplex)

def Hub.rolesOk (h : Hub) (k : Nat) : Bool :=
  match (h.link k).hello with
  | none => true
  | some m => rolesPair (h.role k) m.role

/-- A queue may send its next packet on a link now. -/
def Hub.qReady (h : Hub) (k q : Nat) : Bool :=
  h.qState q != qOff && h.get (Q_CONSUMER q) == 0 && h.get (Q_LINK q) == k && (h.rlfHead q).isNone
    && match (h.q q).front with
      | none => false
      | some p => decide (1 ≤ (h.vc k (q % 4)).availP) && decide (need p.len ≤ (h.vc k (q % 4)).availW)

/-- The queue a VC serves next: ascending after the one last served. -/
def Hub.vcNext (h : Hub) (k v : Nat) : Option Nat :=
  let last := (h.vc k v).last
  ((List.range 64).map fun i => ((last / 4 + 1 + i) % 64) * 4 + v).find? (h.qReady k)

/-- Put a frame on the wire: its bytes as blocks on the lanes of the link, over Ethernet in fragments under the next KFID (R301, R303, R316,
R343). -/
def Hub.emit (h : Hub) (k : Nat) (f : Frame) : Hub :=
  (if h.isEth k then h else h.sendBlocks k f.isTime f.blocks).modLink k fun l => { l with
    out := some f, kfid := if h.isEth k then (l.kfid + 1) % 2 ^ 32 else l.kfid
    wire := if h.isEth k then ethFragments l.kfid f.bytes else [f.bytes], idleFrom := h.time.now }

/-- A packet of `len` bytes uses the credit of a VC (R324). -/
def Hub.useCredit (h : Hub) (k v len q : Nat) : Hub :=
  let c := h.vc k v
  (h.setVc k v { c with usedP := (c.usedP + 1) % 2 ^ 32, usedW := (c.usedW + need len) % 2 ^ 32, last := q }).showVc k v

/-- A sequenced frame sent is kept until a LINK_ACK covers it (R321). -/
def Hub.keepFrame (h : Hub) (k : Nat) (u : UnAck) : Hub :=
  h.modLink k fun l => { l with unacked := l.unacked ++ [u], replayFrom := if l.unacked.isEmpty then h.time.now else l.replayFrom }

/-- Send one packet of a queue as a DATA frame: it is SENT and its credit is used (R324). -/
def Hub.sendPkt (h : Hub) (k v q : Nat) (p0 : Pkt) : Hub :=
    let (p, h) := h.readPkt q p0
    let s := h.get (LINK_TX_LSEQ k)
    let n := h.get (VC_TX_CSEQ k v)
    let h := h.modPkt q p.qseq fun e => { e with sent := true, popped := 0, cseq := n }
    let h := ((h.useCredit k v p.len q).set (VC_TX_CSEQ k v) (n + 1)).set (LINK_TX_LSEQ k) (s + 1)
    let h := h.keepFrame k { lseq := s, queue := q, qseq := p.qseq, vc := v, cseq := n }
    h.emit k (.data s n v p.poison false p.len p.out)

/-- Send the next packet of a queue. -/
def Hub.sendData (h : Hub) (k v q : Nat) : Hub :=
  match (h.q q).front with
  | none => h
  | some p => h.sendPkt k v q p

/-- Resend the first frame due (R321). -/
def Hub.sendAgain (h : Hub) (k s : Nat) : Hub :=
  let l := h.link k
  match l.unacked.find? fun u => u.lseq == s with
  | none => h.setLink k { l with resend := l.resend.tail }
  | some u =>
    let h := h.setLink k { l with
      resend := l.resend.tail
      unacked := l.unacked.map fun e => if e.lseq = s then { e with resends := e.resends + 1 } else e }
    let h := h.bump (LINK_REPLAYS k) (LINK_SAT k)
    match u.ctrl with
    | some c => h.emit k (.ctrl s true c)
    | none => match (h.q u.queue).pkts.find? fun p => p.qseq == u.qseq with
      | some p => h.emit k (.data s u.cseq u.vc p.poison true p.len p.out)
      | none => h

/-- The CREDIT frame of a link (R323). -/
def Hub.creditMsg (h : Hub) (k : Nat) : CreditMsg :=
  { pkts := [0, 1, 2, 3].map fun v => (h.vc k v).myP, words := [0, 1, 2, 3].map fun v => (h.vc k v).myW
    freed := (h.link k).myFreed, limP := [0, 1, 2, 3].map fun v => (h.myLimits k v).1
    limW := [0, 1, 2, 3].map fun v => (h.myLimits k v).2 }

/-- DATA frames, VC 0 first. -/
def Hub.sendQueues (h : Hub) (k : Nat) : Hub :=
  if !h.rolesOk k then h
  else match [0, 1, 2, 3].findSome? fun v => (h.vcNext k v).map fun q => (v, q) with
    | some (v, q) => h.sendData k v q
    | none => h

/-- FRAME_SEND on the link led by lane `k` (DEDUCED, log entry 69). -/
def Hub.frameSend (h : Hub) (k : Nat) : Hub :=
  if !h.linkUp k ∨ (h.lane k).txLp ∨ (h.isEth k ∧ h.get (LANE_ETH_ADDR_LO k) = 0 ∧ h.get (LANE_ETH_ADDR_HI k) = 0) then h
  else
    let h := h.raiseGrants k
    let l := h.link k
    let e := h.get (LINK_RX_LSEQ k)
    if l.dueNak then (h.setLink k { l with dueNak := false }).emit k (.nak e)
    else if l.dueAck then (h.setLink k { l with dueAck := false, sinceAck := 0 }).emit k (.ack e)
    else if l.dueCustody then
      (h.setLink k { l with dueCustody := false }).emit k (.custodyAck ([0, 1, 2, 3].map fun v => (h.vc k v).cack))
    else if l.dueCredit then (h.setLink k { l with dueCredit := false }).emit k (.credit (h.creditMsg k))
    else match l.times with
    | m :: t => (h.setLink k { l with times := t }).emit k (.time m)
    | [] => match l.resend with
      | s :: _ => h.sendAgain k s
      | [] =>
        match l.ready with
        | c :: t =>
          if l.ctrlOut < 16 then
            let s := h.get (LINK_TX_LSEQ k)
            let h := (h.setLink k { l with ready := t, ctrlSent := l.ctrlSent + 1 }).keepFrame k { lseq := s, ctrl := some c }
            (h.set (LINK_TX_LSEQ k) (s + 1)).emit k (.ctrl s false c)
          else h.sendQueues k
        | [] => h.sendQueues k

/-- The transmitter has a frame to send (R319). -/
def Hub.hasFrame (h : Hub) (k : Nat) : Bool :=
  let l := h.link k
  l.dueNak || l.dueAck || l.dueCustody || l.dueCredit || !l.times.isEmpty || !l.resend.isEmpty || (!l.ready.isEmpty && decide (l.ctrlOut < 16))
    || (h.rolesOk k && [0, 1, 2, 3].any fun v => (h.vcNext k v).isSome)

/-- LP_ENTRY: after IDLE_US with only idle blocks to send, 8 LP_REQ columns and electrical idle (R311). -/
def Hub.lpEntry (h : Hub) (k : Nat) : Hub :=
  if h.bit (LANE_LINK_LEAD k) && h.bit (LANE_LP_LP_EN k) && h.laneState k == lsActive && !h.isEth k && !h.hasFrame k then
    (((h.upTo ((h.link k).idleFrom + max 1 (h.get (LANE_LP_IDLE_US k)) * usU)).column k (List.replicate 8 lpReqSet)).setLinkState k
      lsLowPower).modLane k fun l => { l with txLp := true, wakeEnd := none }
  else h

/-! ## Credit and custody arriving (R325, R326) -/

/-- The grants of one VC in a CREDIT frame. -/
def Hub.grantRx (h : Hub) (k v : Nat) (m : CreditMsg) : Hub :=
  let c := h.vc k v
  let p := m.pkts.getD v 0
  let w := m.words.getD v 0
  let lp := m.limP.getD v 0
  let lw := m.limW.getD v 0
  let rises := (p != c.grantP && serialLe c.grantP p) || (w != c.grantW && serialLe c.grantW w)
  let excess := decide (lp < (p + 2 ^ 32 - c.usedP) % 2 ^ 32) || decide (lw < (w + 2 ^ 32 - c.usedW) % 2 ^ 32)
  if rises && excess then (((h.bump (LINK_CNT_PROTO_ERRS k) (LINK_SAT k)).on (LINK_PROTO_ERR k)).on (LINK_CREDIT_ERR k)).log .creditErr 1 k v
  else
    let c' := { c with limP := lp, limW := lw, grantP := if serialLe c.grantP p then p else c.grantP
                       grantW := if serialLe c.grantW w then w else c.grantW }
    (h.setVc k v c').showVc k v

def Hub.creditRx (h : Hub) (k : Nat) (m : CreditMsg) : Hub :=
  if h.linkUp k then
    (h.each [0, 1, 2, 3] fun h v => h.grantRx k v m).modLink k fun l => { l with ctrlFreed := m.freed }
  else h

def Hub.creditRepeat (h : Hub) (k : Nat) : Hub :=
  if h.linkUp k ∧ h.time.now ≤ (h.link k).changedAt + msU then h.modLink k fun l => { l with dueCredit := true, dueCustody := true } else h

/-- CACK of one VC: every SENT packet before it is freed. -/
def Hub.cackRx (h : Hub) (k v c : Nat) : Hub :=
  if !serialLe c (h.get (VC_TX_CSEQ k v)) then h.protoErr k
  else
    let qs := (List.range 256).filter fun q => q % 4 == v && h.qState q != qOff && h.get (Q_CONSUMER q) == 0 && h.get (Q_LINK q) == k
    let gone := fun (p : Pkt) => p.sent && serialLe p.cseq c && p.cseq != c
    let h := h.each qs fun h q => if (h.q q).pkts.any gone then h.freePkts q gone else h
    h.set (VC_TX_CACK k v) c

def Hub.custodyAckRx (h : Hub) (k : Nat) (c : List Word) : Hub :=
  if h.linkUp k then h.each [0, 1, 2, 3] fun h v => h.cackRx k v (c.getD v 0).toNat else h

/-! ## DATA arriving (R327 to R331) -/

/-- What the hub reads in a packet's own header. -/
structure PktHead where
  type : Nat
  seq : Nat
  armId : Nat
  resume : Nat
  reason : Nat
  last : Nat
  deriving DecidableEq, Repr

/-- The identity of a packet, from its bytes (R179, R219, R328). -/
def parsePkt (b : List (BitVec 8)) : Pkt × PktHead :=
  let at_ := fun o n => ofLe ((b.drop o).take n)
  let base : Pkt := { words := wordsOf ((b.length + 3) / 4) b, len := b.length }
  let ty := at_ 0 1
  if ty = 0x10 ∨ ty = 0x11 then
    ({ base with relief := true, origin := at_ 0x18 6, stream := at_ 0x10 2, grid := at_ 0x12 1, first := at_ 8 8
                 count := at_ 0x14 2, indexed := true },
      ⟨ty, at_ 4 4, at_ 0x3C 4, 0, 0, at_ 8 8 + at_ 0x14 2 - 1⟩)
  else if ty = 0x20 then
    ({ base with relief := at_ 2 1 == 1, origin := at_ 8 6, stream := at_ 6 2, grid := at_ 4 1, relayedGap := true },
      ⟨ty, 0, 0, 0, at_ 3 1, at_ 0x18 8⟩)
  else
    ({ base with origin := at_ 0x16 6, stream := at_ 2 1, grid := at_ 0x12 1, first := at_ 8 8, count := at_ 0x10 2, indexed := true },
      ⟨ty, at_ 4 4, at_ 0x2C 4, at_ 0x30 8, 0, at_ 8 8 + at_ 0x10 2 - 1⟩)

/-- A duplicate of what the source's entry holds. -/
def Dedup.covers (d : Dedup) (p : Pkt) (m : PktHead) : Bool :=
  d.armId == m.armId && serialLe m.seq d.seq && decide (p.first ≤ d.maxIndex)

def Dedup.isOf (d : Dedup) (p : Pkt) : Bool := d.relief == p.relief && d.origin == p.origin && d.stream == p.stream

def dedupEntries : Nat := 16384

/-- The entry of a committed packet's source; a new source in a full table evicts the entry updated least recently. -/
def Hub.dedupPut (h : Hub) (k : Nat) (p : Pkt) (m : PktHead) : Hub :=
  let l := h.lk.dedup
  let top := match l.find? fun d => d.isOf p with
    | some d => if d.armId = m.armId then max d.maxIndex p.first else p.first
    | none => p.first
  let new : Dedup := { relief := p.relief, origin := p.origin, stream := p.stream, armId := m.armId, seq := m.seq, maxIndex := top }
  if l.any fun d => d.isOf p then h.setLk { h.lk with dedup := new :: l.filter fun d => !d.isOf p }
  else if l.length < dedupEntries then h.setLk { h.lk with dedup := new :: l }
  else (h.setLk { h.lk with dedup := new :: l.dropLast }).bump (LINK_DEDUP_EVICT k) (LINK_SAT k)

/-- The key of a stream number of a pair: the pair's place in the list and the stream. -/
def Hub.pairKey (h : Hub) (p : Pkt) : Option Nat :=
  if p.relief then none
  else (h.lk.pairs.findIdx? fun a => a.1 == p.origin || a.2 == p.origin).map fun i => i * 256 + p.stream

/-- A packet of a pair's stream that has been passed already (R336). -/
def Hub.pairDrops (h : Hub) (p : Pkt) (m : PktHead) : Bool :=
  match (h.pairKey p).bind (aFind h.lk.pairSt) with
  | none => false
  | some s =>
    s.armId == m.armId &&
      (if m.type = 3 then s.frags.contains (p.first, p.count)
      else match s.passedMax with
        | none => false
        | some t => decide (m.last ≤ t))

def Hub.pairPut (h : Hub) (p : Pkt) (m : PktHead) : Hub :=
  match h.pairKey p with
  | none => h
  | some key =>
    let s := match aFind h.lk.pairSt key with
      | some s => if s.armId = m.armId then s else { armId := m.armId }
      | none => { armId := m.armId }
    let s := if m.type = 3 then { s with frags := ((p.first, p.count) :: s.frags).take 64 }
      else { s with passedMax := some (max m.last (s.passedMax.getD 0)) }
    h.setLk { h.lk with pairSt := aInsert h.lk.pairSt key s }

/-- Close the open records of a stream that commits a packet again (R22). -/
def Hub.closeFor (h : Hub) (p : Pkt) (m : PktHead) : Hub :=
  let last := ((if m.type = 2 then m.resume else p.first) + 2 ^ 64 - 1) % 2 ^ 64
  (h.lk.opens.filter fun o => o.gap.relief == p.relief && o.gap.origin == p.origin && o.gap.stream == p.stream).foldl
    (fun h o => h.closeRec o last none) h

/-- The last index in custody of each stream received over a link: the highest under its armature (R329) (DESIGN CHOICE, log entry 90). -/
def Hub.trackStream (h : Hub) (k : Nat) (p : Pkt) (m : PktHead) : Hub :=
  h.modLink k fun l =>
    let old := fun (e : Heard) => e.origin == p.origin && e.relief == p.relief && e.stream == p.stream
    let last := match l.streams.find? old with
      | some e => if e.armId = m.armId then max e.last m.last else m.last
      | none => m.last
    { l with streams := ⟨p.origin, p.relief, p.stream, p.grid, last, m.armId⟩ :: l.streams.filter fun e => !old e }

/-- The frame is refused: discarded as errored, never settled (R325). -/
def Hub.dataRefused (h : Hub) (k : Nat) : Hub := (h.protoErr k).nakOnce k

/-- The receive queue of a frame that has a reservation behind it. -/
def Hub.dataQueue (h : Hub) (k v len : Nat) : Option Nat :=
  if h.role k ≠ roleDown ∨ 16440 < len ∨ len = 0 then none
  else match h.rxQueue k v with
    | none => none
    | some q => if h.prodCan q prodLink len then some q else none

/-- Commit a relayed packet (R18, R324); it is settled at once unless the combiner has still to take it. -/
def Hub.dataCommit (h : Hub) (k v cseq q : Nat) (poison : Bool) (p : Pkt) (m : PktHead) : Hub :=
  let h := if m.type = 0x20 then h else ((h.dedupPut k p m).pairPut p m).closeFor p m
  let h := if m.type = 0x20 then h else h.trackStream k p m
  let waits := m.type = 0x10 ∧ (h.slotOfId p.stream).isSome
  let p := { p with poison := poison, port := some k, rx := if waits then some (k, v, cseq) else none }
  let tag := k + 64 * cseq
  let h := (h.prodStart q prodLink tag p.len { p with words := [] }).prodCommit q prodLink tag p
  let c := h.vc k v
  let h := h.setVc k v { c with oweP := c.oweP + 1, oweW := c.oweW + need p.len }
  let h := h.raiseGrant k v
  if waits then h else h.settle k v cseq

/-- The packet has been received already (R327). -/
def Hub.isDup (h : Hub) (p : Pkt) (m : PktHead) : Bool := m.type != 0x20 && h.lk.dedup.any fun d => d.isOf p && d.covers p m

/-- The partner has used credit of a VC for a packet of `len` bytes. -/
def Hub.creditUsed (h : Hub) (k v len : Nat) : Hub :=
  let c := h.vc k v
  h.setVc k v { c with inP := (c.inP + 1) % 2 ^ 32, inW := (c.inW + need len) % 2 ^ 32 }

/-- Where a DATA frame may be forwarded before it is stored, from its header and first bytes (R334): the UP link, the VC there and the
receive queue. -/
def Hub.cutLink (h : Hub) (k : Nat) (f : FrameStart) : Option (Nat × Nat × Nat) :=
  let r := parsePkt f.head
  match h.dataQueue k f.vc f.len with
  | none => none
  | some q =>
    let j := h.get (Q_LINK q)
    let c := h.vc j (q % 4)
    if f.lseq = h.get (LINK_RX_LSEQ k) ∧ h.get (Q_CONSUMER q) = 0 ∧ (h.q q).front.isNone ∧ h.role j = roleUp ∧ h.linkUp j ∧ h.rolesOk j
        ∧ 1 ≤ c.availP ∧ need f.len ≤ c.availW ∧ !(r.2.type == 0x10 && (h.slotOfId r.1.stream).isSome) ∧ (h.pairKey r.1).isNone
        ∧ !h.isDup r.1 r.2 then some (j, q % 4, q) else none

/-- The packet just stored left by cut-through while it arrived (R334): its copy has the LSEQ and CSEQ taken at its start. -/
def Hub.cutThrough (h : Hub) : Option (Nat × Nat × Nat) → Hub
  | none => h
  | some (j, v, q) =>
    match (h.q q).pkts.findRev? fun p => p.gap.isNone && !p.sent with
    | some p => h.sendPkt j v q p
    | none => h

/-- DATA_RX; `cut`: the UP link was idle when the header and 64 bytes had arrived (DEDUCED, log entry 89). -/
def Hub.dataRx (h : Hub) (k v lseq cseq : Nat) (poison : Bool) (body : List (BitVec 8)) (cut : Bool) : Hub :=
  h.rxSeq k lseq fun h =>
    match h.dataQueue k v body.length with
    | none => h.dataRefused k
    | some q =>
      let way := if cut then h.cutLink k ⟨lseq, v, body.length, body.take 64⟩ else none
      let h := (h.rxAccept k).creditUsed k v body.length
      let h := h.setVc k v { h.vc k v with rxCseq := (cseq + 1) % 2 ^ 32 }
      let r := parsePkt body
      if h.isDup r.1 r.2 then
        ((h.bump (LINK_DUPS k) (LINK_SAT k)).settle k v cseq).returnCredit k v body.length
      else if r.2.type ≠ 0x20 ∧ h.pairDrops r.1 r.2 then
        ((h.bump (LINK_PAIR_DROPS k) (LINK_SAT k)).settle k v cseq).returnCredit k v body.length
      else (h.dataCommit k v cseq q poison r.1 r.2).cutThrough way

/-- The forwarded copy of an errored frame is aborted (R335): its LSEQ and CSEQ stay for the next frame, and the credit it used comes
back from the receiver (R324). -/
def Hub.abortCopy (h : Hub) (f : FrameStart) : Option (Nat × Nat × Nat) → Hub
  | none => h
  | some (j, v, q) =>
    (h.useCredit j v f.len q).emit j (.aborted (h.get (LINK_TX_LSEQ j)) (h.get (VC_TX_CSEQ j v)) v f.len f.head)

/-- An errored DATA frame: a frame that was being stored is rewound (R261), the credit of an aborted one returns (R324), and a copy
forwarded by cut-through is aborted. -/
def Hub.dataErrored (h : Hub) (k : Nat) (aborted : Bool) (f : FrameStart) (cut : Bool) : Hub :=
  let way := if cut then h.cutLink k f else none
  let h := match h.dataQueue k f.vc f.len with
    | some q => if f.lseq = h.get (LINK_RX_LSEQ k) then h.bump (Q_REWINDS q) (Q_SAT q) else h
    | none => h
  let h := if aborted ∧ (h.rxQueue k f.vc).isSome then (h.creditUsed k f.vc f.len).returnCredit k f.vc f.len else h
  h.abortCopy f way

/-- ERRORED_FRAME_RX: a CRC failure or another error; the position of a lane that received an invalid block in it (R301); of a DATA frame, what had arrived of it, whether its sender aborted it, and whether
the UP link was idle when its first 64 bytes had arrived (R317, R335) (DEDUCED, log entry 88). -/
def Hub.erroredRx (h : Hub) (k : Nat) (crc : Bool) (bad : Option Nat) (aborted : Bool) (data : Option FrameStart) (cut : Bool) : Hub :=
  if !h.linkUp k then h
  else
    let h := if crc then h.bump (LINK_CRC_ERRS k) (LINK_SAT k) else h.protoErr k
    let h := match bad with
      | some i => if (h.linkLanes k).contains (k + i) then h.bump (LANE_BLOCK_ERRS (k + i)) (LANE_SAT (k + i)) else h
      | none => h
    let h := match data with
      | some f => h.dataErrored k aborted f cut
      | none => h
    h.nakOnce k

/-! ## TIME frames (R52) -/

/-- A PTP message, by its type. -/
def Hub.ptpRx (h : Hub) (lane : Nat) (kind : PtpKind) (m : PtpMsg) (ingress : Nat) (egress : List (Nat × Nat)) : Hub :=
  match kind with
  | .sync => h.syncRx lane m ingress egress
  | .delayReq => h.delayReqRx lane m ingress egress
  | .pdelayReq => h.pdelayReqRx lane m ingress egress
  | .pdelayResp => h.pdelayRespRx lane m ingress egress
  | .followUp => h.followUpRx lane m
  | .delayResp => h.delayRespRx lane m
  | .pdelayRespFollowUp => h.pdelayFollowUpRx lane m
  | .announce => h.announceRx lane m
  | .signaling => h.signalingRx lane m
  | .management => h.signalingRx lane m

def Hub.timeRx (h : Hub) (k : Nat) (kind : PtpKind) (m : PtpMsg) (ingress : Nat) (egress : List (Nat × Nat)) : Hub :=
  if h.linkUp k ∧ !h.isEth k then h.ptpRx k kind m ingress egress else h

/-! ## Control frames (R330, R338, R339, R342) -/

/-- A frame carries a wire stamp: one that is malformed makes the frame a protocol error, otherwise ignored (R35) (DEDUCED, log entry 119). -/
def Hub.stamped (h : Hub) (k : Nat) (stamp : BitVec 96) (f : Nat → Hub → Hub) : Hub :=
  match stampOf stamp with
  | some t => f t h
  | none => h.protoErr k

/-- TRIGGER_RX. -/
def Hub.triggerRx (h : Hub) (k lseq group unit origin : Nat) (stamp : BitVec 96) : Hub :=
  h.rxCtrl k lseq fun h => h.stamped k stamp fun t h =>
    let m : TrigMsg := ⟨group, unit, origin, t⟩
    if h.known m.group m.origin m.time then h.bump ACQ_DIST_DUP ACQ_SAT
    else (((h.bump ACQ_DIST_RX ACQ_SAT).remember m.group m.origin m.time).trigDist m).sendTrigger m (some k)

/-- ASSIGN to an unassigned partner of a DOWN link: this hub's address with the next hop set to the port. -/
def Hub.assignTo (h : Hub) (k : Nat) : Hub :=
  let d := routeDepth h.route
  if (h.helloFor k).enumOk then h.sendCtrl k (.assign (setHop h.route (d + 1) k) (d + 1)) else h

/-- A partner's latest HELLO shows an unassigned hub. -/
def Hub.partnerUnassigned (h : Hub) (k : Nat) : Bool := match (h.link k).hello with
  | some m => m.route == noRoute
  | none => false

def Hub.helloRx (h : Hub) (k lseq : Nat) (m : HelloMsg) : Hub :=
  h.rxCtrl k lseq fun h =>
    let h := h.modLink k fun l => { l with hello := some m }
    let h := (((h.set (LINK_PEER_ROUTE_LO k) m.route).set (LINK_PEER_ROUTE_HI k) (m.route / 2 ^ 32)).set (LINK_PEER_DEPTH k) m.depth).set
      (LINK_PEER_ROLE k) m.role
    let h := (h.set (LINK_PEER_HW k) m.hw).set (LINK_PEER_REV k) m.rev
    let h := if rolesPair (h.role k) m.role then h else h.on (LINK_ROLE_MISMATCH k)
    if m.route = noRoute then h.assignTo k else h

/-- An ASSIGN's address and depth agree (R339). -/
def assignOk (route depth : Nat) : Bool :=
  decide (1 ≤ depth) && decide (depth ≤ 8) && (List.range 8).all fun i =>
    if i < depth then decide (hop route (i + 1) ≤ 62) else hop route (i + 1) == 63

/-- The hub takes a route address: HELLO on every link, ASSIGN to unassigned partners below. -/
def Hub.takeRoute (h : Hub) (route : Nat) : Hub :=
  let h := h.setLk { h.lk with held := route }
  let h := (((h.set DEV_ROUTE_LO route).set DEV_ROUTE_ROUTE_HI (route / 2 ^ 32)).set DEV_ROUTE_DEPTH (routeDepth route)).on DEV_ROUTE_ASSIGNED
  let up := h.leads.filter h.linkUp
  let h := h.each up Hub.sendHello
  h.each (up.filter fun k => h.role k == roleDown && h.partnerUnassigned k) Hub.assignTo

def Hub.routeConflict (h : Hub) (k route : Nat) : Hub :=
  (h.on (LINK_ROUTE_CONFLICT k)).log .routeConflict k route (route / 2 ^ 32)

def Hub.assignRx (h : Hub) (k lseq route depth : Nat) : Hub :=
  h.rxCtrl k lseq fun h =>
    if !assignOk route depth then h.protoErr k
    else if h.role k ≠ roleUp then h
    else if h.unassigned then (h.modLink k fun l => { l with gaveRoute := true }).takeRoute route
    else if route = h.route then h
    else if h.lk.routeSet ∨ (h.link k).gaveRoute then h.routeConflict k route
    else h

/-- SET of DEV_ROUTE (R444): an address of depth 1, held against every later ASSIGN. -/
def Hub.routeSetWrite (h : Hub) : Hub :=
  let r := h.get DEV_ROUTE_LO + 2 ^ 32 * h.get DEV_ROUTE_ROUTE_HI
  if assignOk r 1 ∧ (h.unassigned ∨ h.route = r) then
    let h := h.setLk { h.lk with routeSet := true }
    if h.unassigned then h.takeRoute r else h
  else h.on DEV_ROUTE_WERR

def Hub.commitNoteRx (h : Hub) (k lseq route : Nat) (stamp : BitVec 96) (streams : List Nat) : Hub :=
  h.rxCtrl k lseq fun h =>
    if h.role k ≠ roleDown then h.protoErr k
    else h.stamped k stamp fun tc h =>
      let hit := h.lk.opens.filter fun o => o.gap.origin == route && (o.gap.relief || !streams.contains o.gap.stream)
      hit.foldl (fun h o => h.closeRec o endedIndex (some tc)) h

/-! ## Remote-access responses (R333, R340) -/

def Hw.raccRespRx (w : Hw) (k lseq : Nat) (m : RaccMsg) : Hw :=
  if w.hub.linkUp k ∧ lseq = w.hub.get (LINK_RX_LSEQ k) then
    let w := w.onHub fun h => h.rxCtrl k lseq id
    if w.hub.raccMine m.dest then w.raccDeliver m
    else match w.hub.routeTo m.dest with
      | some (some j) => w.onHub fun h => h.sendCtrl j (.raccResp m)
      | _ => w.onHub fun h => h.protoErr k
  else w.onHub fun h => h.rxCtrl k lseq id

/-- RACC_TIMEOUT (R340, R345, R358). -/
def Hw.raccTimeout (w : Hw) : RaccWho → Hw
  | .dma c => w.dmaTimeout c.val
  | .report tag =>
    if w.hub.pair.reports.contains tag then
      w.onHub fun h => (h.setPair { h.pair with reports := h.pair.reports.filter (· != tag) }).bump DUP_CNT_RPT_FAIL DUP_SAT
    else w
  | .port i =>
    match (w.hub.link i.val).racc with
    | none => w
    | some _ => w.onHub fun h =>
      let h := h.upTo ((h.link i.val).raccAt + max 1 (h.get (LINK_RACC_TIMEOUT_MS i.val)) * msU)
      (((h.modLink i.val fun l => { l with racc := none }).off (LINK_RACC_BUSY i.val)).on (LINK_RACC_DONE i.val)).set
        (LINK_RACC_STATUS i.val) 7

/-! ## Kamrel over Ethernet (R312, R343) -/

/-- ETH_FRAME_RX: PTP messages and whole Kamrel frames have rows of their own; this is what the frame itself does. -/
def Hub.ethRx (h : Hub) (k : Nat) (kind : EthKind) (src kfid frag fcount : Nat) : Hub :=
  if !h.isEth k then h
  else match kind with
    | .ptp => h
    | .other => h.bump (LANE_ETH_DROPS k) (LANE_SAT k)
    | .bad => h.bump (LANE_ETH_DROPS k) (LANE_SAT k)
    | .fragment =>
      if src ≠ h.peerMac k then h.bump (LANE_ETH_DROPS k) (LANE_SAT k)
      else
        let errs := fun (h : Hub) => (h.dropAsm k).erroredRx k false none false none false
        let start := fun (h : Hub) =>
          if frag ≠ 0 ∨ fcount = 0 ∨ 12 < fcount then errs h
          else if fcount = 1 then h else h.modLink k fun l => { l with asm := some (kfid, 1, fcount) }
        match (h.link k).asm with
        | none => start h
        | some (id, got, n) =>
          if id = kfid ∧ frag = got ∧ fcount = n then
            if got + 1 = n then h.dropAsm k else h.modLink k fun l => { l with asm := some (id, got + 1, n) }
          else if id = kfid then errs h
          else start (errs h)

/-- FRAGMENT_TIMEOUT: the frame is still incomplete 1 ms after its first fragment. -/
def Hub.fragTimeout (h : Hub) (k : Nat) : Hub :=
  if (h.link k).asm.isSome then (h.dropAsm k).erroredRx k false none false none false else h

/-! ## Counters -/

/-- The eight counters of a link (R446). -/
def Hub.linkCntClr (h : Hub) (k : Nat) : Hub :=
  h.offs [LINK_CRC_ERRS k, LINK_CNT_PROTO_ERRS k, LINK_REPLAYS k, LINK_RX_DUPS k, LINK_DUPS k, LINK_PAIR_DROPS k, LINK_DEDUP_EVICT k,
    LINK_RST_REFUSED k]

/-- The counters of a lane that LANE CTL.CNT_CLR names (R446). -/
def Hub.laneCntClr (h : Hub) (n : Nat) : Hub :=
  h.offs [LANE_SYNC_ERRS n, LANE_BLOCK_ERRS n, LANE_LOS_EVENTS n, LANE_TRAIN_FAILS n, LANE_ETH_DROPS n, LANE_PRBS_ERR_LO n,
    LANE_PRBS_ERR_HI n, LANE_PRBS_BITS_LO n, LANE_PRBS_BITS_HI n]

end Sys2Proof.Machine
end

