-- ==== Sys2Proof/Machine/Duplex.lean ====
section
/-! DEFINITION. Duplex pairs (chapter 14): heartbeats, the active's codes and edges, digests and cross-checks, divergence and
reports, takeover and planned swaps. -/

namespace Sys2Proof.Machine

def psNone : Nat := 0
def psJoining : Nat := 1
def psLockstep : Nat := 2
def psDegraded : Nat := 3
def psMismatch : Nat := 4

def Hub.pstate (h : Hub) : Nat := h.get DUP_PSTATE

/-- A duplex section is committed and the frame came over its link. -/
def Hub.dupFrom (h : Hub) (k : Nat) : Bool := h.pstate != psNone && h.get DUP_LINK == k

/-- This hub is the standby and the pair runs. -/
def Hub.standby (h : Hub) : Bool := h.pstate != psNone && h.get DUP_ROLE == 1

/-- Any DUPLEX frame is a sign of life of the partner (R360). -/
def Hub.lifeSign (h : Hub) : Hub := h.setPair { h.pair with lastSign := h.time.now }

/-- A DUPLEX frame arrives on the pair's link: it is accepted, is a sign of life, and acts. -/
def Hub.dupRx (h : Hub) (k lseq : Nat) (f : Hub → Hub) : Hub :=
  h.rxCtrl k lseq fun h => if h.dupFrom k then f h.lifeSign else h

/-- Every channel of the committed armature carries SETTLE on the outputs whose support contains the sample of an edge. -/
def Hub.settleEdge (h : Hub) (t : Nat) : Hub :=
  h.each (chanList.filter fun n => (h.chan n).live) fun h n =>
    let a := t - h.delayOf n (h.rangeWas n t)
    h.mark n .settle a a

/-- The chains take codes of the hub or of its partner from the edge nearest an instant on; the supports that contain that edge carry SETTLE
(R360, R364). -/
def Hub.feedFrom (h : Hub) (own : Bool) (t : Nat) : Hub :=
  let h := h.feed own t
  h.settleEdge ((h.pair.srcs.head?).elim t h.srcStart)

/-! ## Reports and divergence (R358, R359) -/

def dvDigest : Nat := 1
def dvAnalog : Nat := 2
def dvTime : Nat := 3
def dvTakeover : Nat := 4
def dvMismatch : Nat := 5
def dvPartnerLost : Nat := 6

/-- A report reaches the root that is this hub's own host (DEDUCED, log entry 30). -/
def Hub.reportHere (h : Hub) (src word : Nat) : Hub :=
  let h := if h.bit DUP_RPT_NEW then h.on DUP_RPT_OVR else h
  (((h.set DUP_RPT_SRC_LO src).set DUP_RPT_SRC_HI (src / 2 ^ 32)).set DUP_RPT_WORD word).on DUP_RPT_NEW |>.on DEV_IRQ_DUPLEX

/-- A report to the root: once per kind and ID per second (DEDUCED, log entry 91). -/
def Hub.report (h : Hub) (kind id : Nat) : Hub :=
  let key := kind * 256 + id
  if aFind h.pair.reported key = some (tSec h.time.now) then h
  else
    let h := h.setPair { h.pair with reported := aInsert h.pair.reported key (tSec h.time.now) }
    let word := kind + 256 * id + 2 ^ 16 * h.get DUP_ROLE
    if h.lk.routeSet then h.reportHere h.route word
    else if h.unassigned then h
    else match h.upLink with
      | none => h
      | some k =>
        let tag := h.lk.raccTag
        let h := h.setLk { h.lk with raccTag := (tag + 1) % 2 ^ 16 }
        let h := h.setPair { h.pair with reports := h.pair.reports ++ [tag] }
        h.sendCtrl k (.raccReq { dest := noRoute, src := h.route, tag := tag, op := 1, status := 0, addr := h.get DUP_RPT_ADDR
                                 len := 4, data := leBytes 4 word })

/-- DIVERGENCE (DEDUCED, log entry 91). -/
def Hub.diverge (h : Hub) (kind id window : Nat) : Hub :=
  let h := (h.on DUP_DIVERGE).bump DUP_CNT_DIVERGE_COUNT DUP_SAT
  let h := if h.bit DUP_FIRST_VALID then h else
    ((((h.set DUP_FIRST_KIND kind).set DUP_FIRST_ID id).on DUP_FIRST_VALID).set DUP_FIRST_WINDOW_LO window).set DUP_FIRST_WINDOW_HI (window / 2 ^ 32)
  let h := (h.on DEV_IRQ_DUPLEX).logFirst .duplexDiverge 0 kind id window
  let h := h.report kind id
  if h.get DUP_ROLE = 1 then h.on DUP_SUSPECT else h.on DUP_PARTNER_SUSPECT

/-! ## Heartbeats (R353, R354) -/

def Hub.heartbeatSend (h : Hub) : Hub :=
  let flags := h.get DUP_SUSPECT + 2 * b2n (h.pstate == psDegraded) + 4 * h.get DUP_SWAP_PENDING + 8 * h.get UPD_STAT_UPDATING
  h.each (h.activeOf roleDuplex) fun h k =>
    (h.setPair { h.pair with hbCount := (h.pair.hbCount + 1) % 2 ^ 32 }).sendCtrl k
      (.duplex (.heartbeat h.route (h.get DUP_ROLE) flags h.pair.armCrc h.pair.hbCount))

/-- A standby's chains take their own codes, or the active's, from an instant on; SETTLE on the supports that contain that edge (R360, R364). -/
def Hub.feedOwn (h : Hub) (t : Nat) : Hub := if h.shadowing then h.feedFrom true t else h
def Hub.feedActive (h : Hub) : Hub :=
  if h.shadowing then h else h.feedFrom false (h.memberEdge false (h.memberIndex false h.time.now + 1))

/-- The ARM_CRC of a HEARTBEAT governs MISMATCH. -/
def Hub.compareCrc (h : Hub) (crc : Nat) : Hub :=
  if crc ≠ h.pair.armCrc then
    if h.pstate = psMismatch then h
    else (((h.set DUP_PSTATE psMismatch).feedOwn h.time.now).on DEV_IRQ_DUPLEX).report dvMismatch 0
  else if h.pstate = psMismatch then
    (let h := h.set DUP_PSTATE psJoining
     if h.get DUP_ROLE = 1 then h.feedActive else h)
  else h

/-- The active sees in its partner's HEARTBEAT whether the standby runs on its own codes (R353) (DEDUCED, log entry 91). -/
def Hub.partnerDegraded (h : Hub) (degraded : Bool) : Hub :=
  if h.get DUP_ROLE ≠ 0 then h
  else if degraded then (if h.pstate = psJoining ∨ h.pstate = psLockstep then h.set DUP_PSTATE psDegraded else h)
  else if h.pstate = psDegraded then h.set DUP_PSTATE psJoining
  else h

/-- A cast load ends in FAILED (R396). -/
def Hub.updFail (h : Hub) (code : Nat) : Hub :=
  let h := (((h.set UPD_STAT_STATE 6).set UPD_STAT_ERR code).off UPD_STAT_UPDATING).bump UPD_FAILS UPD_STAT_SAT
  (h.setUpd { h.upd with bytes := [], cast := none }).log .castRefused code (h.get UPD_STAT_FORMAT) 0

/-- A HEARTBEAT of the partner shows UPDATING: its instant is kept, and of two loads accepted within the same 100 µs, which the
heartbeats of the next 100 µs tell, the one of the higher route address ends (R354, R393) (DEDUCED, log entry 127). -/
def Hub.partnerUpdates (h : Hub) (route : Nat) : Hub :=
  let h := h.setUpd { h.upd with partnerUpdAt := some h.time.now }
  if (h.get UPD_STAT_STATE = 1 ∨ h.get UPD_STAT_STATE = 2) ∧ h.time.now ≤ h.upd.startedAt + 200 * usU ∧ route < h.route then h.updFail 0x12 else h

/-- HEARTBEAT_RX. Without a duplex section only the partner's address and UPDATING count (R393). A standby drops a pending
swap that the active no longer shows (DEDUCED, log entry 91). -/
def Hub.heartbeatRx (h : Hub) (k lseq route flags crc : Nat) : Hub :=
  h.rxCtrl k lseq fun h =>
    if h.role k ≠ roleDuplex then h
    else
      let h := if flags.testBit 3 then h.partnerUpdates route else h
      let own := h.dupFrom k
      let h := if own ∨ h.pstate = psNone then (h.set DUP_PARTNER_LO route).set DUP_PARTNER_HI (route / 2 ^ 32) else h
      if !own then h
      else
        let h := h.lifeSign.setPair { h.pair with partner := some (crc, flags), lastSign := h.time.now }
        let h := if h.get DUP_ROLE = 0 then h.set DUP_PARTNER_SUSPECT (b2n (flags.testBit 0)) else h
        let h := if h.get DUP_ROLE = 1 ∧ h.bit DUP_SWAP_PENDING ∧ !flags.testBit 2 ∧ h.time.now < h.pair.swapAt then
            h.off DUP_SWAP_PENDING else h
        (h.compareCrc crc).partnerDegraded (flags.testBit 1)

/-- A DUPLEX frame by its SUBTYPE, and an EVENT by its KIND: HEARTBEAT here, the others by commands of their own; one that R354 does not give
is a protocol error and otherwise ignored. -/
def Hub.duplexRx (h : Hub) (k lseq sub kind route flags crc : Nat) : Hub :=
  if sub = 1 then h.heartbeatRx k lseq route flags crc
  else if sub = 0 ∨ 5 < sub ∨ (sub = 5 ∧ (kind = 0 ∨ 6 < kind)) then h.rxCtrl k lseq fun h => h.protoErr k
  else h

/-! ## The active's codes and edges (R349, R350) -/

/-- The active drives and sends while it runs an acquisition mode. -/
def Hub.dupDriving (h : Hub) : Bool := h.dupActive && h.acquiring

/-- The 6-bit fields of an edge: code + 8 and the clip mark of each channel, 0 outside the armature (R354). -/
def Hub.codeFields (h : Hub) (e : Nat) : List Nat :=
  (List.range 192).map fun n => if (h.chan n).live then (h.ownCode n e + 8).toNat + 32 * b2n (h.ownClip n e) else 0

/-- SAMPLES_SEND: the codes of the 4 edges from `first`. -/
def Hub.samplesSend (h : Hub) (first : Nat) : Hub :=
  if h.dupDriving then
    h.sendCtrl (h.get DUP_LINK) (.duplex (.samples first ((List.range 4).map fun j => h.codeFields (first + j))))
  else h

/-- TIMEMAP_SEND at edge 1,024 · `m`: the DUPLEX_SYNC pulse and the map. -/
def Hub.timemapSend (h : Hub) (m : Nat) : Hub :=
  if h.dupDriving then
    let e := 1024 * m
    let h := h.upTo (h.edgeTime e)
    let h := h.setPair { h.pair with pulseNs := if m % 64 = 0 then 80 else 40 }
    h.sendCtrl (h.get DUP_LINK) (.duplex (.timemap e (h.edgeTime e) h.modPeriod))
  else h

/-- SAMPLES_RX: the standby's chains take the active's codes; after codes of its own, that edge's supports carry SETTLE and
the pair joins again (R364) (DEDUCED, log entry 93). -/
def Hub.samplesRx (h : Hub) (k lseq first : Nat) (codes : List (List Nat)) : Hub :=
  h.dupRx k lseq fun h =>
    let h := if h.standby then
        h.setPair { h.pair with codes := (codes.zipIdx).foldl (fun m e => aInsert m (first + e.2) e.1) h.pair.codes } else h
    if !h.standby ∨ h.pstate = psMismatch then h
    else
      let h := h.feedActive.setPair { h.feedActive.pair with lostEdge := none }
      if h.pstate = psDegraded then h.set DUP_PSTATE psJoining else h

def Hub.timemapRx (h : Hub) (k lseq edge time period : Nat) : Hub :=
  h.dupRx k lseq fun h => h.setPair { h.pair with maps := (edge, time, period) :: h.pair.maps }

/-- CODES_OVERDUE for the active's edge at instant `t` (R360). -/
def Hub.codesOverdue (h : Hub) (t : Nat) : Hub :=
  if h.standby ∧ h.shadowing ∧ h.pstate ≠ psMismatch then
    let h := (h.upTo (t + 100 * usU)).feedOwn t
    (h.setPair { h.pair with lostEdge := some t }).set DUP_PSTATE psDegraded
  else h

/-! ## Digests (R355, R356) -/

/-- The digest window of an instant. -/
def windowOf (t : Nat) : Nat := t / msU

/-- Every output of a bank group in a window is free of the SETTLE of a restart; no relief contribution was RESTARTED. -/
def Hub.comparable (h : Hub) (kind id window : Nat) : Bool :=
  if kind = 0 then
    (List.range 16).all fun i =>
      let c := h.chan (16 * id + i)
      match c.run with
      | some r => !c.live || decide (gridInstant r.epoch r.p r.q c.settledAt ≤ window * msU)
      | none => true
  else decide (aGet h.pair.compareFrom (256 + id) 0 ≤ window)

/-- Compare two digests of one group and window (R353, R356) (DESIGN CHOICE, log entry 92). -/
def Hub.compareDigests (h : Hub) (a b : Digest) : Hub :=
  let h := h.setPair { h.pair with own := h.pair.own.filter (· != a), other := h.pair.other.filter (· != b) }
  if (h.pstate = psJoining ∨ h.pstate = psLockstep) ∧ h.comparable a.kind a.id a.window then
    let h := h.set DUP_PSTATE psLockstep
    if a.words ≠ b.words ∨ a.crc ≠ b.crc then h.diverge dvDigest a.id a.window else h
  else h

def sameGroup (a b : Digest) : Bool := a.window == b.window && a.kind == b.kind && a.id == b.id

/-- Compare every digest whose counterpart is present. -/
def Hub.compareAll (h : Hub) : Hub :=
  h.pair.own.foldl (fun h a => match h.pair.other.find? (sameGroup a) with
    | some b => h.compareDigests a b
    | none => h) h

/-- A window of a channel carries no SETTLE, XSIT or CLIP (R357). -/
def Hub.windowClean (h : Hub) (n window : Nat) : Bool :=
  let lo := window * msU
  let hi := lo + msU
  let hit := fun (s : Span) => decide (s.lo < hi) && s.hi.all fun e => decide (lo ≤ e)
  let clip := fun own => (List.range (h.memberIndex own (hi - 1) - h.memberIndex own (lo - 1))).any fun i =>
    h.clipBy own n (h.memberIndex own (lo - 1) + 1 + i)
  !((h.chan n).spans.any fun s => (s.flag == .settle || s.flag == .xsit) && hit s) && !clip true && !clip false

/-- One channel of the analogue cross-check: the means of the two members' corrected samples, in 2^-24 of top full scale (R357)
 (DESIGN CHOICE, log entry 92). -/
def Hub.anaCheck (window : Nat) (h : Hub) (n : Nat) : Hub :=
  let lo := window * msU
  if !(h.chan n).live ∨ !h.windowClean n window then h.setPair { h.pair with anaRun := aInsert h.pair.anaRun n 0 }
  else if (h.get DUP_XTOL : ℚ) < |h.meanBy true n lo (lo + msU) - h.meanBy false n lo (lo + msU)| * 2 ^ 24 then
    let h := h.bump DUP_CNT_XCHECK_COUNT DUP_SAT
    let r := aGet h.pair.anaRun n 0 + 1
    if r = 3 then (h.setPair { h.pair with anaRun := aInsert h.pair.anaRun n 0 }).diverge dvAnalog n window
    else h.setPair { h.pair with anaRun := aInsert h.pair.anaRun n r }
  else h.setPair { h.pair with anaRun := aInsert h.pair.anaRun n 0 }

/-- The digest of a group of a window; none where the group has no output in it (R355). -/
def Hub.digestOf (h : Hub) (window : Nat) (g : Nat × Nat) : Option Digest :=
  let mine := h.pair.parts.filter fun e => e.1 == window && e.2.1 == g.1 && e.2.2.1 == g.2
  let sorted := mine.mergeSort fun a b => decide (a.2.2.2.1 ≤ b.2.2.2.1)
  if mine.isEmpty then none
  else some { window := window, kind := g.1, id := g.2, words := mine.length, crc := crc32c (sorted.flatMap (·.2.2.2.2)) }

/-- DIGEST_READY: the digests of the groups that complete together are formed and sent in one frame, and compared; a standby in LOCKSTEP
runs the analogue cross-check on the channels of their banks (R355 to R357). -/
def Hub.digestReady (h : Hub) (groups : List (Nat × Nat)) (window : Nat) : Hub :=
  let ds := groups.filterMap fun g => h.digestOf window g
  if h.pstate = psNone ∨ ds.isEmpty then h
  else
    let h := h.setPair { h.pair with
      parts := h.pair.parts.filter fun e => !(e.1 == window && groups.contains (e.2.1, e.2.2.1)), own := h.pair.own ++ ds }
    let h := h.sendCtrl (h.get DUP_LINK) (.duplex (.digest window (ds.map fun d => (d.kind, d.id, d.words, d.crc))))
    let h := h.compareAll
    if h.get DUP_ROLE = 1 ∧ h.pstate = psLockstep then
      h.each ((ds.filter fun d => d.kind == 0).flatMap fun d => (List.range 16).map (· + 16 * d.id)) (Hub.anaCheck window)
    else h

/-- DIGEST_RX. -/
def Hub.digestRx (h : Hub) (k lseq window : Nat) (entries : List (Nat × Nat × Nat × Nat)) : Hub :=
  h.dupRx k lseq fun h =>
    let new := entries.map fun e => (⟨window, e.1, e.2.1, e.2.2.1, e.2.2.2⟩ : Digest)
    (h.setPair { h.pair with other := h.pair.other ++ new }).compareAll

/-- DIGEST_MISSING: digests that leave the span of 1,024 windows. -/
def Hub.digestMissing (h : Hub) : Hub :=
  let old := fun (d : Digest) => decide (d.window + 1024 ≤ windowOf h.time.now)
  let n := (h.pair.own.filter old).length + (h.pair.other.filter old).length
  let h := h.setPair { h.pair with own := h.pair.own.filter fun d => !old d, other := h.pair.other.filter fun d => !old d }
  h.bumpBy DUP_CNT_DIGEST_MISSING DUP_SAT n

/-! ## DUPLEX_SYNC (R349, R357, R366) -/

/-- DUPLEX_SYNC_PULSE: the standby stamps the active's pulse for an edge and runs the time cross-check. -/
def Hub.syncPulse (h : Hub) (stamp edge : Nat) : Hub :=
  if !h.standby then h
  else
    let h := (h.upTo stamp).lifeSign
    let h := (h.setPair { h.pair with lastPulse := h.time.now }).off DUP_SYNC_LOST
    match h.pair.maps.find? fun m => m.1 == edge with
    | some (_, t, _) =>
        let ps := ((stamp : Int) - t) * 1000 / 2 ^ 32 - toSigned 16 (h.get DUP_SYNC_DLY)
        let h := h.set DUP_TDIFF (ofSigned 32 (max (-(2 ^ 31)) (min (2 ^ 31 - 1) ps)))
        if h.pstate ≠ psLockstep then h
        else if h.get DUP_TTOL * 1000 < ps.natAbs then
          let h := h.bump DUP_CNT_XCHECK_COUNT DUP_SAT
          if h.pair.tdiffRun + 1 = 16 then (h.setPair { h.pair with tdiffRun := 0 }).diverge dvTime 0 (windowOf h.time.now)
          else h.setPair { h.pair with tdiffRun := h.pair.tdiffRun + 1 }
        else h.setPair { h.pair with tdiffRun := 0 }
    | none => h

def Hub.syncPulseLoss (h : Hub) : Hub :=
  if h.standby then ((h.upTo (h.pair.lastPulse + 300 * usU)).on DUP_SYNC_LOST).setPair { h.pair with tdiffRun := 0 } else h

/-! ## The active's decisions (R351) -/

/-- The instant of the active's edge that an EVENT names: what it tells comes into force there, at that edge in the chains and at the first edge
after it in the hub's own front end (R351). -/
def Hub.atEdge (h : Hub) (edge : Nat) : Hub := h.setTime { h.time with now := h.memberEdge false edge - 1 }

/-- Local time goes on from where it was. -/
def Hub.backTo (h : Hub) (t : Nat) : Hub := h.setTime { h.time with now := max t h.time.now }

/-- An EVENT the standby applies at the active's edge. -/
def Hub.eventRx (h : Hub) (k lseq edge : Nat) (f : Hub → Hub) : Hub :=
  h.dupRx k lseq fun h => if h.standby then (f (h.atEdge edge)).backTo h.time.now else h

def Hub.rangeStepEvent (h : Hub) (k lseq n r edge : Nat) : Hub := h.eventRx k lseq edge fun h => h.rangeStep n r h.time.now

/-- SHED: the standby records the state and drives nothing. -/
def Hub.shedEvent (h : Hub) (k lseq n edge : Nat) (shed : Bool) : Hub :=
  h.eventRx k lseq edge fun h =>
    if (h.chan n).shed = shed then h
    else if shed then (((h.disturb n h.time.now (50 * usU + h.extra n)).showShed n true).showExcf n).noteExc n h.time.now
    else h.restoreChan n

def Hub.patinaEvent (h : Hub) (k lseq n i edge : Nat) (offset : Int) (gain : Nat) : Hub :=
  h.eventRx k lseq edge fun h =>
    let was := (h.pair.pats.head?).elim h.hk.inForce (·.2)
    h.setPair { h.pair with pats := (h.memberEdge false edge, patEntryPut was n i offset gain 0) :: h.pair.pats }

/-- The grid-sample word of a unit's source channel at an instant, as the standby's chain computes it (R181, R346). -/
def Hub.sourceWord (h : Hub) (u T : Nat) : Nat :=
  let n := h.get (TRG_SRC_CH u)
  match (h.chan n).run with
  | none => 0
  | some r => (h.outputWords n r (firstIndexAt r.epoch r.p r.q T)).headD 0

/-- The hub where a distributed trigger of a group arose: the standby has seen the frame too (DESIGN CHOICE, log entry 118). -/
def Hub.originOf (h : Hub) (group T : Nat) : Nat :=
  match h.acq.seen.find? fun e => e.1 == group && e.2.2.1 == wireTime T with
  | some e => e.2.1
  | none => (Config.datum h.free).toNat % 2 ^ 48

/-- TRIGGER: the standby produces the record the active produces (R185, R351) (DEDUCED, log entry 78). -/
def Hub.triggerEvent (h : Hub) (k lseq u source : Nat) (forced : Bool) (stamp : BitVec 96) : Hub :=
  h.dupRx k lseq fun h => h.stamped k stamp fun T h =>
    if h.standby then
      let dist := source = 7 ∧ !forced
      h.draw.decide1 u
        { time := T, source := source, forced := forced, group := h.groupOf u source
          origin := if dist then h.originOf (h.groupOf u source) T else h.get DUP_PARTNER_LO + 2 ^ 32 * h.get DUP_PARTNER_HI
          word := if 1 ≤ source ∧ source ≤ 3 ∧ !forced then h.sourceWord u T else 0 }
    else h

/-! ## Takeover and swap (R360 to R362) -/

/-- The channels whose drivers a new active starts. -/
def Hub.driven (h : Hub) : List Nat := chanList.filter fun n => (h.chan n).live && (h.chan n).exMode != 0 && !(h.chan n).shed

/-- The handover's SETTLE: from the release instant until 20 µs + X after the new drivers start (R97, R361). -/
def Hub.handover (h : Hub) (release start : Nat) : Hub :=
  h.each h.driven fun h n => h.disturb n release (start - release + 20 * usU + h.extra n)

/-- TAKEOVER at the instant of the decision. -/
def Hub.takeover (h : Hub) : Hub :=
  let d := h.time.now
  let es := h.pair.lostEdge.getD h.pair.lastSign
  let h := ((h.off DUP_ROLE).enter h.arm.acqMode).onlyLinks
  let h := ((h.on DUP_TOOK_OVER).bump DUP_CNT_TAKEOVERS DUP_SAT).log .dupTakeover (h.get DUP_PARTNER_LO) (h.get DUP_PARTNER_HI) 0
  let h := (h.on DEV_IRQ_DUPLEX).report dvTakeover 0
  let h := h.feedOwn es
  let h := (h.setPair { h.pair with driverAt := some (d + 55 * usU) }).set DUP_PSTATE psDegraded
  let h := h.handover es (d + 55 * usU)
  if h.get HK_CAL_STATE ≠ 0 then h.calDrop else h

/-- HEARTBEAT_LOSS: TIMEOUT_US without a sign of the partner. -/
def Hub.heartbeatLoss (h : Hub) : Hub :=
  if h.pstate = psNone then h
  else
    let h := h.upTo (h.pair.lastSign + h.get DUP_TIMEOUT_US * usU)
    let h := if h.time.now < h.pair.swapAt then h.off DUP_SWAP_PENDING else h
    if h.get DUP_ROLE = 0 ∨ h.pstate = psMismatch ∨ (h.bit DUP_SUSPECT ∧ h.get DUP_POLICY = 1) then
      (h.on DEV_IRQ_DUPLEX).report dvPartnerLost 0
    else h.takeover

/-- DRIVER_START: 55 µs after a takeover or swap. -/
def Hub.driverStart (h : Hub) : Hub :=
  match h.pair.driverAt with
  | none => h
  | some t =>
    let h := (h.upTo t).setPair { h.pair with driverAt := none }
    h.each h.driven fun h n => (h.setChan n { h.chan n with driving := h.mayDrive }).noteExc n h.time.now

/-- The SWAP_AT instant. -/
def Hub.swapInstant (h : Hub) : Nat := mkTime (h.get DUP_SWAP_SEC_LO + 2 ^ 32 * h.get DUP_SWAP_SEC_HI) (h.get DUP_SWAP_NS) 0

/-- DUP_CTL.SWAP on the active. -/
def Hub.swap (h : Hub) : Hub :=
  let flags := (h.pair.partner.map (·.2)).getD 0
  if h.pstate ≠ psLockstep ∨ h.get DUP_ROLE ≠ 0 ∨ flags.testBit 0 ∨ flags.testBit 3 ∨ h.bit DUP_PARTNER_SUSPECT
      ∨ h.swapInstant < h.time.now + 10 * msU then h.on DUP_WERR
  else
    let h := (h.setPair { h.pair with swapAt := h.swapInstant }).on DUP_SWAP_PENDING
    h.dupSend .swap 0 0 h.swapInstant

/-- SWAP_CANCEL, until 1 ms before S; one that comes later or finds no swap is refused (DEDUCED, log entry 91). -/
def Hub.swapCancel (h : Hub) : Hub :=
  if h.get DUP_ROLE = 0 ∧ h.bit DUP_SWAP_PENDING ∧ h.time.now + msU ≤ h.pair.swapAt then h.off DUP_SWAP_PENDING else h.on DUP_WERR

def Hub.swapEvent (h : Hub) (k lseq : Nat) (stamp : BitVec 96) : Hub :=
  h.dupRx k lseq fun h => h.stamped k stamp fun S h => if h.standby then (h.setPair { h.pair with swapAt := S }).on DUP_SWAP_PENDING else h

/-- E_S: the instant of the active's first edge at or after S (R362). -/
def Hub.swapEdge (h : Hub) : Nat :=
  let own := h.get DUP_ROLE == 0
  h.memberEdge own (h.memberIndex own (h.pair.swapAt - 1) + 1)

/-- SWAP_INSTANT: at E_S the members exchange roles; the old active releases its drivers, the new one's start at S + 55 µs. -/
def Hub.doSwap (h : Hub) : Hub :=
  if !h.bit DUP_SWAP_PENDING then h
  else
    let S := h.pair.swapAt
    let E := h.swapEdge
    let h := (h.upTo E).off DUP_SWAP_PENDING
    let h := h.handover E (S + 55 * usU)
    if h.get DUP_ROLE = 0 then
      let h := (h.on DUP_ROLE).enter mMirror
      let h := (h.feed false E).setPair { (h.feed false E).pair with lastSign := h.time.now, lastPulse := h.time.now }
      (h.each chanList fun h n => h.discharge n).onlyLinks
    else
      let h := ((h.off DUP_ROLE).enter h.arm.acqMode).onlyLinks
      (h.feed true E).setPair { (h.feed true E).pair with driverAt := some (S + 55 * usU) }

/-- CLEAR_SUSPECT on the standby (R359); on the active it is refused (DEDUCED, log entry 91). -/
def Hub.clearSuspect (h : Hub) : Hub := if h.standby then h.off DUP_SUSPECT else h.on DUP_WERR

/-- DUP_CNT_CLR. -/
def Hub.dupCntClr (h : Hub) : Hub :=
  h.offs [DUP_CNT_DIVERGE_COUNT, DUP_CNT_DIGEST_MISSING, DUP_CNT_TAKEOVERS, DUP_CNT_XCHECK_COUNT, DUP_CNT_RPT_FAIL]

/-- The link plan's host writes: MODE, RATE and width of a lane (R293 to R296). -/
def Hub.planRow (h : Hub) (n what v : Nat) : Hub :=
  h.hostWr (0x20000 + 0x400 * n + (if what = 0 then 0 else if what = 1 then 0x20 else 0x24)) v fun h => h.planWrite n what v

end Sys2Proof.Machine
end

