-- ==== Sys2Proof/Machine/ArmCheck.lean ====
section
/-! DEFINITION. The armature as a byte string, and its validation (chapter 15): layout, sections, format checks in byte
order, content checks in ascending code (R367 to R374). -/

namespace Sys2Proof.Machine

/-! ## Layout (R367 to R371) -/

/-- A little-endian field of a byte string. -/
def fieldAt (b : List (BitVec 8)) (off n : Nat) : Nat := ofLe ((b.drop off).take n)

/-- A failure: its code, the byte offset of the section head or header field, TYPE and INST of the section (R374). -/
structure ArmErr where
  code : Nat
  ofs : Nat
  type : Nat := 0
  inst : Nat := 0
  deriving DecidableEq, Repr

def armTotal (b : List (BitVec 8)) : Nat := fieldAt b 8 4
def armCount (b : List (BitVec 8)) : Nat := fieldAt b 0x0C 2
def armSigned (b : List (BitVec 8)) : Bool := decide (fieldAt b 0x0E 2 % 2 = 1)
def armCalibrate (b : List (BitVec 8)) : Bool := decide (fieldAt b 0x0E 2 / 2 % 2 = 1)
def armId (b : List (BitVec 8)) : Nat := fieldAt b 0x14 4

/-- Where the CRC stands. -/
def armCrcAt (b : List (BitVec 8)) : Nat := armTotal b - 4 - (if armSigned b then 72 else 0)

/-- The highest INST of a section type; none for a type R371 does not list. -/
def sectTop : Nat → Option Nat
  | 1 => some 0 | 2 => some 7 | 3 => some 191 | 4 => some 3 | 5 => some 7 | 6 => some 15 | 7 => some 255 | 8 => some 255
  | 9 => some 31 | 10 => some 0 | 11 => some 15 | 12 => some 63 | 13 => some 63 | 14 => some 31 | 15 => some 0
  | _ => none

/-- The body length of a section type that is the same for every section. -/
def sectLen : Nat → Option Nat
  | 1 => some 8 | 2 => some 16 | 3 => some 68 | 4 => some 16 | 6 => some 12 | 7 => some 16 | 9 => some 40 | 12 => some 48
  | 13 => some 8 | 14 => some 16
  | _ => none

/-- The body length that a body's own fields imply; a CARVER's is judged with its tasks (R374). -/
def impliedLen (type : Nat) (b : List (BitVec 8)) : Nat :=
  if type = 5 then 8 + 20 * fieldAt b 0 4
  else if type = 8 then 12 + 4 * ceilDiv (fieldAt b 6 2) 4
  else if type = 10 then 12 + 8 * fieldAt b 8 4
  else if type = 15 then 8 + 4 * ceilDiv (fieldAt b 3 1) 4
  else b.length

/-! ## Register images (R372) -/

/-- The bits fields take in their word. -/
def fieldMask (l : List Field) : Nat := (l.map fun f => (2 ^ f.width - 1) * 2 ^ f.lo).sum

/-- The fields of a CHANNEL body, word by word. -/
def chanImage (n : Nat) : List (List Field) :=
  [[CH_CFG_KIND n, CH_CFG_WIRING n, CH_CFG_SNS_ROLE n, CH_CFG_MUX n, CH_CFG_AUTORANGE n, CH_CFG_RANGE_MIN n, CH_CFG_RANGE_MAX n,
    CH_CFG_OPEN_I n, CH_CFG_OPEN_DIR n, CH_CFG_MUX_SETTLE n],
   [CH_RANGE_RANGE n], [CH_EXC_MODE n, CH_EXC_PRIORITY n], [CH_EXC_LEVEL n], [CH_EXC_LOAD_OHM n], [CH_SETTLE_EXTRA n],
   [CH_CHAIN_HB_COUNT n, CH_CHAIN_DEMOD n, CH_CHAIN_DEMOD_OUT n, CH_CHAIN_POSTDEC_MODE n, CH_CHAIN_GRID n,
    CH_CHAIN_SETTLE_SUPPRESS n, CH_CHAIN_DCB_K n, CH_CHAIN_DCB_FREEZE n],
   [CH_D n], [CH_CARRIER_P n], [CH_CARRIER_Q n], [CH_DEMOD_PHASE n], [CH_LIN_CURVE n, CH_LIN_CJ_SRC n],
   [CH_LIN_GAIN n], [CH_LIN_OFFSET n], [CH_LIN_P0 n], [CH_LIN_P1 n], [CH_LIN_P2 n]]

/-- The fields of a LIN_CJ body. -/
def cjImage (n : Nat) : List (List Field) := [[CJ_SENSOR n], [CJ_COEF_A n], [CJ_COEF_B n], [CJ_COEF_C n]]

/-- The fields of the CFG and LIMITS words of a QUEUE body. -/
def queueImage (n : Nat) : List (List Field) :=
  [[Q_PRODUCERS n, Q_CONSUMER n, Q_LINK n, Q_PARTITION n, Q_UNSHEDDABLE n, Q_SAC_RANK n], [Q_MAX_PAGES n, Q_CREDIT_PKTS n]]

/-- The fields of a TRIGGER body. -/
def trigImage (n : Nat) : List (List Field) :=
  [[TRG_SOURCE n, TRG_MODE n, TRG_PRE_STRICT n, TRG_DIST_OUT n, TRG_COND n, TRG_SRC_CH n, TRG_SRC_IDX n], [TRG_PRE n], [TRG_POST n],
   [TRG_CAPACITY n], [TRG_HIST n], [TRG_THRESH n], [TRG_HYST n], [TRG_AUTO_TIMEOUT n], [TRG_STREAM n], [TRG_DIST_GROUP n]]

def allOnes : Nat := 2 ^ 32 - 1

/-- The bits each leading word of a body may hold; further words of the body may hold anything, but as `bodyTail` says. -/
def bodyMasks (type : Nat) : List Nat :=
  match type with
  | 2 => [allOnes, 0xFFFF, allOnes, allOnes]
  | 3 => (chanImage 0).map fieldMask
  | 4 => (cjImage 0).map fieldMask
  | 5 => [fieldMask [TAB_SEG_COUNT 0]]
  | 6 => [allOnes, allOnes, 0x1FFFFFF]
  | 7 => (queueImage 0).map fieldMask
  | 8 => [allOnes, allOnes, 0xFF]
  | 9 => (trigImage 0).map fieldMask
  | 11 => [allOnes, 0]
  | 12 => [allOnes, allOnes, allOnes, allOnes, allOnes, 0]
  | 13 => [0xFFFF]
  | 14 => [allOnes, allOnes, allOnes, 0]
  | _ => []

/-- The zero bytes after the list of a STREAM or DUPLEX, and in the entries of an ARBITRATION. -/
def bodyTail (type : Nat) (b : List (BitVec 8)) : Bool :=
  if type = 8 then (b.drop (12 + fieldAt b 6 2)).all (· == 0)
  else if type = 15 then (b.drop (8 + fieldAt b 3 1)).all (· == 0)
  else if type = 10 then (List.range (fieldAt b 8 4)).all fun i => fieldAt b (15 + 8 * i) 1 == 0
  else true

/-- A body of the length its fields imply, with every reserved bit and byte 0. -/
def bodyOk (type : Nat) (b : List (BitVec 8)) : Bool :=
  let ms := bodyMasks type
  (b.length == impliedLen type b) && ((List.range ms.length).all fun i => fieldAt b (4 * i) 4 &&& ms.getD i 0 == fieldAt b (4 * i) 4)
    && bodyTail type b

/-! ## Format checks (R374) -/

/-- The least body of a type whose length varies. -/
def leastLen (type : Nat) : Nat := if type = 8 ∨ type = 10 then 12 else 8

/-- A section head that breaks R369: `prev` is the section before it, `cnt` how many may still come. -/
def headBad (t v i len room cnt : Nat) (prev : Option (Nat × Nat)) : Bool :=
  (match sectTop t with
    | none => true
    | some top => decide (top < i))
  || v != 1 || len % 4 != 0 || decide (room < 8 + len) || cnt == 0
  || (match sectLen t with
    | some n => len != n
    | none => decide (len < leastLen t))
  || (match prev with
    | none => t != 1
    | some (t', i') => decide (t < t') || (t == t' && decide (i ≤ i')))

/-- The sections of a byte string so far, and the first failure among them: `e` is where the CRC stands. -/
def sectWalk (b : List (BitVec 8)) (e : Nat) : Nat → Nat → Nat → Option (Nat × Nat) → List Sect → List Sect × Option ArmErr
  | 0, _, _, _, acc => (acc.reverse, none)
  | fuel + 1, off, cnt, prev, acc =>
    let d := b.drop off
    if e ≤ off ∨ d.length < 8 then (acc.reverse, none)
    else
      let t := fieldAt d 0 1
      let i := fieldAt d 2 2
      let len := fieldAt d 4 4
      if headBad t (fieldAt d 1 1) i len (e - off) cnt prev then (acc.reverse, some ⟨6, off, t, i⟩)
      else if d.length < 8 + len then (acc.reverse, none)
      else
        let body := (d.drop 8).take len
        if bodyOk t body then sectWalk b e fuel (off + 8 + len) (cnt - 1) (some (t, i)) (⟨t, i, off, body⟩ :: acc)
        else (acc.reverse, some ⟨6, off, t, i⟩)

def walkArm (b : List (BitVec 8)) : List Sect × Option ArmErr := sectWalk b (armCrcAt b) (b.length / 8 + 1) 64 (armCount b) none []

/-- The sections of an armature. -/
def armSects (b : List (BitVec 8)) : List Sect := (walkArm b).1

/-- The first failing check of a header, in the order of R374. -/
def headerErr (route : Nat) (b : List (BitVec 8)) : Option ArmErr :=
  let n := armTotal b
  if fieldAt b 0 4 ≠ 0x4D52414E then some ⟨1, 0, 0, 0⟩
  else if fieldAt b 4 2 ≠ 1 then some ⟨1, 4, 0, 0⟩
  else if fieldAt b 0x2C 4 ≠ crc32c (b.take 0x2C) then some ⟨1, 0x2C, 0, 0⟩
  else if fieldAt b 6 2 ≠ Config.hwType then some ⟨2, 6, 0, 0⟩
  else if n % 4 ≠ 0 ∨ n < (if armSigned b then 140 else 72) ∨ 393216 < n then some ⟨3, 8, 0, 0⟩
  else if 4 ≤ fieldAt b 0x0E 2 then some ⟨5, 0x0E, 0, 0⟩
  else if fieldAt b 0x10 1 ≠ 1 ∧ fieldAt b 0x10 1 ≠ 2 then some ⟨5, 0x10, 0, 0⟩
  else if fieldAt b 0x11 3 ≠ 0 then some ⟨5, 0x11, 0, 0⟩
  else if fieldAt b 0x24 6 ≠ noRoute ∧ fieldAt b 0x24 6 ≠ route then some ⟨4, 0x24, 0, 0⟩
  else if fieldAt b 0x2A 2 ≠ 0 then some ⟨5, 0x2A, 0, 0⟩
  else if fieldAt b 0x30 16 ≠ 0 then some ⟨5, 0x30, 0, 0⟩
  else none

/-- The armature key KEY_ID verifies the signature block at `at` (R370); a key of zeros is no key. -/
def sigOk (keys b : List (BitVec 8)) (at_ : Nat) : Bool :=
  let id := fieldAt b at_ 4
  let key := (keys.drop (64 * id)).take 64
  decide (id < 2) && fieldAt b (at_ + 4) 4 == 0 && key.any (· != 0)
    && Config.ecdsaOk key (Config.sha256 (b.take at_)) ((b.drop (at_ + 8)).take 32) ((b.drop (at_ + 40)).take 32)

/-- The checks at the last byte: the count, the CRC, the signature. -/
def endErr (keys : List (BitVec 8)) (sigReq : Bool) (b : List (BitVec 8)) : Option ArmErr :=
  let e := armCrcAt b
  let n := (armSects b).length
  if n = 0 ∨ n ≠ armCount b then some ⟨6, 0x0C, 0, 0⟩
  else if fieldAt b e 4 ≠ crc32c (b.take e) then some ⟨7, e, 0, 0⟩
  else if armSigned b then (if sigOk keys b (e + 4) then none else some ⟨8, e + 4, 0, 0⟩)
  else if sigReq then some ⟨9, 0x0E, 0, 0⟩
  else none

/-- The first format failure among the bytes that have arrived (R374). -/
def formatErr (route : Nat) (keys : List (BitVec 8)) (sigReq : Bool) (b : List (BitVec 8)) : Option ArmErr :=
  if b.length < 64 then none
  else match headerErr route b with
    | some x => some x
    | none => match (walkArm b).2 with
      | some x => some x
      | none => if b.length < armTotal b then none else endErr keys sigReq b

/-! ## Reading sections -/

def Sect.w (s : Sect) (i : Nat) : Nat := fieldAt s.body (4 * i) 4
def Sect.b (s : Sect) (i : Nat) : Nat := fieldAt s.body i 1
def Sect.h (s : Sect) (i : Nat) : Nat := fieldAt s.body i 2

/-- The bits of a register field in word `i` of a body. -/
def Sect.fld (s : Sect) (i : Nat) (f : Field) : Nat := bitsAt (s.w i) f.lo f.width

def ofType (l : List Sect) (t : Nat) : List Sect := l.filter fun s => s.type == t
def findSect (l : List Sect) (t i : Nat) : Option Sect := l.find? fun s => s.type == t && s.inst == i
def hasSect (l : List Sect) (t i : Nat) : Bool := (findSect l t i).isSome

/-- Fields of a CHANNEL section. -/
def Sect.cKind (s : Sect) : Nat := s.fld 0 (CH_CFG_KIND 0)
def Sect.cWiring (s : Sect) : Nat := s.fld 0 (CH_CFG_WIRING 0)
def Sect.cMux (s : Sect) : Nat := s.fld 0 (CH_CFG_MUX 0)
def Sect.cAuto (s : Sect) : Bool := s.fld 0 (CH_CFG_AUTORANGE 0) == 1
def Sect.cMin (s : Sect) : Nat := s.fld 0 (CH_CFG_RANGE_MIN 0)
def Sect.cMax (s : Sect) : Nat := s.fld 0 (CH_CFG_RANGE_MAX 0)
def Sect.cRange (s : Sect) : Nat := s.fld 1 (CH_RANGE_RANGE 0)
def Sect.cMode (s : Sect) : Nat := s.fld 2 (CH_EXC_MODE 0)
def Sect.cLevel (s : Sect) : Nat := s.fld 3 (CH_EXC_LEVEL 0)
def Sect.cLoad (s : Sect) : Nat := s.fld 4 (CH_EXC_LOAD_OHM 0)
def Sect.cHb (s : Sect) : Nat := s.fld 6 (CH_CHAIN_HB_COUNT 0)
def Sect.cDemod (s : Sect) : Bool := s.fld 6 (CH_CHAIN_DEMOD 0) == 1
def Sect.cOut (s : Sect) : Nat := s.fld 6 (CH_CHAIN_DEMOD_OUT 0)
def Sect.cPost (s : Sect) : Nat := s.fld 6 (CH_CHAIN_POSTDEC_MODE 0)
def Sect.cGrid (s : Sect) : Nat := s.fld 6 (CH_CHAIN_GRID 0)
def Sect.cSuppress (s : Sect) : Bool := s.fld 6 (CH_CHAIN_SETTLE_SUPPRESS 0) == 1
def Sect.cDcbK (s : Sect) : Nat := s.fld 6 (CH_CHAIN_DCB_K 0)
def Sect.cD (s : Sect) : Nat := s.fld 7 (CH_D 0)
def Sect.cP (s : Sect) : Nat := s.fld 8 (CH_CARRIER_P 0)
def Sect.cQ (s : Sect) : Nat := s.fld 9 (CH_CARRIER_Q 0)
def Sect.cCurve (s : Sect) : Nat := s.fld 11 (CH_LIN_CURVE 0)
def Sect.cCj (s : Sect) : Nat := s.fld 11 (CH_LIN_CJ_SRC 0)

/-- Words per index of a channel: I and Q where it hands on both (R132). -/
def Sect.cWords (s : Sect) : Nat := if s.cDemod ∧ s.cOut = 2 then 2 else 1

/-- The top range of a channel in its armature (R74, R372). -/
def Sect.cTop (s : Sect) : Nat := if s.cAuto then max s.cMin s.cMax else s.cRange

/-- E, P and Q of a GRID section. -/
def Sect.gE (s : Sect) : Nat := fieldAt s.body 0 8
def Sect.gP (s : Sect) : Nat := s.w 2
def Sect.gQ (s : Sect) : Nat := s.w 3

/-- The grid a channel names. -/
def gridSect (l : List Sect) (c : Sect) : Option Sect := findSect l 2 c.cGrid

/-- The channel list of a STREAM section. -/
def Sect.sChans (s : Sect) : List Nat := ((s.body.drop 12).take (s.h 6)).map BitVec.toNat
def Sect.sRecord (s : Sect) : Bool := s.b 0 == 1

/-- The CHANNEL sections of a stream's list that the armature holds. -/
def streamChans (l : List Sect) (s : Sect) : List Sect := s.sChans.filterMap (findSect l 3)

/-- Bytes of the largest body of a stream (R175, R176). -/
def streamBody (l : List Sect) (s : Sect) : Nat :=
  s.h 4 * ((streamChans l s).map fun c => c.cWords * fmtBytes (s.b 1)).sum + (if s.sRecord then 64 else 0)

/-- MODE of a TRIGGER section is not 0 (R180). -/
def Sect.tUsed (s : Sect) : Bool := s.fld 0 (TRG_MODE 0) != 0
def Sect.tSource (s : Sect) : Nat := s.fld 0 (TRG_SOURCE 0)
def Sect.tIdx (s : Sect) : Nat := s.fld 0 (TRG_SRC_IDX 0)
def Sect.tStream (s : Sect) : Nat := s.fld 8 (TRG_STREAM 0)

/-- The producer mask, CREDIT_PKTS and producer maximum sizes of a QUEUE section (R372). -/
def Sect.qHas (s : Sect) (prod : Nat) : Bool := (s.w 0).testBit prod
def Sect.qCredit (s : Sect) : Nat := s.fld 1 (Q_CREDIT_PKTS 0)
def Sect.qPart (s : Sect) : Nat := s.fld 0 (Q_PARTITION 0)
def Sect.qM (s : Sect) (prod : Nat) : Nat := s.h (8 + 2 * prod)
def Sect.qToLink (s : Sect) : Bool := s.fld 0 (Q_CONSUMER 0) == 0
def Sect.qLink (s : Sect) : Nat := s.fld 0 (Q_LINK 0)

/-- A queue of the armature with a producer's bit in its mask. -/
def queueTakes (l : List Sect) (q prod : Nat) : Bool := (findSect l 7 q).elim false fun s => s.qHas prod

/-! ## Tasks of a CARVER (R373) -/

/-- Cut a list of task records by TLEN; none where the lengths do not fit. -/
def taskSplit : Nat → List (BitVec 8) → Option (List (List (BitVec 8)))
  | 0, b => if b.isEmpty then some [] else none
  | fuel + 1, b =>
    if b.isEmpty then some []
    else
      let n := fieldAt b 0 4
      if n < 0x24 ∨ n % 4 ≠ 0 ∨ b.length < n then none else (taskSplit fuel (b.drop n)).map (b.take n :: ·)

/-- A byte that names something, or 0xFF for nothing. -/
def optByte (v : Nat) : Option Nat := if v = 0xFF then none else some v

/-- The bytes of a task's INPUT_LIST. -/
def taskListLen (r : List (BitVec 8)) : Nat := 4 * ceilDiv (fieldAt r 0x0A 2) 2

/-- A task record as a task. -/
def parseTask (r : List (BitVec 8)) : Task :=
  let op := fieldAt r 4 1
  let n := fieldAt r 0x0A 2
  let outs := fieldAt r 0x0C 2
  let data := r.drop (0x24 + taskListLen r)
  let p := fun (i k : Nat) => fieldAt r (0x10 + i) k
  { op := op, kind := fieldAt r 5 1, skip := fieldAt r 6 1 == 1, slot := optByte (fieldAt r 7 1), lock := optByte (fieldAt r 8 1)
    inputs := (List.range n).map fun i =>
      let v := fieldAt r (0x24 + 2 * i) 2
      ⟨v % 256, v / 256 % 2 == 1, v / 512 % 2 == 1⟩
    outs := outs, base := fieldAt r 0x0E 2
    mode := if op = 3 then p 4 1 else p 0 1
    n := if op = 3 then p 0 4 else 0
    bands := if op = 3 then (List.range outs).map fun i => (fieldAt data (4 * i) 2, fieldAt data (4 * i + 2) 2) else []
    thresh := p 8 4, on := p 12 4, off := p 16 4, levels := (p 8 4, p 12 4, p 16 4), staK := p 1 1, ltaK := p 2 1, minGap := p 4 2, countEn := p 3 1 == 1
    matrix := if op = 1 then (List.range (n * outs)).map fun i => fieldAt data (4 * i) 4 else [] }

/-- TLEN agrees with the record's own fields, and its zero bytes and bits are 0. -/
def taskRecOk (r : List (BitVec 8)) : Bool :=
  let op := fieldAt r 4 1
  let n := fieldAt r 0x0A 2
  let data := if op = 1 then 4 * n * fieldAt r 0x0C 2 else if op = 3 then 4 * fieldAt r 0x0C 2 else 0
  let used := if op = 2 then 1 else if op = 3 then 5 else if op = 4 then 20 else 0
  r.length == 0x24 + taskListLen r + data && fieldAt r 9 1 == 0 && (((r.drop 0x10).take 20).drop used).all (· == 0)
    && (op != 4 || fieldAt r 0x16 2 == 0) && ((r.drop (0x24 + 2 * n)).take (taskListLen r - 2 * n)).all (· == 0)
    && (List.range n).all fun i => decide (fieldAt r (0x24 + 2 * i) 2 < 1024)

def Sect.eLen (s : Sect) : Nat := s.h 0
def Sect.eGrid (s : Sect) : Nat := s.b 2

/-- The task records of a CARVER section. -/
def Sect.taskRecs (s : Sect) : Option (List (List (BitVec 8))) := taskSplit 8 (s.body.drop 8)
def Sect.tasks (s : Sect) : List Task := (s.taskRecs.getD []).map parseTask

/-! ## Content checks (R374), one per code: whether a section is at fault -/

/-- ARM_ERR_GRID_RATE (R59). -/
def bad10 (s : Sect) : Bool :=
  s.type == 2 && (s.gP == 0 || decide (2 ^ 24 < s.gP) || s.gQ == 0 || decide (2 ^ 16 < s.gQ) || decide (10 * s.gP < s.gQ)
    || decide (128000 * s.gQ < s.gP))

/-- ARM_ERR_CH_DEF. -/
def bad11 (l : List Sect) (s : Sect) : Bool :=
  s.type == 3 && ((gridSect l s).isNone || decide (maxCode s.cKind < s.cRange) || decide (maxCode s.cKind < s.cMin)
    || decide (maxCode s.cKind < s.cMax) || decide (4 < s.cMode) || !levelOk s.cMode s.cLevel || (s.cMux == 3 && s.cKind == 1)
    || (s.cDcbK != 0 && (decide (s.cDcbK < 4) || decide (24 < s.cDcbK))))

/-- ARM_ERR_CH_WIRING (R67). -/
def bad12 (s : Sect) : Bool :=
  s.type == 3 && ((s.cKind == 1 && s.cWiring != 2) || !modeSuits s.cMode s.cWiring || (s.cDemod && s.cWiring != 3))

/-- ARM_ERR_CHAIN_RATE (R138, R147). -/
def bad13 (l : List Sect) (s : Sect) : Bool :=
  s.type == 3 && match gridSect l s with
    | none => false
    | some g =>
      let fp := s.cD * g.gP
      decide (fp * 2 ^ s.cHb < 160000 * g.gQ) || decide (320000 * g.gQ ≤ fp * 2 ^ s.cHb) || decide (256000 * g.gQ < fp)
        || s.cD == 0 || decide (65536 < s.cD) || (if s.cD = 1 then s.cPost != 0 else s.cPost != 1 && s.cPost != 2)

/-- ARM_ERR_CARRIER_RATE (R130, R133). -/
def bad14 (s : Sect) : Bool :=
  s.type == 3 && (s.cOut == 3 || ((s.cMode == 3 || s.cMode == 4 || s.cDemod) && !carrierOk s.cP s.cQ s.cHb))

/-- ARM_ERR_EXC_BUDGET (R88): located at DEVICE. -/
def bad15 (l : List Sect) (s : Sect) : Bool :=
  s.type == 1 && (decide (2400 < s.w 0)
    || decide (1000 * s.w 0 < ((ofType l 3).map fun c => staticDemand c.cMode c.cLevel c.cLoad).sum))

/-- ARM_ERR_LIN_CURVE (R160). -/
def bad16 (s : Sect) : Bool :=
  s.type == 3 &&
    let c := s.cCurve
    if c = 0 ∨ 24 ≤ c then false
    else if c ≤ 8 then s.cKind != 0 || s.cMode != 0
    else if c ≤ 12 then s.cKind != 0 || s.cMode != 2
    else if c ≤ 15 then s.cKind != 0 || (s.cMode != 1 && s.cMode != 3 && s.cMode != 4)
    else if c = 16 then s.cKind != 1
    else true

/-- ARM_ERR_LIN_CJ (R163). -/
def bad17 (l : List Sect) (s : Sect) : Bool :=
  (s.type == 3 && (decide (12 < s.cCj)
    || (decide (1 ≤ s.cCj) && decide (s.cCj ≤ 4) && decide (1 ≤ s.cCurve) && decide (s.cCurve ≤ 8) && !hasSect l 4 (s.cCj - 1))))
  || (s.type == 4 && decide (4 < s.w 0))

/-- A LIN_TABLE body that R169 refuses. -/
def tableBad (s : Sect) : Bool :=
  let n := s.w 0
  let x := fun (i : Nat) => s.w (2 + 5 * i)
  n == 0 || decide (16 < n) || !fFinite (s.w 1) || ((List.range (5 * n)).any fun i => !fFinite (s.w (2 + i)))
    || ((List.range (n - 1)).any fun i => !fLt (x i) (x (i + 1))) || !fLt (x (n - 1)) (s.w 1)

/-- ARM_ERR_LIN_TABLE (R169). -/
def bad18 (l : List Sect) (s : Sect) : Bool :=
  (s.type == 3 && decide (24 ≤ s.cCurve) && !hasSect l 5 (s.cCurve - 24)) || (s.type == 5 && tableBad s)

/-- ARM_ERR_STREAM_GRID (R175). -/
def bad20 (l : List Sect) (s : Sect) : Bool :=
  s.type == 8 && decide (1 < ((streamChans l s).map Sect.cGrid).dedup.length)

/-- ARM_ERR_STREAM_SIZE (R175). -/
def bad21 (l : List Sect) (s : Sect) : Bool := s.type == 8 && decide (16384 < streamBody l s)

/-- ARM_ERR_STREAM_DEF (R175, R180). -/
def bad22 (l : List Sect) (s : Sect) : Bool :=
  (s.type == 8 && (s.h 6 == 0 || decide (192 < s.h 6) || (s.sChans.any fun n => !hasSect l 3 n) || s.h 4 == 0 || decide (2 < s.b 1)
    || decide (1 < s.b 0) || decide (3 < s.b 3) || decide (2 < s.b 2)
    || (s.sRecord && !(ofType l 9).any fun t => t.tUsed && t.tStream == s.inst)))
  || (s.type == 9 && s.tUsed && (((findSect l 8 s.tStream).elim true fun x => !x.sRecord)
    || (ofType l 9).any fun t => decide (t.inst < s.inst) && t.tUsed && t.tStream == s.tStream))

/-- ARM_ERR_SEG_MODE (R180). -/
def bad23 (acqMode : Nat) (s : Sect) : Bool := s.type == 9 && s.tUsed && acqMode == 1

/-- ARM_ERR_SEG_POST (R180). -/
def bad24 (s : Sect) : Bool := s.type == 9 && s.tUsed && (s.w 2 == 0 || decide (s.w 3 < s.w 2))

/-- ARM_ERR_SEG_PRE (R180). -/
def bad25 (s : Sect) : Bool := s.type == 9 && s.tUsed && (decide (s.w 3 < s.w 1 + s.w 2) || decide (s.w 4 < s.w 1))

/-- ARM_ERR_TRG_SOURCE (R180, R181). -/
def bad26 (l : List Sect) (s : Sect) : Bool :=
  s.type == 9 && s.tUsed &&
    let cond := s.fld 0 (TRG_COND 0)
    let ch := !hasSect l 3 (s.fld 0 (TRG_SRC_CH 0))
    match s.tSource with
    | 1 => ch || decide (2 < cond)
    | 2 => ch || decide (1 < cond) || decide (toSigned 24 (s.w 5) < toSigned 24 (s.w 6))
    | 3 => ch || decide (1 < cond)
    | 4 => decide (3 < s.tIdx)
    | 5 => false
    | 6 => !hasSect l 11 s.tIdx
    | 7 => false
    | 8 => false
    | 9 => !(ofType l 9).any fun t => t.inst == s.tIdx && t.tUsed
    | _ => true

/-- The unit that a UNIT source names, if it is used. -/
def unitNext (l : List Sect) (t : Nat) : Option Nat :=
  match findSect l 9 t with
  | some s => if s.tUsed ∧ s.tSource = 9 then some s.tIdx else none
  | none => none

/-- Follow UNIT sources; the walk comes back to where it began. -/
def unitLoops (l : List Sect) (start : Nat) : Nat → Nat → Bool
  | 0, _ => false
  | fuel + 1, t => match unitNext l t with
    | none => false
    | some u => u == start || unitLoops l start fuel u

/-- ARM_ERR_TRG_LOOP (R180). -/
def bad27 (l : List Sect) (s : Sect) : Bool := s.type == 9 && s.tUsed && unitLoops l s.inst 32 s.inst

/-- An input of task `k` that R193 refuses. -/
def inputBad (l : List Sect) (grid k : Nat) (i : TaskIn) : Bool :=
  if i.fromTask then decide (k ≤ i.num) else (findSect l 3 i.num).elim true fun c => c.cGrid != grid

/-- ARM_ERR_ENG_DEF (R193); also where the running cast has no carver part (R391). -/
def bad30 (l : List Sect) (carver : Bool) (s : Sect) : Bool :=
  s.type == 11 && (!carver || decide (8 < s.b 3) || s.eLen == 0 || !hasSect l 2 s.eGrid || match s.taskRecs with
    | none => true
    | some rs =>
      rs.length != s.b 3 || (rs.any fun r => !taskRecOk r || fieldAt r 4 1 == 0 || decide (4 < fieldAt r 4 1)
          || decide (1 < fieldAt r 5 1) || decide (1 < fieldAt r 6 1))
        || (List.range rs.length).any fun k => (s.tasks.getD k { op := 0 }).inputs.any (inputBad l s.eGrid k))

/-- ARM_ERR_ENG_SPACE (R193, R198). -/
def bad31 (s : Sect) : Bool := s.type == 11 && decide (196608 < (s.tasks.map fun t => t.bytes s.eLen).sum)

/-- ARM_ERR_ENG_BUDGET (R193, R198): above 0.8 · L / F_g · 10^9 cycles. -/
def bad32 (l : List Sect) (s : Sect) : Bool :=
  s.type == 11 && match findSect l 2 s.eGrid with
    | none => false
    | some g => decide (8 * s.eLen * g.gQ * 1000000000 < 10 * g.gP * (s.tasks.map fun t => t.cycles s.eLen).sum)

/-- A parameter outside the ranges of R198 to R202 (DEDUCED, log entry 73). -/
def Task.paramBad (t : Task) (len : Nat) : Bool :=
  let c := t.inputs.length
  if t.op = 1 then c == 0 || decide (192 < c) || t.outs == 0 || decide (256 < t.outs) || decide (12288 < c * t.outs)
  else if t.op = 2 then c == 0 || decide (192 < c) || decide (2 < t.mode) || t.outs != 1
  else if t.op = 3 then
    c == 0 || decide (16 < c) || t.n < 256 || decide (16384 < t.n) || 2 ^ Nat.log2 t.n != t.n || t.n < len || decide (3 < t.mode)
      || t.outs == 0 || decide (64 < t.outs) || t.bands.any fun b => decide (b.2 < b.1) || decide (t.n < 2 * b.2)
  else c != 1 || decide (1 < t.mode) || t.staK == 0 || decide (16 < t.staK) || t.ltaK == 0 || decide (16 < t.ltaK) || t.outs != 1

/-- The PARAM_LOCKs of the whole armature, one entry per task that has one. -/
def paramLocks (l : List Sect) : List Nat := (ofType l 11).flatMap fun s => s.tasks.filterMap (·.lock)

/-- ARM_ERR_ENG_PARAM (R193). -/
def bad33 (l : List Sect) (s : Sect) : Bool :=
  s.type == 11 && ((s.tasks.any fun t => t.paramBad s.eLen)
    || s.tasks.any fun t => match t.lock with
      | none => false
      | some k => decide (63 < k) || decide (1 < (paramLocks l).count k))

/-- ARM_ERR_RLF_DEF (R220). -/
def bad34 (l : List Sect) (s : Sect) : Bool :=
  (s.type == 11 && s.tasks.any fun t => match t.slot with
    | none => false
    | some k => (findSect l 12 k).elim true fun x => x.b 2 != s.eGrid || x.h 4 != s.eLen)
  || (s.type == 12 && (decide (2040 < s.h 6) || s.b 9 == 0 || decide (16 < s.b 9) || s.w 4 == 0 || decide (60000000 < s.w 4)
    || decide (2 < s.b 3) || !hasSect l 2 (s.b 2)))

/-- ARM_ERR_RLF_SPACE (R220): located at the first RELIEF section. -/
def bad35 (l : List Sect) (s : Sect) : Bool :=
  s.type == 12 && decide (1048576 < ((ofType l 12).map fun x => x.b 9 * x.h 6 * 8).sum)

/-- The queues of a partition. -/
def partQueues (l : List Sect) (p : Nat) : List Sect := (ofType l 7).filter fun q => q.qPart == p

/-- Bytes of the credited reservations of a queue (R258). -/
def creditBytes (q : Sect) : Nat :=
  ((List.range 4).map fun p => if q.qHas p then 4 * q.qCredit * need (q.qM p) else 0).sum

/-- The streams a partition's reserve must carry (R250). -/
def partStreams (l : List Sect) (p : Nat) : Nat :=
  let inPart := fun (q : Nat) => (findSect l 7 q).elim false fun x => x.qPart == p
  ((ofType l 8).filter fun s => inPart (s.b 8)).length + ((ofType l 12).filter fun s => inPart (s.b 11)).length
    + (if (partQueues l p).any fun q => q.qHas prodLink then (findSect l 1 0).elim 0 (·.w 1) else 0)

/-- ARM_ERR_MEM_PART (R250). -/
def bad40 (l : List Sect) (s : Sect) : Bool :=
  s.type == 6 &&
    let first := s.w 0
    let n := s.w 1
    let r := s.b 8
    let fixed := s.w 2 / 256
    let pool := n - r - fixed
    decide (first < 256) || decide (65536 < first + n) || r == 0 || decide (n < r + fixed)
      || ((ofType l 6).any fun x => x.inst != s.inst && decide (x.w 0 < first + n) && decide (first < x.w 0 + x.w 1))
      || decide (4096 * pool < 4 * ((partQueues l s.inst).map creditBytes).sum)
      || decide (32 * r < 3 * partStreams l s.inst)

/-- The largest packets that streams and slots commit to a queue (R374). -/
def largestAcq (l : List Sect) (q : Nat) : Nat :=
  (((ofType l 8).filter fun s => s.b 8 == q).map fun s => 56 + streamBody l s).foldl max 0
def largestRelief (l : List Sect) (q : Nat) : Nat :=
  (((ofType l 12).filter fun s => s.b 11 == q).map fun s => 64 + 8 * s.h 6).foldl max 0

/-- The receive queues of a LINK section. -/
def Sect.rxqs (s : Sect) : List Nat := ((s.body.drop 4).map BitVec.toNat).filter (· != 255)

/-- ARM_ERR_QUEUE_DEF. -/
def bad42 (h : Hub) (l : List Sect) (s : Sect) : Bool :=
  (s.type == 7 && (!hasSect l 6 s.qPart || (s.qToLink && !hasSect l 13 s.qLink)
    || (s.qCredit == 0 && (List.range 4).any s.qHas)
    || (s.qHas prodAcq && decide (s.qM prodAcq < largestAcq l s.inst))
    || (s.qHas prodRelief && decide (s.qM prodRelief < largestRelief l s.inst))
    || (s.qHas prodLink && decide (s.qM prodLink < 16440)) || (s.qHas prodDma && decide (s.qM prodDma < 16440))
    || (s.qHas prodLink && !(s.qToLink && h.role s.qLink == roleUp))))
  || (s.type == 8 && !queueTakes l (s.b 8) prodAcq) || (s.type == 12 && !queueTakes l (s.b 11) prodRelief)
  || (s.type == 13 && s.rxqs.any fun q => !queueTakes l q prodLink)

/-- Capacity of a resource per window (R278). -/
def resCap (win r : Nat) : Nat := if r ≤ 1 then 4 * win / 5 else if r ≤ 3 then 0 else win

/-- The entries of an ARBITRATION section: KIND, RES, REQ and VALUE. -/
def Sect.arbEntries (s : Sect) : List (Nat × Nat × Nat × Nat) :=
  (List.range (s.w 2)).map fun i => (s.b (12 + 8 * i), s.b (13 + 8 * i), s.b (14 + 8 * i), s.w (4 + 2 * i))

/-- A requester that can have class B traffic on a resource, whatever the channels' CLASS now is (R279). -/
def mayB (r q : Nat) : Bool :=
  (q == reqCore && decide (r < 20)) || ((q == reqHost || q == reqTime) && r == resReg)
    || (decide (0x20 ≤ q) && decide (q < 0x40) && isMem r)

/-- An entry that R283 or R374 refuses by itself. -/
def entryBad (e : Nat × Nat × Nat × Nat) : Bool :=
  if e.1 = 0 then !classA e.2.1 e.2.2.1 else if e.1 = 1 then !mayB e.2.1 e.2.2.1 || decide (7 < e.2.2.2) else true

/-- The quota an armature gives a requester on a resource. -/
def quotaOf (l : List Sect) (r q : Nat) : Nat :=
  (findSect l 10 0).elim 0 fun s => ((s.arbEntries.filter fun e => e.1 == 0 && e.2.1 == r && e.2.2.1 == q).getLast?).elim 0 (·.2.2.2)

/-- A section makes a class A requester used on a resource (R283). -/
def uses (s : Sect) : List (Nat × Nat) :=
  let mem := fun (q : Nat) => [(0, q), (1, q)]
  if s.type = 7 then (if s.qToLink then mem 0x15 else [])
  else if s.type = 8 then mem 0x12 ++ (if s.b 2 = 1 ∨ s.b 2 = 2 then mem 0x16 else [])
  else if s.type = 11 then (if s.tasks.isEmpty then [] else [(4 + s.inst, 0x12)])
  else if s.type = 12 then mem 0x13
  else if s.type = 13 then (if s.rxqs.isEmpty then [] else mem 0x14)
  else []

/-- The section uses a requester that has no quota. -/
def starves (l : List Sect) (s : Sect) : Bool := (uses s).any fun u => quotaOf l u.1 u.2 == 0

/-- ARM_ERR_ARB_QUOTA (R283). -/
def bad48 (l : List Sect) (s : Sect) : Bool :=
  if s.type = 10 then
    decide (s.w 0 < 50) || decide (50000 < s.w 0) || s.arbEntries.any entryBad
      || ((List.range 20).any fun r =>
        decide (3 * resCap (s.w 0) r / 4 < ((List.range 64).map fun q => quotaOf l r q).sum))
      || l.any (starves l)
  else !hasSect l 10 0 && starves l s

/-- A LINK section differs from the link plan in force (R296). -/
def linkOff (h : Hub) (s : Sect) : Bool :=
  let k := s.inst
  let lanes := h.linkLanes k
  !h.bit (LANE_LINK_LEAD k) || s.b 0 != lanes.length || s.b 1 != h.role k
    || lanes.any fun n => !(h.get (LANE_MODE n) == 1 || (h.get (LANE_MODE n) == 2 && decide (n < 8) && lanes.length == 1))

/-- ARM_ERR_LINK_PLAN: a link off the plan, or more than two UP links, located at the first of them. -/
def bad50 (h : Hub) (l : List Sect) (s : Sect) : Bool :=
  s.type == 13 && (linkOff h s || (s.b 1 == roleUp && decide (2 < ((ofType l 13).filter fun x => x.b 1 == roleUp).length)))

/-- ARM_ERR_LINK_STREAMS (R327). -/
def bad51 (s : Sect) : Bool := s.type == 1 && decide (16384 < s.w 1)

/-- ARM_ERR_DUPLEX_DEF (R348). -/
def bad52 (h : Hub) (s : Sect) : Bool :=
  s.type == 15 &&
    let k := s.b 1
    decide (63 < k) || !h.bit (LANE_LINK_LEAD k) || h.role k != roleDuplex || decide ((h.linkLanes k).length < 2)
      || decide (1 < h.rateOf k) || decide (1 < s.b 2) || s.w 1 % 4 != 0

/-- The content checks in ascending code (DEDUCED, log entry 39). -/
def checks (h : Hub) (acqMode : Nat) (l : List Sect) : List (Nat × (Sect → Bool)) :=
  [(0x10, bad10), (0x11, bad11 l), (0x12, bad12), (0x13, bad13 l), (0x14, bad14), (0x15, bad15 l), (0x16, bad16), (0x17, bad17 l),
   (0x18, bad18 l), (0x20, bad20 l), (0x21, bad21 l), (0x22, bad22 l), (0x23, bad23 acqMode), (0x24, bad24), (0x25, bad25),
   (0x26, bad26 l), (0x27, bad27 l), (0x30, bad30 l (h.upd.running.elim false (·.hasCarver))), (0x31, bad31), (0x32, bad32 l),
   (0x33, bad33 l), (0x34, bad34 l), (0x35, bad35 l), (0x40, bad40 l), (0x42, bad42 h l), (0x48, bad48 l), (0x50, bad50 h l),
   (0x51, bad51), (0x52, bad52 h)]

/-- The first content failure: ascending code, then ascending offset (R374) (DEDUCED, log entry 39). -/
def contentErr (h : Hub) (b : List (BitVec 8)) : Option ArmErr :=
  let l := armSects b
  (checks h (fieldAt b 0x10 1) l).findSome? fun c => (l.find? c.2).map fun s => ⟨c.1, s.off, s.type, s.inst⟩

end Sys2Proof.Machine
end

