-- ==== Sys2Proof/Machine/Commit.lean ====
section
/-! DEFINITION. What a commit does to each part of the hub (R380, R382), and how each part is released after a
withdrawal. `old` and `new` are the sections of the armatures before and after. -/

namespace Sys2Proof.Machine

/-- A commit at work: its instant, the sections before and after, whether it ends a drain, its ARM_ID; the grids whose
definition it gives or changes; and of every grid in use before, the first old index at or after the commit instant. -/
structure Ctx where
  tc : Nat
  old : List Sect
  new : List Sect
  drained : Bool
  armId : Nat
  moved : List Nat
  cuts : List (Nat × Nat)
  deriving DecidableEq, Repr

/-- A section that the commit leaves unchanged. -/
def Ctx.same (c : Ctx) (t i : Nat) : Bool := match findSect c.old t i, findSect c.new t i with
  | some a, some b => a.body == b.body
  | _, _ => false

/-- The stop index that ends the old outputs of a grid (R380). -/
def Ctx.cut (c : Ctx) (g : Nat) : Nat := ((c.cuts.find? fun e => e.1 == g).map (·.2)).getD 0

/-- A stop index already set stays where it is lower. -/
def lowerStop (old : Option Nat) (n : Nat) : Option Nat := some (match old with
  | some s => min s n
  | none => n)

/-- Load the fields of register images from the words of a body. -/
def Hub.loadImage (h : Hub) (img : List (List Field)) (s : Sect) : Hub :=
  (List.range img.length).foldl (fun h i => (img.getD i []).foldl (fun h f => h.set f (s.fld i f)) h) h

/-- Fields go back to what they read without an armature. -/
def Hub.clearFields (h : Hub) (l : List Field) : Hub := l.foldl (fun h f => h.set f f.reset) h

/-! ## Grids (R62, R380) -/

/-- A section gives a grid another epoch or rate than the one in force. -/
def Hub.gridMoved (h : Hub) (g : Nat) (s : Sect) : Bool :=
  h.gridState g == gIdle || s.gE != h.gridEpoch g || s.gP * h.get (GRID_RATE_Q g) != h.get (GRID_RATE_P g) * s.gQ

/-- One grid at a commit (DEDUCED, log entry 41). -/
def Hub.gridCommit (h : Hub) (c : Ctx) (g : Nat) : Hub :=
  match findSect c.new 2 g with
  | none =>
    if h.gridState g = gIdle then h
    else
      let k := if h.gridState g = gStopping then min (h.gridStop g) (c.cut g) else c.cut g
      let h := (h.setGridStop g k).set (GRID_STATE g) gStopping
      h.setTime { h.time with gridWd := aErase h.time.gridWd g }
  | some s =>
    let wait := c.moved.contains g || c.drained || h.gridState g == gStopping
    let n := firstIndexAt s.gE s.gP s.gQ c.tc
    let h := (((h.set (GRID_EPOCH_LO g) s.gE).set (GRID_EPOCH_HI g) (s.gE / 2 ^ 32)).set (GRID_RATE_P g) s.gP).set (GRID_RATE_Q g) s.gQ
    let h := (h.set (GRID_RESUME_LO g) n).set (GRID_RESUME_HI g) (n / 2 ^ 32)
    if wait then
      let h := ((h.rsChange (0xB814 + 0x40 * g) (GRID_OVR g)).setGridStop g noStop).set (GRID_STATE g) gWaiting
      h.setTime { h.time with gridWd := aErase h.time.gridWd g, gridNext := aInsert h.time.gridNext g n }
    else h

/-! ## Channels (R380) -/

/-- The fields of a channel that read 0, or their reset value, without an armature. -/
def chanFields (n : Nat) : List Field :=
  (chanImage n).flatten ++ [CH_RANGE_RANGE_NOW n, CH_EXC_STATIC_UW n, CH_EXC_MEAS_UW n, CH_EXCS_EXCF n, CH_EXCS_REASON n,
    CH_EXCS_FOLDED n, CH_EXCS_OPEN n, CH_EXCS_COMPLIANCE n, CH_CHAIN_SETTLING n, CH_CHAIN_DCB_FROZEN n, CH_DCB_EST n, CH_SETTLE_N n,
    CH_DELAY_NS n]

/-- What the linearisation unit holds of a channel: without an armature it holds nothing (R158). -/
def linFields (n : Nat) : List Field :=
  [CH_LIN_DOMAIN n, CH_LIN_CJ_INVALID n, CH_LIN_NOEXC n, CH_LIN_SAT n, CH_LIN_OVR n, CH_LIN_SEQERR n, CH_LIN_DOMAIN_COUNT n,
    CH_LIN_LAST_LO n, CH_LIN_LAST_HI n]

/-- The linearisation unit loses what it holds (R158). -/
def Hub.linDrop (h : Hub) : Hub := (h.each (List.range 192) fun h n => h.clearFields (linFields n)).setLin {}

/-- A channel outside the armature, its last output done: its registers clear. -/
def Hub.chanClear (h : Hub) (n : Nat) : Hub :=
  if (h.chan n).leaving ∧ (h.chan n).due.isNone ∧ (h.chan n).linQ.isEmpty then
    (h.clearFields (chanFields n)).setChan n { spans := (h.chan n).spans.map fun s => { s with hi := some (s.hi.getD h.time.now) } }
  else h

/-- Excitation to MODE 0 (R87, R96). -/
def Hub.excOff (h : Hub) (n : Nat) : Hub :=
  let c := h.chan n
  let was := c.driving
  let h := ((h.setChan n { c with exMode := 0 }).setStatic n).discharge n
  let h := if was then (h.disturb n h.time.now (50 * usU + h.extra n)).noteExc n h.time.now else h
  (h.showShed n false).showExcf n

/-- End the newest run of a channel at a stop index. -/
def Chan.endRun (c : Chan) (k : Nat) : Chan :=
  { c with runs := match c.runs.getLast? with
    | none => []
    | some r => c.runs.dropLast ++ (let r := { r with stop := lowerStop r.stop k }
        if r.stop.getD 0 ≤ r.next then [] else [r]) }

/-- A channel leaves the armature: outputs below the stop index are still produced. -/
def Hub.chanLeave (h : Hub) (n k : Nat) : Hub :=
  let h := h.excOff n
  (h.setChan n { (h.chan n).endRun k with live := false, leaving := true }).chanClear n

/-- The commit restarts the chain of a channel in the armature (R380). -/
def Hub.chainDiffers (h : Hub) (n : Nat) (s : Sect) : Bool :=
  let c := h.chan n
  ([CH_CFG_KIND n, CH_CFG_WIRING n, CH_CFG_SNS_ROLE n].any fun f => h.get f != s.fld 0 f)
    || ([CH_CHAIN_HB_COUNT n, CH_CHAIN_DEMOD n, CH_CHAIN_DEMOD_OUT n, CH_CHAIN_POSTDEC_MODE n, CH_CHAIN_GRID n,
      CH_CHAIN_SETTLE_SUPPRESS n].any fun f => h.get f != s.fld 6 f)
    || h.get (CH_D n) != s.cD || c.carP != s.cP || c.carQ != s.cQ

/-- The ranges a channel's entry can use (R118). -/
def Sect.cUsable (s : Sect) : List Nat := if s.cAuto then (List.range (s.cTop + 1)).filter fun r => decide (s.cMin ≤ r) else [s.cRange]

/-- The run that a section starts on its grid. -/
def Hub.newRun (h : Hub) (s : Sect) : Run :=
  let g := s.cGrid
  let n := h.gridResume g
  { epoch := h.gridEpoch g, p := h.get (GRID_RATE_P g), q := h.get (GRID_RATE_Q g), resume := n, first := n, next := n
    hb := s.cHb, mode := s.cPost, d := s.cD, two := s.cWords == 2 }

/-- Start a new run of a channel, restarting its chain at the commit instant where the commit says so (R152). With
SETTLE_SUPPRESS the settle outputs are not produced, unless a definition that goes on takes the channel (R154, R177). -/
def Hub.startRun (h : Hub) (c : Ctx) (n : Nat) (s : Sect) (restart wanted : Bool) : Hub :=
  let x := h.chan n
  let r := h.newRun s
  let h := h.setChan n { x with runs := x.runs ++ [r] }
  if restart then
    let h := h.restartChain n c.tc 1
    let x := h.chan n
    if s.cSuppress ∧ !wanted then
      h.setChan n { x with runs := x.runs.dropLast ++ [{ r with first := x.settledAt, next := x.settledAt }] }
    else h
  else h

/-- Fields of a channel that apply as host writes at the commit instant. -/
def Hub.chanLive (h : Hub) (n : Nat) (s : Sect) : Hub :=
  let h := h.muxSet n s.cMux
  let h := if h.get (CH_CHAIN_DCB_K n) = s.cDcbK then h else h.dcbKWrite n s.cDcbK
  let h := h.dcbFreezeWrite n (s.fld 6 (CH_CHAIN_DCB_FREEZE n) == 1)
  let p := s.fld 10 (CH_DEMOD_PHASE n)
  let h := if h.get (CH_DEMOD_PHASE n) = p then h else h.demodPhaseWrite n p
  h.loadImage (chanImage n) s

/-- One channel at a commit; `wanted` says that a stream or task that goes on takes it. Its excitation starts with its
group (R95). -/
def Hub.chanCommit (h : Hub) (c : Ctx) (wanted : Nat → Bool) (n : Nat) : Hub :=
  let x := h.chan n
  match findSect c.new 3 n with
  | none => if x.live then h.chanLeave n (c.cut (h.get (CH_CHAIN_GRID n))) else h
  | some s =>
    let restart := !x.live || h.chainDiffers n s || c.moved.contains s.cGrid
    let ended : Bool := match x.run with
      | some r => r.stop.isSome
      | none => true
    let cut := c.cut (h.get (CH_CHAIN_GRID n))
    let wasAuto := h.bit (CH_CFG_AUTORANGE n)
    let h := h.chanLive n s
    let h := h.setChan n { h.chan n with
      live := true, leaving := false, topRange := s.cTop, usable := s.cUsable, carP := s.cP, carQ := s.cQ, demP := s.cP, demQ := s.cQ
      exMode := s.cMode, exLevel := s.cLevel, stGain := none, stOffset := none }
    let h := if x.live then
        (if s.cAuto then
          (if wasAuto then h else h.freshDwell n c.tc).rangeLimitWrite n s.cMin s.cMax else h.rangeStep n s.cRange c.tc)
      else
        let h := (h.setChan n { h.chan n with ranges := [(c.tc, s.cTop)], actRanges := [(c.tc, s.cTop)] }).freshDwell n c.tc
        h.set (CH_RANGE_RANGE_NOW n) s.cTop
    let h := h.set (CH_DELAY_NS n) (removedDelayNs s.cHb (rangeFigures s.cKind (h.rangeNow n)).1)
    let h := if s.cMode = 0 ∧ x.exMode ≠ 0 then h.excOff n else h.setStatic n
    let h := if (h.chan n).shed then (h.showShed n false).showExcf n else h
    if restart ∨ ended ∨ c.drained then
      (h.setChan n (if x.live then (h.chan n).endRun cut else h.chan n)).startRun c n s restart (wanted n)
    else h

/-- A driven channel whose carrier frequency or waveform a section changes (R96). -/
def Hub.carrierNew (h : Hub) (n : Nat) (s : Sect) : Bool :=
  let c := h.chan n
  c.live && decide (3 ≤ s.cMode) && decide (3 ≤ c.exMode) && (c.exMode != s.cMode || s.cP * c.carQ != c.carP * s.cQ)

/-- Channels whose excitation starts or changes at a commit (R95, R380). -/
def Hub.excStarts (h : Hub) (c : Ctx) : List Nat :=
  chanList.filter fun n => match findSect c.new 3 n with
    | none => false
    | some s => s.cMode != 0 && (!(h.chan n).live || (h.chan n).shed || (h.chan n).exMode != s.cMode || (h.chan n).exLevel != s.cLevel
        || h.carrierNew n s)

/-- Channels whose carrier waveform changes at a commit (R134). -/
def Hub.waveChanges (h : Hub) (c : Ctx) : List Nat :=
  chanList.filter fun n => match findSect c.new 3 n with
    | none => false
    | some s => (h.chan n).live && decide (3 ≤ s.cMode) && decide (3 ≤ (h.chan n).exMode) && (h.chan n).exMode != s.cMode

/-- The channels whose carrier a commit changes. -/
def Hub.carriersNew (h : Hub) (c : Ctx) : List Nat :=
  chanList.filter fun n => (findSect c.new 3 n).any (h.carrierNew n)

/-- The excitation groups of a commit, with the restarts that changed waveforms bring (R95, R134). -/
def Hub.excGroups (h : Hub) (t : Nat) (starts waves carriers : List Nat) : Hub :=
  let gs := startGroups 12 t (h.startOrder starts)
  let h := h.setExc { h.exc with groups := gs, carriers := carriers, headroom := [] }
  gs.foldl (fun h g => h.each (g.2.filter waves.contains) fun h n => h.restartChain n g.1 3) h

/-- The banks an armature uses. -/
def banksOf (l : List Sect) : List Nat := ((ofType l 3).map fun s => s.inst / 16).dedup

/-- Start the analogue clocks of banks, and the modulator PLL where it is off (R30, R107). -/
def Hub.startBanks (h : Hub) (bs : List Nat) : Hub :=
  let h := h.each (bs.filter fun b => h.get CLK_BANK_ON / 2 ^ b % 2 == 0) fun h b =>
    ((h.setBit CLK_BANK_ON b).on (BANK_CLK_ON b)).setPwr { h.pwr with bankAt := aInsert h.pwr.bankAt b h.time.now }
  if bs.isEmpty ∨ h.pwr.modRunning then h
  else (h.setPwr { h.pwr with modRunning := true, modFailed := false, modUnlocked := false }).modPhased

/-- The banks of a commit: those it leaves out stop (R107). -/
def Hub.banksCommit (h : Hub) (l : List Sect) : Hub :=
  let bs := banksOf l
  let h := h.startBanks bs
  let h := h.each (List.range 12) fun h b =>
    if bs.contains b then h.on (BANK_ENABLED b) else (((h.off (BANK_ENABLED b)).off (BANK_CLK_ON b)).clrBit CLK_BANK_ON b)
  h.setPwr { h.pwr with modValid := h.pwr.modValid.filter bs.contains }

/-! ## Linearisation -/

def tabFields (u : Nat) : List Field :=
  [TAB_SEG_COUNT u, TAB_X_MAX u] ++ (List.range 16).flatMap fun i => [SEG_X_LO u i, SEG_C0 u i, SEG_C1 u i, SEG_C2 u i, SEG_C3 u i]

/-- Cold junctions and user tables (R163, R169). -/
def Hub.linCommit (h : Hub) (l : List Sect) : Hub :=
  let h := h.each (List.range 4) fun h i => match findSect l 4 i with
    | some s => h.loadImage (cjImage i) s
    | none => h.clearFields (cjImage i).flatten
  h.each (List.range 8) fun h u => match findSect l 5 u with
    | none => h.clearFields (tabFields u)
    | some s =>
      (List.range (s.body.length / 4)).foldl (fun h i => match (tabFields u)[i]? with
        | some f => h.set f (s.w i)
        | none => h) (h.clearFields (tabFields u))

/-! ## Partitions and queues (R250, R251, R258) -/

def partOfSect (s : Sect) : Part := { first := s.w 0, count := s.w 1, reserve := s.b 8, fixed := s.w 2 / 256 }

/-- A queue holds a packet: one that is not a gap record, or one PRODUCING (R251). -/
def Hub.qHolds (h : Hub) (q : Nat) : Bool := ((h.q q).pkts.any fun p => !p.isGap) || !(h.q q).prods.isEmpty

/-- The commit would break R251. -/
def Hub.memBusy (h : Hub) (l : List Sect) : Bool :=
  (h.mm.parts.any fun e => match findSect l 6 e.1 with
    | some s => ((s.w 0, s.w 1) != (e.2.first, e.2.count)) && (h.qsOf e.1).any fun q => h.qHolds q || (h.q q).remnant
    | none => (h.qsOf e.1).any fun q => h.qHolds q || (h.q q).remnant)
  || (List.range 256).any fun q => h.qState q != qOff && !hasSect l 7 q && h.qHolds q

/-- The account of a producer under new limits: what is PRODUCING keeps its reservation. -/
def Cred.again (c : Cred) (n m : Nat) : Cred :=
  { m := m, cp := n - c.pp, cw := n * need m - c.wp, pp := c.pp, wp := c.wp }

/-- One queue at a commit (DEDUCED, log entry 43). -/
def Hub.queueCommit (h : Hub) (c : Ctx) (q : Nat) : Hub :=
  let x := h.q q
  match findSect c.new 7 q with
  | none =>
    if h.qState q = qOff then h
    else if x.pkts.isEmpty ∧ x.waiting.isEmpty then h.qClear q
    else (h.setQ q { x with remnant := true, ending := false, creds := [], prods := [], push := none }).off (Q_PRODUCERS q)
  | some s =>
    let was := (h.get (Q_PRODUCERS q), h.get (Q_CREDIT_PKTS q))
    let h := h.loadImage (queueImage q) s
    let n := s.qCredit
    let creds := ((List.range 4).filter s.qHas).map fun p => (p, match aFind x.creds p with
      | some a => if was.2 = n ∧ a.m = s.qM p then a else a.again n (s.qM p)
      | none => newCred n (s.qM p))
    let kept := x.creds.filter fun e => !s.qHas e.1 && x.prods.any fun p => p.prod == e.1
    let all := (creds ++ kept).foldl (fun m e => aInsert m e.1 e.2) ([] : AMap Cred)
    let h := h.setQ q { x with creds := all, remnant := false, ending := false }
    if h.qState q = qOff ∨ h.qState q = qDraining then h.set (Q_STATE q) qActive else h

/-- Partitions and queues at a commit. A partition stays while a remnant lies in it. -/
def Hub.memCommit (h : Hub) (c : Ctx) : Hub :=
  let h := h.each (List.range 256) fun h q => h.queueCommit c q
  let keep := h.mm.parts.filter fun e => !hasSect c.new 6 e.1 && !(h.qsOf e.1).isEmpty
  h.setMm { h.mm with parts := ((ofType c.new 6).map fun s => (s.inst, partOfSect s)).foldl (fun m e => aInsert m e.1 e.2) keep }

/-! ## Streams and trigger units (R177, R178, R183) -/

/-- The grid of a stream in the new armature. -/
def Ctx.streamGrid (c : Ctx) (s : Sect) : Nat := ((s.sChans.head?).bind fun n => (findSect c.new 3 n).map Sect.cGrid).getD 0

/-- The commit leaves a stream going: the same definition on the same grid (R177). -/
def Hub.streamKeeps (h : Hub) (c : Ctx) (s : Sect) : Bool :=
  c.same 8 s.inst && !c.drained && match (h.runs s.inst).getLast? with
    | some r => r.stop.isNone && r.grid == c.streamGrid s && !c.moved.contains r.grid
    | none => false

/-- End the running definition of a stream (R178) (DEDUCED, log entry 43). -/
def Hub.streamEnd (h : Hub) (c : Ctx) (s : Nat) : Hub :=
  match (h.runs s).getLast? with
  | none => h
  | some r =>
    if r.stop.isSome then h
    else if r.record then
      let h := match h.unitOf s with
        | some t => h.tailRecord t r (c.cut r.grid)
        | none => h
      match (h.runs s).getLast? with
      | none => h
      | some r =>
        let r := { r with stop := some (c.cut r.grid) }
        if r.over then h.endRun r else h.putRun r
    else h.stopRun r (c.cut r.grid)

/-- The first index a stream produces: the largest first settled index of its suppressing channels (R177). -/
def Hub.streamFirst (h : Hub) (resume : Nat) (chans : List Nat) : Nat :=
  chans.foldl (fun a n =>
    if h.bit (CH_CHAIN_SETTLE_SUPPRESS n) ∧ h.get (CH_CHAIN_LAST_CAUSE n) = 1 then max a (h.chan n).settledAt else a) resume

/-- Start a stream of the new armature. -/
def Hub.streamStart (h : Hub) (c : Ctx) (s : Sect) : Hub :=
  let g := c.streamGrid s
  let n := h.gridResume g
  let f := h.streamFirst n s.sChans
  let hist := match (ofType c.new 9).find? fun t => t.tUsed && t.tStream == s.inst with
    | some t => t.w 4
    | none => 0
  let r : StreamRun := { stream := s.inst, record := s.sRecord, fmt := s.b 1, cmp := s.b 2, xform := s.b 3, k := s.h 4, queue := s.b 8
                         chans := s.sChans, grid := g, epoch := h.gridEpoch g, p := h.get (GRID_RATE_P g), q := h.get (GRID_RATE_Q g)
                         resume := n, first := f, next := f, armId := c.armId, hist := hist }
  h.setRuns s.inst (((h.runs s.inst).filter fun e => !e.over) ++ [r])

/-- The unit's commit state: FILLING, ARMED where PRE is already there, or DISARMED with MODE 0 (R183). -/
def Hub.unitStart (h : Hub) (t : Nat) : Hub :=
  let fill := (h.unitRun t).elim 0 fun r => r.ring.length
  let h := h.set (TRG_FILL t) fill
  let h := h.setUnit t { tails := (h.unit t).tails, since := (h.unit t).since, held := (h.unit t).held
                         autoAt := some h.time.now }
  h.set (TRG_STATE t) (if h.get (TRG_MODE t) = 0 then uDisarmed else if fill < h.get (TRG_PRE t) then uFilling else uArmed)

/-- A TRIGGER section differs from the unit in a field other than THRESH, HYST and AUTO_TIMEOUT. -/
def Hub.unitDiffers (h : Hub) (t : Nat) (s : Sect) : Bool :=
  (List.range 10).any fun i => !(i == 5 || i == 6 || i == 7) && ((trigImage t).getD i []).any fun f => h.get f != s.fld i f

/-- One trigger unit at a commit, after the streams have ended and before they start; `restarts` are the streams that do. -/
def Hub.unitCommit (h : Hub) (c : Ctx) (restarts : List Nat) (t : Nat) : Hub :=
  let tailed := match h.unitRun t with
    | some r => h.tailRecord t r (c.cut r.grid)
    | none => h
  match findSect c.new 9 t with
  | none =>
    if h.get (TRG_MODE t) = 0 ∧ h.get (TRG_SOURCE t) = 0 then h
    else ((tailed.clearFields (trigImage t).flatten).off (TRG_FILL t)).set (TRG_STATE t) uDisarmed
  | some s =>
    if h.unitDiffers t s ∨ !hasSect c.old 9 t then (tailed.loadImage (trigImage t) s).unitStart t
    else
      let h := h.loadImage (trigImage t) s
      if restarts.contains s.tStream ∧ h.uState t ≠ uDisarmed then h.unitStart t
      else if restarts.contains s.tStream then h.off (TRG_FILL t) else h

/-- Streams and units at a commit. -/
def Hub.acqCommit (h : Hub) (c : Ctx) : Hub :=
  let keeps := ((ofType c.new 8).filter (h.streamKeeps c)).map (·.inst)
  let start := (ofType c.new 8).filter fun s => !keeps.contains s.inst
  let h := h.each ((List.range 256).filter fun s => !keeps.contains s) fun h s => h.streamEnd c s
  let h := h.each ((List.range 256).filter fun s => !hasSect c.new 8 s) fun h s => h.setRuns s ((h.runs s).filter fun e => !e.over)
  let h := start.foldl (fun h s => h.streamStart c s) h
  let h := h.each (List.range 32) fun h t => h.unitCommit c (start.map (·.inst)) t
  h.each keeps fun h s => match (h.runs s).getLast?, h.unitOf s with
    | some r, some t => h.putRun { r with hist := h.get (TRG_HIST t) }
    | _, _ => h

/-! ## Carvers (R195, R380) -/

/-- The next frame boundary at or above an index. -/
def frameAt (len n : Nat) : Nat := (n + len - 1) / len * len

/-- What defines a task, apart from its matrix and DETECT's levels. -/
def Task.shape (t : Task) : Task :=
  { op := t.op, kind := t.kind, skip := t.skip, slot := t.slot, lock := t.lock, inputs := t.inputs, outs := t.outs, base := t.base
    mode := t.mode, n := t.n, bands := t.bands, staK := t.staK, ltaK := t.ltaK, minGap := t.minGap, countEn := t.countEn }

/-- The commit leaves a task of a carver's definition going: the carver's grid and L, and the task's shape, are the same. -/
def Ctx.keepsTask (c : Ctx) (x : Eng) (e k : Nat) : Bool :=
  match findSect c.new 11 e with
  | none => false
  | some s =>
    !c.drained && x.stop.isNone && !c.moved.contains x.grid && x.grid == s.eGrid && x.len == s.eLen
      && match x.tasks[k]?, s.tasks[k]? with
        | some a, some b => decide (a.shape = b.shape)
        | _, _ => false

def Hub.taskKeeps (h : Hub) (c : Ctx) (e k : Nat) : Bool := c.keepsTask (h.eng e) e k

/-- First frames of a carver's tasks: above the first produced indices of their channels, and of the tasks that feed them
(R195). -/
def Hub.taskFirsts (h : Hub) (len resume : Nat) : List Task → List Nat → List Nat
  | [], acc => acc
  | t :: ts, acc =>
    let m := t.inputs.foldl (fun a i =>
      if i.fromTask then max a (acc.getD i.num 0) else max a (((h.chan i.num).run).elim 0 (·.first))) resume
    Hub.taskFirsts h len resume ts (acc ++ [frameAt len m])

/-- The words of the bank in force, or of the other one, of a MODAL task. -/
def Hub.bankOf (h : Hub) (e k : Nat) (x : Eng) (t : Task) (shadow : Bool) : List Nat :=
  let n := t.inputs.length * t.outs
  let b := if shadow then 1 - h.get (TASK_BANK e k) else h.get (TASK_BANK e k)
  (List.range n).map fun i => x.bankWord (h.get (TASK_DATA_BASE e k)) b n i

/-- Put words into a carver's memory. -/
def putWords (m : AMap Nat) (a : Nat) (ws : List Nat) : AMap Nat :=
  (List.range ws.length).foldl (fun m i => aInsert m (a + 4 * i) (ws.getD i 0)) m

/-- A kept task takes the values that differ from those in force (R380): DETECT levels are staged, a matrix goes into the
shadow bank. -/
def Hub.taskUpdate (h : Hub) (e k resume : Nat) (a b : Task) : Task × Bool :=
  let inForce := match a.staged with
    | some v => v
    | none => (a.thresh, a.on, a.off)
  if a.op = 4 ∧ inForce ≠ (b.thresh, b.on, b.off) then 
    ({ a with levels := b.levels, staged := some (b.thresh, b.on, b.off), stagedAt := resume }, false)
  else if a.op = 1 ∧ h.bankOf e k (h.eng e) a false ≠ b.matrix then ({ a with matrix := b.matrix, flip := some resume }, true)
  else ({ a with matrix := b.matrix, levels := b.levels }, false)

/-- A carver whose grid and L stay: kept tasks go on, changed ones end at RESUME_INDEX and start at their first frame. -/
def Hub.engChange (h : Hub) (c : Ctx) (e : Nat) (s : Sect) : Hub :=
  let x := h.eng e
  let resume := h.gridResume x.grid
  let new := s.tasks
  let firsts := h.taskFirsts x.len resume new []
  let bases := taskBases x.len new
  let keeps := (List.range 8).filter fun k => h.taskKeeps c e k
  let ended := ((List.range x.tasks.length).filter fun k => !keeps.contains k).filterMap fun k => (x.tasks[k]?).map fun t =>
    (k, { t with stop := some resume, matrix := h.bankOf e k x t false })
  let step := fun (acc : List Task × AMap Nat) (k : Nat) =>
    match new[k]? with
    | none => acc
    | some b =>
      let size := 4 * b.inputs.length * b.outs
      let at_ := bases.getD k 0
      match keeps.contains k, x.tasks[k]? with
      | true, some a =>
        let u := h.taskUpdate e k resume a b
        let bank := h.get (TASK_BANK e k)
        let m := if b.op ≠ 1 then acc.2 else
          putWords (putWords acc.2 (at_ + bank * size) (h.bankOf e k x a false)) (at_ + (1 - bank) * size)
            (if u.2 then b.matrix else h.bankOf e k x a true)
        (acc.1 ++ [u.1], m)
      | _, _ => (acc.1 ++ [{ b with first := firsts.getD k 0 }], if b.op = 1 then putWords acc.2 at_ b.matrix else acc.2)
  let r := (List.range new.length).foldl step ([], [])
  let h := h.setEng e { x with tasks := r.1, old := x.old ++ ended, sram := r.2 }
  let h := h.showTasks e x.len new bases
  h.each ((List.range new.length).filter fun k => !keeps.contains k) fun h k =>
    ((h.off (TASK_BANK e k)).off (TASK_LAST_CYCLES e k)).set (TASK_RESTARTED e k) (b2n ((new[k]?).elim false Task.stateful))

/-- A carver's definition in a new armature, from its first frame. -/
def Hub.engOf (h : Hub) (s : Sect) : Eng :=
  let g := s.eGrid
  let n := h.gridResume g
  let firsts := h.taskFirsts s.eLen n s.tasks []
  { grid := g, epoch := h.gridEpoch g, p := h.get (GRID_RATE_P g), q := h.get (GRID_RATE_Q g), len := s.eLen
    tasks := (List.range s.tasks.length).map fun k => { s.tasks.getD k { op := 0 } with first := firsts.getD k 0 }
    nextIn := frameAt s.eLen n }

/-- A definition still waiting for its carver, as a further commit leaves it: kept tasks go on, changed ones end at RESUME_INDEX and start at
their first frame. -/
def Hub.engAmend (h : Hub) (c : Ctx) (e : Nat) (s : Sect) (y : Eng) : Eng :=
  let resume := h.gridResume y.grid
  let new := s.tasks
  let firsts := h.taskFirsts y.len resume new []
  let goes := fun (k : Nat) => c.keepsTask y e k && match y.tasks[k]?, new[k]? with
    | some a, some b => a.op != 1 || a.matrix == b.matrix
    | _, _ => false
  let ended := ((List.range y.tasks.length).filter fun k => !goes k).filterMap fun k => (y.tasks[k]?).map fun t => (k, { t with stop := some resume })
  { y with
    old := y.old ++ ended
    tasks := (List.range new.length).map fun k => match new[k]?, y.tasks[k]? with
      | some b, some a =>
        if !goes k then { b with first := firsts.getD k 0 } else if a.op = 4 then (h.taskUpdate e k resume a b).1 else a
      | some b, none => { b with first := firsts.getD k 0 }
      | none, _ => { op := 0 } }

/-- The definition of a carver before this commit ends at RESUME_INDEX. -/
def Hub.stopLastEng (h : Hub) (c : Ctx) (e : Nat) : Hub :=
  let stop := fun (y : Eng) => { y with stop := lowerStop y.stop (c.cut y.grid) }
  match (h.comings e).getLast? with
  | some y => h.setComings e ((h.comings e).dropLast ++ [stop y])
  | none => if (h.eng e).tasks.isEmpty then h else h.setEng e (stop (h.eng e))

/-- One carver at a commit. -/
def Hub.engCommit (h : Hub) (c : Ctx) (e : Nat) : Hub :=
  let x := h.lastEng e
  let coming := !(h.comings e).isEmpty
  let next := fun (y : Eng) => let g := h.stopLastEng c e; (g.setComings e (g.comings e ++ [y])).engSwitch e
  match findSect c.new 11 e with
  | none =>
    if x.tasks.isEmpty then h else next {}
  | some s =>
    let goes := !c.drained && x.stop.isNone && !x.tasks.isEmpty && !c.moved.contains x.grid && x.grid == s.eGrid && x.len == s.eLen
    if !goes then next (h.engOf s)
    else if coming then h.setComings e ((h.comings e).dropLast ++ [h.engAmend c e s x])
    else h.engChange c e s

/-! ## Relief slots (R220, R227) -/

/-- The tasks that write a slot: carver and first frame. -/
def Hub.slotTasks (h : Hub) (s : Nat) : List (Nat × Nat) :=
  (List.range 16).flatMap fun e =>
    let x := h.lastEng e
    (x.tasks.filter fun t => t.slot == some s).map fun t => (e, t.first)

/-- A slot as a RELIEF section defines it (DEDUCED, log entry 42). -/
def Hub.slotOfSect (h : Hub) (c : Ctx) (s : Sect) : Slot :=
  let g := s.b 2
  let ts := h.slotTasks s.inst
  let first := (ts.map (·.2)).foldl max (frameAt (s.h 4) (h.gridResume g))
  { id := s.h 0, grid := g, epoch := h.gridEpoch g, p := h.get (GRID_RATE_P g), q := h.get (GRID_RATE_Q g), combine := s.b 3
    len := s.h 4, elems := s.h 6, scale := toSigned 8 (s.b 8), openMax := s.b 9, hasLocal := s.b 10 != 0, queue := s.b 11
    expect := s.w 3, waitUs := s.w 4, ports := (List.range 64).filter fun p => (fieldAt s.body 0x18 8).testBit p
    pairs := ((List.range 8).map fun i => (s.b (0x20 + 2 * i), s.b (0x21 + 2 * i))).filter fun a => a.1 != 255 && a.2 != 255
    engs := (ts.map (·.1)).dedup, first := first, next := first, armId := c.armId }

/-- A RELIEF body without WAIT_US. -/
def Sect.noWait (s : Sect) : List (BitVec 8) := s.body.take 0x10 ++ s.body.drop 0x14

/-- The commit leaves a slot going. -/
def Hub.slotKeeps (h : Hub) (c : Ctx) (s : Sect) : Bool :=
  !c.drained && !c.moved.contains (s.b 2) && (match findSect c.old 12 s.inst with
    | some a => a.noWait == s.noWait
    | none => false)
  && match h.slot s.inst with
    | some x => x.stop.isNone
    | none => false

/-- End the slot in force at a stop index; one with no frame left goes at once (R227). -/
def Hub.slotEnd (h : Hub) (c : Ctx) (s : Nat) : Hub :=
  match h.slot s with
  | none => h
  | some x =>
    let y := { x with stop := lowerStop x.stop (c.cut x.grid) }
    if y.over then h.setSlots s (h.slots s).dropLast else h.putSlot s y

/-- Contributions that wait for a slot the commit removes are dropped as STALE (R344). -/
def Hub.slotOrphans (h : Hub) (s id : Nat) : Hub :=
  h.each (h.mm.queues.map (·.1)) fun h q =>
    ((h.q q).pkts.filter fun p => p.relief && p.stream == id && p.port.isSome && p.words.headD 0 % 256 == 0x10).foldl (fun h p =>
      let h := h.slotBump s (·.stale) fun c v => { c with stale := v }
      (h.freePkts q fun k => k.qseq == p.qseq).rlfDrop (contribOf 0 p.rx p.words)) h

/-- One relief slot at a commit, after the carvers. -/
def Hub.slotCommit (h : Hub) (c : Ctx) (s : Nat) : Hub :=
  match findSect c.new 12 s with
  | none =>
    match h.slot s with
    | none => h
    | some x => (h.slotEnd c s).slotOrphans s x.id
  | some n =>
    if h.slotKeeps c n then
      match h.slot s with
      | some x => h.putSlot s { x with waitUs := n.w 4, engs := ((h.slotTasks s).map (·.1)).dedup
                                       engsWere := x.engsWere ++ [(h.gridResume x.grid, x.engs)] }
      | none => h
    else
      let h := h.slotEnd c s
      h.setSlots s (h.slots s ++ [h.slotOfSect c n])

/-! ## Links, pairs and the duplex pair -/

/-- What a VC has granted and its partner has not yet used. -/
def VcSt.outstanding (c : VcSt) : Nat × Nat := ((c.myP + 2 ^ 32 - c.inP) % 2 ^ 32, (c.myW + 2 ^ 32 - c.inW) % 2 ^ 32)

/-- A VC and its receive queue after a commit (R323): a grant already given is backed above the invariant; a larger queue
raises it. -/
def Hub.vcBack (h : Hub) (k v : Nat) : Hub :=
  match h.rxQueue k v with
  | none => h
  | some q => match h.cred q prodLink with
    | none => h
    | some a =>
      let c := h.vc k v
      let o := c.outstanding
      let h := h.setCred q prodLink { a with
        cp := max a.cp o.1, cw := max a.cw o.2, overP := a.overP + (o.1 - a.cp), overW := a.overW + (o.2 - a.cw) }
      (h.setVc k v { c with oweP := c.oweP + (a.cp - (o.1 + c.oweP)), oweW := c.oweW + (a.cw - (o.2 + c.oweW)) }).raiseGrant k v

/-- One link at a commit: its RXQ map (R323, R344). -/
def Hub.linkCommit (h : Hub) (l : List Sect) (k : Nat) : Hub :=
  let m : List (Option Nat) := match findSect l 13 k with
    | some s => (List.range 4).map fun v => optByte (s.b (4 + v))
    | none => [none, none, none, none]
  let was := (List.range 4).map (h.rxQueue k)
  let lims := (List.range 4).map (h.myLimits k)
  let h := h.each (List.range 4) fun h v =>
    (h.set (VC_RXQ k v) ((m.getD v none).getD 0)).set (VC_RXQ_VALID k v) (b2n (m.getD v none).isSome)
  if h.linkUp k then
    let h := h.each (List.range 4) fun h v => h.vcBack k v
    if m ≠ was ∨ (List.range 4).map (h.myLimits k) ≠ lims then h.creditDue k else h
  else h

/-- The pairs of an armature: a pair that stays keeps what it has passed (R336, R380). -/
def Hub.pairCommit (h : Hub) (l : List Sect) : Hub :=
  let new := (ofType l 14).map fun s => (fieldAt s.body 0 6, fieldAt s.body 6 6)
  let old := h.lk.pairs
  let kept := h.lk.pairSt.filterMap fun e => match old[e.1 / 256]? with
    | none => none
    | some a => (new.findIdx? fun b => b == a).map fun i => (i * 256 + e.1 % 256, e.2)
  h.setLk { h.lk with pairs := new, pairSt := kept.foldl (fun m e => aInsert m e.1 e.2) [] }

/-- ARM_CRC (R353): over the armature's bytes before its CRC, the ROLE byte taken as 0 (DEDUCED, log entry 40). -/
def armCrcOf (b : List (BitVec 8)) : Nat :=
  let e := armCrcAt b
  match findSect (armSects b) 15 0 with
  | some s => crc32c ((b.take (s.off + 8)) ++ [0] ++ (b.take e).drop (s.off + 9))
  | none => crc32c (b.take e)

/-- The duplex pair at a commit: a pair that is new, or changed in a field other than ROLE, enters JOINING (R353, R380). -/
def Hub.duplexCommit (h : Hub) (c : Ctx) (b : List (BitVec 8)) : Hub :=
  match findSect c.new 15 0 with
  | none =>
    let h := h.offs [DUP_PSTATE, DUP_ROLE, DUP_SUSPECT, DUP_PARTNER_SUSPECT, DUP_LINK_LOST, DUP_SYNC_LOST, DUP_SWAP_PENDING, DUP_POLICY,
      DUP_LINK, DUP_ROLE_CFG, DUP_RPT_ADDR]
    (h.setPair {}).setLk { h.lk with activeOnly := [] }
  | some s =>
    let was := h.pstate
    let join := was == psNone || (match findSect c.old 15 0 with
      | some o => o.body.drop 1 != s.body.drop 1
      | none => true)
    let h := if was = psNone then (h.set DUP_ROLE (s.b 0)).setPair
        { lastSign := c.tc, lastPulse := c.tc, srcs := if s.b 0 = 1 then [⟨h.edgeIndex c.tc, false, c.tc⟩] else [] } else h
    let h := (((h.set DUP_POLICY (s.b 2)).set DUP_LINK (s.b 1)).set DUP_ROLE_CFG (s.b 0)).set DUP_RPT_ADDR (s.w 1)
    let h := (h.setPair { h.pair with armCrc := armCrcOf b }).setLk
      { h.lk with activeOnly := ((s.body.drop 8).take (s.b 3)).map BitVec.toNat }
    let h := h.set DUP_LINK_LOST (b2n (!h.linkUp (s.b 1)))
    if join then h.set DUP_PSTATE psJoining else h

end Sys2Proof.Machine
end

