-- ==== Sys2Proof/Machine/Armature.lean ====
section
/-! DEFINITION. Staging a maquette (R376, R377), the commit (R378 to R382) and the withdrawal (R383, R17, R268). -/

namespace Sys2Proof.Machine

/-! ## Staging (R376, R377) -/

def amEmpty : Nat := 0
def amLoading : Nat := 1
def amValidating : Nat := 2
def amValid : Nat := 3
def amFailed : Nat := 4

/-! ## Settings that apply in IDLE (R404) -/

/-- Bytes of one image put into another. -/
def imgCopy (dst src : AMap Nat) (a n : Nat) : AMap Nat := imgPut dst a (imgBytes src a n)

/-- ETH and PTP settings act (R54, R312, R343, R404). -/
def Hub.applyClock (h : Hub) (img : AMap Nat) : Hub :=
  let h := h.each (List.range 8) fun h k =>
    let a := 0xB0 + 16 * k
    let h := (h.set (LANE_ETH_ADDR_LO k) (imgVal img a 4)).set (LANE_ETH_ADDR_HI k) (imgVal img (a + 4) 2)
    (h.set (LINK_PEER_MAC_LO k) (imgVal img (a + 6) 4)).set (LINK_PEER_MAC_HI k) (imgVal img (a + 10) 2)
  let h := h.each [0, 1] fun h d =>
    [DOM_DOMAIN_NUMBER d, DOM_SDO_ID d, DOM_TRANSPORT d, DOM_DELAY_MECH d, DOM_ENABLE d, DOM_SLAVE_LANE d].foldl
      (fun h f => h.set f (bitsAt (imgVal img (0x130 + 4 * d) 4) f.lo f.width)) h
  h.setUpd { h.upd with inUse := imgCopy h.upd.inUse img 0xA0 0xDC, applyImg := none }

/-- The hub goes back to IDLE: settings that waited for it act (R404). -/
def Hub.toIdle (h : Hub) : Hub :=
  let h := h.enter mIdle
  match h.upd.applyImg with
  | some m => h.applyClock m
  | none => h

def Hub.amState (h : Hub) : Nat := h.get ARM_STAT_STATE

/-- LOAD_START, COPY and DISCARD are taken in these modes, outside a transition (R376). -/
def Hub.mayStage (h : Hub) : Bool := (h.mode == mIdle || h.mode == mStaging || h.acquiring) && !h.bit DEV_MODE_IN_TRANSITION

/-- LOAD_START and COPY are taken in EMPTY or FAILED with no commit pending (R376). -/
def Hub.mayLoad (h : Hub) : Bool :=
  h.mayStage && (h.amState == amEmpty || h.amState == amFailed) && !h.bit ARM_STAT_COMMIT_PENDING

/-- No maquette: its registers read 0. -/
def Hub.maqClear (h : Hub) : Hub :=
  (h.offs [ARM_STAT_STATE, ARM_STAT_SIGNED, ARM_LOAD_OFS, ARM_TOTAL_LEN, ARM_ID_MAQ, ARM_KEY_ID]).setArm { h.arm with maq := [] }

/-- A pending commit ends without taking place; banks started for it alone stop again (DEDUCED, log entry 48). -/
def Hub.commitOff (h : Hub) : Hub :=
  let h := (h.off ARM_STAT_COMMIT_PENDING).off ARM_COMMIT_SLOT_VALID
  if h.arm.prestarted then (h.banksCommit h.arm.sects).setArm { h.arm with prestarted := false } else h

/-- COMMIT_REFUSED with a REASON. -/
def Hub.commitRefuse (h : Hub) (reason : Nat) : Hub := (h.on ARM_STAT_COMMIT_REFUSED).set ARM_STAT_REASON reason

/-- A pending commit is cancelled with a REASON (R378, R379) (DEDUCED, log entry 48). -/
def Hub.commitCancel (h : Hub) (reason : Nat) : Hub :=
  if h.bit ARM_STAT_COMMIT_PENDING then ((h.schedEndOf ownCommit scCancelled).commitOff).commitRefuse reason else h

/-- The maquette fails: FAILED with its code and place (R374, R376). -/
def Hub.maqFail (h : Hub) (e : ArmErr) : Hub :=
  let h := (((h.set ARM_STAT_STATE amFailed).set ARM_STAT_ERR e.code).set ARM_ERR_OFS e.ofs).set ARM_ERR_TYPE e.type
  let h := ((h.set ARM_ERR_INST e.inst).bump ARM_FAILS ARM_STAT_SAT).commitCancel 6
  if h.mode = mStaging then h.toIdle else h

/-- Loading begins: the armature keys and the signature flag of the settings in use are those it is checked by (R370, R404) (DEDUCED, log entry 45). -/
def Hub.loadBegin (h : Hub) : Hub :=
  let h := (h.maqClear.set ARM_STAT_STATE amLoading).offs [ARM_STAT_ERR, ARM_ERR_OFS, ARM_ERR_TYPE, ARM_ERR_INST]
  let h := h.setArm { h.arm with keys := imgBytes h.upd.inUse 0x20 128, sigReq := imgVal h.upd.inUse 0x14 4 / 2 % 2 == 1 }
  if h.mode = mIdle then h.enter mStaging else h

/-- LOAD_START (R376). -/
def Hub.loadStart (h : Hub) : Hub := if h.mayLoad then h.loadBegin else h.on ARM_STAT_WERR

/-- Bytes arrive: the format checks run, and the last byte starts the content checks (R374, R376). -/
def Hub.loadBytes (h : Hub) (b : List (BitVec 8)) : Hub :=
  let m := h.arm.maq ++ b
  let h := (h.setArm { h.arm with maq := m }).set ARM_LOAD_OFS m.length
  let h := if 64 ≤ m.length then (h.set ARM_TOTAL_LEN (armTotal m)).set ARM_ID_MAQ (armId m) else h
  match formatErr h.route h.arm.keys h.arm.sigReq m with
  | some e => h.maqFail e
  | none =>
    if 64 ≤ m.length ∧ armTotal m ≤ m.length then
      let h := h.set ARM_STAT_STATE amValidating
      if armSigned m then (h.on ARM_STAT_SIGNED).set ARM_KEY_ID (fieldAt m (armCrcAt m + 4) 4) else h
    else h

/-- ARM_LOAD_DATA (R377). -/
def Hub.loadData (h : Hub) (v : Nat) : Hub :=
  if h.amState = amLoading then h.loadBytes (leBytes 4 v) else h.on ARM_STAT_WERR

/-- A source that leaves the host region. -/
def copyErr : ArmErr := { code := 0x03, ofs := 8, type := 0, inst := 0 }

/-- ARM_COPY (R377): the header, then the rest, from the host region (DESIGN CHOICE, log entry 46). -/
def Hw.armCopy (w : Hw) : Hw :=
  let a := w.hub.get ARM_SRC_ADDR
  if !w.hub.mayLoad ∨ a % 4 ≠ 0 then w.onHub fun h => h.on ARM_STAT_WERR
  else w.onHub fun h =>
    let h := h.loadBegin
    if !h.hostRange a 64 then h.maqFail copyErr
    else
      let h := h.loadBytes (memBytes w.mem.cells a 64)
      if h.amState ≠ amLoading then h
      else
        let n := h.get ARM_TOTAL_LEN
        if !h.hostRange a n then h.maqFail copyErr else h.loadBytes (memBytes w.mem.cells (a + 64) (n - 64))

/-- VALIDATION_DONE (R374, R375). -/
def Hub.validationDone (h : Hub) : Hub :=
  if h.amState = amValidating then
    match contentErr h h.arm.maq with
    | some e => h.maqFail e
    | none => h.set ARM_STAT_STATE amValid
  else h

/-- DISCARD (R376, R384) (DEDUCED, log entry 48). -/
def Hub.discard (h : Hub) : Hub :=
  if h.mayStage then
    let h := (h.commitCancel 9).maqClear
    if h.mode = mStaging then h.toIdle else h
  else h.on ARM_STAT_WERR

/-! ## Scheduling a commit (R378, R379) -/

/-- The instant in the commit or withdrawal registers. -/
def Hub.commitAtReg (h : Hub) : Nat := mkTime (h.get ARM_COMMIT_SEC_LO + 2 ^ 32 * h.get ARM_COMMIT_SEC_HI) (h.get ARM_COMMIT_NS) 0
def Hub.withdrawAtReg (h : Hub) : Nat :=
  mkTime (h.get ARM_WITHDRAW_SEC_LO + 2 ^ 32 * h.get ARM_WITHDRAW_SEC_HI) (h.get ARM_WITHDRAW_NS) 0

/-- The first whole millisecond at least 1 ms ahead. -/
def nextMs (t : Nat) : Nat := (t + 2 * msU - 1) / msU * msU

/-- COMMIT (R378); with SETTINGS_UNREADABLE none is taken (R405). -/
def Hub.commit (h : Hub) : Hub :=
  let at_ := h.bit ARM_COMMIT_AT_EN
  let t := if at_ then h.commitAtReg else nextMs h.time.now
  if h.bit UPD_STAT_SETTINGS_UNREADABLE then h.commitRefuse 10
  else if h.bit ARM_STAT_COMMIT_PENDING then h.commitRefuse 4
  else if h.amState ≠ amValid ∧ !(at_ ∧ (h.amState = amLoading ∨ h.amState = amValidating)) then h.commitRefuse 1
  else if t < h.time.now + msU then h.commitRefuse 2
  else match h.schedTake ownCommit t with
    | none => h.commitRefuse 3
    | some (s, h) => ((h.on ARM_STAT_COMMIT_PENDING).set ARM_COMMIT_SLOT s).on ARM_COMMIT_SLOT_VALID

/-- COMMIT_PRESTART (R30, R379): 1 ms before T_c. -/
def Hub.commitPrestart (h : Hub) : Hub :=
  match h.schedOf ownCommit with
  | none => h
  | some s =>
    if h.arm.prestarted then h
    else
      let h := h.upTo (h.schedInstant s - msU)
      if h.amState = amValid then (h.startBanks (banksOf (armSects h.arm.maq))).setArm { h.arm with prestarted := true }
      else (((h.schedEnd s scMissed).commitOff).on ARM_STAT_COMMIT_MISSED).set ARM_STAT_REASON 5

/-! ## The commit (R380 to R382) -/

/-- Two armatures that differ in a section. -/
def sectsDiffer (a b : List Sect) : Bool := (a.map fun s => (s.type, s.inst, s.body)) != (b.map fun s => (s.type, s.inst, s.body))

/-- REASON of a commit refused at T_c, 0 where it is not (R381). -/
def Hub.refusedAt (h : Hub) (id : Nat) (new : List Sect) : Nat :=
  if h.memBusy new then 7
  else if (match findSect new 15 0 with
    | some s => h.pstate != psNone && s.b 0 != h.get DUP_ROLE
    | none => false) then 8
  else if h.arm.committed ∧ id = h.get ARM_ID_COMMITTED ∧ sectsDiffer h.arm.sects new then 11
  else 0

/-- A channel that a continuing stream or carver task takes. -/
def Hub.wantedBy (h : Hub) (c : Ctx) (n : Nat) : Bool :=
  (ofType c.new 8).any (fun s => s.sChans.contains n && h.streamKeeps c s)
    || (List.range 16).any fun e => (List.range 8).any fun k => match (h.eng e).tasks[k]? with
      | some t => t.inputs.any (fun i => !i.fromTask && i.num == n) && h.taskKeeps c e k
      | none => false

/-- ARBITRATION at a commit (R289, R291): class B levels are loaded; windows and quotas start afresh where they differ. -/
def Hub.arbSect (h : Hub) (c : Ctx) : Hub :=
  let s := findSect c.new 10 0
  let es := (s.map Sect.arbEntries).getD []
  let of := fun k => (es.filter fun e => e.1 == k).map fun e => (arbKey e.2.1 e.2.2.1, e.2.2.2)
  if h.arb.running ∧ !c.drained ∧ (findSect c.old 10 0).map (·.body) = s.map (·.body) then
    h.setArb { h.arb with level := (of 1).foldl (fun m e => aInsert m e.1 (e.2 % 8)) h.arb.level }
  else h.arbCommit ((s.map fun x => x.w 0).getD 500) ((s.map fun x => x.w 1).getD 0) (of 0) (of 1) c.tc

/-- An open DOWNSTREAM_RESET record whose queue the armature leaves out closes with ENDED (R22) (DEDUCED, log entry 49). -/
def Hub.endOpens (h : Hub) (gone : Nat → Bool) (t : Nat) : Hub :=
  (h.lk.opens.filter fun o => gone o.queue).foldl (fun h o => h.closeRec o endedIndex (some t)) h

/-- The active sends its patina entries in force at a commit (R350, R351). -/
def Hub.sendPatina (h : Hub) : Hub :=
  if h.dupActive then
    h.usedEntries.foldl (fun h e =>
      let a := patEntryAt e.1 e.2
      h.dupEvent .patina (e.1 * 10 + e.2) (imgVal h.hk.inForce a 4 + 2 ^ 32 * imgVal h.hk.inForce (a + 4) 4)) h
  else h

/-- The mode a commit enters (R380). -/
def Hub.commitMode (h : Hub) (b : List (BitVec 8)) (new : List Sect) : Hub :=
  let acq := if fieldAt b 0x10 1 = 2 then mSegment else mStream
  let h := h.setArm { h.arm with acqMode := acq }
  match (findSect new 15 0).map fun s => s.b 0 with
  | some 1 =>
    let h := (h.enter mMirror).onlyLinks
    if armCalibrate b then h.calBegin 0 else h
  | _ => if armCalibrate b then (h.enter mCal).calBegin 0 else h.enter acq

/-- The sections of the new armature take effect (R380). -/
def Hub.applySects (h : Hub) (c : Ctx) (b : List (BitVec 8)) : Hub :=
  let starts := h.excStarts c
  let waves := h.waveChanges c
  let carriers := h.carriersNew c
  let wanted := (List.range 192).filter (h.wantedBy c)
  let h := match findSect c.new 1 0 with
    | some s => (h.set EXC_BUDGET_MW (s.w 0)).setArm { h.arm with sources := s.w 1 }
    | none => h
  let h := h.each (List.range 8) fun h g => h.gridCommit c g
  let h := h.each chanList fun h n => h.chanCommit c wanted.contains n
  let h := ((h.banksCommit c.new).excGroups c.tc starts waves carriers).linCommit c.new
  let h := (h.endOpens (fun q => !hasSect c.new 7 q) c.tc).memCommit c
  let h := (h.acqCommit c).arbSect c
  let h := h.each (List.range 16) fun h e => h.engCommit c e
  let h := h.each (List.range 64) fun h s => h.slotCommit c s
  let h := h.each (List.range 64) fun h k => h.linkCommit c.new k
  (h.pairCommit c.new).duplexCommit c b

/-- The record of the commit in the ARM_ registers (R380, R384). -/
def Hub.commitRecord (h : Hub) (c : Ctx) : Hub :=
  let h := ((h.on ARM_STAT_COMMITTED).bump ARM_COMMITS ARM_STAT_SAT).set ARM_ID_COMMITTED c.armId
  let h := ((h.set ARM_CT_NS (tNs c.tc)).set ARM_CT_SEC_LO (tSec c.tc)).set ARM_CT_SEC_HI (tSec c.tc / 2 ^ 32)
  (h.on DEV_IRQ_ARM).setArm { h.arm with upper := !h.arm.upper, committed := true, commitAt := c.tc, sects := c.new, prestarted := false }

/-- A drain ends (R382, R383) (DEDUCED, log entry 47). -/
def Hub.drainEnds (h : Hub) : Hub :=
  (h.off ARM_STAT_DRAINING).on ARM_STAT_WITHDRAWN

/-- The armature takes effect at T_c (R380, R382). -/
def Hub.takeEffect (h : Hub) (t : Nat) (b : List (BitVec 8)) : Hub :=
  let h := h.calDrop
  let drained := h.bit ARM_STAT_DRAINING
  let h := if drained then h.drainEnds else h
  let new := armSects b
  let grids := (List.range 8).filter fun g => h.gridState g != gIdle
  let c : Ctx :=
    { tc := t, old := h.arm.sects, new := new, drained := drained, armId := armId b
      moved := (List.range 8).filter fun g => match findSect new 2 g with
        | some s => h.gridMoved g s
        | none => false
      cuts := grids.map fun g => (g, firstIndexAt (h.gridEpoch g) (h.get (GRID_RATE_P g)) (h.get (GRID_RATE_Q g)) t) }
  let h := (h.applySects c b).commitRecord c
  let h := (h.patForce h.hk.checked t).uncalCheck
  let h := h.set CLK_MOD_LOCK (b2n h.modLocked)
  let h := if h.modLocked then h else h.modLost
  let h := (h.maqClear.commitMode b new).sendPatina
  let h := h.each (List.range 64) Hub.commitNote
  h.each (h.mm.parts.map (·.1)) Hub.refill

/-! ## Withdrawal (R17, R383) -/

/-- Grids enter STOPPING with the stop index of a withdrawal instant (R17, R62). -/
def Hub.gridsStop (h : Hub) (t : Nat) : Hub :=
  h.each (List.range 8) fun h g =>
    if h.gridState g = gWaiting ∨ h.gridState g = gRunning then
      let k := firstIndexAt (h.gridEpoch g) (h.get (GRID_RATE_P g)) (h.get (GRID_RATE_Q g)) t
      ((h.setGridStop g k).set (GRID_STATE g) gStopping).setTime { h.time with gridWd := aInsert h.time.gridWd g true }
    else h

/-- A pending withdrawal leaves: its stop indices are cleared (R62, R383). -/
def Hub.gridsResume (h : Hub) : Hub :=
  let h := h.each (h.time.gridWd.map (·.1)) fun h g =>
    (h.setGridStop g noStop).set (GRID_STATE g) (if h.gridTime g (h.gridResume g) ≤ h.time.now then gRunning else gWaiting)
  h.setTime { h.time with gridWd := [] }

/-- A withdrawal starts at an instant; the drain limit is captured (R383). -/
def Hub.withdrawFrom (h : Hub) (t : Nat) : Hub :=
  ((h.on ARM_STAT_WITHDRAW_PENDING).setArm { h.arm with wdAt := t, wdLimit := h.get ARM_DRAIN_MS }).gridsStop t

/-- The first tick after now (DEDUCED, log entry 47). -/
def Hub.nextTick (h : Hub) : Nat := timeAdd h.time.now h.tickInc

/-- A withdrawal is not possible now (R383). -/
def Hub.noWithdraw (h : Hub) : Bool := !h.arm.committed || h.bit ARM_STAT_WITHDRAW_PENDING || h.bit ARM_STAT_DRAINING

/-- WITHDRAW (R383) (DEDUCED, log entry 47). -/
def Hub.withdraw (h : Hub) : Hub :=
  if h.noWithdraw then h.on ARM_STAT_WERR
  else if !h.bit ARM_WITHDRAW_AT_EN then h.withdrawFrom h.nextTick
  else if h.withdrawAtReg < h.time.now + msU then h.on ARM_STAT_WERR
  else match h.schedTake ownWithdraw h.withdrawAtReg with
    | none => h.on ARM_STAT_WERR
    | some (s, h) => ((h.withdrawFrom h.withdrawAtReg).set ARM_WD_SLOT s).on ARM_WD_SLOT_VALID

/-- CANCEL_WITHDRAW, or CANCEL in its slot (R383). A mode command that waits for the drain ends with it. -/
def Hub.cancelWithdraw (h : Hub) : Hub :=
  if h.bit ARM_STAT_WITHDRAW_PENDING then
    let h := (h.schedEndOf ownWithdraw scCancelled).offs [ARM_STAT_WITHDRAW_PENDING, ARM_WD_SLOT_VALID, DEV_MODE_IN_TRANSITION]
    h.gridsResume
  else h

/-- Stop indices reach channels, streams, carvers and slots (R17). -/
def Hub.stopGrid (h : Hub) (g : Nat) : Hub :=
  let k := h.gridStop g
  let h := h.each (chanList.filter fun n => (h.chan n).live && h.get (CH_CHAIN_GRID n) == g) fun h n => h.setChan n ((h.chan n).endRun k)
  let h := h.stopStreams g k
  let cut := fun (x : Eng) => if x.tasks.isEmpty ∨ x.grid ≠ g then x else { x with stop := lowerStop x.stop k }
  let h := h.setCarve { h.carve with engs := h.carve.engs.map fun e => (e.1, cut e.2), coming := h.carve.coming.map fun e => (e.1, e.2.map cut) }
  h.each ((List.range 64).filter fun s => match h.slot s with
    | some x => x.grid == g
    | none => false) fun h s => match h.slot s with
      | some x => h.putSlot s { x with stop := lowerStop x.stop k }
      | none => h

/-- WITHDRAWAL_INSTANT (R17, R268): the stop indices are set and the queues enter DRAINING. -/
def Hub.withdrawalInstant (h : Hub) : Hub :=
  if h.bit ARM_STAT_WITHDRAW_PENDING then
    let t := h.arm.wdAt
    let h := (((h.upTo t).schedEndOf ownWithdraw scFired).offs [ARM_STAT_WITHDRAW_PENDING, ARM_WD_SLOT_VALID]).gridsStop t
    let h := h.each (h.time.gridWd.map (·.1)) Hub.stopGrid
    let h := h.setTime { h.time with gridWd := [] }
    let h := h.each ((List.range 256).filter fun q => h.qState q != qOff) fun h q => h.set (Q_STATE q) qDraining
    (h.on ARM_STAT_DRAINING).setArm { h.arm with drainEnd := t + h.arm.wdLimit * msU }
  else h

/-- A withdrawal due by an instant runs before what else is due at that tick (R58). -/
def Hub.withdrawDue (h : Hub) (t : Nat) : Hub :=
  if h.bit ARM_STAT_WITHDRAW_PENDING ∧ h.arm.wdAt ≤ t then h.withdrawalInstant else h

/-- COMMIT_INSTANT (R380, R381); a withdrawal due by then runs first (R58). -/
def Hub.commitInstant (h : Hub) : Hub :=
  let h := h.commitPrestart
  match h.schedOf ownCommit with
  | none => h
  | some s =>
    let t := h.schedInstant s
    let h := h.withdrawDue t
    let h := ((h.upTo t).schedEnd s scFired).offs [ARM_STAT_COMMIT_PENDING, ARM_COMMIT_SLOT_VALID]
    let b := h.arm.maq
    let r := h.refusedAt (armId b) (armSects b)
    if r = 0 then h.takeEffect t b
    else
      let h := if r = 7 then h.set ARM_STAT_ERR 0x41 else h
      h.commitOff.commitRefuse r

/-- A commit due by an instant runs before a cast activation due at that tick (R58). -/
def Hub.commitDue (h : Hub) (t : Nat) : Hub :=
  match h.schedOf ownCommit with
  | some s => if h.schedInstant s ≤ t then h.commitInstant else h
  | none => h

/-! ## The drain limit (R17, R268) -/

/-- A WITHDRAWN record for the indices from `first` to below `stop`. -/
def Hub.withdrawnGap (h : Hub) (q : Nat) (relief : Bool) (stream grid first stop : Nat) : Hub :=
  if stop ≤ first then h
  else h.gapIssue q { relief := relief, origin := h.route, stream := stream, grid := grid, reason := 3, first := first
                      last := stop - 1, issuer := h.route, time := h.time.now }

/-- Tags of the packets that are still being filled: their indices are covered with those not yet packed. -/
def Hub.openTags (h : Hub) : List Nat :=
  (h.acq.streams.flatMap (·.2)).filterMap (fun r => r.pkt.map (·.tag))
    ++ (List.range 32).flatMap fun t => (((h.unit t).rcd.toList ++ (h.unit t).tails.map (·.rcd)).filter (·.opened)).map (·.tag)

/-- Packets of this hub whose last word is in, and which a queue does not hold yet. -/
def Hub.abandonProds (h : Hub) (q : Nat) : Hub :=
  ((h.q q).prods.filter fun p => decide (p.prod ≤ prodRelief) && !(p.prod == prodAcq && h.openTags.contains p.tag)).foldl (fun h p =>
    h.withdrawnGap q (p.prod == prodRelief) p.pkt.stream p.pkt.grid p.pkt.first (p.pkt.first + p.pkt.count) |>.settleAll p.pkt.owes) h

/-- The indices of a record that no committed fragment holds. -/
def Hub.abandonRec (h : Hub) (run : StreamRun) (r : Rec) : Hub :=
  h.withdrawnGap run.queue false run.stream run.grid (if r.opened then r.next - r.count else max r.next r.skipTo) r.stop

/-- Records in progress on a stream definition. -/
def Hub.recsOf (h : Hub) (r : StreamRun) : List Rec :=
  (List.range 32).flatMap fun t =>
    (if h.unitOf r.stream = some t ∧ !h.superseded r then (h.unit t).rcd.toList else [])
      ++ ((h.tailsOf r).filter fun e => e.1 == t).filterMap fun e => (h.unit t).recOf (some e.2)

/-- The indices of a stream definition below its stop index that no committed packet holds. -/
def Hub.abandonRun (h : Hub) (r : StreamRun) : Hub :=
  let stop := r.stop.getD r.next
  if r.record then (h.recsOf r).foldl (fun h x => h.abandonRec r x) h
  else h.withdrawnGap r.queue false r.stream r.grid (match r.pkt with
    | some p => p.first
    | none => max r.next r.skipTo) stop

/-- The frames of a slot definition not yet emitted; what they gathered is settled. -/
def Hub.abandonSlot (h : Hub) (x : Slot) : Hub :=
  let stop := x.stop.getD x.next
  let fs := ((List.range (ceilDiv (stop - x.next) x.len)).map fun i => x.next + i * x.len).filter fun f => !x.emitted.contains f
  let h := fs.foldl (fun h f => h.withdrawnGap x.queue true x.id x.grid f (min stop (f + x.len))) h
  h.settleAll (x.opens.flatMap (·.settle))

/-- Committed packets that wait for their consumer are discarded. -/
def Hub.discardWaiting (h : Hub) (q : Nat) : Hub :=
  ((h.q q).pkts.filter fun p => !p.sent && !p.isGap && p.popped == 0 && !p.moving).foldl (fun h p => h.dropPkt q p 3) h

/-- The armature is released (R15, R17): nothing of it stays but queues that still hold packets (DEDUCED, log entry 50). -/
def Hub.release (h : Hub) : Hub :=
  let c : Ctx := { tc := h.time.now, old := h.arm.sects, new := [], drained := true, armId := 0, moved := [], cuts := [] }
  let h := h.each (chanList.filter fun n => (h.chan n).live || (h.chan n).leaving) fun h n =>
    let h := if (h.chan n).live then h.excOff n else h
    (h.setChan n { h.chan n with live := false, leaving := true, runs := [], linQ := [] }).chanClear n
  let h := h.each ((List.range 8).filter fun g => h.gridState g != gIdle) Hub.gridClear
  let h := ((h.setExc { h.exc with groups := [], headroom := [] }).banksCommit []).linCommit [] |>.linDrop
  let h := ((h.off CMP_STAT_STALLED).setCmp { h.cmp with list := [], stallAt := none, ctl := none, out := (0, 0) }).cmpShow
  let h := h.each (List.range 32) fun h t =>
    (((h.clearFields (trigImage t).flatten).off (TRG_FILL t)).set (TRG_STATE t) uDisarmed).setUnit t {}
  let h := (h.setAcq { h.acq with streams := [], pressed := [] }).memCommit c
  let h := (h.each (List.range 16) fun h e => (h.showTasks e 1 [] []).set (ENG_STATE e) eOff).arbRelease
  let h := h.setCarve { h.carve with engs := [], coming := [], slots := [] }
  let h := h.each (List.range 64) fun h k => h.linkCommit [] k
  let h := (h.pairCommit []).duplexCommit c []
  let h := ((h.setPwr { h.pwr with modRunning := false, modFailed := false, modUnlocked := false }).off CLK_MOD_LOCK).uncalCheck
  h.setArm { h.arm with committed := false, sects := [], sources := 0, acqMode := 0 }

/-- DRAIN_LIMIT_EXPIRED (R17, R268, R383). -/
def Hub.drainLimit (h : Hub) : Hub :=
  if h.bit ARM_STAT_DRAINING then
    let h := (h.upTo h.arm.drainEnd).calDrop
    let qs := (List.range 256).filter fun q => h.qState q != qOff
    let h := (h.each qs Hub.discardWaiting).each qs Hub.abandonProds
    let h := (h.acq.streams.flatMap (·.2)).foldl Hub.abandonRun h
    let h := (h.carve.slots.flatMap (·.2)).foldl Hub.abandonSlot h
    let h := (h.endOpens (fun _ => true) h.arm.wdAt).release
    let h := if h.arm.prestarted then h.startBanks (banksOf (armSects h.arm.maq)) else h
    let h := (h.drainEnds.off ARM_ID_COMMITTED).toIdle
    h.each (h.mm.parts.map (·.1)) Hub.refill
  else h

/-- ARM_CNT_CLR (R446). -/
def Hub.armCntClr (h : Hub) : Hub := h.offs [ARM_COMMITS, ARM_FAILS]

end Sys2Proof.Machine
end

