-- ==== Sys2Proof/Machine/Reset.lean ====
section
/-! DEFINITION. Reset (R22, R410, R418 to R423) and the watchdogs (R423). -/

namespace Sys2Proof.Machine

/-! ## Reset sources (R418) -/

def srcPowerOn : Nat := 1
def srcSupply : Nat := 2
def srcRstN : Nat := 3
def srcWdtCore : Nat := 4
def srcWdtHost : Nat := 5
def srcPartner : Nat := 6
def srcLink : Nat := 7
def srcSoftware : Nat := 8
def srcCast : Nat := 9
def srcLifeCycle : Nat := 10

/-- Fields the plinth keeps through every reset but POWER_ON (R410, R430) (DEDUCED, log entry 52). -/
def plinthKeeps (key : Nat) : Bool :=
  let a := key / 32
  a == 0x1008 || (decide (0x9008 ≤ a) && decide (a ≤ 0x9024)) || a == 0x9208 || a == 0x920C
    || (decide (0x9304 ≤ a) && decide (a ≤ 0x9314)) || key == UPD_OBS_LOCK.key

/-- What of the plinth and the pins a reset leaves. -/
def Hub.plinth (h : Hub) (src : Nat) : Pwr :=
  let pins : Pwr := { pwrGood := h.pwr.pwrGood, rstLow := h.pwr.rstLow, vexcOk := h.pwr.vexcOk, testEn := h.pwr.testEn
                      tap := h.pwr.tap, supplies := h.pwr.supplies, holdup := h.pwr.holdup }
  if src = srcPowerOn then pins
  else { pins with coarse := h.coarse, actGo := h.pwr.actGo, log := h.pwr.log, logSeq := h.pwr.logSeq, logLast := h.pwr.logLast }

/-- The hub after a reset, before the plinth records it: everything else is at its reset value (R22, R420). -/
def Hub.wiped (h : Hub) (src : Nat) : Hub :=
  { regs := if src = srcPowerOn then [] else rKeep h.regs plinthKeeps
    pwr := h.plinth src
    time := { pins := h.time.pins.map fun e => (e.1, { level := e.2.level }) }
    rd := h.rd, free := h.free }

/-- RESET: everything not in the plinth is lost, and the plinth records the source, counts and logs it (R22, R418) (DEDUCED, log entry 51). -/
def Hub.resetBy (h : Hub) (src : Nat) : Hub :=
  let mode := h.mode
  let h := (h.wiped src).set TIME_STAT_QUALITY (if src = srcPowerOn then qUnset else qFree)
  let h := (h.set PWR_PWR_GOOD (b2n h.pwr.pwrGood)).set PWR_HOLDUP_LOW (b2n (decide (h.pwr.holdup < h.get UPD_HOLDUP_MIN)))
  let h := ((h.set RST_LAST src).setBit RST_ALL (src - 1)).bump RST_COUNT RST_SAT
  h.log .reset src mode (h.get RST_COUNT)

/-- The hub is not without VPLN. -/
def Hub.powered (h : Hub) : Bool := h.pwr.phase != .dead

/-- POWER_ON (R418): the plinth is cleared (DEDUCED, log entry 5). -/
def Hub.powerOn (h : Hub) : Hub := (h.setPwr { h.pwr with pwrGood := false }).resetBy srcPowerOn

/-- SUPPLY_RESET: PWR_GOOD falls (R421). -/
def Hub.supplyReset (h : Hub) : Hub :=
  if h.powered ∧ h.pwr.pwrGood then (h.setPwr { h.pwr with pwrGood := false }).resetBy srcSupply else h

/-- RST_N: a low pulse of a width in ns (R419). Between 200 ns and 1 µs it is open whether the hub resets. -/
def Hub.rstN (h : Hub) (ns : Nat) : Hub :=
  if !h.powered ∨ ns < 200 then h
  else
    let acts := decide (1000 ≤ ns) || Config.rstnMidPulse h.free
    let h := if ns < 1000 then h.draw else h
    if acts then (h.setPwr { h.pwr with rstLow := true }).resetBy srcRstN else h

/-- In service: the watchdogs run (R423). -/
def Hub.inService (h : Hub) : Bool := h.pwr.phase == .run || h.pwr.phase == .entering

/-- Lanes train and HELLO is answered in service and in RETIRED (R406) (DEDUCED, log entry 126). -/
def Hub.whenLanes (h : Hub) (f : Hub → Hub) : Hub := if h.inService || h.pwr.phase == .retired then f h else h

/-- An event of a unit that runs only while the hub is in service: at any other time it does not come (DESIGN CHOICE, log entry 1). -/
def Hub.whenUp (h : Hub) (f : Hub → Hub) : Hub := if h.inService then f h else h

/-- WDT_CORE: the core watchdog expires (R423). -/
def Hub.wdtCore (h : Hub) : Hub := if h.inService then h.resetBy srcWdtCore else h

/-- (DESIGN CHOICE, log entry 8). -/
def Hub.wdtPeriod (h : Hub) : Nat := h.get RST_WDT_PERIOD_MS * msU

/-- ms before the host watchdog expires. -/
def Hub.wdtLeft (h : Hub) : Nat :=
  if h.bit RST_WDT_EN ∧ h.inService then (h.pwr.wdtFrom + h.wdtPeriod - h.time.now) / msU else 0

/-- WDT_WARN: half the period has passed without a kick (R423). -/
def Hub.wdtWarn (h : Hub) : Hub :=
  if h.inService ∧ h.bit RST_WDT_EN ∧ !h.pwr.wdtWarned then
    let h := h.upTo (h.pwr.wdtFrom + h.wdtPeriod / 2)
    let h := (((h.setPwr { h.pwr with wdtWarned := true }).on RST_WDT_WARN).on DEV_IRQ_RESET)
    h.log .wdtWarn 1 h.wdtLeft 0
  else h

/-- WDT_HOST: the period has passed without a kick (R423). -/
def Hub.wdtHost (h : Hub) : Hub :=
  if h.inService ∧ h.bit RST_WDT_EN then (h.upTo (h.pwr.wdtFrom + h.wdtPeriod)).resetBy srcWdtHost else h

/-- A full host watchdog period begins. -/
def Hub.wdtStart (h : Hub) : Hub := h.setPwr { h.pwr with wdtFrom := h.time.now, wdtWarned := false }

/-- WDT_KICK (R423). -/
def Hub.wdtKick (h : Hub) (v : Nat) : Hub :=
  if v = 0x4B49434B then (if h.bit RST_WDT_EN then h.wdtStart else h) else h.on RST_WERR

/-- RST_WDT_CFG: a period outside 10 to 60,000, or EN cleared outside IDLE and MAINTENANCE, is ignored with WERR (R423, R430). -/
def Hub.wdtCfg (h : Hub) (v : Nat) : Hub :=
  let en := v % 2
  let h := if v / 2 % 2 = 1 then h.off RST_WDT_WARN else h
  let p := bitsAt v 16 16
  let h := if 10 ≤ p ∧ p ≤ 60000 then h.set RST_WDT_PERIOD_MS p else h.on RST_WERR
  if en = 1 then (if h.bit RST_WDT_EN then h else (h.on RST_WDT_EN).wdtStart)
  else if h.bit RST_WDT_EN ∧ h.mode ≠ mIdle ∧ h.mode ≠ mMaint then h.on RST_WERR
  else h.off RST_WDT_EN

/-- RST_KEY: the key arms a reset for 1 s (R422). -/
def Hub.rstKey (h : Hub) (v : Nat) : Hub :=
  if v = 0x52535421 then h.setPwr { h.pwr with rstArmed := true, rstArmAt := h.time.now } else h

/-- RST_KEY_EXPIRY. -/
def Hub.rstKeyExpiry (h : Hub) : Hub :=
  if h.pwr.rstArmed then
    let h := h.upTo (h.pwr.rstArmAt + secU)
    h.setPwr { h.pwr with rstArmed := false }
  else h

/-- SW (R422). -/
def Hub.swReset (h : Hub) : Hub := if h.pwr.rstArmed then h.resetBy srcSoftware else h.on RST_WERR

/-- RESET_CODE of the settings in use (R402). -/
def Hub.resetCode (h : Hub) : Nat := imgVal h.upd.inUse 0x18 4

/-- The partner's route address, all ones where none is known (R366). -/
def Hub.partnerRoute (h : Hub) : Nat := h.get DUP_PARTNER_LO + 2 ^ 32 * h.get DUP_PARTNER_HI

/-- The duplex link: the one the armature names, else the first ACTIVE link of that role. -/
def Hub.duplexLink (h : Hub) : Option Nat :=
  if h.pstate = psNone then (h.activeOf roleDuplex).head?
  else if h.linkUp (h.get DUP_LINK) then some (h.get DUP_LINK) else none

/-- PARTNER (R422). -/
def Hub.partnerReset (h : Hub) : Hub :=
  match h.duplexLink with
  | some k =>
    if h.pwr.rstArmed ∧ h.partnerRoute ≠ noRoute ∧ h.resetCode ≠ 0 then h.sendCtrl k (.reset h.partnerRoute h.resetCode) else h.on RST_WERR
  | none => h.on RST_WERR

/-- RST_CNT_CLR (R446). -/
def Hub.rstCntClr (h : Hub) : Hub := h.off RST_COUNT

/-- RST_CTL: the clear acts first (R446), and a reset ends what else the write asks. -/
def Hub.rstCtl (h : Hub) (v : Nat) : Hub :=
  let h := if v / 4 % 2 = 1 then h.rstCntClr else h
  let h := if v / 2 % 2 = 1 then h.partnerReset else h
  if v % 2 = 1 then h.swReset else h

end Sys2Proof.Machine
end

