-- ==== Sys2Proof/Machine/Casts.lean ====
section
/-! DEFINITION. Casts, their loading, activation and probation, the settings slots and the life cycle (chapter 16). Flash
and fuses are `Nv`; a cast slot holds what its header says and whether its signature and parts hold. -/

namespace Sys2Proof.Machine

/-! ## States -/

def lcBlank : Nat := 0
def lcManufacture : Nat := 1
def lcField : Nat := 2
def lcRecovery : Nat := 3
def lcRetired : Nat := 4

def upIdle : Nat := 0
def upReceiving : Nat := 1
def upChecking : Nat := 2
def upStaged : Nat := 3
def upScheduled : Nat := 4
def upProbation : Nat := 5
def upFailed : Nat := 6

/-- Boot record states (R386). -/
def brStable : Nat := 1
def brPending : Nat := 2
def brProbation : Nat := 3
def brRecovery : Nat := 4

def Hub.upState (h : Hub) : Nat := h.get UPD_STAT_STATE

/-- LC_STAT.STATE: the fuses, with RECOVERY held in the boot record (R406) (DEDUCED, log entry 57). -/
def Hw.lcState (w : Hw) : Nat :=
  if (w.nv.lcFuse = lcField ∨ w.nv.lcFuse = lcManufacture) ∧ (w.nv.boot.state = brRecovery ∨ w.nv.recovery) then lcRecovery else w.nv.lcFuse

/-- The 28 bytes of a boot record before its CRC. -/
def BootRec.body (b : BootRec) : List (BitVec 8) :=
  leBytes 2 0x4252 ++ leBytes 1 b.state ++ leBytes 1 b.active ++ leBytes 4 b.seq ++ leBytes 1 (b2n b.validA + 2 * b2n b.validB)
    ++ leBytes 1 b.setA ++ leBytes 1 b.setB ++ leBytes 1 0 ++ leBytes 8 (b.probEnd % 2 ^ 48) ++ leBytes 8 0

/-- A boot record as it stands in flash (R386). -/
def BootRec.bytes (b : BootRec) : List (BitVec 8) := b.body ++ leBytes 4 (crc32c b.body)

/-- The record that 32 bytes of flash hold, where MAGIC and CRC are right. -/
def bootOf (m : List (BitVec 8)) : Option BootRec :=
  let f := fieldAt m
  if m.length = 32 ∧ f 0 2 = 0x4252 ∧ f 0x1C 4 = crc32c (m.take 0x1C) then
    some { state := f 2 1, active := f 3 1, seq := f 4 4, validA := f 8 1 % 2 == 1, validB := f 8 1 / 2 % 2 == 1
           setA := f 9 1, setB := f 10 1, probEnd := f 12 6 }
  else none

/-- Records a sector holds. -/
def bootRing : Nat := 128

/-- A boot record is appended to the current sector; in place of a full one the other is erased and goes on (R386). -/
def Nv.appendBoot (n : Nv) (b : BootRec) : Nv :=
  let cur := aGet n.bootSects n.bootCur []
  if cur.length < bootRing then { n with boot := b, bootSects := aInsert n.bootSects n.bootCur (cur ++ [b.bytes]) }
  else { n with boot := b, bootSects := aInsert n.bootSects (1 - n.bootCur) [b.bytes], bootCur := 1 - n.bootCur }

/-- The record that governs at start-up: a valid CRC and the highest SEQ, in serial-number arithmetic (R386, R409). -/
def Nv.governing (n : Nv) : BootRec :=
  (((aGet n.bootSects 0 [] ++ aGet n.bootSects 1 []).filterMap bootOf).foldl
    (fun g b => match g with
      | none => some b
      | some a => if (b.seq + 2 ^ 32 - a.seq) % 2 ^ 32 < 2 ^ 31 then some b else some a) none).getD n.boot

/-- A boot record is written, with the next SEQ. -/
def Hw.writeBoot (w : Hw) (f : BootRec → BootRec) : Hw :=
  w.setNv (w.nv.appendBoot { f w.nv.boot with seq := (w.nv.boot.seq + 1) % 2 ^ 32 })

/-- The STATE of the record of a hub with no update under way: RECOVERY holds until a cast is confirmed or the host leaves it (R406). -/
def Nv.restState (n : Nv) : Nat := if n.recovery then brRecovery else brStable

def BootRec.valid (b : BootRec) (slot : Nat) : Bool := if slot = 0 then b.validA else b.validB
def BootRec.setValid (b : BootRec) (slot : Nat) (v : Bool) : BootRec := if slot = 0 then { b with validA := v } else { b with validB := v }
def BootRec.bound (b : BootRec) (slot : Nat) : Option Nat :=
  let s := if slot = 0 then b.setA else b.setB
  if s = 0xFF then none else some s
def BootRec.bind (b : BootRec) (slot s : Nat) : BootRec := if slot = 0 then { b with setA := s } else { b with setB := s }
def Nv.castOf (n : Nv) (slot : Nat) : Option Cast := if slot = 0 then n.castA else n.castB
def Nv.setCast (n : Nv) (slot : Nat) (c : Option Cast) : Nv := if slot = 0 then { n with castA := c } else { n with castB := c }

/-- The slot not running. -/
def Hw.other (w : Hw) : Nat := 1 - w.hub.get UPD_STAT_RUN_SLOT

/-- RUN_VERSION, PREV_VERSION and STAGED_VERSION follow the slots (DEDUCED, log entry 56). -/
def Hw.showCasts (w : Hw) : Hw :=
  let o := w.other
  let prev := if w.nv.boot.valid o then (w.nv.castOf o).elim 0 (·.version) else 0
  w.onHub fun h =>
    let st := h.upState
    let h := (h.set UPD_RUN_VERSION (h.upd.running.elim 0 (·.version))).set UPD_PREV_VERSION prev
    let h := if w.nv.boot.valid o then h else h.off UPD_STAT_PREV_VALID
    if st = upStaged ∨ st = upScheduled then
      (h.set UPD_STAGED_VERSION prev).set UPD_STAT_FORMAT ((w.nv.castOf o).elim 0 (·.format))
    else if st = upReceiving ∨ st = upChecking ∨ st = upFailed then h.off UPD_STAGED_VERSION
    else (h.off UPD_STAGED_VERSION).off UPD_STAT_FORMAT

/-! ## The checks of a load (R393) -/

/-- What the core measures of the supplies and of HOLDUP_SNS. -/
def Hub.showHoldup (h : Hub) : Hub := h.set PWR_HOLDUP_LOW (b2n (decide (h.pwr.holdup < h.get UPD_HOLDUP_MIN)))

/-- The POWER check. -/
def Hub.powerFails (h : Hub) : Bool := decide (h.pwr.holdup < h.get UPD_HOLDUP_MIN) || !h.pwr.supplies

/-- UPD_LOCK of the settings in use. -/
def Hub.updLock (h : Hub) : Bool := imgVal h.upd.inUse 0x14 4 % 2 == 1

/-- An update is under way (R393, R407). -/
def Hub.updBusy (h : Hub) : Bool := h.upState == upReceiving || h.upState == upChecking || h.upState == upScheduled || h.upState == upProbation

/-- REFUSE: the first failing check, 0 where none fails. -/
def Hw.updRefusal (w : Hw) (busy : Bool) : Nat :=
  let h := w.hub
  if h.mode ≠ mMaint then 1
  else if w.lcState = lcRetired then 2
  else if busy ∧ h.updBusy then 3
  else if h.bit UPD_OBS_LOCK then 4
  else if h.updLock then 5
  else if h.powerFails then 6
  else match h.upd.partnerUpdAt with
    | some t => if h.time.now ≤ t + 10 * secU then 7 else 0
    | none => 0

/-! ## Headers (R388, R390, R393) -/

/-- One entry of a part table: TARGET, OFFSET, LENGTH, CRC. -/
def partAt (b : List (BitVec 8)) (at_ i : Nat) : Nat × Nat × Nat × Nat :=
  let o := at_ + 16 * i
  (fieldAt b o 1, fieldAt b (o + 4) 4, fieldAt b (o + 8) 4, fieldAt b (o + 12) 4)

/-- The part table is wrong for a body of `len` bytes (UPD_ERR_PARTS). -/
def partsBad (b : List (BitVec 8)) (at_ n len : Nat) : Bool :=
  let ps := (List.range n).map (partAt b at_)
  n < 1 || 2 < n
    || (List.range 4).any (fun i => decide (n ≤ i) && ((b.drop (at_ + 16 * i)).take 16).any (· != 0))
    || ps.any (fun p => (p.1 != 1 && p.1 != 2) || p.2.1 % 4 != 0 || decide (len < p.2.1 + p.2.2.1)
        || decide ((if p.1 = 1 then 2 ^ 21 else 2 ^ 16) < p.2.2.1))
    || (ps.filter fun p => p.1 == 1).length != 1 || decide (1 < (ps.filter fun p => p.1 == 2).length)
    || (match ps with
        | [p, q] => decide (p.2.1 < q.2.1 + q.2.2.1) && decide (q.2.1 < p.2.1 + p.2.2.1)
        | _ => false)

/-- KEY_ID and REVOKE_KEY0 are refused (R392). -/
def Nv.keyBad (n : Nv) (key : Nat) (revoke : Bool) : Bool := 1 < key || (key == 0 && (n.key0Revoked || revoke))

/-- A signature over the digest of bytes holds under a vendor key. -/
def castSigOk (key : Nat) (msg r s : List (BitVec 8)) : Bool := Config.ecdsaOk (Config.castKey key) (Config.sha256 msg) r s

/-- The first failure of a native header, 0 where it passes (DEDUCED, log entry 59). -/
def Hw.nativeErr (w : Hw) (b : List (BitVec 8)) : Nat :=
  let f := fieldAt b
  let lc := w.lcState
  let len := f 0x0C 4
  let allow := f 0x16 1
  let bind := f 0x18 6
  let key := f 0x15 1
  if f 0 4 ≠ 0x54534143 ∨ f 4 2 ≠ 2 ∨ f 8 4 ≠ 256 then 0x01
  else if f 6 2 ≠ 0x3192 then 0x02
  else if len % 4 ≠ 0 ∨ len < 4 ∨ 4194048 < len then 0x03
  else if !allow.testBit lc ∨ 16 ≤ allow then 0x04
  else if bind ≠ noRoute ∧ (lc = lcField ∨ lc = lcBlank ∨ w.hub.unassigned ∨ bind ≠ w.hub.route) then 0x05
  else if f 0x14 1 < w.nv.epochFuse ∨ 16 < f 0x14 1 then 0x06
  else if w.nv.keyBad key (f 0x17 1 % 2 == 1) then 0x07
  else if !castSigOk key (b.take 0xC0) ((b.drop 0xC0).take 32) ((b.drop 0xE0).take 32) then 0x08
  else if partsBad b 0x44 (f 0x22 2) len then 0x09
  else 0

def nativeCast (b : List (BitVec 8)) : Cast :=
  let f := fieldAt b
  { format := 1, version := f 0x10 4, secEpoch := f 0x14 1, keyId := f 0x15 1, lcAllow := f 0x16 1, revokeKey0 := f 0x17 1 % 2 == 1
    setFmt := f 0x1E 2, setMin := f 0x20 2, hasCarver := (List.range (f 0x22 2)).any fun i => (partAt b 0x44 i).1 == 2 }

/-- Block 0 of an NLH-2096 image: its descriptor stands from offset 8 (DEDUCED, log entry 59). -/
def Hw.nlhErr (w : Hw) (b : List (BitVec 8)) : Nat :=
  let f := fun o n => fieldAt b (8 + o) n
  let len := f 12 4
  let blocks := fieldAt b 4 2
  let lc := w.lcState
  if f 0 4 ≠ 0x36393032 then 0x01
  else if f 4 2 ≠ 0x3192 then 0x02
  else if blocks < 3 ∨ 1024 < blocks ∨ len = 0 ∨ blocks ≠ 2 + ceilDiv len 4084 then 0x03
  else if lc ≠ lcField ∧ lc ≠ lcRecovery then 0x04
  else if 0 < w.nv.epochFuse then 0x06
  else if w.nv.keyBad (f 16 1) false then 0x07
  else if partsBad b 32 (f 6 2) len then 0x09
  else 0

def nlhCast (b : List (BitVec 8)) : Cast :=
  let f := fun o n => fieldAt b (8 + o) n
  { format := 2, version := f 8 4, keyId := f 16 1, lcAllow := 12, setFmt := f 18 2, setMin := f 20 2
    hasCarver := (List.range (f 6 2)).any fun i => (partAt b 32 i).1 == 2 }

/-- What one arrived block breaks (R390, R391): CRC, BLOCK_NO, magic and its lengths; 0 where nothing (DEDUCED, log entry 54). -/
def blockErr (b : List (BitVec 8)) (no count len : Nat) : Nat :=
  let dlen := if no = 0 then 88 else if no + 1 = count then 64 else if no + 2 = count then len - (count - 3) * 4084 else 4084
  if fieldAt b 0xFFC 4 ≠ crc32c (b.take 0xFFC) then 0x0C
  else if fieldAt b 0 2 ≠ 0x2096 then 0x01
  else if fieldAt b 2 2 ≠ no then 0x0B
  else if fieldAt b 4 2 ≠ count ∨ fieldAt b 6 2 ≠ dlen then 0x03
  else 0

/-! ## Loading (R389, R391, R393, R394) -/

/-- A load begins. -/
def Hub.updBegin (h : Hub) : Hub :=
  let h := (((h.set UPD_STAT_STATE upReceiving).on UPD_STAT_UPDATING).set UPD_ROOM 262144).offs
    [UPD_STAT_ERR, UPD_STAT_FORMAT, UPD_LOAD_OFS, UPD_EXPECT, UPD_BLOCK_COUNT, UPD_STAGED_VERSION]
  h.setUpd { h.upd with bytes := [], cast := none, total := 0, blockErrs := 0, startedAt := h.time.now, overloads := 0 }

/-- A request is refused: WERR and the code of the check. -/
def Hub.updRefuse (h : Hub) (r : Nat) : Hub := (h.on UPD_STAT_WERR).set UPD_STAT_REFUSE r

/-- UPD_START. -/
def Hw.updStart (w : Hw) : Hw :=
  let r := w.updRefusal true
  if r = 0 then w.onHub Hub.updBegin else w.onHub fun h => h.updRefuse r

/-- The first erase clears the inactive slot's VALID bit (R393). -/
def Hw.eraseSlot (w : Hw) : Hw :=
  let o := w.other
  let w := w.setNv (w.nv.setCast o none)
  let w := if w.nv.boot.valid o then w.writeBoot fun b => b.setValid o false else w
  w.showCasts

/-- The header is accepted (DEDUCED, log entry 54). -/
def Hw.updAccept (w : Hw) (c : Cast) (total : Nat) : Hw :=
  (w.onHub fun h => (h.set UPD_STAT_FORMAT c.format).setUpd { h.upd with cast := some c, total := total }).eraseSlot

/-- The last byte is in. -/
def Hub.updLast (h : Hub) : Hub := if h.upd.bytes.length = h.upd.total ∧ 0 < h.upd.total then h.set UPD_STAT_STATE upChecking else h

/-- A block fails: it is sent again, up to the eighth failure in a row; over the copy path the load ends (R391) (DEDUCED, log entry 54). -/
def Hub.blockFails (h : Hub) (code : Nat) (copy : Bool) : Hub :=
  let n := h.upd.blockErrs + 1
  if copy ∨ 8 ≤ n then h.updFail code
  else
    let at_ := h.get UPD_EXPECT * 4096
    ((h.setUpd { h.upd with blockErrs := n, bytes := h.upd.bytes.drop (h.upd.bytes.length - at_) }).set UPD_LOAD_OFS at_).on UPD_STAT_BLOCK_RETRY

/-- IMAGE_LEN of block 0. -/
def imageLen (all : List (BitVec 8)) : Nat := fieldAt all 20 4

/-- A whole block of an NLH-2096 image has arrived. -/
def Hw.blockIn (w : Hw) (all : List (BitVec 8)) (copy : Bool) : Hw :=
  let no := w.hub.get UPD_EXPECT
  let b := all.drop (4096 * no)
  let count := fieldAt all 4 2
  let e := blockErr b no count (imageLen all)
  if e ≠ 0 then w.onHub fun h => h.blockFails e copy
  else if no = 0 ∧ w.nlhErr b ≠ 0 then w.onHub fun h => h.updFail (w.nlhErr b)
  else
    let w := w.onHub fun h => ((h.set UPD_EXPECT (no + 1)).set UPD_BLOCK_COUNT count).setUpd { h.upd with blockErrs := 0 }
    let w := if no = 0 then w.updAccept (nlhCast b) (4096 * count) else w
    w.onHub Hub.updLast

/-- UPD_ROOM: bytes go on to flash at a pace that is open, so how many of those held still wait is free (R394). -/
def Hub.roomDraw (h : Hub) (held : Nat) : Hub := (h.set UPD_ROOM (262144 - min (Config.updHeld h.free) (min held 262144))).draw

/-- A read of UPD_ROOM while bytes arrive. -/
def Hub.roomRead (h : Hub) : Nat × Hub :=
  let h := if h.upState = upReceiving then h.roomDraw (262144 - h.get UPD_ROOM) else h
  (h.get UPD_ROOM, h)

/-- Four bytes arrive: the header and each block are checked at their last byte (R389, R391). -/
def Hw.updWord (w : Hw) (v : Nat) (copy : Bool) : Hw :=
  if w.hub.upState ≠ upReceiving then w
  else
    let rev := (leBytes 4 v).reverse ++ w.hub.upd.bytes
    let n := rev.length
    let w := w.onHub fun h =>
      ((h.setUpd { h.upd with bytes := rev }).set UPD_LOAD_OFS n).roomDraw (min n (262148 - h.get UPD_ROOM))
    if n < 256 then w
    else
      let all := rev.reverse
      if fieldAt all 0 2 = 0x2096 then (if n % 4096 = 0 then w.blockIn all copy else w)
      else if n = 256 then
        let e := w.nativeErr all
        if e = 0 then (w.updAccept (nativeCast all) (256 + fieldAt all 0x0C 4)).onHub Hub.updLast else w.onHub fun h => h.updFail e
      else w.onHub Hub.updLast

/-- UPD_DATA (R394). -/
def Hw.updData (w : Hw) (v : Nat) : Hw :=
  if w.hub.upState ≠ upReceiving then w.onHub fun h => h.on UPD_STAT_WERR
  else if w.hub.get UPD_ROOM = 0 then w.onHub fun h => (h.on UPD_STAT_OVR).roomDraw 262144
  else w.updWord v false

/-- Bytes of the host region go into the loader, while it receives. -/
def Hw.updFeed (w : Hw) (a n : Nat) : Hw :=
  if w.hub.hostRange a n then (wordsOf (n / 4) (memBytes w.mem.cells a n)).foldl (fun w v => w.updWord v true) w
  else w.onHub fun h => if h.upState = upReceiving then h.updFail 0x03 else h

/-- UPD_COPY: the whole source is read as one step. -/
def Hw.updCopy (w : Hw) : Hw :=
  let r := w.updRefusal true
  let a := w.hub.get UPD_SRC_ADDR / 4 * 4
  if r ≠ 0 then w.onHub fun h => h.updRefuse r
  else
    let w := (w.onHub Hub.updBegin).updFeed a 256
    let w := if w.hub.upd.cast.isNone ∧ w.hub.upState = upReceiving then w.updFeed (a + 256) 3840 else w
    if w.hub.upState = upReceiving then w.updFeed (a + w.hub.upd.bytes.length) (w.hub.upd.total - w.hub.upd.bytes.length) else w

/-- UPD_ABORT (R396) (DEDUCED, log entry 56). -/
def Hub.updAbort (h : Hub) : Hub := if h.upState = upReceiving ∨ h.upState = upChecking then h.updFail 0x11 else h

/-- The data bytes of blocks from `i`, `n` of them. -/
def blockData (all : List (BitVec 8)) (n : Nat) : List (BitVec 8) :=
  (List.range n).flatMap fun i => let b := all.drop (4096 * i); (b.drop 8).take (fieldAt b 6 2)

/-- The body of a native image, or the image that the blocks of an NLH-2096 one carry. -/
def Cast.body (c : Cast) (all : List (BitVec 8)) : List (BitVec 8) :=
  if c.format = 1 then all.drop 256 else (blockData all (fieldAt all 4 2 - 1)).drop 88

/-- The signature of an image holds: of the header of a native one, of the whole of an NLH-2096 one (R388, R390). -/
def Cast.signed (c : Cast) (all : List (BitVec 8)) : Bool :=
  if c.format = 1 then castSigOk c.keyId (all.take 0xC0) ((all.drop 0xC0).take 32) ((all.drop 0xE0).take 32)
  else
    let last := all.drop (4096 * (fieldAt all 4 2 - 1))
    castSigOk c.keyId (blockData all (fieldAt all 4 2 - 1)) ((last.drop 8).take 32) ((last.drop 40).take 32)

/-- Every part of an image has its CRC. -/
def Cast.partsHold (c : Cast) (all : List (BitVec 8)) : Bool :=
  let n := if c.format = 1 then fieldAt all 0x22 2 else fieldAt all 14 2
  ((List.range n).map (partAt all (if c.format = 1 then 0x44 else 32))).all fun p =>
    crc32c (((c.body all).drop p.2.1).take p.2.2.1) == p.2.2.2

/-- What the checks after the last byte find (R389, R391). `flash` says what reading back shows: 0 as written, 1 otherwise,
2 a program or erase failure that the flash reported. -/
def castErr (c : Cast) (all : List (BitVec 8)) (flash : Fin 3) : Nat :=
  if flash = 2 then 0x10
  else if c.format = 1 ∧ Config.sha256 (c.body all) ≠ (all.drop 0x24).take 32 then 0x0A
  else if c.format = 2 ∧ !c.signed all then 0x08
  else if flash = 1 ∨ !c.partsHold all then 0x0D
  else 0

/-- The cast in a slot passes its signature and part CRCs at start-up (R391, R399). -/
def Nv.boots (n : Nv) (slot : Nat) : Bool :=
  (n.castOf slot).any fun c => match c.image with
    | some m => c.signed m && c.partsHold m
    | none => true

/-- CAST_CHECK_DONE: STAGED with the slot's VALID bit in a new boot record, or FAILED. -/
def Hw.castCheckDone (w : Hw) (flash : Fin 3) : Hw :=
  match w.hub.upd.cast with
  | none => w
  | some c =>
    if w.hub.upState ≠ upChecking then w
    else
      let all := w.hub.upd.bytes.reverse
      let e := castErr c all flash
      if e ≠ 0 then w.onHub fun h => h.updFail e
      else
        let o := w.other
        let w := (w.setNv (w.nv.setCast o (some { c with image := some all }))).writeBoot fun b => b.setValid o true
        (w.onHub fun h => ((h.set UPD_STAT_STATE upStaged).off UPD_STAT_UPDATING).setUpd { h.upd with bytes := [], cast := none }).showCasts

/-- The core's own conversion of HOLDUP_SNS by slot 3: the slot stands enabled on input 6 and holds the result (R115) (DEDUCED, log entry 116). -/
def Hub.coreConvert (h : Hub) (code : Nat) : Hub :=
  let h := (h.on (INJ_ENABLE 3)).set (INJ_INPUT 3) 6
  let h := if unreadRes (aFind h.hk.injRes 3) then h.on (INJ_OVR 3) else h
  let q := aGet h.hk.injSeq 3 0
  h.setHk { h.hk with injRes := aInsert h.hk.injRes 3 { code := code, input := 6, seq := q, time := h.time.now }
                      injSeq := aInsert h.hk.injSeq 3 ((q + 1) % 256) }

/-- UPD_POWER_CHECK: what the core measures through slot 3, and UPD_ERR_POWER where it fails during a load (R115, R396). -/
def Hub.powerCheck (h : Hub) (supplies : Bool) (holdup : Nat) : Hub :=
  let h := ((h.coreConvert holdup).setPwr { h.pwr with supplies := supplies, holdup := holdup }).showHoldup
  if (h.upState = upReceiving ∨ h.upState = upChecking) ∧ h.powerFails then h.updFail 0x0E else h

/-- A flash command of the core is refused as overload: the eighth in a row ends the load (R396). -/
def Hub.flashOverload (h : Hub) : Hub :=
  let n := h.upd.overloads + 1
  let h := h.setUpd { h.upd with overloads := n }
  if 8 ≤ n ∧ (h.upState = upReceiving ∨ h.upState = upChecking) then h.updFail 0x0F else h

/-! ## Activation (R397, R398) -/

def Hub.actAt (h : Hub) : Nat := mkTime (h.get UPD_ACT_SEC_LO + 2 ^ 32 * h.get UPD_ACT_SEC_HI) (h.get UPD_ACT_NS) 0

/-- The STABLE record of the running slot, or the RECOVERY one while that state holds. -/
def Hw.writeStable (w : Hw) : Hw :=
  let r := w.hub.get UPD_STAT_RUN_SLOT
  w.writeBoot fun b => { b with state := w.nv.restState, active := r, probEnd := 0 }

/-- SCHEDULE (R397). -/
def Hw.updSchedule (w : Hw) : Hw :=
  let h := w.hub
  let r := w.updRefusal false
  if h.upState ≠ upStaged then w.onHub fun h => h.on UPD_STAT_WERR
  else if r ≠ 0 then w.onHub fun h => h.updRefuse r
  else if h.actAt < h.time.now + 100 * msU then w.onHub fun h => h.on UPD_STAT_WERR
  else match h.schedTake ownCast h.actAt with
    | none => w.onHub fun h => h.on UPD_STAT_WERR
    | some (_, h') =>
      let e := tSec h.actAt + h.get UPD_PROBATION
      (((w.setHub h').writeBoot fun b => { b with state := brPending, active := h.get UPD_STAT_RUN_SLOT, probEnd := e }).onHub fun h =>
        h.set UPD_STAT_STATE upScheduled).showCasts

/-- A scheduled activation is taken back (R397). -/
def Hw.updUnschedule (w : Hw) : Hw :=
  if w.hub.upState = upScheduled then
    (w.onHub fun h => (h.schedEndOf ownCast scCancelled).set UPD_STAT_STATE upStaged).writeStable
  else w

/-- ACTIVATION_INSTANT (R398); a withdrawal and a commit due by then run first (R58). -/
def Hw.activate (w : Hw) : Hw :=
  match w.hub.schedOf ownCast with
  | none => w
  | some s =>
    let t := w.hub.schedInstant s
    let w := w.onHub fun h => (((h.withdrawDue t).commitDue t).upTo t).schedEnd s scFired
    let r := w.updRefusal false
    if r = 0 then w.onHub fun h => (h.setPwr { h.pwr with actGo := true }).resetBy srcCast
    else (w.onHub fun h => ((h.on UPD_STAT_ACT_REFUSED).set UPD_STAT_REFUSE r).set UPD_STAT_STATE upStaged).writeStable

/-! ## Probation (R400, R401) -/

/-- A slot holds a cast that the epoch and the keys still allow (R392, R401). -/
def Nv.slotOk (n : Nv) (slot : Nat) : Bool :=
  n.boot.valid slot && (match n.castOf slot with
    | some c => decide (n.epochFuse ≤ c.secEpoch) && !(c.keyId == 0 && n.key0Revoked)
    | none => false)

/-- CONFIRM (R392, R400); in RECOVERY it leads to FIELD (R406) (DEDUCED, log entry 56) (DEDUCED, log entry 57). -/
def Hw.confirm (w : Hw) : Hw :=
  if w.hub.upState ≠ upProbation then w.onHub fun h => h.on UPD_STAT_WERR
  else
    let w := if w.lcState = lcRecovery then w.setNv { w.nv with recovery := false, lcFuse := lcField } else w
    let w := w.writeStable
    let w := match w.hub.upd.running with
      | some c => w.setNv { w.nv with epochFuse := max w.nv.epochFuse c.secEpoch
                                      key0Revoked := w.nv.key0Revoked || (c.revokeKey0 && c.keyId == 1) }
      | none => w
    let w := w.onHub fun h =>
      (((h.set UPD_STAT_STATE upIdle).on UPD_STAT_CONFIRMED).off UPD_STAT_UPDATING).bump UPD_UPDATES UPD_STAT_SAT
    (w.onHub fun h => h.set UPD_STAT_PREV_VALID (b2n (w.nv.slotOk w.other))).showCasts

/-- The reset that ends a probation; its source code is open (R400, R418) (DESIGN CHOICE, log entry 53). -/
def Hub.revertReset (h : Hub) : Hub :=
  let src := if Config.revertIsCast h.free then srcCast else srcSoftware
  h.draw.resetBy src

/-- REVERT (R400). -/
def Hub.revert (h : Hub) : Hub := if h.upState = upProbation then h.revertReset else h.on UPD_STAT_WERR

/-- PROB_END (R400). -/
def Hub.probationEnd (h : Hub) : Hub :=
  if h.upState = upProbation then (h.upTo (h.upd.probEnd * secU)).revertReset else h

/-- STAGE_PREV (R401). -/
def Hw.stagePrev (w : Hw) : Hw :=
  let h := w.hub
  if h.mode = mMaint ∧ h.bit UPD_STAT_PREV_VALID ∧ !h.updBusy then (w.onHub fun h => h.set UPD_STAT_STATE upStaged).showCasts
  else w.onHub fun h => h.on UPD_STAT_WERR

/-! ## Settings (R402 to R405) -/

def setLen : Nat := 23956
def setCrcAt : Nat := 0x5D90

/-- SET_DATA (R403, R409): each access advances SET_ADDR; beyond the image reads give 0 and writes do nothing. -/
def Hub.setAt (h : Hub) : Nat := h.get UPD_SET_ADDR / 4 * 4
def Hub.setWrite (h : Hub) (v : Nat) : Hub :=
  let a := h.setAt
  let h := if setCrcAt < a then h else h.setUpd { h.upd with setImg := imgPut h.upd.setImg a (leBytes 4 v) }
  h.set UPD_SET_ADDR (a + 4)
def Hub.setRead (h : Hub) : Nat × Hub :=
  let a := h.setAt
  (if setCrcAt < a then 0 else imgVal h.upd.setImg a 4, h.set UPD_SET_ADDR (a + 4))

/-- The slot a write of the settings goes to: the bound one; with SETTINGS_UNREADABLE, the one the other cast is not bound to (DEDUCED, log entry 57). -/
def Hw.setTarget (w : Hw) : Option Nat :=
  if w.hub.bit UPD_STAT_SETTINGS_UNREADABLE then some (match w.nv.boot.bound w.other with
    | some s => 1 - s
    | none => w.boundSlot.getD 0)
  else w.boundSlot

/-- A settings write is refused (R403). -/
def Hw.setRefused (w : Hw) : Bool :=
  let h := w.hub
  h.upState == upReceiving || h.upState == upChecking || h.bit UPD_SETC_BUSY || h.powerFails || w.lcState == lcBlank
    || w.lcState == lcRetired || w.setTarget.isNone

/-- A settings write begins with an image. -/
def Hw.setBegin (w : Hw) (img : AMap Nat) : Hw :=
  w.onHub fun h => (h.on UPD_SETC_BUSY).setUpd { h.upd with setPend := w.setTarget.map fun s => (s, img) }

/-- SETTINGS_WRITE (R403). -/
def Hw.settingsWrite (w : Hw) : Hw :=
  if w.setRefused ∨ (w.hub.mode ≠ mIdle ∧ w.hub.mode ≠ mMaint) then w.onHub fun h => h.on UPD_SETC_WRITE_REFUSED
  else w.setBegin w.hub.upd.setImg

/-- The patina store's FIELD entries and HK_OFFSET in a settings image (R127, R403). -/
def mergePatina (img pat : AMap Nat) : AMap Nat :=
  let img := imgPut img 0x380 (imgBytes pat 0x20 4)
  (List.range 1920).foldl (fun m k =>
    if aGet pat (0x230 + 12 * k + 10) 0 / 2 % 2 = 1 then imgPut m (0x390 + 12 * k) (imgBytes pat (0x230 + 12 * k) 12) else m) img

/-- SAVE (R127, R405). -/
def Hw.save (w : Hw) : Hw :=
  if w.setRefused ∨ w.hub.bit UPD_STAT_SETTINGS_UNREADABLE ∨ w.hub.get HK_CAL_STATE ≠ 0 then w.onHub fun h => h.hkRefuse HK_CAL_SAVE_REFUSED
  else w.setBegin (mergePatina w.hub.upd.setImg w.hub.hk.patina)

/-- An image as a copy of a slot: WRITE_SEQ, WRITER_VERSION and a fresh CRC (R402, R403). -/
def sealImage (img : AMap Nat) (seq version : Nat) : SetCopy :=
  let m := imgPut (imgPut img 0x0C (leBytes 4 seq)) 0x10 (leBytes 4 version)
  { img := imgPut m setCrcAt (leBytes 4 (crc32c (imgBytes m 0 setCrcAt))), seq := seq, ok := true }

/-- Write one copy of a slot: the older one, or one that fails its CRC (R403). -/
def Hw.putSettings (w : Hw) (s : Nat) (img : AMap Nat) : Hw :=
  let a := aGet w.nv.settings (2 * s) {}
  let b := aGet w.nv.settings (2 * s + 1) {}
  let newerB := b.ok && (!a.ok || decide ((b.seq + 2 ^ 32 - a.seq) % 2 ^ 32 < 2 ^ 31))
  let last := if newerB then b.seq else if a.ok then a.seq else 0
  let c := sealImage img ((last + 1) % 2 ^ 32) (w.hub.get UPD_RUN_VERSION)
  (w.setNv { w.nv with settings := aInsert w.nv.settings (2 * s + if newerB then 0 else 1) c }).onHub fun h => h.set UPD_SET_SEQ c.seq

/-- Written settings apply (R404). -/
def Hub.applySettings (h : Hub) (img : AMap Nat) : Hub :=
  let h := h.setUpd { h.upd with inUse := imgCopy h.upd.inUse img 0x14 0x8C }
  if h.mode = mIdle then h.applyClock img else h.setUpd { h.upd with applyImg := some img }

/-- A settings image that a cast can read (R402, R405). -/
def imageReadable (img : AMap Nat) (lo hi : Nat) : Bool :=
  imgVal img 0 4 == 0x54544553 && decide (lo ≤ imgVal img 4 2) && decide (imgVal img 4 2 ≤ hi) && imgVal img 6 2 == 0x3192
    && imgVal img 8 4 == setLen

/-- SETTINGS_WRITE_DONE: the copy is whole, DONE is set and the fields apply; with SETTINGS_UNREADABLE a complete image, one the running cast
can read, binds the slot (R403 to R405) (DEDUCED, log entry 57). -/
def Hw.settingsDone (w : Hw) : Hw :=
  match w.hub.upd.setPend with
  | none => w
  | some (s, img) =>
    let w := w.putSettings s img
    let whole := w.hub.upd.running.any fun c => imageReadable img c.setMin c.setFmt
    let w := if whole ∧ (w.hub.bit UPD_STAT_SETTINGS_UNREADABLE ∨ w.boundSlot ≠ some s) then
        (w.writeBoot fun b => b.bind (w.hub.get UPD_STAT_RUN_SLOT) s).onHub fun h =>
          ((h.off UPD_STAT_SETTINGS_UNREADABLE).set UPD_SETC_SLOT s).on UPD_SETC_SLOT_VALID
      else w
    w.onHub fun h => ((h.off UPD_SETC_BUSY).on UPD_SETC_DONE).setUpd { h.upd with setPend := none } |>.applySettings img

/-- SETTINGS_LOAD: the staged image is the bound slot's again (R409). -/
def Hw.settingsLoad (w : Hw) : Hw := w.onHub fun h => h.setUpd { h.upd with setImg := w.setImage.getD [] }

/-! ## Life cycle (R406 to R408) -/

/-- LC_ARM (R407). -/
def Hub.lcArm (h : Hub) (v : Nat) : Hub :=
  if v = 0x4C434152 then (h.on LC_ARMED).setUpd { h.upd with lcArmAt := h.time.now } else h

/-- LC_ARM_EXPIRY. -/
def Hub.lcArmExpiry (h : Hub) : Hub := if h.bit LC_ARMED then (h.upTo (h.upd.lcArmAt + secU)).off LC_ARMED else h

/-- A target reachable under R406. -/
def Hw.lcReach (w : Hw) (t : Nat) : Bool :=
  let s := w.lcState
  (t == lcRetired && s != lcRetired) || (s == lcBlank && t == lcManufacture) || (s == lcManufacture && t == lcField)
    || (s == lcField && t == lcRecovery) || (s == lcRecovery && t == lcField && (w.nv.boot.validA || w.nv.boot.validB))

/-- The factory patina and a confirmed cast for FIELD are there (R407). -/
def Hw.factoryReady (w : Hw) : Bool :=
  (match w.nv.factory with
    | some f => patOk f
    | none => false)
  && w.nv.boot.state == brStable && (match w.nv.castOf w.nv.boot.active with
    | some c => c.lcAllow.testBit 2
    | none => false)

/-- REASON of a refused transition, 0 where it is accepted (R407). -/
def Hw.lcRefusal (w : Hw) (t : Nat) : Nat :=
  if !w.hub.bit LC_ARMED then 1
  else if !w.lcReach t then 2
  else if w.hub.updBusy then 3
  else if w.hub.powerFails then 4
  else if w.lcState = lcManufacture ∧ t = lcField ∧ !w.factoryReady then 5
  else 0

/-- What the fuses and the flash become. -/
def Hw.lcFlash (w : Hw) (t : Nat) : Hw :=
  if t = lcRetired then
    w.setNv { lcFuse := lcRetired, key0Revoked := w.nv.key0Revoked, epochFuse := w.nv.epochFuse
              castA := none, castB := none, boot := {}, settings := [], factory := none }
  else if t = lcRecovery then (w.setNv { w.nv with recovery := true }).writeBoot fun b => { b with state := brRecovery }
  else if w.lcState = lcRecovery then
    (w.writeBoot fun b => { b with state := brStable, active := if b.valid b.active then b.active else 1 - b.active }).onNv
      fun n => { n with lcFuse := lcField, recovery := false }
  else w.setNv { w.nv with lcFuse := t }

/-- The log is wiped and begins again with LC_CHANGE, and then the entry of the reset (R407, R418) (DEDUCED, log entry 51). -/
def Hub.lcLog (h : Hub) (old new mode : Nat) : Hub :=
  (((h.setPwr { h.pwr with log := [], logSeq := 0, logLast := [] }).offs [LOG_OVERWRITES, LOG_SAT]).log .lcChange old new 0).log
    .reset srcLifeCycle mode (h.get RST_COUNT)

/-- LC_GO (R407). -/
def Hw.lcGo (w : Hw) : Hw :=
  let t := w.hub.get LC_TARGET
  let old := w.lcState
  let r := w.lcRefusal t
  if r ≠ 0 then w.onHub fun h => (h.on LC_REFUSED).set LC_REASON r
  else (w.lcFlash t).onHub fun h =>
    let h := (h.resetBy srcLifeCycle).lcLog old t h.mode
    if t = lcRecovery then h.set LC_RECOVERY_CAUSE 2 else h

/-- FACTORY_WRITE (R408). -/
def Hw.factoryWrite (w : Hw) : Hw :=
  let m := w.hub.hk.patina
  if w.lcState = lcManufacture ∧ patOk m then
    let f := patSeal (imgPut m 0x18 (leBytes 1 (aGet m 0x18 0 / 2 * 2 + 1)))
    (w.setNv { w.nv with factory := some f }).onHub fun h => (h.setHk { h.hk with patina := f, checked := f }).on LC_FACTORY_DONE
  else w.onHub fun h => h.on LC_FACTORY_FACTORY_REFUSED

/-- UPD_CNT_CLR (R446). -/
def Hub.updCntClr (h : Hub) : Hub := h.offs [UPD_UPDATES, UPD_FALLBACKS, UPD_FAILS]

end Sys2Proof.Machine
end

