-- ==== Sys2Proof/Machine/Power.lean ====
section
/-! DEFINITION. Start-up, wake, DORMANT, clocks, mode commands and the pins of chapters 17 and 19 (R28, R29, R399, R404,
R405, R410 to R417, R428, R443, R457, R463). -/

namespace Sys2Proof.Machine

/-- `Hub.whenUp` for an event that reaches memory or flash (DESIGN CHOICE, log entry 1). -/
def Hw.whenUp (w : Hw) (f : Hw → Hw) : Hw := if w.hub.inService then f w else w

/-! ## Start-up (R416) -/

def Hub.phase (h : Hub) : Phase := h.pwr.phase
def Hub.setPhase (h : Hub) (p : Phase) : Hub := h.setPwr { h.pwr with phase := p }

/-- RELEASE: the reset condition is over and PWR_GOOD has been high for 10 ms. -/
def Hub.startRelease (h : Hub) : Hub :=
  if h.phase = .held then (h.setPwr { h.pwr with phase := .released, pwrGood := true, rstLow := false }).on PWR_PWR_GOOD else h

/-- The time unit starts: local time is coarse time (R40). -/
def Hub.timeStart (h : Hub) : Hub :=
  let n := coarseInstant h.pwr.coarse
  (h.setTime { h.time with now := n, running := true, slew := 0, lockRun := 0, srcLost := false, ppsDone := secondBefore n, alignDone := secondBefore n }).setPwr
    { h.pwr with coarseAt := n }

/-- The system PLL has locked: its next failure is logged again (R29). -/
def Hub.pllGood (h : Hub) : Hub := h.setPwr { h.pwr with pllFailLogged := false }

/-- SYSTEM_PLL_LOCKED (R414, R416). -/
def Hub.sysLocked (h : Hub) : Hub :=
  match h.phase with
  | .released => ((h.setPhase .gesso).on CLK_SYS_LOCK).pllGood
  | .waking => ((h.setPhase .wakingMem).on CLK_SYS_LOCK).timeStart.pllGood.setQuality qFree
  | .run | .entering => (h.on CLK_SYS_LOCK).pllGood
  | _ => h

/-! ## Cast selection (R399, R400) -/

/-- The ROM loader runs and boots no cast: a RECOVERY record, or RETIRED (R406) (DEDUCED, log entry 57). -/
def Hw.loaderOnly (w : Hw) : Bool := w.nv.boot.state == brRecovery || w.lcState == lcRetired

/-- The slot to boot, with the boot record it leaves. -/
def Hw.selectCast (w : Hw) : Nat × Hw :=
  let r := w.nv.boot
  let o := 1 - r.active
  if r.state = brPending ∧ w.hub.pwr.actGo then (o, w.writeBoot fun b => { b with state := brProbation, active := o })
  else if r.state = brProbation then
    let v := (w.nv.castOf r.active).elim 0 (·.version)
    (o, (w.writeBoot fun b => { b with state := w.nv.restState, active := o, probEnd := 0 }).onHub fun h =>
      ((h.on UPD_STAT_FELL_BACK).bump UPD_FALLBACKS UPD_STAT_SAT).log .castFallback o v 0)
  else if r.state = brPending then (r.active, w.writeBoot fun b => { b with state := w.nv.restState, probEnd := 0 })
  else (r.active, w)

/-- GESSO_PASS_COMPLETE: memory is wiped, and the loader selects a cast by the governing record (R386, R399, R421). -/
def Hw.gessoDone (w : Hw) : Hw :=
  if w.hub.phase ≠ .gesso then w
  else
    let w := ((w.setMem {}).onNv fun n => { n with boot := n.governing }).onHub fun h => h.setPhase .casting
    let s := if w.loaderOnly then (w.nv.boot.active, w) else w.selectCast
    s.2.onHub fun h => (h.setPwr { h.pwr with actGo := false }).set UPD_STAT_RUN_SLOT s.1

/-- The cast that runs, and the state of the update (R395). -/
def Hw.runCast (w : Hw) (slot : Nat) : Hw :=
  let st := if w.nv.boot.state = brProbation ∧ w.nv.boot.active = slot then upProbation else if w.nv.boot.valid (1 - slot) then upStaged else upIdle
  (w.onHub fun h =>
    ((h.set UPD_STAT_RUN_SLOT slot).set UPD_STAT_STATE st).setUpd { h.upd with running := w.nv.castOf slot, probEnd := w.nv.boot.probEnd }).showCasts

/-- No cast runs; a VALID cast stays staged. -/
def Hw.runNone (w : Hw) : Hw :=
  let st := if w.nv.boot.valid w.other then upStaged else upIdle
  (w.onHub fun h => (h.set UPD_STAT_STATE st).setUpd { h.upd with running := none }).showCasts

/-- The cast of a slot is rejected: it has just fallen back, or the epoch or a revoked key shuts it out (R392, R399) (DEDUCED, log entry 57). -/
def Hw.rejected (w : Hw) (slot : Nat) : Bool := w.hub.bit UPD_STAT_FELL_BACK || !w.nv.slotOk slot

/-- RECOVERY is entered for want of a cast, but in BLANK, where the loader runs as it is (R399, R406) (DEDUCED, log entry 57). -/
def Hw.noCast (w : Hw) : Hw :=
  if w.lcState = lcBlank then w.runNone
  else (((w.setNv { w.nv with recovery := true }).writeBoot fun b => { b with state := brRecovery }).onHub fun h => h.set LC_RECOVERY_CAUSE 1).runNone

/-- CAST_LOADED: the selected cast is read and checked; a bad one gives way to the other slot's, or to RECOVERY with cause
NO_CAST (R399). -/
def Hw.castLoaded (w : Hw) : Hw :=
  if w.hub.phase ≠ .casting then w
  else
    let s := w.hub.get UPD_STAT_RUN_SLOT
    let w := w.onHub fun h => h.setPhase .loading
    if w.loaderOnly then w.runNone
    else if w.nv.boots s then w.runCast s
    else if !w.rejected (1 - s) ∧ w.nv.boots (1 - s) then (w.onHub fun h => h.log .castBad s 0 0).runCast (1 - s)
    else w.noCast

/-! ## Patina, settings and link plan (R124, R296, R404, R405) -/

/-- The settings image a cast can read in a slot. -/
def Hw.readable (w : Hw) (c : Cast) (s : Nat) : Option (AMap Nat) :=
  ((w.setCopy s).map (·.img)).filter fun m => imageReadable m c.setMin c.setFmt

/-- The running cast cannot read its settings (DEDUCED, log entry 57). -/
def Hw.unreadable (w : Hw) (s : Option Nat) : Hw :=
  let f := match s.bind w.setCopy with
    | some c => imgVal c.img 4 2
    | none => 0
  w.onHub fun h => (h.on UPD_STAT_SETTINGS_UNREADABLE).log .settingsUnreadable f 0 0

/-- A cast in probation takes over the settings of the previous cast: both copies of the other slot are written and that
slot is bound to it (R405) (DESIGN CHOICE, log entry 58). -/
def Hw.migrate (w : Hw) (c : Cast) : Hw :=
  let prev := w.nv.boot.bound w.other
  match prev.bind (w.readable c), prev with
  | some m, some s =>
    let d := sealImage (imgPut m 4 (leBytes 2 c.setFmt)) ((imgVal m 0x0C 4 + 1) % 2 ^ 32) c.version
    let n := aInsert (aInsert w.nv.settings (2 * (1 - s)) d) (2 * (1 - s) + 1) d
    (w.setNv { w.nv with settings := n }).writeBoot fun b => b.bind (w.hub.get UPD_STAT_RUN_SLOT) (1 - s)
  | _, _ => w.unreadable prev

/-- The settings in force at start-up; the flag where the bound slot cannot be read. -/
def Hw.takeSettings (w : Hw) : Option (AMap Nat) × Hw :=
  match w.hub.upd.running with
  | none => (none, w)
  | some c =>
    let w := if w.hub.upState = upProbation then w.migrate c else w
    if w.hub.bit UPD_STAT_SETTINGS_UNREADABLE then (none, w)
    else match w.boundSlot with
      | none => (none, w)
      | some s => match w.readable c s with
        | some m => (some m, w)
        | none => (none, w.unreadable (some s))

/-- The equaliser and polarity fields of LANE[k].CFG. -/
def cfgFields (n : Nat) : List Field :=
  [LANE_TX_INV n, LANE_RX_INV n, LANE_AUTO_POL n, LANE_CTLE_MANUAL n, LANE_CTLE_PEAK n, LANE_CTLE_LF n, LANE_TX_SWING n]

/-- The pre- and post-cursor weights of a CFG image leave the main tap at least 24/64 (R297). -/
def cfgTapsOk (v : Nat) : Bool := decide (bitsAt v 20 4 + bitsAt v 24 5 ≤ 40)

/-- The link plan of the settings: values that R293 to R297 refuse are not taken (DEDUCED, log entry 63). -/
def Hub.applyPlan (h : Hub) (img : AMap Nat) : Hub :=
  let at_ := fun n => 0x180 + 8 * n
  let h := h.each ((List.range 16).map (4 * ·)) fun h n =>
    let r := imgVal img (at_ n + 4) 1
    if r < 7 then h.set (LANE_QCFG_RATE n) r else h
  let h := h.each (List.range 64) fun h n =>
    let v := imgVal img (at_ n) 4
    let h := (cfgFields n).foldl (fun h f => h.set f (bitsAt v f.lo f.width)) h
    let h := if cfgTapsOk v then (h.set (LANE_TX_PRE n) (bitsAt v 20 4)).set (LANE_TX_POST n) (bitsAt v 24 5) else h
    let m := v % 4
    let h := if m < 2 ∨ (m = 2 ∧ n < 8 ∧ h.get (LANE_QCFG_RATE (n / 4 * 4)) = 0 ∧ imgVal img (at_ n + 5) 1 = 0) then h.set (LANE_MODE n) m else h
    (h.set (LANE_LINK_WIDTH n) (imgVal img (at_ n + 5) 1)).set (LINK_ROLE n) (imgVal img (at_ n + 6) 1)
  Hub.assignLanes 64 0 h

/-- SETTINGS_LOADED (R40, R124, R296, R404). -/
def Hw.settingsLoaded (w : Hw) : Hw :=
  if w.hub.phase ≠ .loading then w
  else
    let (set, w) := w.takeSettings
    let w := w.onHub fun h =>
      let h := h.patLoad w.nv.factory set
      let h := match w.boundSlot with
        | some s => (h.set UPD_SETC_SLOT s).on UPD_SETC_SLOT_VALID
        | none => h
      match set with
      | none => h
      | some m =>
        let h := (h.setUpd { h.upd with inUse := m, setImg := m }).set UPD_SET_SEQ (imgVal m 0x0C 4)
        (h.applyClock m).applyPlan m
    w.onHub fun h => h.timeStart.setPhase .loaded

/-- Lanes start under the link plan (R296, R308). -/
def Hub.startLanes (h : Hub) : Hub :=
  let h := h.set CLK_QUAD_LOCK 0xFFFF
  h.each (h.leads.filter fun k => h.get (LANE_MODE k) == 1 || h.get (LANE_MODE k) == 2) fun h k => h.startAttempt k false

/-- The life cycle keeps the hub in MAINTENANCE (R406). -/
def Hw.staysMaint (w : Hw) : Bool := w.lcState == lcBlank || w.lcState == lcRecovery || w.lcState == lcRetired

/-- START_UP_COMPLETE: IDLE, or MAINTENANCE under R406; READY and the reset interrupt; a RETIRED hub trains its lanes and answers HELLO, and
nothing else of it runs (DESIGN CHOICE, log entry 60) (DEDUCED, log entry 126). -/
def Hw.startUpDone (w : Hw) : Hw :=
  if w.hub.phase ≠ .loaded then w
  else w.onHub fun h => (((h.setPhase (if w.lcState = lcRetired then .retired else .run)).set DEV_MODE_MODE (if w.staysMaint then mMaint else mIdle)).on PWR_READY |>.on DEV_IRQ_RESET).startLanes

/-! ## DORMANT and wake (R412 to R414) -/

/-- A queue still holds a packet (R32). -/
def Hub.holdsPackets (h : Hub) : Bool := h.mm.queues.any fun e => !e.2.pkts.isEmpty || !e.2.waiting.isEmpty

/-- The coarse count in PWR_WAKE_AT. -/
def Hub.wakeAt (h : Hub) : Nat := (h.get PWR_WAKE_AT_SEC_LO + 2 ^ 32 * h.get PWR_WAKE_AT_SEC_HI) * 32768 + h.get PWR_WAKE_AT_TICK

/-- A wake source is seen in DORMANT; during entry it ends the entry and the hub stays in IDLE (R32, R413) (DEDUCED, log entry 62). -/
def Hub.wake (h : Hub) (src where_ : Nat) : Hub :=
  let seen := (h.set PWR_WAKE_SRC src).set PWR_WAKE_WHERE where_
  match h.phase with
  | .entering => ((seen.on PWR_WAKE_ABORTED_ENTRY).setPhase .run).off DEV_MODE_IN_TRANSITION
  | .dormant => ((seen.bump PWR_WAKES PWR_SAT).log .wake src where_ 0).setPhase .waking
  | _ => h

/-- TIMER_WAKE: an instant that lay in the past before the entry does not end the entry. -/
def Hub.timerWake (h : Hub) : Hub :=
  if !h.bit PWR_WAKE_TIMER_EN then h
  else match h.phase with
    | .dormant => (h.setPwr { h.pwr with coarse := max h.pwr.coarse h.wakeAt }).wake 1 0
    | .entering => if h.coarse < h.wakeAt then (h.upTo (coarseInstant h.wakeAt)).wake 1 0 else h
    | _ => h

/-- PIN_WAKE: PIN_EDGE 1 rising, 2 falling, 3 both; 0 as 1. -/
def Hub.pinWake (h : Hub) (i : Nat) (rising : Bool) : Hub :=
  let h := h.setPin i { h.pin i with level := rising }
  let e := bitsAt (h.get PWR_WAKE_PIN_EDGE) (2 * i) 2
  if (h.get PWR_WAKE_PIN_EN).testBit i && edgeSelected (if e = 0 then 1 else e) rising then h.wake 2 i else h

/-- LINK_WAKE. -/
def Hub.linkWake (h : Hub) (k : Nat) : Hub :=
  if (h.get PWR_WAKE_LANES_LO + 2 ^ 32 * h.get PWR_WAKE_LANES_HI).testBit k then h.wake 3 k else h

/-- WAKE: PWR_CTL.WAKE, ignored outside DORMANT. -/
def Hub.hostWake (h : Hub) : Hub := if h.phase = .dormant ∧ h.bit PWR_WAKE_HOST_EN then h.wake 4 0 else h

/-- The fast clocks stop: lanes, outputs, housekeeping and the PLLs are off, and coarse time goes on. -/
def Hub.sleep (h : Hub) : Hub :=
  let c := h.coarse
  let h := h.each h.leads fun h k => (h.linkLost k).setLinkState k lsOff
  let h := h.each (List.range 64) fun h n => ((h.off (LANE_CDR_LOCK n)).off (LANE_BLOCK_LOCK n)).on (LANE_LOS n)
  let h := h.offs [CLK_SYS_LOCK, CLK_MOD_LOCK, CLK_QUAD_LOCK, CLK_CARVER_ON, CLK_CMP_ON, CLK_DRAM_ACTIVE, HK_STAT_SCAN_BUSY, HK_STAT_WAIT_STALL]
  let h := (h.setHk { h.hk with conv := .idle, scan := [] }).setPwr { h.pwr with coarse := c, phase := .dormant }
  let h := { h with lanes := [] }
  h.setTime { h.time with running := false, todArmed := false, ppsOut := false
                          pins := h.time.pins.map fun e => (e.1, { e.2 with noted := [] })
                          outs := h.time.outs.map fun e => (e.1, { e.2 with pulse := false }) }

/-- DORMANT_ENTRY_COMPLETE: buffer memory is lost; a timer instant already past wakes the hub at once (R412, R413) (DEDUCED, log entry 62). -/
def Hw.dormantDone (w : Hw) : Hw :=
  if w.hub.phase ≠ .entering then w
  else (w.setMem {}).onHub fun h =>
    let h := (h.enter mDormant).sleep
    if h.bit PWR_WAKE_TIMER_EN ∧ h.wakeAt ≤ h.pwr.coarse then h.wake 1 0 else h

/-- WAKE_MEMORY_READY: memory is powered and wiped, and the hub is in IDLE (R414) (DESIGN CHOICE, log entry 60). -/
def Hw.wakeReady (w : Hw) : Hw :=
  if w.hub.phase ≠ .wakingMem then w
  else (w.setMem {}).onHub fun h => ((h.setPhase .run).enter mIdle).startLanes.wdtStart

/-! ## Clocks (R28, R29, R107, R411) -/

/-- XTAL_FAIL. -/
def Hub.xtalFail (h : Hub) : Hub :=
  if h.powered ∧ h.bit CLK_XTAL_OK then ((h.off CLK_XTAL_OK).on CLK_XTAL_FAIL).log .xtalFail 0 0 0 else h

/-- XTAL_OK. -/
def Hub.xtalOk (h : Hub) : Hub := if h.powered then h.on CLK_XTAL_OK else h

/-- PLL_FAIL: 0 the system PLL, logged once; 1 the modulator PLL; 2 + q the lane PLL of quad q (R29, R457) (DEDUCED, log entry 61). -/
def Hub.pllFail (h : Hub) (which : Nat) : Hub :=
  if !h.powered ∨ h.phase = .held ∨ h.phase = .dormant ∨ (which = 1 ∧ !h.pwr.modRunning) then h
  else
    let h := (h.on CLK_PLL_FAIL).on DEV_IRQ_CLOCK
    if which = 0 then
      if h.pwr.pllFailLogged then h
      else ((h.setPwr { h.pwr with pllFailLogged := true }).log .pllFail 0 0 0).off CLK_SYS_LOCK
    else
      let h := h.log .pllFail which 0 0
      if which = 1 then ((h.setPwr { h.pwr with modFailed := true, modUnlocked := false }).off CLK_MOD_LOCK).modLost
      else (h.clrBit CLK_QUAD_LOCK (which - 2)).quadLost (which - 2)

/-- PLL_LOSES_LOCK, numbered alike. -/
def Hub.pllLoses (h : Hub) (which : Nat) : Hub :=
  if h.phase ≠ .run ∧ h.phase ≠ .entering then h
  else if which = 0 then h.off CLK_SYS_LOCK
  else if which = 1 then
    (if h.bit CLK_MOD_LOCK then ((h.setPwr { h.pwr with modUnlocked := true }).off CLK_MOD_LOCK).modLost else h)
  else (h.clrBit CLK_QUAD_LOCK (which - 2)).quadLost (which - 2)

/-- MODULATOR_PLL_RELOCK: samples are valid 100 µs later, where every chain restarts (R29). -/
def Hub.modRelock (h : Hub) : Hub :=
  if !h.pwr.modRunning ∨ h.modLocked then h
  else
    let t := h.time.now + 100 * usU
    let h := ((h.setPwr { h.pwr with modFailed := false, modUnlocked := false }).on CLK_MOD_LOCK).modPhased
    h.each (chanList.filter fun n => (h.chan n).live || (h.chan n).spans.any fun s => s.flag == .pll && s.hi.isNone) fun h n =>
      (h.markEnd n .pll t).restartChain n t 4

/-- LANE_PLL_RELOCK. -/
def Hub.laneRelock (h : Hub) (q : Nat) : Hub := (h.setBit CLK_QUAD_LOCK q).quadRelock q

/-- CLOCK_START (DEDUCED, log entry 66). -/
def Hub.clockStart (h : Hub) (u : ClkUnit) : Hub :=
  if !h.inService then h
  else match u with
    | .carver e => h.setBit CLK_CARVER_ON e
    | .compressor => h.on CLK_CMP_ON
    | .memory => h.on CLK_DRAM_ACTIVE

/-- A carver with no frame in it, or a compression engine with no work, is gated again (DEDUCED, log entry 66). -/
def Hub.carverGate (h : Hub) (e : Nat) : Hub := if ((aGet h.carve.engs e {}).running).isSome then h else h.clrBit CLK_CARVER_ON e
def Hub.cmpGate (h : Hub) : Hub := if h.cmp.list.isEmpty ∧ h.cmp.job.isNone then h.off CLK_CMP_ON else h

/-! ## Mode commands (R31, R32, R443) -/

/-- A GO is refused. -/
def Hub.modeRefuse (h : Hub) (r : Nat) : Hub :=
  let h := (h.on DEV_MODE_REFUSED).set DEV_MODE_REFUSE r
  if r = 1 then h.on DEV_MODE_MODE_BUSY else h

/-- MAINTENANCE is left: a load ends, a scheduled activation is taken back, test settings clear (R313, R396, R397). -/
def Hw.leaveMaint (w : Hw) : Hw :=
  (w.onHub Hub.updAbort).updUnschedule.onHub fun h => h.toIdle.clearTests

/-- CMD DORMANT from IDLE (R32, R412). -/
def Hub.goDormant (h : Hub) : Hub :=
  if h.holdsPackets then h.modeRefuse 3
  else if (List.range 8).any h.schedPending then h.modeRefuse 4
  else if h.bit UPD_SETC_BUSY then h.modeRefuse 5
  else (h.setPhase .entering).on DEV_MODE_IN_TRANSITION

/-- CMD IDLE from an acquisition mode: an immediate withdrawal (R17, R383). -/
def Hub.goIdle (h : Hub) : Hub :=
  if h.bit ARM_STAT_WITHDRAW_PENDING ∨ h.bit ARM_STAT_DRAINING then h.modeRefuse 1
  else
    let h := h.calDrop
    (h.withdrawFrom h.nextTick).on DEV_MODE_IN_TRANSITION

/-- GO acts by CMD and the mode. -/
def Hw.modeGo (w : Hw) : Hw :=
  let h := w.hub
  let c := h.get DEV_MODE_CMD
  if h.bit DEV_MODE_IN_TRANSITION then w.onHub fun h => h.modeRefuse 1
  else if c = mIdle then
    if h.mode = mMaint then (if w.staysMaint then w.onHub fun h => h.modeRefuse 6 else w.leaveMaint)
    else if h.mode = mStaging then w.onHub Hub.discard
    else if h.acquiring then w.onHub Hub.goIdle
    else w
  else if c = mDormant then w.onHub fun h => if h.mode = mIdle then h.goDormant else h.modeRefuse 2
  else if c = mMaint then w.onHub fun h => if h.mode = mIdle then h.enter mMaint else h.modeRefuse 2
  else w.onHub fun h => h.modeRefuse 7

/-- DEV_MODE written with CMD and GO. -/
def Hw.modeCmd (w : Hw) (c : Nat) : Hw := (w.onHub fun h => h.set DEV_MODE_CMD c).modeGo

/-- CANCEL in a scheduler slot: the owner reports it (R58, R378, R383, R397). -/
def Hw.schedCancel (w : Hw) (s : Nat) : Hw :=
  if !w.hub.schedPending s then w
  else if w.hub.get (SCHED_OWNER s) = ownCommit then w.onHub fun h => h.commitCancel 9
  else if w.hub.get (SCHED_OWNER s) = ownWithdraw then w.onHub Hub.cancelWithdraw
  else w.updUnschedule

/-! ## The trouble log (R425, R428) -/

/-- The bytes of an entry. -/
def LogEntry.bytes (e : LogEntry) : List (BitVec 8) :=
  leBytes 2 e.code ++ leBytes 1 e.sev ++ leBytes 1 e.tq ++ leBytes 4 e.seq ++ wireStamp e.time ++ leBytes 4 e.p0 ++ leBytes 4 e.p1
    ++ leBytes 4 e.p2

/-- LOG_SEQ_WRITE. -/
def Hub.logSeqWrite (h : Hub) (v : Nat) : Hub :=
  let h := h.set LOG_SEQ v
  match h.pwr.log.find? fun e => e.seq == v with
  | some e => h.setPwr { h.pwr with logCopy := wordsOf 8 e.bytes }
  | none => (h.setPwr { h.pwr with logCopy := [] }).on LOG_GONE

/-! ## Supplies and test access (R457, R463) -/

/-- VPLN_LOSS: the plinth and the log are lost (DEDUCED, log entry 65). -/
def Hub.vplnLoss (h : Hub) : Hub :=
  let h := h.wiped srcPowerOn
  h.setPhase .dead

/-- The instructions that take the balls. -/
def tapTakes (op : Nat) : Bool := op == 0 || op == 2 || op == 3 || op == 4 || op == 5

/-- The instruction in force changes: the analogue balls are discharged, or go back to the hub (DEDUCED, log entry 64). -/
def Hub.tapSet (h : Hub) (op : Nat) : Hub :=
  let was := tapTakes h.pwr.tap
  let h := h.setPwr { h.pwr with tap := op }
  if tapTakes op then h.each (h.chans.map (·.1)) Hub.discharge
  else if was then
    h.each ((h.chans.map (·.1)).filter fun n => (h.chan n).exMode != 0 && !(h.chan n).shed) fun h n =>
      h.setChan n { h.chan n with driving := h.mayDrive }
  else h

/-- TAP_INSTRUCTION_LOAD, with the level of TEST_EN: other opcodes act as BYPASS, and with TEST_EN low so do those that
take the balls. -/
def Hub.tapLoad (h : Hub) (op : Nat) (testEn : Bool) : Hub :=
  (h.setPwr { h.pwr with testEn := testEn }).tapSet (if op = 1 then 1 else if tapTakes op ∧ testEn then op else 0x3F)

/-- TEST_EN_FALL. -/
def Hub.testEnFall (h : Hub) : Hub :=
  let h := h.setPwr { h.pwr with testEn := false }
  if tapTakes h.pwr.tap then h.tapSet 0x3F else h

/-- PWR_CNT_CLR (R446). -/
def Hub.pwrCntClr (h : Hub) : Hub := h.off PWR_WAKES

end Sys2Proof.Machine
end

