-- ==== Sys2Proof/Machine/Access.lean ====
section
/-! DEFINITION. What a read of each register returns and does (18): the stored fields, the fields that are computed from
the hub's state, the RS values and their snapshots (R10, R436), and the ports whose reads act. -/

namespace Sys2Proof.Machine

/-! ## Views: fields computed from the state -/

/-- Where an address stands in a block: the instance and the offset in it. -/
def blockAt (base stride count addr : Nat) : Option (Nat × Nat) :=
  if base ≤ addr ∧ addr < base + stride * count then some ((addr - base) / stride, (addr - base) % stride) else none

/-- DEV_IRQ_STAT's summary bits (R445). -/
def Hub.irqSummary (h : Hub) : Nat :=
  b2n (h.get DEV_PEND_ENG != 0) * 4 + b2n (h.get DEV_PEND_DMA != 0) * 8
    + b2n (h.get DEV_PEND_LANE_LO != 0 || h.get DEV_PEND_LANE_HI != 0) * 32

/-- DEV_IRQ_STAT as a read finds it. -/
def Hub.irqStat (h : Hub) : Nat := h.storedWord 0x20 + h.irqSummary

/-- IRQ_N is driven low (R445): released in every reset and while the plinth alone is powered. -/
def Hub.irqLow (h : Hub) : Bool := h.inService && (h.irqStat &&& h.get DEV_IRQ_EN) != 0

/-- A 64-bit value as its low and high half. -/
def halves (v : Nat) : List Nat := [v % 2 ^ 32, v / 2 ^ 32 % 2 ^ 32]

/-- STATE of a stream in ACQ_SCFG: waiting for its grid, running, or stopping (DEDUCED, log entry 95). -/
def Hub.streamState (h : Hub) (r : StreamRun) : Nat :=
  if r.stop.isSome ∨ h.gridState r.grid = gStopping then 3 else if h.gridState r.grid = gRunning then 2 else 1

/-- The stream ACQ_SSEL names, where the committed armature defines it (R191). -/
def Hub.acqRun (h : Hub) : Option StreamRun :=
  if hasSect h.arm.sects 8 (h.get ACQ_SSEL) then (h.runs (h.get ACQ_SSEL)).getLast? else none

/-- The registers of the stream ACQ_SSEL names; an undefined stream reads 0. -/
def Hub.acqView (h : Hub) (off : Nat) : Nat :=
  match h.acqRun with
  | none => 0
  | some r =>
    if off = 0x24 then r.grid + r.fmt * 2 ^ 3 + h.streamState r * 2 ^ 5 + b2n r.record * 2 ^ 7 + r.chans.length % 2 ^ 8 * 2 ^ 8 + r.k % 2 ^ 16 * 2 ^ 16
    else if off = 0x28 then r.seq % 2 ^ 32
    else if off = 0x34 then r.first % 2 ^ 32
    else if off = 0x38 then r.first / 2 ^ 32 % 2 ^ 32
    else 0

/-- ACQ_SNEXT of the stream ACQ_SSEL names. -/
def Hub.acqNext (h : Hub) : Nat := h.acqRun.elim 0 (·.next)

/-- The description and the counters of the slot RLF_SEL names; an unused slot reads 0 (DEDUCED, log entry 95). -/
def Hub.rlfView (h : Hub) (off : Nat) : Nat :=
  let s := h.get RLF_SEL
  let c := h.slotCnt s
  if off = 0x04 then b2n c.sat * 2 + b2n c.ovr * 4 + b2n c.seqerr * 8
  else match h.slot s with
    | none => 0
    | some x =>
      let active := h.arm.committed && hasSect h.arm.sects 12 s
      if off = 0x14 then x.id % 2 ^ 16 + x.grid * 2 ^ 16 + x.combine * 2 ^ 20 + b2n active * 2 ^ 22 + b2n x.hasLocal * 2 ^ 23
      else if off = 0x18 then x.len % 2 ^ 16 + x.elems % 2 ^ 11 * 2 ^ 16
      else if off = 0x1C then ofSigned 8 x.scale + x.openMax % 2 ^ 5 * 2 ^ 8 + x.expect % 2 ^ 16 * 2 ^ 16
      else if off = 0x20 then x.waitUs % 2 ^ 26
      else if off = 0x24 then portMask x.ports % 2 ^ 32
      else if off = 0x28 then portMask x.ports / 2 ^ 32 % 2 ^ 32
      else if off = 0x30 then c.framesOut
      else if off = 0x34 then c.partialOut
      else if off = 0x38 then c.lateOut
      else if off = 0x3C then c.skips
      else if off = 0x60 then c.stale
      else if off = 0x64 then c.mismatch
      else if off = 0x68 then c.dup
      else if 0x40 ≤ off ∧ off < 0x60 then
        match x.pairs[(off - 0x40) / 4]? with
        | some (a, b) => a + b * 2 ^ 8 + 2 ^ 15
        | none => 0
      else 0

/-- CMP_SCFG of the stream CMP_SSEL names. -/
def Hub.cmpView (h : Hub) : Nat :=
  let s := h.get CMP_SSEL
  match (h.runs s).getLast? with
  | some r => r.cmp + r.xform * 4 + b2n (h.acq.pressed.contains s) * 16
  | none => 0

/-- The partition MEM_PSEL names. -/
def Hub.memView (h : Hub) (off : Nat) : Nat :=
  let p := h.get MEM_PSEL
  match h.part p with
  | none => 0
  | some x =>
    if off = 0x44 then x.first % 2 ^ 16
    else if off = 0x48 then x.count % 2 ^ 17
    else if off = 0x4C then h.poolFree p % 2 ^ 17
    else if off = 0x50 then x.reserve % 2 ^ 8 + x.fixed % 2 ^ 17 * 2 ^ 8
    else if off = 0x54 then (h.slotsOf p).length % 2 ^ 16
    else 0

/-- The computed fields of Q[q]. -/
def Hub.queueView (h : Hub) (q off : Nat) : Nat :=
  let x := h.q q
  if off = 0x0C then b2n (h.qState q != qOff && h.qFull q) * 4
  else if off = 0x10 then h.qPages q % 2 ^ 17
  else if off = 0x14 then (x.pkts.length + x.prods.length) % 2 ^ 24
  else if off = 0x2C then x.nextSeq % 2 ^ 32
  else if off = 0x3C then x.popLen % 2 ^ 13 + b2n x.popPoison * 2 ^ 13
  else 0

/-- The computed fields of the arbiter. -/
def Hub.arbView (h : Hub) (off : Nat) : Nat :=
  if off = 0x44 then h.arbResWord
  else if off = 0x4C then h.arbReqWord
  else if off = 0x50 then h.arbPrioWord
  else if off = 0x54 then h.arbProgress
  else if off = 0x58 then min (2 ^ 32 - 1) h.arbWait
  else 0

/-- Seconds of probation left (R397). -/
def Hub.probLeft (h : Hub) : Nat := if h.upState = upProbation then (h.upd.probEnd - tSec h.time.now) % 2 ^ 12 else 0

/-- A lane whose receive clock runs: its link is neither OFF nor in low power. -/
def Hub.laneRuns (h : Hub) (n : Nat) : Bool := h.laneState n != lsOff && h.laneState n != lsLowPower

/-- The computed fields of the clock, reset and log registers. -/
def Hub.plinthView (h : Hub) (off : Nat) : Nat :=
  if off = 0x108 then
    (((List.range 16).filter fun e => ((h.eng e).running).isSome && !(h.get CLK_CARVER_ON).testBit e).map fun e => 2 ^ (12 + e)).sum
  else if off = 0x10C then portMask ((List.range 32).filter h.laneRuns)
  else if off = 0x110 then portMask ((List.range 32).filter fun n => h.laneRuns (n + 32))
  else if off = 0x218 then h.wdtLeft % 2 ^ 32
  else if off = 0x304 then h.pwr.log.length
  else if off = 0x308 then (h.pwr.log.getLast?).elim 0 (·.seq)
  else if off = 0x30C then (h.pwr.log.head?).elim 0 (·.seq)
  else if 0x320 ≤ off ∧ off < 0x340 then h.pwr.logCopy.getD ((off - 0x320) / 4) 0
  else 0

/-- A transient span of R73 is open on a channel. -/
def Hub.xsitOpen (h : Hub) (n : Nat) : Bool := decide (h.time.now < (h.chan n).xsitEnd)

/-- The computed fields of the blocks with one instance (DESIGN CHOICE, log entry 7) (DEDUCED, log entry 15). -/
def Hub.coreView (h : Hub) (addr : Nat) : Nat :=
  if addr = 0 then Config.revision.toNat * 2 ^ 16
  else if addr = 0x14 then h.spi.posted.length % 2 ^ 6 * 2 ^ 4
  else if addr = 0x20 then h.irqSummary
  else if 0x1100 ≤ addr ∧ addr < 0x1180 then (if addr % 0x20 = 0x1C then b2n (h.outIdle ((addr - 0x1100) / 0x20)) * 8 else 0)
  else if addr = 0x1030 then ofSigned 32 (h.time.slew.tdiv (2 ^ 32))
  else if addr = 0x1038 then (if h.bit CLK_MOD_LOCK then h.modPeriod / 2 ^ 32 else 0)
  else if addr = 0x103C then (if h.bit CLK_MOD_LOCK then h.modPeriod % 2 ^ 32 else 0)
  else if 0x2080 ≤ addr ∧ addr < 0x20B0 then h.tempAge ((addr - 0x2080) / 4) * 2 ^ 16
  else if 0x4000 ≤ addr ∧ addr < 0x4800 then h.arbView (addr - 0x4000)
  else if addr = 0x5044 then h.cmpView
  else if 0x6044 ≤ addr ∧ addr < 0x6058 then h.memView (addr - 0x6000)
  else if addr = 0x8030 then h.probLeft
  else if addr = 0x8044 then b2n h.updLock * 2
  else if 0x9000 ≤ addr ∧ addr < 0xA000 then h.plinthView (addr - 0x9000)
  else if 0xB020 ≤ addr ∧ addr < 0xB040 then h.acqView (addr - 0xB000)
  else if 0xC000 ≤ addr ∧ addr < 0xC06C then h.rlfView (addr - 0xC000)
  else 0

/-- The computed fields of the register at an address. -/
def Hub.viewWord (h : Hub) (addr : Nat) : Nat :=
  match blockAt 0x10000 0x100 192 addr with
  | some (n, off) => if off = 4 then b2n (h.xsitOpen n) * 2 ^ 7 else 0
  | none => match blockAt 0x40000 0x40 256 addr with
    | some (q, off) => h.queueView q off
    | none => match blockAt 0xD040 0x20 4 addr with
      | some (i, off) => if off = 0x10 then h.cjTemp i else if off = 0x14 then b2n (h.cjInvalid i) else 0
      | none => h.coreView addr

/-- The computed fields that show the fuses and the boot record (R392, R406). -/
def Hw.nvView (w : Hw) (addr : Nat) : Nat :=
  if addr = 0x8070 then b2n w.nv.key0Revoked + w.nv.epochFuse % 2 ^ 5 * 2 ^ 8
  else if addr = 0x8800 then w.lcState
  else 0

/-- The value a read of a stored field shows: RANGE_NOW and DELAY_NS follow the range in force, not one whose modulator edge is still
to come, and DCB_EST the running estimate (R73, R75, R137, R141). -/
def Hub.shown (h : Hub) (f : Field) : Nat :=
  match blockAt 0x10000 0x100 192 f.addr with
  | some (n, off) =>
    if off = 0x04 ∧ f.lo = 4 then h.rangeInForce n
    else if off = 0x54 ∧ (h.chan n).live then h.delayNow n
    else if off = 0x48 then h.dcbShown n
    else h.get f
  | none => h.get f

/-- The bits of a register that its table stores and a read shows: WO fields read 0, an SC bit 1 until its action has
been taken (R9). -/
def Hub.shownWord (h : Hub) (addr : Nat) : Nat :=
  ((fieldsAt addr).filter fun f => f.acc != .wo).foldl (fun a f => a + h.shown f * 2 ^ f.lo) 0

/-- The register an address reads: the link registers stand in the lead lane only, and a lane shows the RATE of its
quad (R293, R432). none: no register (R433). -/
def Hub.aliasAt (h : Hub) (addr : Nat) : Option Nat :=
  match blockAt 0x20000 0x400 64 addr with
  | some (n, off) =>
    if 0x100 ≤ off ∧ !h.bit (LANE_LINK_LEAD n) then none
    else if off = 0x20 then some (0x20020 + 0x400 * (n / 4 * 4))
    else some addr
  | none => some addr

/-- A register read without effects. -/
def Hw.peek (w : Hw) (addr : Nat) : Nat :=
  match w.hub.aliasAt addr with
  | some a => w.hub.shownWord a + w.hub.viewWord a + w.nvView a
  | none => 0

/-! ## RS values (R10, R436) -/

/-- An RS value: the block and offset of its low half, its words, and the SEQERR bit of its register. -/
structure RsRow where
  base : Nat
  stride : Nat
  count : Nat
  lo : Nat
  words : Nat
  err : Nat → Option Field

/-- Every RS value of the register tables but those of TASK[k]. -/
def rsRows : List RsRow :=
  [⟨0x1000, 0x1000, 1, 0x10, 4, fun _ => some TIME_STAT_SEQERR⟩, ⟨0x1000, 0x1000, 1, 0x88, 3, fun _ => some TIME_PPS_STAT_SEQERR⟩,
   ⟨0x1040, 0x20, 2, 0x08, 2, some ∘ DOM_SEQERR⟩, ⟨0x1180, 0x20, 4, 0x08, 3, some ∘ EVT_SEQERR⟩, ⟨0x1200, 0x10, 8, 0x04, 3, fun _ => none⟩, ⟨0xB800, 0x40, 8, 0x14, 2, some ∘ GRID_SEQERR⟩,
   ⟨0x2000, 0x1000, 1, 0x20, 4, fun _ => some HK_STAT_SEQERR⟩, ⟨0x2100, 0x20, 4, 0x10, 4, some ∘ INJ_SEQERR⟩,
   ⟨0x10000, 0x100, 192, 0x80, 2, some ∘ CH_LIN_SEQERR⟩, ⟨0xB000, 0x1000, 1, 0x2C, 2, fun _ => some ACQ_SEQERR⟩,
   ⟨0x50000, 0x80, 32, 0x38, 3, some ∘ TRG_SEQERR⟩, ⟨0x50000, 0x80, 32, 0x54, 2, some ∘ TRG_TI_SEQERR⟩,
   ⟨0xC000, 0x1000, 1, 0x6C, 2, fun _ => some RLF_SEQERR⟩, ⟨0x5000, 0x1000, 1, 0x28, 2, fun _ => some CMP_STAT_SEQERR⟩,
   ⟨0x5000, 0x1000, 1, 0x30, 2, fun _ => some CMP_STAT_SEQERR⟩, ⟨0x40000, 0x40, 256, 0x18, 2, some ∘ Q_SEQERR⟩,
   ⟨0x20000, 0x400, 64, 0x2C, 2, some ∘ LANE_SEQERR⟩, ⟨0x20000, 0x400, 64, 0x34, 2, some ∘ LANE_SEQERR⟩]

/-- LAST_FRAME of each task. -/
def rsTasks : List RsRow := (List.range 8).map fun k => ⟨0x30000, 0x1000, 16, 0x10C + 0x20 * k, 2, fun e => some (TASK_SEQERR e k)⟩

/-- An RS register: the address of its low half, which word of the value it is, how many words there are, and SEQERR. -/
structure RsAt where
  low : Nat
  word : Nat
  words : Nat
  err : Option Field

/-- The RS value an address belongs to. -/
def rsAt (addr : Nat) : Option RsAt :=
  (rsRows ++ rsTasks).findSome? fun r =>
    match blockAt r.base r.stride r.count addr with
    | some (i, off) =>
      if r.lo ≤ off ∧ off < r.lo + 4 * r.words then some ⟨r.base + r.stride * i + r.lo, (off - r.lo) / 4, r.words, r.err i⟩ else none
    | none => none

/-- The words an RS value has now. -/
def Hub.rsWords (h : Hub) (low words : Nat) : List Nat :=
  let t := h.time.now
  if low = 0x1010 then [tFrac t, tNs t, tSec t % 2 ^ 32, tSec t / 2 ^ 32]
  else if low = 0x1088 then triplet h.time.ppsCap
  else if low = 0x2020 then hkWords h.hk.data
  else if low = 0xB02C then halves h.acqNext
  else if low = 0xC06C then halves ((h.slot (h.get RLF_SEL)).elim 0 (·.next))
  else match blockAt 0xB800 0x40 8 low with
    | some (g, _) => halves (h.gridIndex g)
    | none => match blockAt 0x2100 0x20 4 low with
      | some (j, _) => hkWords (aFind h.hk.injRes j)
      | none => match blockAt 0x50000 0x80 32 low with
        | some (t, 0x38) => ((h.unit t).held).elim [0, 0, 0] triplet
        | _ => match blockAt 0x1200 0x10 8 low with
          | some (s, _) => triplet (h.schedInstant s)
          | none => (List.range words).map fun i => h.shownWord (low + 4 * i)

/-- What the low-half read does beside the snapshot: the result is taken, the hold is released (R113, R119, R185). -/
def Hub.rsTaken (h : Hub) (low : Nat) : Hub :=
  if low = 0x2020 then h.hkTaken
  else match blockAt 0x2100 0x20 4 low with
    | some (j, _) => h.injTaken j
    | none => match blockAt 0x50000 0x80 32 low with
      | some (t, 0x38) => h.missRead t
      | _ => h

/-- A low-half read takes the snapshot. -/
def Hub.rsLow (h : Hub) (path low words : Nat) : Nat × Hub :=
  match blockAt 0x1180 0x20 4 low with
  | some (i, _) =>
    let r := h.capRead path i
    (r.2, r.1)
  | none => match blockAt 0x40000 0x40 256 low with
    | some (q, _) => h.popRead path q
    | none =>
      let h := match blockAt 0x20000 0x400 64 low with
        | some (n, _) => h.prbsRun n
        | none => h
      let ws := h.rsWords low words
      (ws.headD 0, ({ h with snaps := aInsert h.snaps (snapKey path low) ⟨ws.tail, List.range (words - 1)⟩ }).rsTaken low)

/-- SEQERR: the relief slot keeps its own. -/
def Hub.seqErr (h : Hub) (r : RsAt) : Hub :=
  if r.low = 0xC06C then
    let s := h.get RLF_SEL
    h.setSlotCnt s { h.slotCnt s with seqerr := true }
  else match r.err with
    | some f => h.on f
    | none => h

/-- A high-half read returns the snapshot; with no low-half read before it the previous one, and SEQERR (DESIGN CHOICE, log entry 12). -/
def Hub.rsHigh (h : Hub) (path : Nat) (r : RsAt) : Nat × Hub :=
  let i := r.word - 1
  let s := aGet h.snaps (snapKey path r.low) {}
  if s.unread.contains i then
    (s.words.getD i 0, { h with snaps := aInsert h.snaps (snapKey path r.low) { s with unread := s.unread.erase i } })
  else (s.words.getD i 0, h.seqErr r)

/-- A read of an RS register. -/
def Hub.rsRead (h : Hub) (path : Nat) (r : RsAt) : Nat × Hub :=
  if r.word = 0 then h.rsLow path r.low r.words else h.rsHigh path r

/-- CAP_W0_READ. -/
def Hub.capW0 (h : Hub) (path i : Nat) : Hub :=
  if h.served 0x1188 then ((h.capRead path i).1).setRd path (h.capRead path i).2 else h

/-! ## Reads by address -/

/-- UPD_SET_DATA, by a path (R403). -/
def Hub.setAccess (h : Hub) (path : Nat) (wr : Option Word) : Hub :=
  if !h.served 0x8064 then h
  else match wr with
    | some v => h.setWrite v.toNat
    | none => (h.setRead.2).setRd path h.setRead.1

/-- The ports whose read is an access of its own: HK_PAT_DATA, UPD_SET_DATA, UPD_ROOM, WIN_DATA and LOCK[i].TRY. -/
def Hub.portRead (h : Hub) (path addr : Nat) : Option (Nat × Hub) :=
  if addr = 0x2214 then some h.patRead
  else if addr = 0x8064 then some h.setRead
  else if addr = 0x8014 then some h.roomRead
  else match blockAt 0x30000 0x1000 16 addr with
    | some (e, 0x44) =>
      let h := h.winRead path e
      some (aGet h.rd path 0, h)
    | some _ => none
    | none => match blockAt 0x4800 8 64 addr with
      | some (i, 0) =>
        let h := h.hostTry path i
        some (aGet h.rd path 0, h)
      | _ => none

/-- A read of one register or window word by a path; where nothing answers it reads 0 (R413, R417, R433). -/
def Hw.readWord (w : Hw) (path addr : Nat) : Nat × Hw :=
  let a := addr / 4 * 4
  if !w.hub.served a then (0, w)
  else if 0x100000 ≤ a ∧ a < 0x200000 then w.windowRead (a - 0x100000)
  else match w.hub.portRead path a with
    | some (v, h) => (v, w.setHub h)
    | none => match rsAt a with
      | some r =>
        if (w.hub.aliasAt a).isNone then (0, w)
        else
          let (v, h) := w.hub.rsRead path r
          (v, w.setHub h)
      | none => (w.peek a, w)

/-- A read as the path sees it. -/
def Hw.read32 (w : Hw) (path addr : Nat) : Hw :=
  let (v, w) := w.readWord path addr
  w.onHub fun h => h.setRd path v

/-- READ64: both registers in one step, the low address first (R440). -/
def Hw.read64 (w : Hw) (path addr : Nat) : Hw :=
  let (a, w) := w.readWord path addr
  let (b, w) := w.readWord path ((addr / 4 * 4 + 4) % 2 ^ 32)
  w.onHub fun h => h.setRd path (a + 2 ^ 32 * b)

end Sys2Proof.Machine
end

