-- ==== Sys2Proof/Machine/Writes.lean ====
section
/-! DEFINITION. What a host write of each register does (18): the fields a register table stores as written, the limits
the chapters put on a write, and the self-clearing bits, each of which is the command of the same name. Counter clears
act first, then the other bits in ascending order. -/

namespace Sys2Proof.Machine

/-- Store RW fields as written. -/
def Hub.put (h : Hub) (v : Nat) (l : List Field) : Hub := l.foldl (fun h f => h.set f (bitsAt v f.lo f.width)) h

/-- One field of a register as its access type takes a write (R9). -/
def Hub.writeField (v : Nat) (h : Hub) (f : Field) : Hub :=
  let b := bitsAt v f.lo f.width
  match f.acc with
  | .rw => h.set f b
  | .w1c => h.set f (h.get f - (h.get f &&& b))
  | .w1s => h.set f (h.get f ||| b)
  | .ro | .wo | .sc | .rs => h

/-- REGISTER_WRITE: every field of a register by its access type; RO and RSV fields ignore it (R434). -/
def Hub.plainWrite (h : Hub) (addr v : Nat) : Hub := (fieldsAt addr).foldl (Hub.writeField v) h

/-- A self-clearing bit of a write. -/
def Hub.sc (h : Hub) (v i : Nat) (f : Hub → Hub) : Hub := if v.testBit i then f h else h
def Hw.sc (w : Hw) (v i : Nat) (f : Hw → Hw) : Hw := if v.testBit i then f w else w

/-- Several self-clearing bits, in the order listed (DESIGN CHOICE, log entry 32). -/
def Hub.scs (h : Hub) (v : Nat) (l : List (Nat × (Hub → Hub))) : Hub := l.foldl (fun h e => h.sc v e.1 e.2) h
/-- (DESIGN CHOICE, log entry 32). -/
def Hw.scs (w : Hw) (v : Nat) (l : List (Nat × (Hw → Hw))) : Hw := l.foldl (fun w e => w.sc v e.1 e.2) w

/-- A field with a range: a value outside it is ignored and sets a WERR bit. -/
def Hub.ranged (h : Hub) (f : Field) (v lo hi : Nat) (err : Field) : Hub := if lo ≤ v ∧ v ≤ hi then h.set f v else h.on err

/-! ## Counter clears (R446) -/

def Hub.excCntClr (h : Hub) (n : Nat) : Hub := h.offs [CH_RANGE_STEPS n, CH_FOLD_COUNT n]
def Hub.chainCntClr (h : Hub) (n : Nat) : Hub := h.off (CH_RESTART_COUNT n)
def Hub.linCntClr (h : Hub) (n : Nat) : Hub := h.off (CH_LIN_DOMAIN_COUNT n)
def Hub.hkCntClr (h : Hub) : Hub := h.offs [HK_LOST, HK_SCAN_SKIP, HK_INJ_MISS]
def Hub.acqCntClr (h : Hub) : Hub := h.offs [ACQ_DIST_RX, ACQ_DIST_DUP]
def Hub.trgCntClr (h : Hub) (t : Nat) : Hub := h.offs [TRG_RECORDS t, TRG_MISSED t, TRG_PRE_IGNORED t, TRG_LATE t]
def Hub.engCntClr (h : Hub) (e : Nat) : Hub := h.offs [ENG_FRAMES e, ENG_OVERRUNS e, ENG_FAULTS e, ENG_RESTARTS e]
def Hub.dcmpCntClr (h : Hub) : Hub := h.offs [DCMP_JOBS, DCMP_ERRORS]
def Hub.memCntClr (h : Hub) : Hub := h.offs [MEM_CE_COUNT, MEM_UE_COUNT, MEM_DISCARDS, MEM_GAPS]
def Hub.dmaCntClr (h : Hub) (c : Nat) : Hub := h.offs [DMA_DESCS c, DMA_FAULTS c]
def Hub.qCntClr (h : Hub) (q : Nat) : Hub := h.offs [Q_DISCARDS q, Q_REWINDS q]
def Hub.arbCntClr (h : Hub) : Hub := h.offs [ARB_STARVE_COUNT, ARB_REFUSE_COUNT, ARB_MASK_COUNT]
def Hub.shedClr (h : Hub) : Hub := h.off EXC_SHED_COUNT
def Hub.lostClr (h : Hub) (i : Nat) : Hub := h.off (EVT_LOST i)

/-! ## Blocks -/

/-- DEV_ (R442 to R444). -/
def Hw.devWrite (w : Hw) (addr v : Nat) : Hw :=
  let w := w.onHub fun h => h.plainWrite addr v
  if addr = 0x4 then w.sc v 7 Hw.modeGo
  else if addr = 0xC then w.onHub fun h => h.sc v 21 Hub.routeSetWrite
  else w

/-- TIME_CTL: the selections that change, then ADJ_GO and SLEW_ABORT. -/
def Hub.timeCtlWrite (h : Hub) (v : Nat) : Hub :=
  let h := h.put v [TIME_CTL_AUTO_SW, TIME_CTL_ADJ_MODE]
  let h := if bitsAt v 0 2 = h.get TIME_CTL_SRC then h else h.srcChange (Fin.ofNat 4 v)
  let h := if bitsAt v 6 1 = h.get TIME_CTL_HOLDOVER_FORCE then h else h.holdoverForce (v.testBit 6)
  h.scs v [(3, fun h => if v.testBit 4 then h.adjSlew else h.adjStep), (5, Hub.slewAbort)]

/-- TIME_OUT[i]: START, PERIOD and WIDTH are refused while the output is armed (R57) (DEDUCED, log entry 13). -/
def Hub.toutWrite (h : Hub) (i off v : Nat) : Hub :=
  let armed := h.bit (TOUT_ARMED i)
  if off = 0 then
    let h := h.put v [TOUT_MODE i, TOUT_POLARITY i, TOUT_GRID i]
    let w := bitsAt v 16 16
    let h := if w = h.get (TOUT_WIDTH i) then h else if armed then h.on (TOUT_WERR i) else h.set (TOUT_WIDTH i) w
    h.scs v [(3, fun h => h.outArm i), (4, fun h => h.outDisarm i)]
  else if off < 0x1C ∧ armed then h.on (TOUT_WERR i)
  else h.plainWrite (0x1100 + 0x20 * i + off) v

/-- TIME_. -/
def Hw.timeWrite (w : Hw) (addr v : Nat) : Hw :=
  match blockAt 0x1200 0x10 8 addr with
  | some (s, off) => if off = 0 then w.sc v 7 fun w => w.schedCancel s else w
  | none => w.onHub fun h =>
    match blockAt 0x1100 0x20 4 addr with
    | some (i, off) => h.toutWrite i off v
    | none =>
      if addr = 0x1000 then h.timeCtlWrite v
      else if addr = 0x1008 then h.incrWrite (BitVec.ofNat 32 v)
      else if addr = 0x100C then h.edgeFix.ranged TIME_SLEW_RATE (bitsAt v 0 24) 1 0x83126E TIME_STAT_ADJ_RANGE
      else
        let h := match blockAt 0x1040 0x20 2 addr with
          | some (d, 0) => h.domWrite d fun h => h.plainWrite addr v
          | _ => h.plainWrite addr v
        if addr = 0x1098 then h.sc v 31 Hub.todArm
        else match blockAt 0x1180 0x20 4 addr with
          | some (i, 4) => h.sc v 9 fun h => h.lostClr i
          | _ => h

/-- HK_INJ[j]: slot 3 is the core's (R115) (DEDUCED, log entry 24). -/
def Hub.injWrite (h : Hub) (j off v : Nat) : Hub :=
  if j = 3 then h.hkRefuse (INJ_WERR 3)
  else if off = 0 then
    let h := h.put v [INJ_SRC j, INJ_TRIG j, INJ_GRID j, INJ_ENABLE j]
    (if bitsAt v 0 6 ≤ 47 then h.set (INJ_INPUT j) (bitsAt v 0 6) else h.hkRefuse (INJ_WERR j)).sc v 14 fun h => h.injGo j
  else h.plainWrite (0x2100 + 0x20 * j + off) v

/-- HK_. -/
def Hw.hkWrite (w : Hw) (addr v : Nat) : Hw :=
  match blockAt 0x2100 0x20 4 addr with
  | some (j, off) => w.onHub fun h => h.injWrite j off v
  | none =>
    if addr = 0x2204 then w.onHub fun h =>
        let h := h.put v [HK_CAL_CAL_SETTLE]
        if 1 ≤ bitsAt v 0 16 ∧ bitsAt v 0 16 ≤ 10000 then h.set HK_CAL_AVG_MS (bitsAt v 0 16) else h.hkRefuse HK_CAL_WERR
    else if addr = 0x2214 then w.onHub fun h => h.patWrite v
    else
      let was := w.hub.get HK_CTL_SCAN_MODE
      let w := w.onHub fun h => (h.plainWrite addr v).scanModeSet was
      if addr = 0x2000 then w.onHub fun h => h.scs v [(2, Hub.scanStart), (3, Hub.scanStop)]
      else if addr = 0x2010 then w.onHub fun h => h.sc v 6 Hub.hkCntClr
      else if addr = 0x2200 then (w.onHub fun h => h.scs v [(0, Hub.calStart), (1, Hub.calAbort)]).sc v 2 Hw.save
      else if addr = 0x2218 then w.scs v [(0, Hw.patCheck), (1, Hw.patReload)]
      else w

/-- EXC_. -/
def Hub.excWrite (h : Hub) (addr v : Nat) : Hub :=
  if addr = 0x3004 then h.budgetWrite (v % 2 ^ 12)
  else if addr = 0x3010 then h.ranged EXC_WINDOW_US (bitsAt v 0 14) 100 10000 EXC_STAT_WERR
  else if addr = 0x3014 then h.ranged EXC_DWELL_US (bitsAt v 0 20) 10 1000000 EXC_STAT_WERR
  else (h.plainWrite addr v).sc (if addr = 0x3018 then v else 0) 4 Hub.shedClr

/-- ARB_ and LOCK[i]. -/
def Hub.arbWrite (h : Hub) (addr v : Nat) : Hub :=
  if addr = 0x4050 then h.prioWrite (v % 8)
  else
    let h := h.plainWrite addr v
    if addr = 0x4000 then h.sc v 16 Hub.arbCntClr
    else if addr = 0x4004 then h.sc v 2 fun h => h.off ARB_STARVE_WHO_VALID
    else match blockAt 0x4800 8 64 addr with
      | some (i, 4) => h.scs v [(16, fun h => h.hostRelease i), (17, fun h => h.hostBreak i)]
      | _ => h

/-- CMP_ and DCMP_ (DESIGN CHOICE, log entry 27). -/
def Hw.cmpWrite (w : Hw) (addr v : Nat) : Hw :=
  if addr = 0x5008 then
    w.onHub fun h => if bitsAt v 8 7 < bitsAt v 0 7 ∨ 100 < bitsAt v 0 7 ∨ 100 < bitsAt v 8 7 then h.on CMP_STAT_WERR
      else (h.mm.parts.map (·.1)).foldl Hub.press (h.plainWrite addr v)
  else
    let w := w.onHub fun h => h.plainWrite addr v
    if addr = 0x5000 then w.onHub fun h => h.sc v 25 Hub.cmpClr
    else if addr = 0x5100 then
      (w.onHub fun h => h.sc v 0 Hub.dcmpGo).sc v 1 fun w => w.dcmpAbort (Config.datum w.hub.free).toNat
    else if addr = 0x5114 then w.onHub fun h => h.sc v 9 Hub.dcmpCntClr
    else w

/-- DMA[c] (DEDUCED, log entry 25). -/
def Hw.dmaWrite (w : Hw) (c off v : Nat) : Hw :=
  let addr := 0x6400 + 0x40 * c + off
  if off = 0 then
    let w := w.onHub fun h => (h.sc v 3 fun h => h.dmaCntClr c).ranged (DMA_CLASS c) (bitsAt v 4 2) 1 2 (DMA_WERR c)
    w.scs v [(0, fun w => w.dmaGo c), (1, fun w => w.dmaResume c), (2, fun w => w.dmaAbort c)]
  else if off = 8 ∧ w.hub.get (DMA_STATE c) ≠ dsIdle then w.onHub fun h => h.on (DMA_WERR c)
  else w.onHub fun h => h.plainWrite addr v

/-- MEM_ and DMA[c]. -/
def Hw.memWrite (w : Hw) (addr v : Nat) : Hw :=
  match blockAt 0x6400 0x40 32 addr with
  | some (c, off) => w.dmaWrite c off v
  | none => w.onHub fun h => (h.plainWrite addr v).sc (if addr = 0x6000 then v else 0) 1 Hub.memCntClr

/-- ARM_ (R375 to R383). -/
def Hw.armWrite (w : Hw) (addr v : Nat) : Hw :=
  if addr = 0x7014 then w.onHub fun h => h.loadData v
  else
    let w := w.onHub fun h => h.plainWrite addr v
    if addr = 0x7000 then
      (((w.onHub fun h => h.scs v [(9, Hub.armCntClr), (0, Hub.loadStart)]).sc v 1 Hw.armCopy).onHub fun h =>
        h.scs v [(2, Hub.discard), (3, Hub.commit), (5, fun h => h.commitCancel 9), (6, Hub.withdraw), (8, Hub.cancelWithdraw)])
    else w

/-- UPD_ and LC_ (16). -/
def Hw.updWrite (w : Hw) (addr v : Nat) : Hw :=
  if addr = 0x800C then w.updData v
  else if addr = 0x802C then w.onHub fun h => h.ranged UPD_PROBATION (bitsAt v 0 12) 10 3600 UPD_STAT_WERR
  else if addr = 0x8064 then w.onHub fun h => h.setWrite v
  else if addr = 0x8808 then w.onHub fun h => h.lcArm v
  else
    let w := w.onHub fun h => h.plainWrite addr v
    if addr = 0x8000 then
      w.scs v [(8, fun w => w.onHub Hub.updCntClr), (0, Hw.updStart), (1, Hw.updCopy), (2, fun w => w.onHub Hub.updAbort),
        (3, Hw.updSchedule), (4, Hw.updUnschedule), (5, Hw.confirm), (6, fun w => w.onHub Hub.revert), (7, Hw.stagePrev)]
    else if addr = 0x8048 then w.onHub Hub.showHoldup
    else if addr = 0x8068 then w.scs v [(0, Hw.settingsWrite), (1, Hw.settingsLoad)]
    else if addr = 0x8804 then w.sc v 3 Hw.lcGo
    else if addr = 0x880C then w.sc v 0 Hw.factoryWrite
    else w

/-- PWR_, CLK_, RST_ and LOG_ (17). -/
def Hub.plinthWrite (h : Hub) (addr v : Nat) : Hub :=
  if addr = 0x9104 then h.ranged CLK_MARGIN_US (bitsAt v 0 16) 0 1000 CLK_WERR
  else if addr = 0x9200 then h.rstCtl v
  else if addr = 0x9204 then h.rstKey v
  else if addr = 0x9210 then h.wdtCfg v
  else if addr = 0x9214 then h.wdtKick v
  else if addr = 0x9314 then h.logSeqWrite v
  else
    let h := h.plainWrite addr v
    if addr = 0x9000 then h.scs v [(1, Hub.pwrCntClr), (0, Hub.hostWake)] else h

/-- DUP_ (14). -/
def Hub.dupWrite (h : Hub) (addr v : Nat) : Hub :=
  if addr = 0xA00C then h.ranged DUP_TIMEOUT_US (bitsAt v 0 11) 200 1500 DUP_WERR
  else
    let h := h.plainWrite addr v
    if addr = 0xA000 then h.scs v [(3, Hub.dupCntClr), (0, Hub.swap), (1, Hub.swapCancel), (2, Hub.clearSuspect)]
    else if addr = 0xA004 then h.sc v 6 fun h => h.off DUP_FIRST_VALID
    else h

/-- ACQ_ and GRID[g]. -/
def Hub.acqWrite (h : Hub) (addr v : Nat) : Hub :=
  let h := h.plainWrite addr v
  if addr = 0xB000 then h.scs v [(0, Hub.armAll), (1, Hub.disarmAll)]
  else if addr = 0xB004 then h.sc v 4 Hub.acqCntClr
  else h

/-- RLF_: SAT, OVR and SEQERR are kept per slot. -/
def Hub.rlfWrite (h : Hub) (addr v : Nat) : Hub :=
  let h := h.plainWrite addr v
  if addr = 0xC000 then h.sc v 0 Hub.slotCntClr
  else if addr = 0xC004 then
    let s := h.get RLF_SEL
    let c := h.slotCnt s
    h.setSlotCnt s { c with sat := c.sat && !v.testBit 1, ovr := c.ovr && !v.testBit 2, seqerr := c.seqerr && !v.testBit 3 }
  else h

/-- CH[n]: front end, excitation, chain and linearisation. A write that clears AUTORANGE leaves the range in force until RANGE is
written; one that sets it begins a dwell (DESIGN CHOICE, log entry 104). -/
def Hub.chWrite (h : Hub) (n off v : Nat) : Hub :=
  let addr := 0x10000 + 0x100 * n + off
  if off = 0x00 then
    let h := if !h.bit (CH_CFG_AUTORANGE n) ∧ v.testBit 7 ∧ (h.chan n).live then h.freshDwell n h.time.now else h
    ((h.put v [CH_CFG_AUTORANGE n, CH_CFG_OPEN_I n, CH_CFG_OPEN_DIR n, CH_CFG_MUX_SETTLE n]).rangeLimitWrite n
      (bitsAt v 8 3) (bitsAt v 12 3)).muxWrite n (bitsAt v 5 2)
  else if off = 0x04 then h.rangeWrite n (bitsAt v 0 3)
  else if off = 0x2C then (h.dcbKWrite n (bitsAt v 16 5)).dcbFreezeWrite n (v.testBit 21)
  else if off = 0x3C then h.demodPhaseWrite n (bitsAt v 0 16)
  else if off = 0x48 then h.dcbEstWrite n v
  else if off = 0x64 then h.linStage n true v
  else if off = 0x68 then h.linStage n false v
  else
    let h := h.plainWrite addr v
    if off = 0x08 then h.scs v [(16, fun h => h.apply n), (17, fun h => h.restore n)]
    else if off = 0x1C then h.sc v 9 fun h => h.excCntClr n
    else if off = 0x40 then h.scs v [(1, fun h => h.chainCntClr n), (0, fun h => h.chainRestart n)]
    else if off = 0x60 then h.sc v 12 fun h => h.linLoad n
    else if off = 0x78 then h.sc v 4 fun h => h.linCntClr n
    else h

/-- MB_CMD (R206, R207): which status answers a code the table does not give is open. -/
def Hub.mbWrite (h : Hub) (e c : Nat) : Hub :=
  if c = 1 then h.paramSwap e
  else if c = 2 then h.taskQuery e
  else if c = 3 then h.detectReset e
  else if c = 4 then h.detectSet e
  else if h.bit (ENG_MB_BUSY e) then h.on (ENG_MB_WERR e)
  else if h.eState e ≠ eReady ∧ h.eState e ≠ eRunning then h.mbReply e 6 []
  else h.draw.mbReply e ((Config.datum h.free).toNat % 2 ^ 32) []

/-- ENG[e]. -/
def Hub.engWrite (h : Hub) (e off v : Nat) : Hub :=
  if off = 0x44 then h.winWrite e v
  else if off = 0x80 then h.mbWrite e (v % 2 ^ 8)
  else
    let h := h.plainWrite (0x30000 + 0x1000 * e + off) v
    if off = 0 then h.scs v [(3, fun h => h.engCntClr e), (0, fun h => h.engRestart e), (1, fun h => h.halt e)] else h

/-- LANE[k].CFG: the plan's MODE, the test settings, the equaliser (R295, R297, R313) (DEDUCED, log entry 68). -/
def Hub.laneCfgWrite (h : Hub) (n v : Nat) : Hub :=
  if 40 < bitsAt v 20 4 + bitsAt v 24 5 then h.on (LANE_WERR n)
  else
    let h := h.put v [LANE_TX_INV n, LANE_RX_INV n, LANE_AUTO_POL n, LANE_CTLE_MANUAL n, LANE_CTLE_PEAK n,
      LANE_CTLE_LF n, LANE_TX_SWING n, LANE_TX_PRE n, LANE_TX_POST n]
    let b := bitsAt v 5 2
    let h := if b = h.get (LANE_LOOPBACK n) then h
      else if b = 3 ∨ h.mode ≠ mMaint then h.on (LANE_WERR n) else h.set (LANE_LOOPBACK n) b
    let a := bitsAt v 7 1
    let h := if a = h.get (LANE_MANUAL_ALIGN n) then h
      else if h.mode ≠ mMaint then h.on (LANE_WERR n) else h.set (LANE_MANUAL_ALIGN n) a
    let h := h.planWrite n 0 (bitsAt v 0 2)
    if h.mode = mMaint then h.testEnter n else h

/-- LANE[k].PRBS (R313) (DEDUCED, log entry 70). -/
def Hub.prbsWrite (h : Hub) (n v : Nat) : Hub :=
  if h.mode ≠ mMaint then h.on (LANE_WERR n)
  else
    let h := h.prbsRun n
    let h := (h.ranged (LANE_PRBS_PATTERN n) (bitsAt v 0 3) 0 5 (LANE_WERR n)).put v [LANE_PRBS_GEN_EN n, LANE_PRBS_CHK_EN n, LANE_PRBS_INV n]
    let h := if h.bit (LANE_PRBS_CHK_EN n) then h else h.off (LANE_PRBS_SYNC n)
    let bits := if h.bit (LANE_PRBS_GEN_EN n) then testBits (h.get (LANE_PRBS_PATTERN n)) (h.bit (LANE_PRBS_INV n)) 128 else []
    (h.modLane n fun l => { l with pattern := bits }).testEnter n

/-- LANE[k]: the link registers stand in the lead lane only. A write of SLIP leaves open what the new boundary gives. -/
def Hw.laneWrite (w : Hw) (n off v : Nat) : Hw :=
  let h := w.hub
  let addr := 0x20000 + 0x400 * n + off
  if off = 0x00 then w.setHub (h.laneCfgWrite n v)
  else if off = 0x04 then
    w.setHub (h.scs v [(1, fun h => h.laneCntClr n), (0, fun h => h.retrain n), (2, fun h => h.errInject n)])
  else if off = 0x0C then w.setHub (h.draw.slipWrite n (bitsAt v 0 7) (Config.datum h.free).toNat)
  else if off = 0x20 then w.setHub (h.planWrite n 1 (bitsAt v 0 3))
  else if off = 0x24 then w.setHub (h.planWrite n 2 (bitsAt v 0 2))
  else if off = 0x28 then w.setHub (h.prbsWrite n v)
  else if off < 0x100 then w.setHub (h.plainWrite addr v)
  else if !h.bit (LANE_LINK_LEAD n) then w
  else
    let h := h.plainWrite addr v
    if off = 0x104 then w.setHub (h.sc v 0 fun h => h.linkCntClr n) else w.setHub h

/-- Q[q]. -/
def Hub.queueWrite (h : Hub) (q off v : Nat) : Hub :=
  if off = 0x08 then h.scs v [(2, fun h => h.qCntClr q), (0, fun h => h.flush q), (1, fun h => h.replay q)]
  else if off = 0x20 then h.pushLen q (v % 2 ^ 13)
  else if off = 0x24 then h.push q v
  else if off = 0x28 then h.ackWrite q v
  else h.plainWrite (0x40000 + 0x40 * q + off) v

/-- TRG[t]. -/
def Hub.trgWrite (h : Hub) (t off v : Nat) : Hub :=
  let h := h.plainWrite (0x50000 + 0x80 * t + off) v
  if off = 4 then
    h.scs v [(3, fun h => h.trgCntClr t), (0, fun h => h.trgArm t), (1, fun h => h.trgDisarm t), (2, fun h => h.trgForce t)]
  else h

end Sys2Proof.Machine
end

