-- ==== Sys2Proof/Machine/Remote.lean ====
section
/-! DEFINITION. The paths to the registers: writes by address, the SPI slave and its posted writes (R437 to R441), remote
access (R333, R340, R345), RESET frames (R341) and the refusals of the fabric that end a host access (R287). -/

namespace Sys2Proof.Machine

/-! ## Writes by address -/

/-- What a host write of a register or window word does once the hub takes it; `go` is the remote-access port's GO. -/
def Hw.writeReg (go : Nat → Hw → Hw) (w : Hw) (addr v : Nat) : Hw :=
  if addr < 0x1000 then w.devWrite addr v
  else if addr < 0x2000 then w.timeWrite addr v
  else if addr < 0x3000 then w.hkWrite addr v
  else if addr < 0x4000 then w.onHub fun h => h.excWrite addr v
  else if addr < 0x5000 then w.onHub fun h => h.arbWrite addr v
  else if addr < 0x6000 then w.cmpWrite addr v
  else if addr < 0x7000 then w.memWrite addr v
  else if addr < 0x8000 then w.armWrite addr v
  else if addr < 0x9000 then w.updWrite addr v
  else if addr < 0xA000 then w.onHub fun h => h.plinthWrite addr v
  else if addr < 0xB000 then w.onHub fun h => h.dupWrite addr v
  else if addr < 0xC000 then w.onHub fun h => h.acqWrite addr v
  else if addr < 0xD000 then w.onHub fun h => h.rlfWrite addr v
  else if addr < 0x10000 then w.onHub fun h => h.plainWrite addr v
  else if 0x100000 ≤ addr ∧ addr < 0x200000 then w.windowWrite (addr - 0x100000) v none
  else match blockAt 0x10000 0x100 192 addr with
    | some (n, off) => w.onHub fun h => h.chWrite n off v
    | none => match blockAt 0x20000 0x400 64 addr with
      | some (n, off) =>
        let w := w.laneWrite n off v
        if off = 0x1A4 ∧ w.hub.bit (LANE_LINK_LEAD n) then w.sc v 17 (go n) else w
      | none => match blockAt 0x30000 0x1000 16 addr with
        | some (e, off) => w.onHub fun h => h.engWrite e off v
        | none => match blockAt 0x40000 0x40 256 addr with
          | some (q, off) => w.onHub fun h => h.queueWrite q off v
          | none => match blockAt 0x50000 0x80 32 addr with
            | some (t, off) => w.onHub fun h => h.trgWrite t off v
            | none => w

/-- A host write, with the rules of R351, R352, R413 and R417 around it. -/
def Hw.writeVia (go : Nat → Hw → Hw) (w : Hw) (addr v : Nat) : Hw :=
  w.hostWr (addr / 4 * 4) v fun w => w.writeReg go (addr / 4 * 4) v

/-! ## Remote access at the target (R340) -/

/-- A request this hub carries out: register accesses as a host access by the remote path, memory accesses under the
host-region rule. `refused`: the fabric has refused the memory access (R287). -/
def Hw.regReq (go : Nat → Hw → Hw) (w : Hw) (m : RaccMsg) (refused : Bool) : RaccMsg × Hw :=
  let r := { m with dest := m.src, src := w.hub.route, status := 0, data := [] }
  if m.op = 0 then
    if m.len ≠ 4 then ({ r with status := 3 }, w)
    else
      let (v, w) := w.readWord 1 m.addr
      ({ r with data := leBytes 4 v }, w)
  else if m.op = 1 then
    if m.len ≠ 4 then ({ r with status := 3 }, w) else (r, w.writeVia go m.addr (ofLe (m.data.take 4)))
  else if m.op = 2 ∨ m.op = 3 then
    if refused then ({ r with status := 4 }, w.onHub fun h => (h.bump ARB_REFUSE_COUNT ARB_SAT).on ARB_REFUSED)
    else w.memReq m
  else ({ r with status := 3 }, w)

/-- The port's request ends. -/
def Hub.portDone (h : Hub) (k status : Nat) : Hub :=
  (((h.modLink k fun l => { l with racc := none }).off (LINK_RACC_BUSY k)).on (LINK_RACC_DONE k)).set (LINK_RACC_STATUS k) status

/-- RACC_GO, to a depth of nested requests: a request to this hub itself is carried out here. -/
def Hw.raccGoN : Nat → Nat → Hw → Hw
  | 0, _, w => w
  | fuel + 1, k, w =>
    let h := w.hub
    if h.bit (LINK_RACC_BUSY k) ∨ h.unassigned then w.onHub fun h => h.on (LINK_WERR k)
    else
      let tag := h.lk.raccTag
      let wr := h.get (LINK_RACC_WRITE k)
      let m : RaccMsg :=
        { dest := h.get (LINK_RACC_DEST_LO k) + 2 ^ 32 * h.get (LINK_RACC_DEST_HI k), src := h.raccSrc, tag := tag, op := wr
          status := 0, addr := h.get (LINK_RACC_ADDR k), len := 4
          data := if wr = 1 then leBytes 4 (h.get (LINK_RACC_DATA k)) else [] }
      let w := w.onHub fun h =>
        ((h.setLk { h.lk with raccTag := (tag + 1) % 2 ^ 16 }).on (LINK_RACC_BUSY k)).modLink k fun l => { l with racc := some tag, raccAt := h.time.now }
      match h.routeTo m.dest with
      | some none =>
        let (r, w) := w.regReq (Hw.raccGoN fuel) m false
        w.raccDeliver r
      | some (some j) => w.onHub fun h => h.sendCtrl j (.raccReq m)
      | none => w.onHub fun h => h.portDone k 1

/-- RACC_GO of the port in the lead lane `k`; the registers of other lanes ignore writes (R345) (DEDUCED, log entry 30). -/
def Hw.raccGo (w : Hw) (k : Nat) : Hw := if w.hub.bit (LANE_LINK_LEAD k) then Hw.raccGoN 65 k w else w

/-- REGISTER_WRITE by address. -/
def Hw.writeAt (w : Hw) (addr v : Nat) : Hw := w.writeVia (Hw.raccGoN 65) addr v

/-- Both registers of a 64-bit write, in address order (R440, R447). -/
def Hw.write64At (w : Hw) (addr v u : Nat) : Hw :=
  let a := addr / 4 * 4
  if 0x100000 ≤ a ∧ a + 4 < 0x200000 then w.hostWr a v fun w => w.windowWrite (a - 0x100000) v (some u)
  else (w.writeAt a v).writeAt ((a + 4) % 2 ^ 32) u

/-- A response sets out for its requester; one that finds no way is discarded and counted (R333). -/
def Hw.respond (w : Hw) (k : Nat) (r : RaccMsg) : Hw :=
  if w.hub.raccMine r.dest then w.raccDeliver r
  else match w.hub.routeTo r.dest with
    | some (some j) => w.onHub fun h => h.sendCtrl j (.raccResp r)
    | _ => w.onHub fun h => h.protoErr k

/-- RACC_REQ_RX. A report to the root that is this hub's own host is held here (R358). -/
def Hw.raccReqRx (w : Hw) (k lseq : Nat) (m : RaccMsg) (refused : Bool) : Hw :=
  if w.hub.linkUp k ∧ lseq = w.hub.get (LINK_RX_LSEQ k) then
    let w := w.onHub fun h => h.rxCtrl k lseq id
    let no : RaccMsg := { m with dest := m.src, src := w.hub.route, status := 1, data := [] }
    if m.dest = noRoute ∧ w.hub.lk.routeSet then
      if m.op = 1 then (w.onHub fun h => h.reportHere m.src (ofLe (m.data.take 4))).respond k { no with status := 0 }
      else w.respond k no
    else match w.hub.routeTo m.dest with
      | some none =>
        let (r, w) := w.regReq (Hw.raccGoN 65) m refused
        w.respond k r
      | some (some j) => w.onHub fun h => h.sendCtrl j (.raccReq m)
      | none => w.respond k no
  else w.onHub fun h => h.rxCtrl k lseq id

/-- RESET_RX: with the non-zero reset code of the settings the hub resets; over its duplex link the source is the
partner (R341, R422). -/
def Hw.resetRx (w : Hw) (k lseq dest auth : Nat) : Hw :=
  if w.hub.linkUp k ∧ lseq = w.hub.get (LINK_RX_LSEQ k) then
    w.onHub fun h =>
      let h := h.rxCtrl k lseq id
      match h.routeTo dest with
      | some none =>
        if auth ≠ 0 ∧ auth = h.resetCode then h.resetBy (if h.role k = roleDuplex then srcPartner else srcLink)
        else h.bump (LINK_RST_REFUSED k) (LINK_SAT k)
      | some (some j) => h.sendCtrl j (.reset dest auth)
      | none => h.protoErr k
  else w.onHub fun h => h.rxCtrl k lseq id

/-- REG_WRITE_EVENT: the standby makes the write its active accepted, at the active's edge (R351). -/
def Hw.regWriteEvent (w : Hw) (k lseq edge addr v : Nat) : Hw :=
  let w' := w.onHub fun h => h.dupRx k lseq id
  if w.hub.linkUp k ∧ lseq = w.hub.get (LINK_RX_LSEQ k) ∧ w.hub.dupFrom k ∧ w.hub.standby ∧ mirroredAddr (addr / 4 * 4) then
    ((w'.onHub fun h => h.atEdge edge).writeReg (fun _ w => w) (addr / 4 * 4) v).onHub fun h => h.backTo w'.hub.time.now
  else w'

/-! ## SPI (R437 to R440) -/

/-- The SPI slave takes transactions: not before the system PLL has locked, nor without the plinth (R457). -/
def Hub.spiUp (h : Hub) : Bool :=
  match h.pwr.phase with
  | .held | .released | .dead => false
  | _ => true

/-- Posted writes the queue holds (R439). -/
def spiDepth : Nat := 32

/-- A write is posted, or dropped while the queue is full. -/
def Hub.post (h : Hub) (p : Posted) : Hub :=
  if !h.spiUp then h
  else if spiDepth ≤ h.spi.posted.length then h.on DEV_SPI_WDROP
  else h.setSpi { h.spi with posted := h.spi.posted ++ [p] }

/-- WRITE32 and WRITE64. -/
def Hub.write32 (h : Hub) (addr v : Nat) : Hub := h.post { addr := addr, value := v }
def Hub.write64 (h : Hub) (addr v u : Nat) : Hub := h.post { addr := addr, value := v, second := some u }

/-- POSTED_WRITE_APPLY: the head of the queue takes effect (DEDUCED, log entry 31). -/
def Hw.applyHead (w : Hw) : Hw :=
  match w.hub.spi.posted with
  | [] => w
  | p :: t =>
    let w := w.onHub fun h => h.setSpi { h.spi with posted := t }
    match p.second with
    | none => w.writeAt p.addr p.value
    | some u => w.write64At p.addr p.value u

/-- Earlier writes take effect before a read is served. -/
def Hw.drain : Nat → Hw → Hw
  | 0, w => w
  | n + 1, w => if w.hub.spi.posted.isEmpty then w else Hw.drain n w.applyHead

def Hw.spiRead32 (w : Hw) (addr : Nat) : Hw := (Hw.drain spiDepth w).read32 0 addr
def Hw.spiRead64 (w : Hw) (addr : Nat) : Hw := (Hw.drain spiDepth w).read64 0 addr

/-- SPI_READ_TIMEOUT: zero data, and the access has no effect. -/
def Hub.spiTimeout (h : Hub) : Hub := if h.spiUp then (h.on DEV_SPI_RD_TIMEOUT).setRd 0 0 else h

/-- SPI_CS_RISE (R437, R438, R439) (DEDUCED, log entry 28). -/
def Hw.csRise (w : Hw) (c : SpiCut) : Hw :=
  if !w.hub.spiUp then w
  else match c with
    | .command c => if c = 0x02 ∨ c = 0x03 ∨ c = 0x12 ∨ c = 0x13 then w else w.onHub fun h => h.on DEV_SPI_CMD_ERR
    | .read a two => (if two then w.spiRead64 a.toNat else w.spiRead32 a.toNat).onHub fun h => h.on DEV_SPI_SHORT
    | .write _ none => w.onHub fun h => h.on DEV_SPI_SHORT
    | .write a (some v) => w.onHub fun h => (h.write32 a.toNat v.toNat).on DEV_SPI_SHORT

/-- RS_LOW_READ and RS_HIGH_READ: the read of one half of an RS value by a path. -/
def Hw.rsHalf (w : Hw) (path addr : Nat) (low : Bool) : Hw :=
  match rsAt (addr / 4 * 4) with
  | some r => if (r.word == 0) = low then w.read32 path addr else w
  | none => w

/-! ## Refusals of the fabric (R205, R287) -/

/-- The host's access that waited is gone: the posted write at the head where it goes there, else a read returns 0. -/
def Hub.hostRefused (h : Hub) (mine : Nat → Bool) : Hub :=
  match h.spi.posted with
  | p :: t => if mine (p.addr / 4 * 4) then h.setSpi { h.spi with posted := t } else h.setRd 0 0
  | [] => h.setRd 0 0

/-- REFUSED_OVERLOAD: `off` and `ext` tell a DMA channel's words moved so far and what an open source held (DEDUCED, log entry 29). -/
def Hw.refusedOverload (w : Hw) (r who off : Nat) (ext : List Word) : Hw :=
  match w.hub.overdue r who with
  | none => w
  | some q =>
    let w := w.onHub fun h => h.arbRefuse r q
    match dmaOf who with
    | some c => w.dmaFault c .refused off ext
    | none =>
      if who = reqHost then
        if isEngp r then
          w.onHub fun h => (h.hostRefused fun a => a == 0x30044 + 0x1000 * (r - 4)).on (ENG_WIN_REFUSED (r - 4))
        else w.onHub fun h => h.hostRefused fun a => decide (0x100000 ≤ a) && decide (a < 0x200000)
      else if who = reqDcmp then w.onHub Hub.dcmpRefused
      else if who = reqCore ∧ r = resFlash then w.onHub Hub.flashOverload
      else w

end Sys2Proof.Machine
end

