-- ==== Sys2Proof/Machine/Events.lean ====
section
/-! DEFINITION. Events that several units act on: a grid output is ready (R150), its engineering words follow (R158), the
glitch filter of a pin ends (R56), the instant of a grid index passes (R60). -/

namespace Sys2Proof.Machine

/-- ACQ_SNEXT changes with an operation: OVR where a snapshot of it is still being read (R10). -/
def Hub.watchNext (h : Hub) (f : Hub → Hub) : Hub :=
  let h' := f h
  if h'.acqNext = h.acqNext then h' else h'.rsChange 0xB02C ACQ_OVR

/-! ## Outputs (R150, R158) -/

/-- What an output contributes to its bank's digest window (R355): 16 bytes a word, in the order of t_n, channel, path. -/
def digestParts (n t : Nat) (o : Output) : List (Nat × Nat × Nat × Nat × List (BitVec 8)) :=
  (List.range o.words.length).map fun p =>
    (t / msU, 0, n / 16, t * 512 + n * 2 + p,
      leBytes 8 o.index ++ leBytes 1 n ++ leBytes 1 p ++ [0, 0] ++ leBytes 4 (o.words.getD p 0))

/-- OUTPUT_READY: the output goes to linearisation, the streams, the trigger units and the carvers. -/
def Hub.outputReady (h : Hub) (n : Nat) : Hub :=
  h.watchNext fun h =>
    match h.takeOutput n with
    | none => h
    | some (o, r, h) =>
      let t := gridInstant r.epoch r.p r.q o.index
      let h := h.setChan n { h.chan n with linQ := (h.chan n).linQ ++ [(o, r)] }
      let h := if h.get DUP_PSTATE = 0 then h else h.setPair { h.pair with parts := digestParts n t o ++ h.pair.parts }
      let h := (h.route1 n o.index r false o.words).carverCells n o.index r false o.words
      (h.trigSample n t (o.words.headD 0)).chanClear n

/-- ENGINEERING_WORD_READY: the engineering words of the oldest waiting output. -/
def Hub.engWordReady (h : Hub) (n : Nat) : Hub :=
  h.watchNext fun h =>
    match h.takeLin n with
    | none => h
    | some (o, r, ws, h) =>
      let ws := ws.flatMap halves
      ((h.route1 n o.index r true ws).carverCells n o.index r true ws).chanClear n

/-! ## Pins (R56) -/

/-- GLITCH_FILTER_END: the captured edge fires pin triggers and injected conversions. -/
def Hub.filterEnd (h : Hub) (i : Nat) : Hub :=
  match h.filterPass i with
  | (h, some t) => (h.trigPin i t).injPin i
  | (h, none) => h

/-! ## Grid instants (R57, R60, R62) -/

/-- The indices of a grid still to come stop at its stop index (DEDUCED, log entry 14). -/
def Hub.gridDue (h : Hub) (g : Nat) : Bool :=
  h.gridState g == gRunning || (h.gridState g == gStopping && decide (h.gridNext g < h.gridStop g))

/-- GRID_INSTANT: the next index of a RUNNING or STOPPING grid. A pulse with an OFFSET has an instant of its own. -/
def Hub.gridInstantOf (h : Hub) (g : Nat) : Hub :=
  if !h.gridDue g then h
  else
    let n := h.gridNext g
    let t := h.gridTime g n
    let h := ((h.upTo t).rsChange (0xB814 + 0x40 * g) (GRID_OVR g)).setGridNext g (n + 1)
    let h := h.each ((List.range 4).filter fun i => h.get (TOUT_MODE i) == 3 && h.get (TOUT_GRID i) == g && h.get (TOUT_START_NS i) == 0)
      fun h i => h.outPulse i n
    (h.hkGrid g n).trigGrid g n t

/-! ## Time on an empty queue -/

/-- What passes where no command waits: one 4 ns tick while the time unit runs, else one cycle of
the plinth, whose count wraps with local time (R36, R40); without VPLN nothing (DESIGN CHOICE, log entry 2). -/
def Hub.idle (h : Hub) : Hub :=
  if h.time.running then h.tick
  else if h.powered then h.setPwr { h.pwr with coarse := (h.pwr.coarse + 1) % 2 ^ 63 }
  else h

end Sys2Proof.Machine
end

