-- ==== Sys2Proof/Machine/State.lean ====
section
/-! DEFINITION. The state of the block: the hub with its buffer memory and its flash and fuses, and the commands that wait. -/

namespace Sys2Proof.Machine

/-- The reasons a command may stop the machine. Every command of this hub has an effect, so no meaning raises one. -/
inductive Fault where
  /-- Raised by no command. Safe: a machine that stops proves less. -/
  | stopped
  deriving DecidableEq, Repr

/-- The reasons a command may be refused. -/
inductive Refusal where
  /-- A command that has no meaning yet; raised by its arm of `exec` alone. Safe: the machine stops. -/
  | notModelled (mnemonic : String)
  deriving DecidableEq, Repr

/-- The block. `hw` is the hub, its memory and its non-volatile devices; `pending` the commands that wait, oldest first. -/
structure State where
  hw : Hw
  pending : List Instr
  deriving DecidableEq, Repr

/-- An effect on the hub, its memory and its flash. -/
def State.onHw (s : State) (f : Hw → Hw) : State := { s with hw := f s.hw }

/-- An effect on the hub alone. -/
def State.onHub (s : State) (f : Hub → Hub) : State := s.onHw fun w => w.onHub f

/-- The commands that wait. -/
def State.queue (s : State) (l : List Instr) : State := { s with pending := l }

/-- A settings image of format 1 whose every field but its head and CRC is zero (R402) (DESIGN CHOICE, log entry 4). -/
def settingsBlank : AMap Nat :=
  [(0, 0x53), (1, 0x45), (2, 0x54), (3, 0x54), (4, 1), (6, 0x92), (7, 0x31), (8, 0x94), (9, 0x5D),
    (0x5D90, 0xD2), (0x5D91, 0x27), (0x5D92, 0xC8), (0x5D93, 0x70)]

/-- A native cast for FIELD and RECOVERY with a carver part (DESIGN CHOICE, log entry 4). -/
def castFirst : Cast := { format := 1, version := 0x01000000, lcAllow := 0b1100, hasCarver := true }

/-- The flash and fuses of a hub in the field: a valid cast in slot A and none in slot B, settings
slot 0 bound to it and blank, no factory patina (DESIGN CHOICE, log entry 4). -/
def Nv.initial : Nv :=
  { lcFuse := 2, key0Revoked := false, epochFuse := 0, castA := some castFirst, castB := none
    boot := { validA := true, setA := 0 }
    settings := [(0, { img := settingsBlank, ok := true })]
    factory := none }

/-- Right after reset (R22, R418, R420): every register at its Reset column, buffer memory with nothing listed, nothing
waiting; the phase before start-up (DEDUCED, log entry 3) (DEDUCED, log entry 5) (DESIGN CHOICE, log entry 97). -/
def State.reset : State := { hw := { hub := {}, mem := {}, nv := Nv.initial }, pending := [] }

end Sys2Proof.Machine
end

