-- ==== Sys2Proof/Machine/CmdAccess.lean ====
section
/-! DEFINITION. The meanings of the commands of the access paths (18). -/

namespace Sys2Proof.Machine

/-- WRITE32 (R437). -/
def execWrite32 (addr : Word) (v : Word) (s : State) : Host.Outcome State Fault Refusal :=
  .next (s.onHub fun h => h.write32 addr.toNat v.toNat)

/-- READ32 (R438). -/
def execRead32 (addr : Word) (s : State) : Host.Outcome State Fault Refusal :=
  .next (s.onHw fun w => w.spiRead32 addr.toNat)

/-- WRITE64 (R440). -/
def execWrite64 (addr : Word) (v : Word) (u : Word) (s : State) : Host.Outcome State Fault Refusal :=
  .next (s.onHub fun h => h.write64 addr.toNat v.toNat u.toNat)

/-- READ64 (R440). -/
def execRead64 (addr : Word) (s : State) : Host.Outcome State Fault Refusal :=
  .next (s.onHw fun w => w.spiRead64 addr.toNat)

/-- SPI_READ_TIMEOUT (R438). -/
def execSpiReadTimeout (s : State) : Host.Outcome State Fault Refusal :=
  .next (s.onHub fun h => h.spiTimeout)

/-- SPI_CS_RISE (R439). -/
def execSpiCsRise (c : SpiCut) (s : State) : Host.Outcome State Fault Refusal :=
  .next (s.onHw fun w => w.csRise c)

/-- POSTED_WRITE_APPLY (R439). -/
def execPostedWriteApply (s : State) : Host.Outcome State Fault Refusal :=
  .next (s.onHw fun w => w.applyHead)

/-- REGISTER_WRITE (R434). -/
def execRegisterWrite (addr : Word) (v : Word) (s : State) : Host.Outcome State Fault Refusal :=
  .next (s.onHw fun w => w.writeAt addr.toNat v.toNat)

/-- RS_LOW_READ (R10). -/
def execRsLowRead (path : Fin 2) (addr : Word) (s : State) : Host.Outcome State Fault Refusal :=
  .next (s.onHw fun w => w.rsHalf path.val addr.toNat true)

/-- RS_HIGH_READ (R10). -/
def execRsHighRead (path : Fin 2) (addr : Word) (s : State) : Host.Outcome State Fault Refusal :=
  .next (s.onHw fun w => w.rsHalf path.val addr.toNat false)

end Sys2Proof.Machine
end

