-- ==== Sys2Proof/Machine/CmdAcquire.lean ====
section
/-! DEFINITION. The meanings of the commands of the trigger units (07). -/

namespace Sys2Proof.Machine

/-- TRG_ARM (R183). -/
def execTrgArm (t : Fin 32) (s : State) : Host.Outcome State Fault Refusal :=
  .next (s.onHub fun h => h.hostWr (0x50004 + 0x80 * t.val) 1 fun h => h.trgArm t.val)

/-- TRG_DISARM (R190). -/
def execTrgDisarm (t : Fin 32) (s : State) : Host.Outcome State Fault Refusal :=
  .next (s.onHub fun h => h.hostWr (0x50004 + 0x80 * t.val) 2 fun h => h.trgDisarm t.val)

/-- FORCE (R181). -/
def execForce (t : Fin 32) (s : State) : Host.Outcome State Fault Refusal :=
  .next (s.onHub fun h => h.hostWr (0x50004 + 0x80 * t.val) 4 fun h => h.trgForce t.val)

/-- ARM_ALL (R191). -/
def execArmAll (s : State) : Host.Outcome State Fault Refusal :=
  .next (s.onHub fun h => h.hostWr 0xB000 1 fun h => h.armAll)

/-- DISARM_ALL (R191). -/
def execDisarmAll (s : State) : Host.Outcome State Fault Refusal :=
  .next (s.onHub fun h => h.hostWr 0xB000 2 fun h => h.disarmAll)

/-- AUTO_TIMEOUT (R185). -/
def execAutoTimeout (t : Fin 32) (s : State) : Host.Outcome State Fault Refusal :=
  .next (s.onHub fun h => h.whenUp fun h => h.autoTimeout t.val)

/-- REARM_END (R183). -/
def execRearmEnd (t : Fin 32) (s : State) : Host.Outcome State Fault Refusal :=
  .next (s.onHub fun h => h.whenUp fun h => h.rearmEnd t.val)

/-- TRIG_OUT_PULSE_END (R187). -/
def execTrigOutPulseEnd (pin : Fin 4) (s : State) : Host.Outcome State Fault Refusal :=
  .next (s.onHub fun h => h.whenUp fun h => h.trigOutEnd pin.val)

/-- ACQ_CNT_CLR (R446). -/
def execAcqCntClr (s : State) : Host.Outcome State Fault Refusal :=
  .next (s.onHub fun h => h.hostWr 0xB004 16 fun h => h.acqCntClr)

/-- TRG_CNT_CLR (R446). -/
def execTrgCntClr (t : Fin 32) (s : State) : Host.Outcome State Fault Refusal :=
  .next (s.onHub fun h => h.hostWr (0x50004 + 0x80 * t.val) 8 fun h => h.trgCntClr t.val)

end Sys2Proof.Machine
end

