-- ==== Sys2Proof/Machine/CmdArmature.lean ====
section
/-! DEFINITION. The meanings of the commands of the armature, schedules, outputs and grids (07, 15). -/

namespace Sys2Proof.Machine

/-- GLITCH_FILTER_END (R56). -/
def execGlitchFilterEnd (pin : Fin 4) (s : State) : Host.Outcome State Fault Refusal :=
  .next (s.onHub fun h => h.whenUp fun h => h.filterEnd pin.val)

/-- SCHED_CANCEL (R58). -/
def execSchedCancel (slot : Fin 8) (s : State) : Host.Outcome State Fault Refusal :=
  .next (s.onHw fun w => w.hostWr (0x1200 + 0x10 * slot.val) 0x80 fun w => w.schedCancel slot.val)

/-- GRID_INSTANT (R60). -/
def execGridInstant (g : Fin 8) (s : State) : Host.Outcome State Fault Refusal :=
  .next (s.onHub fun h => h.whenUp fun h => h.gridInstantOf g.val)

/-- OUTPUT_READY (R150). -/
def execOutputReady (n : Fin 192) (s : State) : Host.Outcome State Fault Refusal :=
  .next (s.onHub fun h => h.whenUp fun h => h.outputReady n.val)

/-- ENGINEERING_WORD_READY (R158). -/
def execEngineeringWordReady (n : Fin 192) (s : State) : Host.Outcome State Fault Refusal :=
  .next (s.onHub fun h => h.whenUp fun h => h.engWordReady n.val)

/-- LOAD_START (R376). -/
def execLoadStart (s : State) : Host.Outcome State Fault Refusal :=
  .next (s.onHub fun h => h.hostWr 0x7000 1 fun h => h.loadStart)

/-- ARM_COPY (R377). -/
def execArmCopy (s : State) : Host.Outcome State Fault Refusal :=
  .next (s.onHw fun w => w.hostWr 0x7000 2 fun w => w.armCopy)

/-- ARM_LOAD_DATA (R377). -/
def execArmLoadData (v : Word) (s : State) : Host.Outcome State Fault Refusal :=
  .next (s.onHub fun h => h.hostWr 0x7014 v.toNat fun h => h.loadData v.toNat)

/-- VALIDATION_DONE (R375). -/
def execValidationDone (s : State) : Host.Outcome State Fault Refusal :=
  .next (s.onHub fun h => h.whenUp fun h => h.validationDone)

/-- DISCARD (R376). -/
def execDiscard (s : State) : Host.Outcome State Fault Refusal :=
  .next (s.onHw fun w => w.hostWr 0x7000 4 fun w => w.onHub Hub.discard)

/-- COMMIT (R378). -/
def execCommit (s : State) : Host.Outcome State Fault Refusal :=
  .next (s.onHub fun h => h.hostWr 0x7000 8 fun h => h.commit)

/-- CANCEL_COMMIT (R378). -/
def execCancelCommit (s : State) : Host.Outcome State Fault Refusal :=
  .next (s.onHub fun h => h.hostWr 0x7000 0x20 fun h => h.commitCancel 9)

/-- COMMIT_PRESTART (R379). -/
def execCommitPrestart (s : State) : Host.Outcome State Fault Refusal :=
  .next (s.onHub fun h => h.whenUp fun h => h.commitPrestart)

/-- COMMIT_INSTANT (R380). -/
def execCommitInstant (s : State) : Host.Outcome State Fault Refusal :=
  .next (s.onHub fun h => h.whenUp fun h => h.watchNext Hub.commitInstant)

/-- WITHDRAW (R383). -/
def execWithdraw (s : State) : Host.Outcome State Fault Refusal :=
  .next (s.onHub fun h => h.hostWr 0x7000 0x40 fun h => h.withdraw)

/-- CANCEL_WITHDRAW (R383). -/
def execCancelWithdraw (s : State) : Host.Outcome State Fault Refusal :=
  .next (s.onHub fun h => h.hostWr 0x7000 0x100 fun h => h.cancelWithdraw)

/-- WITHDRAWAL_INSTANT (R17). -/
def execWithdrawalInstant (s : State) : Host.Outcome State Fault Refusal :=
  .next (s.onHub fun h => h.whenUp fun h => h.watchNext Hub.withdrawalInstant)

/-- DRAIN_LIMIT_EXPIRED (R268). -/
def execDrainLimitExpired (s : State) : Host.Outcome State Fault Refusal :=
  .next (s.onHw fun w => w.whenUp fun w => w.onHub Hub.drainLimit)

/-- LOST_CLR (R446). -/
def execLostClr (pin : Fin 4) (s : State) : Host.Outcome State Fault Refusal :=
  .next (s.onHub fun h => h.hostWr (0x1184 + 0x20 * pin.val) 0x200 fun h => h.lostClr pin.val)

/-- ARM_CNT_CLR (R446). -/
def execArmCntClr (s : State) : Host.Outcome State Fault Refusal :=
  .next (s.onHub fun h => h.hostWr 0x7000 0x200 fun h => h.armCntClr)

end Sys2Proof.Machine
end

