-- ==== Sys2Proof/Machine/CmdCarve.lean ====
section
/-! DEFINITION. The meanings of the commands of the carvers, locks and relief slots (08). -/

namespace Sys2Proof.Machine

/-- FRAME_INPUT_COMPLETE (R196). -/
def execFrameInputComplete (e : Fin 16) (s : State) : Host.Outcome State Fault Refusal :=
  .next (s.onHub fun h => h.whenUp fun h => h.frameComplete e.val)

/-- FRAME_DONE (R196). -/
def execFrameDone (e : Fin 16) (s : State) : Host.Outcome State Fault Refusal :=
  .next (s.onHub fun h => h.whenUp fun h => (h.frameDone e.val).carverGate e.val)

/-- ENG_FAULT (R214). -/
def execEngFault (e : Fin 16) (code : Fin 3) (task : Fin 8) (addr : Fin (2 ^ 18))
    (s : State) : Host.Outcome State Fault Refusal :=
  .next (s.onHub fun h => h.whenUp fun h => h.engFaultEv e.val code task.val addr.val)

/-- HANG (R213). -/
def execHang (e : Fin 16) (task : Fin 8) (addr : Fin (2 ^ 18)) (s : State) : Host.Outcome State Fault Refusal :=
  .next (s.onHub fun h => h.whenUp fun h => h.hang e.val task.val addr.val)

/-- ENG_RESTART (R215). -/
def execEngRestart (e : Fin 16) (s : State) : Host.Outcome State Fault Refusal :=
  .next (s.onHub fun h => h.hostWr (0x30000 + 0x1000 * e.val) (h.storedWord (0x30000 + 0x1000 * e.val) + 1) fun h => h.engRestart e.val)

/-- HALT (R214). -/
def execHalt (e : Fin 16) (s : State) : Host.Outcome State Fault Refusal :=
  .next (s.onHub fun h => h.hostWr (0x30000 + 0x1000 * e.val) (h.storedWord (0x30000 + 0x1000 * e.val) + 2) fun h => h.halt e.val)

/-- RESTART_COMPLETE (R215). -/
def execRestartComplete (e : Fin 16) (ok : Bool) (s : State) : Host.Outcome State Fault Refusal :=
  .next (s.onHub fun h => h.whenUp fun h => h.restartComplete e.val ok)

/-- WIN_DATA_ACCESS (R205). -/
def execWinDataAccess (path : Fin 2) (e : Fin 16) (wr : Option Word) (s : State) : Host.Outcome State Fault Refusal :=
  .next (s.onHub fun h => h.winAccess path.val e.val wr)

/-- PARAM_SWAP (R208). -/
def execParamSwap (e : Fin 16) (s : State) : Host.Outcome State Fault Refusal :=
  .next (s.onHub fun h => h.hostWr (0x30080 + 0x1000 * e.val) 1 fun h => h.paramSwap e.val)

/-- TASK_QUERY (R207). -/
def execTaskQuery (e : Fin 16) (s : State) : Host.Outcome State Fault Refusal :=
  .next (s.onHub fun h => h.hostWr (0x30080 + 0x1000 * e.val) 2 fun h => h.taskQuery e.val)

/-- DETECT_RESET (R207). -/
def execDetectReset (e : Fin 16) (s : State) : Host.Outcome State Fault Refusal :=
  .next (s.onHub fun h => h.hostWr (0x30080 + 0x1000 * e.val) 3 fun h => h.detectReset e.val)

/-- DETECT_SET (R207). -/
def execDetectSet (e : Fin 16) (s : State) : Host.Outcome State Fault Refusal :=
  .next (s.onHub fun h => h.hostWr (0x30080 + 0x1000 * e.val) 4 fun h => h.detectSet e.val)

/-- LOCK_TRY (R209). -/
def execLockTry (path : Fin 2) (lock : Fin 64) (s : State) : Host.Outcome State Fault Refusal :=
  .next (s.onHub fun h => if h.served 0x4800 then h.hostTry path.val lock.val else h)

/-- LOCK_RELEASE (R211). -/
def execLockRelease (lock : Fin 64) (s : State) : Host.Outcome State Fault Refusal :=
  .next (s.onHub fun h => h.hostWr (0x4804 + 8 * lock.val) (2 ^ 16) fun h => h.hostRelease lock.val)

/-- BREAK (R211). -/
def execLockBreak (lock : Fin 64) (s : State) : Host.Outcome State Fault Refusal :=
  .next (s.onHub fun h => h.hostWr (0x4804 + 8 * lock.val) (2 ^ 17) fun h => h.hostBreak lock.val)

/-- RELIEF_CONTRIBUTION (R221). -/
def execReliefContribution (q : Fin 256) (s : State) : Host.Outcome State Fault Refusal :=
  .next (s.onHub fun h => h.whenUp fun h => h.rlfContribution q.val)

/-- RELIEF_DEADLINE (R221). -/
def execReliefDeadline (slot : Fin 64) (s : State) : Host.Outcome State Fault Refusal :=
  .next (s.onHub fun h => h.whenUp fun h => h.rlfDeadline slot.val)

/-- ENG_CNT_CLR (R446). -/
def execEngCntClr (e : Fin 16) (s : State) : Host.Outcome State Fault Refusal :=
  .next (s.onHub fun h => h.hostWr (0x30000 + 0x1000 * e.val) (h.storedWord (0x30000 + 0x1000 * e.val) + 8) fun h => h.engCntClr e.val)

/-- RLF_CNT_CLR (R446). -/
def execRlfCntClr (s : State) : Host.Outcome State Fault Refusal :=
  .next (s.onHub fun h => h.hostWr 0xC000 1 fun h => h.slotCntClr)

end Sys2Proof.Machine
end

