-- ==== Sys2Proof/Machine/CmdConvert.lean ====
section
/-! DEFINITION. The meanings of the commands of housekeeping, calibration and linearisation (04, 06). -/

namespace Sys2Proof.Machine

/-- MODULATOR_VALID (R107). -/
def execModulatorValid (b : Fin 12) (s : State) : Host.Outcome State Fault Refusal :=
  .next (s.onHub fun h => h.whenUp fun h => h.modulatorValid b.val)

/-- SCAN_START (R112). -/
def execScanStart (s : State) : Host.Outcome State Fault Refusal :=
  .next (s.onHub fun h => h.hostWr 0x2000 4 fun h => h.scanStart)

/-- SCAN_TIMER (R112). -/
def execScanTimer (s : State) : Host.Outcome State Fault Refusal :=
  .next (s.onHub fun h => h.whenUp fun h => h.scanTimer)

/-- SCAN_STOP (R112). -/
def execScanStop (s : State) : Host.Outcome State Fault Refusal :=
  .next (s.onHub fun h => h.hostWr 0x2000 8 fun h => h.scanStop)

/-- HK_SETTLE_END (R112). -/
def execHkSettleEnd (s : State) : Host.Outcome State Fault Refusal :=
  .next (s.onHub fun h => h.whenUp fun h => h.hkSettleEnd)

/-- HK_CONVERSION_DONE (R108). -/
def execHkConversionDone (raw : BitVec 16) (s : State) : Host.Outcome State Fault Refusal :=
  .next (s.onHub fun h => h.whenUp fun h => h.hkDone raw.toNat)

/-- INJ_GO (R115). -/
def execInjGo (j : Fin 4) (s : State) : Host.Outcome State Fault Refusal :=
  .next (s.onHub fun h => h.hostWr (0x2100 + 0x20 * j.val) (2 ^ 14) fun h => h.injGo j.val)

/-- CAL_START (R117). -/
def execCalStart (s : State) : Host.Outcome State Fault Refusal :=
  .next (s.onHub fun h => h.hostWr 0x2200 (h.storedWord 0x2200 + 1) fun h => h.calStart)

/-- CAL_WAIT_CONV_DONE (R119). -/
def execCalWaitConvDone (s : State) : Host.Outcome State Fault Refusal :=
  .next (s.onHub fun h => h.whenUp fun h => h.calWaitDone)

/-- CAL_HK_SELF_DONE (R120). -/
def execCalHkSelfDone (sum : Int) (s : State) : Host.Outcome State Fault Refusal :=
  .next (s.onHub fun h => h.whenUp fun h => h.calSelfDone sum)

/-- CAL_REF_CHECK_DONE (R123). -/
def execCalRefCheckDone (sum : Nat) (s : State) : Host.Outcome State Fault Refusal :=
  .next (s.onHub fun h => h.whenUp fun h => h.calRefDone sum)

/-- CAL_SETTLE_END (R120). -/
def execCalSettleEnd (s : State) : Host.Outcome State Fault Refusal :=
  .next (s.onHub fun h => h.whenUp fun h => h.calSettleEnd)

/-- CAL_AVERAGE_DONE (R121). -/
def execCalAverageDone (m : List (Nat × ℚ)) (s : State) : Host.Outcome State Fault Refusal :=
  .next (s.onHub fun h => h.whenUp fun h => h.calAverageDone m)

/-- CAL_APPLY (R122). -/
def execCalApply (s : State) : Host.Outcome State Fault Refusal :=
  .next (s.onHub fun h => h.whenUp fun h => h.calApply)

/-- CAL_ABORT (R123). -/
def execCalAbort (s : State) : Host.Outcome State Fault Refusal :=
  .next (s.onHub fun h => h.hostWr 0x2200 (h.storedWord 0x2200 + 2) fun h => h.calAbort)

/-- SAVE (R127). -/
def execSave (s : State) : Host.Outcome State Fault Refusal :=
  .next (s.onHw fun w => w.hostWr 0x2200 (w.hub.storedWord 0x2200 + 4) Hw.save)

/-- HK_PAT_DATA_ACCESS (R126). -/
def execHkPatDataAccess (path : Fin 2) (wr : Option Word) (s : State) : Host.Outcome State Fault Refusal :=
  .next (s.onHub fun h => h.patAccess path.val wr)

/-- CHECK (R126). -/
def execCheck (s : State) : Host.Outcome State Fault Refusal :=
  .next (s.onHw fun w => w.hostWr 0x2218 1 Hw.patCheck)

/-- RELOAD (R126). -/
def execReload (s : State) : Host.Outcome State Fault Refusal :=
  .next (s.onHw fun w => w.hostWr 0x2218 2 Hw.patReload)

/-- LIN_LOAD (R172). -/
def execLinLoad (n : Fin 192) (s : State) : Host.Outcome State Fault Refusal :=
  .next (s.onHub fun h => h.hostCh n.val 0x60 (2 ^ 12) fun h => h.linLoad n.val)

/-- LIN_CNT_CLR (R446). -/
def execLinCntClr (n : Fin 192) (s : State) : Host.Outcome State Fault Refusal :=
  .next (s.onHub fun h => h.hostCh n.val 0x78 16 fun h => h.linCntClr n.val)

/-- HK_CNT_CLR (R446). -/
def execHkCntClr (s : State) : Host.Outcome State Fault Refusal :=
  .next (s.onHub fun h => h.hostWr 0x2010 64 fun h => h.hkCntClr)

end Sys2Proof.Machine
end

