-- ==== Sys2Proof/Machine/CmdData.lean ====
section
/-! DEFINITION. The meanings of the commands of compression, memory, queues, DMA and the fabric (09 to 11). -/

namespace Sys2Proof.Machine

/-- CMP_ATTEMPT_DONE (R241). -/
def execCmpAttemptDone (fault : Fin 3) (s : State) : Host.Outcome State Fault Refusal :=
  .next (s.onHub fun h => h.whenUp fun h => (h.cmpAttempt fault).cmpGate)

/-- CMP_PAGE_GRANTED (R242). -/
def execCmpPageGranted (s : State) : Host.Outcome State Fault Refusal :=
  .next (s.onHub fun h => h.whenUp fun h => h.cmpGranted)

/-- CMP_STALL_LIMIT (R242). -/
def execCmpStallLimit (s : State) : Host.Outcome State Fault Refusal :=
  .next (s.onHub fun h => h.whenUp fun h => h.cmpStallLimit)

/-- DCMP_GO (R245). -/
def execDcmpGo (s : State) : Host.Outcome State Fault Refusal :=
  .next (s.onHub fun h => h.hostWr 0x5100 (h.storedWord 0x5100 + 1) fun h => h.dcmpGo)

/-- DCMP_ABORT (R245). -/
def execDcmpAbort (out : Nat) (s : State) : Host.Outcome State Fault Refusal :=
  .next (s.onHw fun w => w.hostWr 0x5100 2 fun w => (w.dcmpAbort out).onHub Hub.cmpGate)

/-- DCMP_JOB_DONE (R246). -/
def execDcmpJobDone (s : State) : Host.Outcome State Fault Refusal :=
  .next (s.onHw fun w => w.whenUp fun w => w.dcmpDone.onHub Hub.cmpGate)

/-- SCRUB_PASS (R249). -/
def execScrubPass (ce : Nat) (ues : List (Fin (2 ^ 28))) (s : State) : Host.Outcome State Fault Refusal :=
  .next (s.onHw fun w => w.whenUp fun w => w.scrubPass ce ues)

/-- WINDOW_ACCESS (R448). -/
def execWindowAccess (path : Fin 2) (off : Fin (2 ^ 20)) (wr : Option (Word × Option Word)) (err : Fin 3)
    (s : State) : Host.Outcome State Fault Refusal :=
  .next (s.onHw fun w => w.windowAccess path.val off.val wr err)

/-- STARVED (R259). -/
def execStarved (q : Fin 256) (s : State) : Host.Outcome State Fault Refusal :=
  .next (s.onHub fun h => h.whenUp fun h => h.starved q.val)

/-- GAP_RECORD_SLOT_OBTAINED (R267). -/
def execGapRecordSlotObtained (q : Fin 256) (s : State) : Host.Outcome State Fault Refusal :=
  .next (s.onHub fun h => h.whenUp fun h => h.gapObtained q.val)

/-- PUSH_LEN (R260). -/
def execPushLen (q : Fin 256) (n : Fin (2 ^ 13)) (s : State) : Host.Outcome State Fault Refusal :=
  .next (s.onHub fun h => h.hostWr (0x40020 + 0x40 * q.val) n.val fun h => h.pushLen q.val n.val)

/-- PUSH (R260). -/
def execPush (q : Fin 256) (v : Word) (s : State) : Host.Outcome State Fault Refusal :=
  .next (s.onHub fun h => h.hostWr (0x40024 + 0x40 * q.val) v.toNat fun h => h.push q.val v.toNat)

/-- POP_LO_READ (R263). -/
def execPopLoRead (path : Fin 2) (q : Fin 256) (s : State) : Host.Outcome State Fault Refusal :=
  .next (s.onHub fun h => h.popLo path.val q.val)

/-- ACK (R264). -/
def execAck (q : Fin 256) (v : Word) (s : State) : Host.Outcome State Fault Refusal :=
  .next (s.onHub fun h => h.hostWr (0x40028 + 0x40 * q.val) v.toNat fun h => h.ackWrite q.val v.toNat)

/-- REPLAY (R264). -/
def execReplay (q : Fin 256) (s : State) : Host.Outcome State Fault Refusal :=
  .next (s.onHub fun h => h.hostWr (0x40008 + 0x40 * q.val) 2 fun h => h.replay q.val)

/-- FLUSH (R262). -/
def execFlush (q : Fin 256) (s : State) : Host.Outcome State Fault Refusal :=
  .next (s.onHub fun h => h.hostWr (0x40008 + 0x40 * q.val) 1 fun h => h.flush q.val)

/-- FLUSH_COMPLETE (R262). -/
def execFlushComplete (q : Fin 256) (s : State) : Host.Outcome State Fault Refusal :=
  .next (s.onHub fun h => h.whenUp fun h => h.flushComplete q.val)

/-- DMA_GO (R272). -/
def execDmaGo (c : Fin 32) (s : State) : Host.Outcome State Fault Refusal :=
  .next (s.onHw fun w => w.hostWr (0x6400 + 0x40 * c.val) 1 fun w => w.dmaGo c.val)

/-- DMA_RESUME (R275). -/
def execDmaResume (c : Fin 32) (s : State) : Host.Outcome State Fault Refusal :=
  .next (s.onHw fun w => w.hostWr (0x6400 + 0x40 * c.val) 2 fun w => w.dmaResume c.val)

/-- DMA_ABORT (R275). -/
def execDmaAbort (c : Fin 32) (s : State) : Host.Outcome State Fault Refusal :=
  .next (s.onHw fun w => w.hostWr (0x6400 + 0x40 * c.val) 4 fun w => w.dmaAbort c.val)

/-- DMA_DESCRIPTOR_DONE (R270). -/
def execDmaDescriptorDone (c : Fin 32) (wait : Nat) (delayed : Bool) (ext : List Word)
    (s : State) : Host.Outcome State Fault Refusal :=
  .next (s.onHw fun w => w.whenUp fun w => w.dmaDone c.val wait delayed ext)

/-- DMA_LOCK_RETRY (R273). -/
def execDmaLockRetry (c : Fin 32) (s : State) : Host.Outcome State Fault Refusal :=
  .next (s.onHw fun w => w.whenUp fun w => w.dmaRetry c.val)

/-- DMA_FAULT (R274). -/
def execDmaFault (c : Fin 32) (cause : DmaCause) (off : Nat) (ext : List Word)
    (s : State) : Host.Outcome State Fault Refusal :=
  .next (s.onHw fun w => w.whenUp fun w => w.dmaFault c.val cause off ext)

/-- ARBITRATION_ROUND (R281). -/
def execArbitrationRound (r : Fin 20) (t : Nat) (ends : Bool) (withdrawn : List (Fin 64)) (new : List Arrival)
    (s : State) : Host.Outcome State Fault Refusal :=
  .next (s.onHub fun h => h.whenUp fun h => h.arbRound r.val t ends withdrawn new)

/-- QUOTA_WINDOW_END (R282). -/
def execQuotaWindowEnd (s : State) : Host.Outcome State Fault Refusal :=
  .next (s.onHub fun h => h.whenUp fun h => h.windowEnd)

/-- STARVE (R286). -/
def execStarve (r : Fin 20) (who : Fin 64) (s : State) : Host.Outcome State Fault Refusal :=
  .next (s.onHub fun h => h.whenUp fun h => h.arbStarve r.val who.val)

/-- REFUSED_OVERLOAD (R287). -/
def execRefusedOverload (r : Fin 20) (who : Fin 64) (off : Nat) (ext : List Word)
    (s : State) : Host.Outcome State Fault Refusal :=
  .next (s.onHw fun w => w.whenUp fun w => w.refusedOverload r.val who.val off ext)

/-- ARB_PRIO_WRITE (R289). -/
def execArbPrioWrite (v : Fin 8) (s : State) : Host.Outcome State Fault Refusal :=
  .next (s.onHub fun h => h.hostWr 0x4050 v.val fun h => h.prioWrite v.val)

/-- CMP_CNT_CLR (R446). -/
def execCmpCntClr (s : State) : Host.Outcome State Fault Refusal :=
  .next (s.onHub fun h => h.hostWr 0x5000 (h.storedWord 0x5000 + 2 ^ 25) fun h => h.cmpClr)

/-- DCMP_CNT_CLR (R446). -/
def execDcmpCntClr (s : State) : Host.Outcome State Fault Refusal :=
  .next (s.onHub fun h => h.hostWr 0x5114 (2 ^ 9) fun h => h.dcmpCntClr)

/-- MEM_CNT_CLR (R446). -/
def execMemCntClr (s : State) : Host.Outcome State Fault Refusal :=
  .next (s.onHub fun h => h.hostWr 0x6000 (h.storedWord 0x6000 + 2) fun h => h.memCntClr)

/-- DMA_CNT_CLR (R446). -/
def execDmaCntClr (c : Fin 32) (s : State) : Host.Outcome State Fault Refusal :=
  .next (s.onHub fun h => h.hostWr (0x6400 + 0x40 * c.val) (h.storedWord (0x6400 + 0x40 * c.val) + 8) fun h => h.dmaCntClr c.val)

/-- Q_CNT_CLR (R446). -/
def execQCntClr (q : Fin 256) (s : State) : Host.Outcome State Fault Refusal :=
  .next (s.onHub fun h => h.hostWr (0x40008 + 0x40 * q.val) 4 fun h => h.qCntClr q.val)

/-- ARB_CNT_CLR (R446). -/
def execArbCntClr (s : State) : Host.Outcome State Fault Refusal :=
  .next (s.onHub fun h => h.hostWr 0x4000 (2 ^ 16) fun h => h.arbCntClr)

end Sys2Proof.Machine
end

