-- ==== Sys2Proof/Machine/CmdDuplex.lean ====
section
/-! DEFINITION. The meanings of the commands of duplex pairs (14). -/

namespace Sys2Proof.Machine

/-- HEARTBEAT_SEND (R354). -/
def execHeartbeatSend (s : State) : Host.Outcome State Fault Refusal :=
  .next (s.onHub fun h => h.whenUp fun h => h.heartbeatSend)

/-- HEARTBEAT_RX (R354). -/
def execHeartbeatRx (k : Fin 64) (lseq : Word) (head : BitVec 8 × BitVec 8) (route : BitVec 48) (body : BitVec 8 × Word)
    (s : State) : Host.Outcome State Fault Refusal :=
  .next (s.onHub fun h => h.whenUp fun h => h.duplexRx k.val lseq.toNat head.1.toNat head.2.toNat route.toNat body.1.toNat body.2.toNat)

/-- SAMPLES_RX (R350). -/
def execSamplesRx (k : Fin 64) (m : SamplesMsg) (s : State) : Host.Outcome State Fault Refusal :=
  .next (s.onHub fun h => h.whenUp fun h => h.samplesRx k.val m.lseq.toNat m.first m.codes)

/-- TIMEMAP_RX (R350). -/
def execTimemapRx (k : Fin 64) (lseq : Word) (edge : Nat) (map : Nat × Nat) (s : State) : Host.Outcome State Fault Refusal :=
  .next (s.onHub fun h => h.whenUp fun h => h.timemapRx k.val lseq.toNat edge map.1 map.2)

/-- DIGEST_RX (R356). -/
def execDigestRx (k : Fin 64) (lseq : Word) (window : Nat) (entries : List (Nat × Nat × Nat × Nat))
    (s : State) : Host.Outcome State Fault Refusal :=
  .next (s.onHub fun h => h.whenUp fun h => h.digestRx k.val lseq.toNat window entries)

/-- RANGE_STEP_EVENT (R351). -/
def execRangeStepEvent (k : Fin 64) (lseq : Word) (n : Fin 192) (r : Fin 8) (edge : Nat)
    (s : State) : Host.Outcome State Fault Refusal :=
  .next (s.onHub fun h => h.whenUp fun h => h.rangeStepEvent k.val lseq.toNat n.val r.val edge)

/-- REG_WRITE_EVENT (R351). -/
def execRegWriteEvent (k : Fin 64) (lseq : Word) (edge : Nat) (w : Word × Word)
    (s : State) : Host.Outcome State Fault Refusal :=
  .next (s.onHw fun x => x.whenUp fun x => x.regWriteEvent k.val lseq.toNat edge w.1.toNat w.2.toNat)

/-- TRIGGER_EVENT (R351). -/
def execTriggerEvent (k : Fin 64) (lseq : Word) (u : Fin 32) (source : Fin 256) (forced : Bool) (stamp : BitVec 96)
    (s : State) : Host.Outcome State Fault Refusal :=
  .next (s.onHub fun h => h.whenUp fun h => h.triggerEvent k.val lseq.toNat u.val source.val forced stamp)

/-- SHED_EVENT (R351). -/
def execShedEvent (k : Fin 64) (lseq : Word) (n : Fin 192) (e : Nat × Bool) (s : State) : Host.Outcome State Fault Refusal :=
  .next (s.onHub fun h => h.whenUp fun h => h.shedEvent k.val lseq.toNat n.val e.1 e.2)

/-- PATINA_EVENT (R351). -/
def execPatinaEvent (k : Fin 64) (lseq : Word) (slot : Fin 192 × Fin 10) (edge : Nat) (offset : Int) (gain : Word)
    (s : State) : Host.Outcome State Fault Refusal :=
  .next (s.onHub fun h => h.whenUp fun h => h.patinaEvent k.val lseq.toNat slot.1.val slot.2.val edge offset gain.toNat)

/-- SWAP_EVENT (R362). -/
def execSwapEvent (k : Fin 64) (lseq : Word) (stamp : BitVec 96) (s : State) : Host.Outcome State Fault Refusal :=
  .next (s.onHub fun h => h.whenUp fun h => h.swapEvent k.val lseq.toNat stamp)

/-- DUPLEX_SYNC_PULSE (R349). -/
def execDuplexSyncPulse (stamp : Nat) (edge : Nat) (s : State) : Host.Outcome State Fault Refusal :=
  .next (s.onHub fun h => h.whenUp fun h => h.syncPulse stamp edge)

/-- DIGEST_READY (R355). -/
def execDigestReady (kind : Fin 2) (id : Fin 64) (rest : List (Fin 2 × Fin 64)) (window : Nat) (s : State) :
    Host.Outcome State Fault Refusal :=
  .next (s.onHub fun h => h.whenUp fun h => h.digestReady (((kind, id) :: rest).map fun g => (g.1.val, g.2.val)) window)

/-- DIGEST_MISSING (R356). -/
def execDigestMissing (s : State) : Host.Outcome State Fault Refusal :=
  .next (s.onHub fun h => h.whenUp fun h => h.digestMissing)

/-- CODES_OVERDUE (R360). -/
def execCodesOverdue (t : Nat) (s : State) : Host.Outcome State Fault Refusal :=
  .next (s.onHub fun h => h.whenUp fun h => h.codesOverdue t)

/-- SYNC_PULSE_LOSS (R366). -/
def execSyncPulseLoss (s : State) : Host.Outcome State Fault Refusal :=
  .next (s.onHub fun h => h.whenUp fun h => h.syncPulseLoss)

/-- HEARTBEAT_LOSS (R360). -/
def execHeartbeatLoss (s : State) : Host.Outcome State Fault Refusal :=
  .next (s.onHub fun h => h.whenUp fun h => h.heartbeatLoss)

/-- DRIVER_START (R361). -/
def execDriverStart (s : State) : Host.Outcome State Fault Refusal :=
  .next (s.onHub fun h => h.whenUp fun h => h.driverStart)

/-- SWAP (R362). -/
def execSwap (s : State) : Host.Outcome State Fault Refusal :=
  .next (s.onHub fun h => h.hostWr 0xA000 1 fun h => h.swap)

/-- SWAP_CANCEL (R362). -/
def execSwapCancel (s : State) : Host.Outcome State Fault Refusal :=
  .next (s.onHub fun h => h.hostWr 0xA000 2 fun h => h.swapCancel)

/-- SWAP_INSTANT (R362). -/
def execSwapInstant (s : State) : Host.Outcome State Fault Refusal :=
  .next (s.onHub fun h => h.whenUp fun h => h.doSwap)

/-- CLEAR_SUSPECT (R359). -/
def execClearSuspect (s : State) : Host.Outcome State Fault Refusal :=
  .next (s.onHub fun h => h.hostWr 0xA000 4 fun h => h.clearSuspect)

/-- DUP_CNT_CLR (R446). -/
def execDupCntClr (s : State) : Host.Outcome State Fault Refusal :=
  .next (s.onHub fun h => h.hostWr 0xA000 8 fun h => h.dupCntClr)

/-- SAMPLES_SEND (R350). -/
def execSamplesSend (first : Nat) (s : State) : Host.Outcome State Fault Refusal :=
  .next (s.onHub fun h => h.whenUp fun h => h.samplesSend first)

/-- TIMEMAP_SEND (R349). -/
def execTimemapSend (m : Nat) (s : State) : Host.Outcome State Fault Refusal :=
  .next (s.onHub fun h => h.whenUp fun h => h.timemapSend m)

end Sys2Proof.Machine
end

