-- ==== Sys2Proof/Machine/CmdExcite.lean ====
section
/-! DEFINITION. The meanings of the commands of excitation and the sample chains (03, 05). -/

namespace Sys2Proof.Machine

/-- MUX_WRITE (R69). -/
def execMuxWrite (n : Fin 192) (m : Fin 4) (s : State) : Host.Outcome State Fault Refusal :=
  .next (s.onHub fun h => h.hostCh n.val 0x00 0 fun h => h.muxWrite n.val m.val)

/-- RANGE_WRITE (R75). -/
def execRangeWrite (n : Fin 192) (v : Fin 8) (s : State) : Host.Outcome State Fault Refusal :=
  .next (s.onHub fun h => h.hostCh n.val 0x04 0 fun h => h.rangeWrite n.val v.val)

/-- RANGE_LIMIT_WRITE (R76). -/
def execRangeLimitWrite (n : Fin 192) (lo : Fin 8) (hi : Fin 8) (s : State) : Host.Outcome State Fault Refusal :=
  .next (s.onHub fun h => h.hostCh n.val 0x00 0 fun h => h.rangeLimitWrite n.val lo.val hi.val)

/-- AUTORANGE_STEP_UP (R76). -/
def execAutorangeStepUp (n : Fin 192) (s : State) : Host.Outcome State Fault Refusal :=
  .next (s.onHub fun h => h.whenUp fun h => h.autoUp n.val)

/-- DWELL_END (R77). -/
def execDwellEnd (n : Fin 192) (upHolds : Bool) (lowPeak : Bool) (s : State) : Host.Outcome State Fault Refusal :=
  .next (s.onHub fun h => h.whenUp fun h => h.dwellEnd n.val upHolds lowPeak)

/-- OPEN_DECLARED (R80). -/
def execOpenDeclared (n : Fin 192) (c : OpenCond × Nat) (s : State) : Host.Outcome State Fault Refusal :=
  .next (s.onHub fun h => h.whenUp fun h => h.openDeclared n.val c.1 c.2)

/-- OPEN_ENDED (R81). -/
def execOpenEnded (n : Fin 192 × Nat) (s : State) : Host.Outcome State Fault Refusal :=
  .next (s.onHub fun h => h.whenUp fun h => h.openEnded n.1.val n.2)

/-- APPLY (R94). -/
def execApply (n : Fin 192) (s : State) : Host.Outcome State Fault Refusal :=
  .next (s.onHub fun h => h.hostCh n.val 0x08 (2 ^ 16) fun h => h.apply n.val)

/-- RESTORE (R93). -/
def execRestore (n : Fin 192) (s : State) : Host.Outcome State Fault Refusal :=
  .next (s.onHub fun h => h.hostCh n.val 0x08 (2 ^ 17) fun h => h.restore n.val)

/-- AUTO_RESTORE (R93). -/
def execAutoRestore (s : State) : Host.Outcome State Fault Refusal :=
  .next (s.onHub fun h => h.whenUp fun h => h.autoRestore)

/-- GOVERNOR_WINDOW_END (R90). -/
def execGovernorWindowEnd (draws : List (Nat × Nat)) (s : State) : Host.Outcome State Fault Refusal :=
  .next (s.onHub fun h => h.whenUp fun h => h.govWindow draws)

/-- FAST_TRIP (R91). -/
def execFastTrip (draws : List (Nat × Nat)) (s : State) : Host.Outcome State Fault Refusal :=
  .next (s.onHub fun h => h.whenUp fun h => h.fastMeasure draws)

/-- FOLD_BACK (R86). -/
def execFoldBack (n : Fin 192) (s : State) : Host.Outcome State Fault Refusal :=
  .next (s.onHub fun h => h.whenUp fun h => h.foldBack n.val)

/-- FOLD_RETRY (R86). -/
def execFoldRetry (n : Fin 192) (s : State) : Host.Outcome State Fault Refusal :=
  .next (s.onHub fun h => h.whenUp fun h => h.foldRetry n.val)

/-- FOLD_RETRY_END (R86). -/
def execFoldRetryEnd (n : Fin 192) (s : State) : Host.Outcome State Fault Refusal :=
  .next (s.onHub fun h => h.whenUp fun h => h.foldRetryEnd n.val)

/-- VEXC_LOSS (R87). -/
def execVexcLoss (s : State) : Host.Outcome State Fault Refusal :=
  .next (s.onHub fun h => h.vexcLoss)

/-- EXC_BUDGET_WRITE (R89). -/
def execExcBudgetWrite (v : BitVec 12) (s : State) : Host.Outcome State Fault Refusal :=
  .next (s.onHub fun h => h.hostWr 0x3004 v.toNat fun h => h.budgetWrite v.toNat)

/-- EXC_GROUP_START (R95). -/
def execExcGroupStart (s : State) : Host.Outcome State Fault Refusal :=
  .next (s.onHub fun h => h.whenUp fun h => h.groupStart)

/-- OVERLOAD (R106). -/
def execOverload (n : Fin 192) (s : State) : Host.Outcome State Fault Refusal :=
  .next (s.onHub fun h => h.whenUp fun h => h.overload n.val)

/-- OVERLOAD_RECOVERY_END (R106). -/
def execOverloadRecoveryEnd (n : Fin 192) (s : State) : Host.Outcome State Fault Refusal :=
  .next (s.onHub fun h => h.whenUp fun h => h.overloadEnd n.val)

/-- CHAIN_RESTART (R152). -/
def execChainRestart (n : Fin 192) (s : State) : Host.Outcome State Fault Refusal :=
  .next (s.onHub fun h => h.hostCh n.val 0x40 1 fun h => h.chainRestart n.val)

/-- DEMOD_PHASE_WRITE (R134). -/
def execDemodPhaseWrite (n : Fin 192) (v : BitVec 16) (s : State) : Host.Outcome State Fault Refusal :=
  .next (s.onHub fun h => h.hostCh n.val 0x3C 0 fun h => h.demodPhaseWrite n.val v.toNat)

/-- DCB_K_WRITE (R139). -/
def execDcbKWrite (n : Fin 192) (k : Fin 32) (s : State) : Host.Outcome State Fault Refusal :=
  .next (s.onHub fun h => h.hostCh n.val 0x2C 0 fun h => h.dcbKWrite n.val k.val)

/-- DCB_FREEZE_WRITE (R141). -/
def execDcbFreezeWrite (n : Fin 192) (v : Bool) (s : State) : Host.Outcome State Fault Refusal :=
  .next (s.onHub fun h => h.hostCh n.val 0x2C 0 fun h => h.dcbFreezeWrite n.val v)

/-- DCB_EST_WRITE (R141). -/
def execDcbEstWrite (n : Fin 192) (v : Word) (s : State) : Host.Outcome State Fault Refusal :=
  .next (s.onHub fun h => h.hostCh n.val 0x48 0 fun h => h.dcbEstWrite n.val v.toNat)

/-- SHED_CLR (R446). -/
def execShedClr (s : State) : Host.Outcome State Fault Refusal :=
  .next (s.onHub fun h => h.hostWr 0x3018 16 fun h => h.shedClr)

/-- EXC_CNT_CLR (R446). -/
def execExcCntClr (n : Fin 192) (s : State) : Host.Outcome State Fault Refusal :=
  .next (s.onHub fun h => h.hostCh n.val 0x1C (2 ^ 9) fun h => h.excCntClr n.val)

/-- CHAIN_CNT_CLR (R446). -/
def execChainCntClr (n : Fin 192) (s : State) : Host.Outcome State Fault Refusal :=
  .next (s.onHub fun h => h.hostCh n.val 0x40 2 fun h => h.chainCntClr n.val)

/-- VEXC_RESTORED (R456). -/
def execVexcRestored (s : State) : Host.Outcome State Fault Refusal :=
  .next (s.onHub fun h => h.vexcRestored)

end Sys2Proof.Machine
end

