-- ==== Sys2Proof/Machine/CmdLane.lean ====
section
/-! DEFINITION. The meanings of the commands of lanes (12). -/

namespace Sys2Proof.Machine

/-- LANE_WAKE_FAIL (R29). -/
def execLaneWakeFail (n : Fin 64) (s : State) : Host.Outcome State Fault Refusal :=
  .next (s.onHub fun h => h.whenLanes fun h => h.laneWakeFail n.val)

/-- LINK_PLAN_WRITE (R296). -/
def execLinkPlanWrite (n : Fin 64) (what : Fin 3) (v : Fin 8) (s : State) : Host.Outcome State Fault Refusal :=
  .next (s.onHub fun h => h.planRow n.val what.val v.val)

/-- SIGNAL_DETECT (R307). -/
def execSignalDetect (k : Fin 64) (s : State) : Host.Outcome State Fault Refusal :=
  .next (s.onHub fun h => h.whenLanes fun h => h.signalDetect k.val)

/-- CDR_LOCK (R299). -/
def execCdrLock (n : Fin 64) (s : State) : Host.Outcome State Fault Refusal :=
  .next (s.onHub fun h => h.whenLanes fun h => h.cdrLock n.val)

/-- SLIP_STEP (R304). -/
def execSlipStep (n : Fin 64) (found : Bool) (s : State) : Host.Outcome State Fault Refusal :=
  .next (s.onHub fun h => h.whenLanes fun h => h.slipStep n.val found)

/-- SLIP_WRITE (R304). -/
def execSlipWrite (n : Fin 64) (v : Fin 128) (run : Nat) (s : State) : Host.Outcome State Fault Refusal :=
  .next (s.onHub fun h => h.hostWr (0x2000C + 0x400 * n.val) v.val fun h => h.slipWrite n.val v.val run)

/-- AUTO_POL (R305). -/
def execAutoPol (n : Fin 64) (s : State) : Host.Outcome State Fault Refusal :=
  .next (s.onHub fun h => h.whenLanes fun h => h.autoPol n.val)

/-- ADAPTATION_DONE (R298). -/
def execAdaptationDone (n : Fin 64) (eye : Fin 65) (eyes : List (Fin 65)) (s : State) : Host.Outcome State Fault Refusal :=
  .next (s.onHub fun h => h.whenLanes fun h => h.adaptationDone n.val eye.val (eyes.map (·.val)))

/-- TRAIN_RX (R307). -/
def execTrainRx (n : Fin 64) (head : Fin 16 × Fin 16) (width : Fin 4) (pos : Fin 4) (ready : Bool)
    (s : State) : Host.Outcome State Fault Refusal :=
  .next (s.onHub fun h => h.whenLanes fun h => h.trainRx n.val head.1.val head.2.val width.val pos.val ready)

/-- MARKER_RX (R303). -/
def execMarkerRx (k : Fin 64) (skew : Nat) (s : State) : Host.Outcome State Fault Refusal :=
  .next (s.onHub fun h => h.whenLanes fun h => h.markerRx k.val skew)

/-- TRAIN_TIMEOUT (R308). -/
def execTrainTimeout (k : Fin 64) (s : State) : Host.Outcome State Fault Refusal :=
  .next (s.onHub fun h => h.whenLanes fun h => h.trainTimeoutEv k.val)

/-- BACKOFF_END (R308). -/
def execBackoffEnd (k : Fin 64) (s : State) : Host.Outcome State Fault Refusal :=
  .next (s.onHub fun h => h.whenLanes fun h => h.backoffEnd k.val)

/-- QUIET_PROBE (R308). -/
def execQuietProbe (k : Fin 64) (s : State) : Host.Outcome State Fault Refusal :=
  .next (s.onHub fun h => h.whenLanes fun h => h.quietProbe k.val)

/-- LOS (R309). -/
def execLos (n : Fin 64) (s : State) : Host.Outcome State Fault Refusal :=
  .next (s.onHub fun h => h.whenLanes fun h => h.los n.val)

/-- BLOCK_LOCK_LOSS (R304). -/
def execBlockLockLoss (n : Fin 64) (s : State) : Host.Outcome State Fault Refusal :=
  .next (s.onHub fun h => h.whenLanes fun h => h.blockLockLoss n.val)

/-- HI_BER_WINDOW_END (R306). -/
def execHiBerWindowEnd (n : Fin 64) (bad : Nat) (s : State) : Host.Outcome State Fault Refusal :=
  .next (s.onHub fun h => h.whenLanes fun h => h.hiBerWindow n.val bad)

/-- HI_BER_TIMEOUT (R306). -/
def execHiBerTimeout (n : Fin 64) (s : State) : Host.Outcome State Fault Refusal :=
  .next (s.onHub fun h => h.whenLanes fun h => h.hiBerTimeout n.val)

/-- LP_ENTRY (R311). -/
def execLpEntry (k : Fin 64) (s : State) : Host.Outcome State Fault Refusal :=
  .next (s.onHub fun h => h.whenLanes fun h => h.lpEntry k.val)

/-- LP_REQ_RX (R311). -/
def execLpReqRx (n : Fin 64) (s : State) : Host.Outcome State Fault Refusal :=
  .next (s.onHub fun h => h.whenLanes fun h => h.lpReqRx n.val)

/-- LANE_WAKE (R311). -/
def execLaneWake (k : Fin 64) (s : State) : Host.Outcome State Fault Refusal :=
  .next (s.onHub fun h => h.whenLanes fun h => h.laneWake k.val)

/-- WAKE_END (R311). -/
def execWakeEnd (k : Fin 64) (s : State) : Host.Outcome State Fault Refusal :=
  .next (s.onHub fun h => h.whenLanes fun h => h.wakeEnd k.val)

/-- WAKE_RX (R311). -/
def execWakeRx (n : Fin 64) (locked : Bool) (s : State) : Host.Outcome State Fault Refusal :=
  .next (s.onHub fun h => h.whenLanes fun h => h.wakeRx n.val locked)

/-- LP_FAIL (R311). -/
def execLpFail (n : Fin 64) (s : State) : Host.Outcome State Fault Refusal :=
  .next (s.onHub fun h => h.whenLanes fun h => h.lpFail n.val)

/-- MARKER_SEND (R303). -/
def execMarkerSend (k : Fin 64) (s : State) : Host.Outcome State Fault Refusal :=
  .next (s.onHub fun h => h.whenLanes fun h => h.markerSend k.val)

/-- IDLE_COLUMN_SEND (R299). -/
def execIdleColumnSend (k : Fin 64) (s : State) : Host.Outcome State Fault Refusal :=
  .next (s.onHub fun h => h.whenLanes fun h => h.idleColumn k.val)

/-- RETRAIN (R314). -/
def execRetrain (n : Fin 64) (s : State) : Host.Outcome State Fault Refusal :=
  .next (s.onHub fun h => h.hostWr (0x20004 + 0x400 * n.val) 1 fun h => h.retrain n.val)

/-- ERR_INJECT (R313). -/
def execErrInject (n : Fin 64) (s : State) : Host.Outcome State Fault Refusal :=
  .next (s.onHub fun h => h.hostWr (0x20004 + 0x400 * n.val) 4 fun h => h.errInject n.val)

/-- PRBS_SYNC (R313). -/
def execPrbsSync (n : Fin 64) (s : State) : Host.Outcome State Fault Refusal :=
  .next (s.onHub fun h => h.whenLanes fun h => h.prbsSync n.val)

/-- SYNC_LOST (R313). -/
def execSyncLost (n : Fin 64) (bits : Nat) (errs : Nat) (s : State) : Host.Outcome State Fault Refusal :=
  .next (s.onHub fun h => h.whenLanes fun h => h.syncLost n.val bits errs)

/-- LANE_CNT_CLR (R446). -/
def execLaneCntClr (n : Fin 64) (s : State) : Host.Outcome State Fault Refusal :=
  .next (s.onHub fun h => h.hostWr (0x20004 + 0x400 * n.val) 2 fun h => h.laneCntClr n.val)

/-- LINK_CNT_CLR (R446). -/
def execLinkCntClr (n : Fin 64) (s : State) : Host.Outcome State Fault Refusal :=
  .next (s.onHub fun h => h.hostWr (0x20104 + 0x400 * n.val) 1 fun h => h.linkCntClr n.val)

/-- LANE_PLL_RELOCK (R314). -/
def execLanePllRelock (q : Fin 16) (s : State) : Host.Outcome State Fault Refusal :=
  .next (s.onHub fun h => h.whenLanes fun h => h.laneRelock q.val)

end Sys2Proof.Machine
end

