-- ==== Sys2Proof/Machine/CmdLink.lean ====
section
/-! DEFINITION. The meanings of the commands of links (13). -/

namespace Sys2Proof.Machine

/-- ETH_FRAME_RX (R312). -/
def execEthFrameRx (k : Fin 64) (kind : EthKind) (src : BitVec 48) (kfid : Word) (frag : Fin 256) (fcount : Fin 256)
    (s : State) : Host.Outcome State Fault Refusal :=
  .next (s.onHub fun h => h.whenUp fun h => h.ethRx k.val kind src.toNat kfid.toNat frag.val fcount.val)

/-- FRAGMENT_TIMEOUT (R343). -/
def execFragmentTimeout (k : Fin 64) (s : State) : Host.Outcome State Fault Refusal :=
  .next (s.onHub fun h => h.whenUp fun h => h.fragTimeout k.val)

/-- DATA_RX (R331). -/
def execDataRx (k : Fin 64) (vc : Fin 4) (lseq : Word) (cseq : Word) (flags : Bool × Bool) (body : List Byte)
    (s : State) : Host.Outcome State Fault Refusal :=
  .next (s.onHub fun h => h.whenUp fun h => h.dataRx k.val vc.val lseq.toNat cseq.toNat flags.1 body flags.2)

/-- ERRORED_FRAME_RX (R317). -/
def execErroredFrameRx (k : Fin 64) (crc : Bool) (f : BrokenFrame)
    (s : State) : Host.Outcome State Fault Refusal :=
  .next (s.onHub fun h => h.whenUp fun h => h.erroredRx k.val crc (f.bad.map (·.val)) f.aborted f.data f.cut)

/-- LINK_ACK_RX (R321). -/
def execLinkAckRx (k : Fin 64) (a : Word) (s : State) : Host.Outcome State Fault Refusal :=
  .next (s.onHub fun h => h.whenLanes fun h => h.linkAckRx k.val a.toNat)

/-- LINK_NAK_RX (R321). -/
def execLinkNakRx (k : Fin 64) (a : Word) (s : State) : Host.Outcome State Fault Refusal :=
  .next (s.onHub fun h => h.whenLanes fun h => h.linkNakRx k.val a.toNat)

/-- REPLAY_TIMEOUT (R321). -/
def execReplayTimeout (k : Fin 64) (s : State) : Host.Outcome State Fault Refusal :=
  .next (s.onHub fun h => h.whenLanes fun h => h.replayTimeout k.val)

/-- ACK_DELAY (R320). -/
def execAckDelay (k : Fin 64) (s : State) : Host.Outcome State Fault Refusal :=
  .next (s.onHub fun h => h.whenLanes fun h => h.ackDelay k.val)

/-- CREDIT_RX (R325). -/
def execCreditRx (k : Fin 64) (m : CreditMsg) (s : State) : Host.Outcome State Fault Refusal :=
  .next (s.onHub fun h => h.whenUp fun h => h.creditRx k.val m)

/-- CREDIT_REPEAT (R323). -/
def execCreditRepeat (k : Fin 64) (s : State) : Host.Outcome State Fault Refusal :=
  .next (s.onHub fun h => h.whenUp fun h => h.creditRepeat k.val)

/-- CUSTODY_ACK_RX (R326). -/
def execCustodyAckRx (k : Fin 64) (c : List Word) (s : State) : Host.Outcome State Fault Refusal :=
  .next (s.onHub fun h => h.whenUp fun h => h.custodyAckRx k.val c)

/-- TIME_RX (R52). -/
def execTimeRx (k : Fin 64) (kind : PtpKind) (m : PtpMsg) (ingress : Nat) (egress : List (Nat × Nat)) (ts : Nat)
    (s : State) : Host.Outcome State Fault Refusal :=
  .next (s.onHub fun h => h.whenUp fun h => h.timeRx k.val kind { m with ts := ts } ingress egress)

/-- TRIGGER_RX (R342). -/
def execTriggerRx (k : Fin 64) (lseq : Word) (m : TrigFrame)
    (s : State) : Host.Outcome State Fault Refusal :=
  .next (s.onHub fun h => h.whenUp fun h => h.triggerRx k.val lseq.toNat m.group.val m.unit.val m.origin.toNat m.stamp)

/-- HELLO_RX (R338). -/
def execHelloRx (k : Fin 64) (lseq : Word) (m : HelloMsg) (s : State) : Host.Outcome State Fault Refusal :=
  .next (s.onHub fun h => h.whenLanes fun h => h.helloRx k.val lseq.toNat m)

/-- ASSIGN_RX (R339). -/
def execAssignRx (k : Fin 64) (lseq : Word) (route : BitVec 48) (depth : Fin 256)
    (s : State) : Host.Outcome State Fault Refusal :=
  .next (s.onHub fun h => h.whenUp fun h => h.assignRx k.val lseq.toNat route.toNat depth.val)

/-- RACC_REQ_RX (R340). -/
def execRaccReqRx (k : Fin 64) (lseq : Word) (m : RaccMsg) (refused : Bool)
    (s : State) : Host.Outcome State Fault Refusal :=
  .next (s.onHw fun w => w.whenUp fun w => w.raccReqRx k.val lseq.toNat m refused)

/-- RACC_RESP_RX (R340). -/
def execRaccRespRx (k : Fin 64) (lseq : Word) (m : RaccMsg) (s : State) : Host.Outcome State Fault Refusal :=
  .next (s.onHw fun w => w.whenUp fun w => w.raccRespRx k.val lseq.toNat m)

/-- RESET_RX (R341). -/
def execResetRx (k : Fin 64) (lseq : Word) (dest : BitVec 48) (auth : Word)
    (s : State) : Host.Outcome State Fault Refusal :=
  .next (s.onHw fun w => w.whenUp fun w => w.resetRx k.val lseq.toNat dest.toNat auth.toNat)

/-- COMMIT_NOTE_RX (R330). -/
def execCommitNoteRx (k : Fin 64) (lseq : Word) (route : BitVec 48) (stamp : BitVec 96) (streams : List Nat)
    (s : State) : Host.Outcome State Fault Refusal :=
  .next (s.onHub fun h => h.whenUp fun h => h.commitNoteRx k.val lseq.toNat route.toNat stamp streams)

/-- RACC_GO (R345). -/
def execRaccGo (k : Fin 64) (s : State) : Host.Outcome State Fault Refusal :=
  .next (s.onHw fun w => w.hostWr (0x201A4 + 0x400 * k.val) (2 ^ 17) fun w => w.raccGo k.val)

/-- RACC_TIMEOUT (R340). -/
def execRaccTimeout (who : RaccWho) (s : State) : Host.Outcome State Fault Refusal :=
  .next (s.onHw fun w => w.whenUp fun w => w.raccTimeout who)

/-- SET (R444). -/
def execSet (s : State) : Host.Outcome State Fault Refusal :=
  .next (s.onHub fun h => h.hostWr 0xC (2 ^ 21) fun h => h.routeSetWrite)

/-- FRAME_SEND (R319). -/
def execFrameSend (k : Fin 64) (s : State) : Host.Outcome State Fault Refusal :=
  .next (s.onHub fun h => h.whenLanes fun h => h.frameSend k.val)

end Sys2Proof.Machine
end

