-- ==== Sys2Proof/Machine/CmdPower.lean ====
section
/-! DEFINITION. The meanings of the commands of power, reset, start-up, mode, wake and the test pins (17, 19). -/

namespace Sys2Proof.Machine

/-- POWER_ON (R418). -/
def execPowerOn (s : State) : Host.Outcome State Fault Refusal :=
  .next (s.onHub fun h => h.powerOn)

/-- SUPPLY_RESET (R421). -/
def execSupplyReset (s : State) : Host.Outcome State Fault Refusal :=
  .next (s.onHub fun h => h.supplyReset)

/-- RST_N (R419). -/
def execRstN (ns : Nat) (s : State) : Host.Outcome State Fault Refusal :=
  .next (s.onHub fun h => h.rstN ns)

/-- WDT_CORE (R423). -/
def execWdtCore (s : State) : Host.Outcome State Fault Refusal :=
  .next (s.onHub fun h => h.wdtCore)

/-- WDT_WARN (R423). -/
def execWdtWarn (s : State) : Host.Outcome State Fault Refusal :=
  .next (s.onHub fun h => h.wdtWarn)

/-- WDT_HOST (R423). -/
def execWdtHost (s : State) : Host.Outcome State Fault Refusal :=
  .next (s.onHub fun h => h.wdtHost)

/-- WDT_KICK (R423). -/
def execWdtKick (v : Word) (s : State) : Host.Outcome State Fault Refusal :=
  .next (s.onHub fun h => h.hostWr 0x9214 v.toNat fun h => h.wdtKick v.toNat)

/-- RST_KEY (R422). -/
def execRstKey (v : Word) (s : State) : Host.Outcome State Fault Refusal :=
  .next (s.onHub fun h => h.hostWr 0x9204 v.toNat fun h => h.rstKey v.toNat)

/-- RST_KEY_EXPIRY (R422). -/
def execRstKeyExpiry (s : State) : Host.Outcome State Fault Refusal :=
  .next (s.onHub fun h => h.rstKeyExpiry)

/-- SW (R422). -/
def execSwReset (s : State) : Host.Outcome State Fault Refusal :=
  .next (s.onHub fun h => h.hostWr 0x9200 1 fun h => h.swReset)

/-- PARTNER (R422). -/
def execPartnerReset (s : State) : Host.Outcome State Fault Refusal :=
  .next (s.onHub fun h => h.hostWr 0x9200 2 fun h => h.partnerReset)

/-- RELEASE (R416). -/
def execRelease (s : State) : Host.Outcome State Fault Refusal :=
  .next (s.onHub fun h => h.startRelease)

/-- SYSTEM_PLL_LOCKED (R416). -/
def execSystemPllLocked (s : State) : Host.Outcome State Fault Refusal :=
  .next (s.onHub fun h => h.sysLocked)

/-- PLL_FAIL (R29). -/
def execPllFail (which : Fin 18) (s : State) : Host.Outcome State Fault Refusal :=
  .next (s.onHub fun h => h.pllFail which.val)

/-- MODULATOR_PLL_RELOCK (R29). -/
def execModulatorPllRelock (s : State) : Host.Outcome State Fault Refusal :=
  .next (s.onHub fun h => h.modRelock)

/-- GESSO_PASS_COMPLETE (R421). -/
def execGessoPassComplete (s : State) : Host.Outcome State Fault Refusal :=
  .next (s.onHw fun w => w.gessoDone)

/-- CAST_LOADED (R416). -/
def execCastLoaded (s : State) : Host.Outcome State Fault Refusal :=
  .next (s.onHw fun w => w.castLoaded)

/-- SETTINGS_LOADED (R124). -/
def execSettingsLoaded (s : State) : Host.Outcome State Fault Refusal :=
  .next (s.onHw fun w => w.settingsLoaded)

/-- START_UP_COMPLETE (R416). -/
def execStartUpComplete (s : State) : Host.Outcome State Fault Refusal :=
  .next (s.onHw fun w => w.startUpDone)

/-- XTAL_FAIL (R411). -/
def execXtalFail (s : State) : Host.Outcome State Fault Refusal :=
  .next (s.onHub fun h => h.xtalFail)

/-- XTAL_OK (R411). -/
def execXtalOk (s : State) : Host.Outcome State Fault Refusal :=
  .next (s.onHub fun h => h.xtalOk)

/-- MODE_IDLE (R443). -/
def execModeIdle (s : State) : Host.Outcome State Fault Refusal :=
  .next (s.onHw fun w => w.hostWr 4 0x90 fun w => w.modeCmd mIdle)

/-- MODE_DORMANT (R412). -/
def execModeDormant (s : State) : Host.Outcome State Fault Refusal :=
  .next (s.onHw fun w => w.hostWr 4 0x80 fun w => w.modeCmd mDormant)

/-- MODE_MAINTENANCE (R443). -/
def execModeMaintenance (s : State) : Host.Outcome State Fault Refusal :=
  .next (s.onHw fun w => w.hostWr 4 0xF0 fun w => w.modeCmd mMaint)

/-- DORMANT_ENTRY_COMPLETE (R412). -/
def execDormantEntryComplete (s : State) : Host.Outcome State Fault Refusal :=
  .next (s.onHw fun w => w.dormantDone)

/-- TIMER_WAKE (R413). -/
def execTimerWake (s : State) : Host.Outcome State Fault Refusal :=
  .next (s.onHub fun h => h.timerWake)

/-- PIN_WAKE (R413). -/
def execPinWake (pin : Fin 4) (rising : Bool) (s : State) : Host.Outcome State Fault Refusal :=
  .next (s.onHub fun h => h.pinWake pin.val rising)

/-- LINK_WAKE (R413). -/
def execLinkWake (k : Fin 64) (s : State) : Host.Outcome State Fault Refusal :=
  .next (s.onHub fun h => h.linkWake k.val)

/-- WAKE (R413). -/
def execWake (s : State) : Host.Outcome State Fault Refusal :=
  .next (s.onHub fun h => h.hostWr 0x9000 1 fun h => h.hostWake)

/-- WAKE_MEMORY_READY (R414). -/
def execWakeMemoryReady (s : State) : Host.Outcome State Fault Refusal :=
  .next (s.onHw fun w => w.wakeReady)

/-- CLOCK_START (R28). -/
def execClockStart (u : ClkUnit) (s : State) : Host.Outcome State Fault Refusal :=
  .next (s.onHub fun h => h.clockStart u)

/-- LOG_SEQ_WRITE (R428). -/
def execLogSeqWrite (v : Word) (s : State) : Host.Outcome State Fault Refusal :=
  .next (s.onHub fun h => h.hostWr 0x9314 v.toNat fun h => h.logSeqWrite v.toNat)

/-- PWR_CNT_CLR (R446). -/
def execPwrCntClr (s : State) : Host.Outcome State Fault Refusal :=
  .next (s.onHub fun h => h.hostWr 0x9000 2 fun h => h.pwrCntClr)

/-- RST_CNT_CLR (R446). -/
def execRstCntClr (s : State) : Host.Outcome State Fault Refusal :=
  .next (s.onHub fun h => h.hostWr 0x9200 4 fun h => h.rstCntClr)

/-- PLL_LOSES_LOCK (R107). -/
def execPllLosesLock (which : Fin 18) (s : State) : Host.Outcome State Fault Refusal :=
  .next (s.onHub fun h => h.pllLoses which.val)

/-- VPLN_LOSS (R457). -/
def execVplnLoss (s : State) : Host.Outcome State Fault Refusal :=
  .next (s.onHub fun h => h.vplnLoss)

/-- TEST_EN_FALL (R463). -/
def execTestEnFall (s : State) : Host.Outcome State Fault Refusal :=
  .next (s.onHub fun h => h.testEnFall)

/-- TAP_INSTRUCTION_LOAD (R463). -/
def execTapInstructionLoad (op : Fin 64) (testEn : Bool) (s : State) : Host.Outcome State Fault Refusal :=
  .next (s.onHub fun h => h.tapLoad op.val testEn)

end Sys2Proof.Machine
end

