-- ==== Sys2Proof/Machine/CmdTime.lean ====
section
/-! DEFINITION. The meanings of the commands of local time, PTP, pulses and grids (02). -/

namespace Sys2Proof.Machine

/-- STEP (R38). -/
def execStep (s : State) : Host.Outcome State Fault Refusal :=
  .next (s.onHub fun h => h.hostWr 0x1000 0x08 fun h => h.adjStep)

/-- SLEW (R37). -/
def execSlew (s : State) : Host.Outcome State Fault Refusal :=
  .next (s.onHub fun h => h.hostWr 0x1000 0x18 fun h => h.adjSlew)

/-- SLEW_END (R37). -/
def execSlewEnd (s : State) : Host.Outcome State Fault Refusal :=
  .next (s.onHub fun h => h.whenUp fun h => h.slewEnd)

/-- SLEW_ABORT (R37). -/
def execSlewAbort (s : State) : Host.Outcome State Fault Refusal :=
  .next (s.onHub fun h => h.hostWr 0x1000 0x20 fun h => h.slewAbort)

/-- SRC_CHANGE (R45). -/
def execSrcChange (src : Fin 4) (s : State) : Host.Outcome State Fault Refusal :=
  .next (s.onHub fun h => h.hostWr 0x1000 src.val fun h => h.srcChange src)

/-- HOLDOVER_FORCE (R41). -/
def execHoldoverForce (v : Bool) (s : State) : Host.Outcome State Fault Refusal :=
  .next (s.onHub fun h => h.hostWr 0x1000 0x40 fun h => h.holdoverForce v)

/-- INCR_ADJ_WRITE (R36). -/
def execIncrAdjWrite (v : Word) (s : State) : Host.Outcome State Fault Refusal :=
  .next (s.onHub fun h => h.hostWr 0x1008 v.toNat fun h => h.incrWrite v)

/-- SYNC_RX (R48). -/
def execSyncRx (lane : Fin 64) (m : PtpMsg) (ingress : Nat) (egress : List (Nat × Nat))
    (s : State) : Host.Outcome State Fault Refusal :=
  .next (s.onHub fun h => h.whenUp fun h => h.syncRx lane.val m ingress egress)

/-- FOLLOW_UP_RX (R48). -/
def execFollowUpRx (lane : Fin 64) (m : PtpMsg) (ts : Nat) (s : State) : Host.Outcome State Fault Refusal :=
  .next (s.onHub fun h => h.whenUp fun h => h.followUpRx lane.val { m with ts := ts })

/-- DELAY_REQ_RX (R48). -/
def execDelayReqRx (lane : Fin 64) (m : PtpMsg) (ingress : Nat) (egress : List (Nat × Nat))
    (s : State) : Host.Outcome State Fault Refusal :=
  .next (s.onHub fun h => h.whenUp fun h => h.delayReqRx lane.val m ingress egress)

/-- DELAY_RESP_RX (R48). -/
def execDelayRespRx (lane : Fin 64) (m : PtpMsg) (s : State) : Host.Outcome State Fault Refusal :=
  .next (s.onHub fun h => h.whenUp fun h => h.delayRespRx lane.val m)

/-- PDELAY_REQ_RX (R48). -/
def execPdelayReqRx (lane : Fin 64) (m : PtpMsg) (ingress : Nat) (egress : List (Nat × Nat))
    (s : State) : Host.Outcome State Fault Refusal :=
  .next (s.onHub fun h => h.whenUp fun h => h.pdelayReqRx lane.val m ingress egress)

/-- PDELAY_RESP_RX (R48). -/
def execPdelayRespRx (lane : Fin 64) (m : PtpMsg) (times : Nat × List (Nat × Nat)) (s : State) : Host.Outcome State Fault Refusal :=
  .next (s.onHub fun h => h.whenUp fun h => h.pdelayRespRx lane.val m times.1 times.2)

/-- PDELAY_RESP_FOLLOW_UP_RX (R48). -/
def execPdelayRespFollowUpRx (lane : Fin 64) (m : PtpMsg) (s : State) : Host.Outcome State Fault Refusal :=
  .next (s.onHub fun h => h.whenUp fun h => h.pdelayFollowUpRx lane.val m)

/-- ANNOUNCE_RX (R48). -/
def execAnnounceRx (lane : Fin 64) (m : PtpMsg) (s : State) : Host.Outcome State Fault Refusal :=
  .next (s.onHub fun h => h.whenUp fun h => h.announceRx lane.val m)

/-- SIGNALING_MANAGEMENT_RX (R48). -/
def execSignalingManagementRx (lane : Fin 64) (m : PtpMsg) (s : State) : Host.Outcome State Fault Refusal :=
  .next (s.onHub fun h => h.whenUp fun h => h.signalingRx lane.val m)

/-- ANNOUNCE_TIMEOUT (R44). -/
def execAnnounceTimeout (d : Fin 2) (s : State) : Host.Outcome State Fault Refusal :=
  .next (s.onHub fun h => h.whenUp fun h => h.announceTimeout d)

/-- SYNC_SEND (R50). -/
def execSyncSend (port : Fin 64 × Fin 2) (egress : Nat) (s : State) : Host.Outcome State Fault Refusal :=
  .next (s.onHub fun h => h.whenUp fun h => h.syncSend port.1.val port.2.val egress)

/-- TX_TIMESTAMP_RETURN (R50). -/
def execTxTimestampReturn (lane : Fin 64) (seq : Nat) (egress : Nat) (s : State) : Host.Outcome State Fault Refusal :=
  .next (s.onHub fun h => h.whenUp fun h => h.txReturn lane.val seq egress)

/-- ANNOUNCE_SEND (R48). -/
def execAnnounceSend (lane : Fin 64) (d : Fin 2) (s : State) : Host.Outcome State Fault Refusal :=
  .next (s.onHub fun h => h.whenUp fun h => h.announceSend lane.val d.val)

/-- PDELAY_REQ_SEND (R48). -/
def execPdelayReqSend (d : Fin 2) (egress : Nat) (s : State) : Host.Outcome State Fault Refusal :=
  .next (s.onHub fun h => h.whenUp fun h => h.pdelayReqSend d egress)

/-- DELAY_REQ_SEND (R48). -/
def execDelayReqSend (d : Fin 2) (egress : Nat) (s : State) : Host.Outcome State Fault Refusal :=
  .next (s.onHub fun h => h.whenUp fun h => h.delayReqSend d egress)

/-- PPS_IN_EDGE (R47). -/
def execPpsInEdge (e : Bool × Nat) (s : State) : Host.Outcome State Fault Refusal :=
  .next (s.onHub fun h => h.whenUp fun h => h.ppsEdge e.1 e.2)

/-- TOD_ARM (R47). -/
def execTodArm (s : State) : Host.Outcome State Fault Refusal :=
  .next (s.onHub fun h => h.hostWr 0x1098 (2 ^ 31) fun h => h.todArm)

/-- TOD_MISSED (R47). -/
def execTodMissed (s : State) : Host.Outcome State Fault Refusal :=
  .next (s.onHub fun h => h.whenUp fun h => h.todMissed)

/-- PPS_IN_LOST (R47). -/
def execPpsInLost (s : State) : Host.Outcome State Fault Refusal :=
  .next (s.onHub fun h => h.whenUp fun h => h.ppsLost)

/-- PPS_OUT_PULSE (R55). -/
def execPpsOutPulse (s : State) : Host.Outcome State Fault Refusal :=
  .next (s.onHub fun h => h.whenUp fun h => h.ppsPulse)

/-- PPS_OUT_PULSE_END (R55). -/
def execPpsOutPulseEnd (s : State) : Host.Outcome State Fault Refusal :=
  .next (s.onHub fun h => h.whenUp fun h => h.ppsPulseEnd)

/-- TRIG_IN_EDGE (R56). -/
def execTrigInEdge (pin : Fin 4) (rising : Bool) (t : Nat) (s : State) : Host.Outcome State Fault Refusal :=
  .next (s.onHub fun h => h.trigEdge pin.val rising t)

/-- CAP_W0_READ (R56). -/
def execCapW0Read (path : Fin 2) (pin : Fin 4) (s : State) : Host.Outcome State Fault Refusal :=
  .next (s.onHub fun h => h.capW0 path.val pin.val)

/-- TIME_OUT_ARM (R57). -/
def execTimeOutArm (pin : Fin 4) (s : State) : Host.Outcome State Fault Refusal :=
  .next (s.onHub fun h => h.hostWr (0x1100 + 0x20 * pin.val) 8 fun h => h.outArm pin.val)

/-- TIME_OUT_DISARM (R57). -/
def execTimeOutDisarm (pin : Fin 4) (s : State) : Host.Outcome State Fault Refusal :=
  .next (s.onHub fun h => h.hostWr (0x1100 + 0x20 * pin.val) 0x10 fun h => h.outDisarm pin.val)

/-- TIME_OUT_PULSE (R57). -/
def execTimeOutPulse (pin : Fin 4) (n : Nat) (s : State) : Host.Outcome State Fault Refusal :=
  .next (s.onHub fun h => h.whenUp fun h => h.outPulse pin.val n)

/-- TIME_OUT_PULSE_END (R57). -/
def execTimeOutPulseEnd (pin : Fin 4) (s : State) : Host.Outcome State Fault Refusal :=
  .next (s.onHub fun h => h.whenUp fun h => h.outPulseEnd pin.val)

/-- GRID_START (R62). -/
def execGridStart (g : Fin 8) (s : State) : Host.Outcome State Fault Refusal :=
  .next (s.onHub fun h => h.whenUp fun h => h.gridStart g.val)

/-- STOP_INDEX_PASSED (R62). -/
def execStopIndexPassed (g : Fin 8) (s : State) : Host.Outcome State Fault Refusal :=
  .next (s.onHub fun h => h.whenUp fun h => h.gridStopPassed g.val)

/-- PLINTH_REALIGN (R40). -/
def execPlinthRealign (s : State) : Host.Outcome State Fault Refusal :=
  .next (s.onHub fun h => h.realign)

end Sys2Proof.Machine
end

