-- ==== Sys2Proof/Machine/CmdUpdate.lean ====
section
/-! DEFINITION. The meanings of the commands of casts, settings and life cycle (16). -/

namespace Sys2Proof.Machine

/-- UPD_START (R393). -/
def execUpdStart (s : State) : Host.Outcome State Fault Refusal :=
  .next (s.onHw fun w => w.hostWr 0x8000 1 fun w => w.updStart)

/-- UPD_COPY (R393). -/
def execUpdCopy (s : State) : Host.Outcome State Fault Refusal :=
  .next (s.onHw fun w => w.hostWr 0x8000 2 fun w => w.updCopy)

/-- UPD_DATA (R394). -/
def execUpdData (v : Word) (s : State) : Host.Outcome State Fault Refusal :=
  .next (s.onHw fun w => w.hostWr 0x800C v.toNat fun w => w.updData v.toNat)

/-- UPD_ABORT (R396). -/
def execUpdAbort (s : State) : Host.Outcome State Fault Refusal :=
  .next (s.onHub fun h => h.hostWr 0x8000 4 fun h => h.updAbort)

/-- CAST_CHECK_DONE (R389). -/
def execCastCheckDone (flash : Fin 3) (s : State) : Host.Outcome State Fault Refusal :=
  .next (s.onHw fun w => w.whenUp fun w => w.castCheckDone flash)

/-- UPD_POWER_CHECK (R396). -/
def execUpdPowerCheck (supplies : Bool) (holdup : BitVec 16) (s : State) : Host.Outcome State Fault Refusal :=
  .next (s.onHub fun h => h.whenUp fun h => h.powerCheck supplies holdup.toNat)

/-- SCHEDULE (R397). -/
def execSchedule (s : State) : Host.Outcome State Fault Refusal :=
  .next (s.onHw fun w => w.hostWr 0x8000 8 fun w => w.updSchedule)

/-- UPD_CANCEL (R397). -/
def execUpdCancel (s : State) : Host.Outcome State Fault Refusal :=
  .next (s.onHw fun w => w.hostWr 0x8000 0x10 fun w => w.updUnschedule)

/-- ACTIVATION_INSTANT (R398). -/
def execActivationInstant (s : State) : Host.Outcome State Fault Refusal :=
  .next (s.onHw fun w => w.whenUp fun w => w.activate)

/-- CONFIRM (R400). -/
def execConfirm (s : State) : Host.Outcome State Fault Refusal :=
  .next (s.onHw fun w => w.hostWr 0x8000 0x20 fun w => w.confirm)

/-- REVERT (R400). -/
def execRevert (s : State) : Host.Outcome State Fault Refusal :=
  .next (s.onHub fun h => h.hostWr 0x8000 0x40 fun h => h.revert)

/-- PROB_END (R400). -/
def execProbEnd (s : State) : Host.Outcome State Fault Refusal :=
  .next (s.onHub fun h => h.whenUp fun h => h.probationEnd)

/-- STAGE_PREV (R401). -/
def execStagePrev (s : State) : Host.Outcome State Fault Refusal :=
  .next (s.onHw fun w => w.hostWr 0x8000 0x80 fun w => w.stagePrev)

/-- SET_DATA_ACCESS (R403). -/
def execSetDataAccess (path : Fin 2) (wr : Option Word) (s : State) : Host.Outcome State Fault Refusal :=
  .next (s.onHub fun h => h.setAccess path.val wr)

/-- SETTINGS_WRITE (R403). -/
def execSettingsWrite (s : State) : Host.Outcome State Fault Refusal :=
  .next (s.onHw fun w => w.hostWr 0x8068 1 fun w => w.settingsWrite)

/-- SETTINGS_LOAD (R409). -/
def execSettingsLoad (s : State) : Host.Outcome State Fault Refusal :=
  .next (s.onHw fun w => w.hostWr 0x8068 2 fun w => w.settingsLoad)

/-- SETTINGS_WRITE_DONE (R403). -/
def execSettingsWriteDone (s : State) : Host.Outcome State Fault Refusal :=
  .next (s.onHw fun w => w.whenUp fun w => w.settingsDone)

/-- LC_ARM (R407). -/
def execLcArm (v : Word) (s : State) : Host.Outcome State Fault Refusal :=
  .next (s.onHub fun h => h.hostWr 0x8808 v.toNat fun h => h.lcArm v.toNat)

/-- LC_ARM_EXPIRY (R407). -/
def execLcArmExpiry (s : State) : Host.Outcome State Fault Refusal :=
  .next (s.onHub fun h => h.lcArmExpiry)

/-- LC_GO (R407). -/
def execLcGo (target : BitVec 3) (s : State) : Host.Outcome State Fault Refusal :=
  .next (s.onHw fun w => w.hostWr 0x8804 (target.toNat + 8) fun w => (w.onHub fun h => h.set LC_TARGET target.toNat).lcGo)

/-- FACTORY_WRITE (R408). -/
def execFactoryWrite (s : State) : Host.Outcome State Fault Refusal :=
  .next (s.onHw fun w => w.hostWr 0x880C 1 fun w => w.factoryWrite)

/-- UPD_CNT_CLR (R446). -/
def execUpdCntClr (s : State) : Host.Outcome State Fault Refusal :=
  .next (s.onHub fun h => h.hostWr 0x8000 0x100 fun h => h.updCntClr)

end Sys2Proof.Machine
end

