-- ==== Sys2Proof/Machine/Dispatch.lean ====
section
/-! DEFINITION. What each command does: one arm for each constructor. -/

namespace Sys2Proof.Machine

def exec (i : Instr) (s : State) : Host.Outcome State Fault Refusal :=
  match i with
  | .powerOn => Sys2Proof.Machine.execPowerOn s
  | .supplyReset => Sys2Proof.Machine.execSupplyReset s
  | .rstN ns => Sys2Proof.Machine.execRstN ns s
  | .wdtCore => Sys2Proof.Machine.execWdtCore s
  | .wdtWarn => Sys2Proof.Machine.execWdtWarn s
  | .wdtHost => Sys2Proof.Machine.execWdtHost s
  | .wdtKick v => Sys2Proof.Machine.execWdtKick v s
  | .rstKey v => Sys2Proof.Machine.execRstKey v s
  | .rstKeyExpiry => Sys2Proof.Machine.execRstKeyExpiry s
  | .swReset => Sys2Proof.Machine.execSwReset s
  | .partnerReset => Sys2Proof.Machine.execPartnerReset s
  | .release => Sys2Proof.Machine.execRelease s
  | .systemPllLocked => Sys2Proof.Machine.execSystemPllLocked s
  | .pllFail which => Sys2Proof.Machine.execPllFail which s
  | .modulatorPllRelock => Sys2Proof.Machine.execModulatorPllRelock s
  | .laneWakeFail n => Sys2Proof.Machine.execLaneWakeFail n s
  | .gessoPassComplete => Sys2Proof.Machine.execGessoPassComplete s
  | .castLoaded => Sys2Proof.Machine.execCastLoaded s
  | .settingsLoaded => Sys2Proof.Machine.execSettingsLoaded s
  | .startUpComplete => Sys2Proof.Machine.execStartUpComplete s
  | .xtalFail => Sys2Proof.Machine.execXtalFail s
  | .xtalOk => Sys2Proof.Machine.execXtalOk s
  | .modeIdle => Sys2Proof.Machine.execModeIdle s
  | .modeDormant => Sys2Proof.Machine.execModeDormant s
  | .modeMaintenance => Sys2Proof.Machine.execModeMaintenance s
  | .dormantEntryComplete => Sys2Proof.Machine.execDormantEntryComplete s
  | .timerWake => Sys2Proof.Machine.execTimerWake s
  | .pinWake pin rising => Sys2Proof.Machine.execPinWake pin rising s
  | .linkWake k => Sys2Proof.Machine.execLinkWake k s
  | .wake => Sys2Proof.Machine.execWake s
  | .wakeMemoryReady => Sys2Proof.Machine.execWakeMemoryReady s
  | .clockStart u => Sys2Proof.Machine.execClockStart u s
  | .step => Sys2Proof.Machine.execStep s
  | .slew => Sys2Proof.Machine.execSlew s
  | .slewEnd => Sys2Proof.Machine.execSlewEnd s
  | .slewAbort => Sys2Proof.Machine.execSlewAbort s
  | .srcChange src => Sys2Proof.Machine.execSrcChange src s
  | .holdoverForce v => Sys2Proof.Machine.execHoldoverForce v s
  | .incrAdjWrite v => Sys2Proof.Machine.execIncrAdjWrite v s
  | .syncRx lane m ingress egress => Sys2Proof.Machine.execSyncRx lane m ingress egress s
  | .followUpRx lane m ts => Sys2Proof.Machine.execFollowUpRx lane m ts s
  | .delayReqRx lane m ingress egress => Sys2Proof.Machine.execDelayReqRx lane m ingress egress s
  | .delayRespRx lane m => Sys2Proof.Machine.execDelayRespRx lane m s
  | .pdelayReqRx lane m ingress egress => Sys2Proof.Machine.execPdelayReqRx lane m ingress egress s
  | .pdelayRespRx lane m times => Sys2Proof.Machine.execPdelayRespRx lane m times s
  | .pdelayRespFollowUpRx lane m => Sys2Proof.Machine.execPdelayRespFollowUpRx lane m s
  | .announceRx lane m => Sys2Proof.Machine.execAnnounceRx lane m s
  | .signalingManagementRx lane m => Sys2Proof.Machine.execSignalingManagementRx lane m s
  | .announceTimeout d => Sys2Proof.Machine.execAnnounceTimeout d s
  | .syncSend port egress => Sys2Proof.Machine.execSyncSend port egress s
  | .txTimestampReturn lane seq egress => Sys2Proof.Machine.execTxTimestampReturn lane seq egress s
  | .announceSend lane d => Sys2Proof.Machine.execAnnounceSend lane d s
  | .pdelayReqSend d egress => Sys2Proof.Machine.execPdelayReqSend d egress s
  | .delayReqSend d egress => Sys2Proof.Machine.execDelayReqSend d egress s
  | .ppsInEdge e => Sys2Proof.Machine.execPpsInEdge e s
  | .todArm => Sys2Proof.Machine.execTodArm s
  | .todMissed => Sys2Proof.Machine.execTodMissed s
  | .ppsInLost => Sys2Proof.Machine.execPpsInLost s
  | .ppsOutPulse => Sys2Proof.Machine.execPpsOutPulse s
  | .ppsOutPulseEnd => Sys2Proof.Machine.execPpsOutPulseEnd s
  | .trigInEdge pin rising t => Sys2Proof.Machine.execTrigInEdge pin rising t s
  | .glitchFilterEnd pin => Sys2Proof.Machine.execGlitchFilterEnd pin s
  | .capW0Read path pin => Sys2Proof.Machine.execCapW0Read path pin s
  | .timeOutArm pin => Sys2Proof.Machine.execTimeOutArm pin s
  | .timeOutDisarm pin => Sys2Proof.Machine.execTimeOutDisarm pin s
  | .timeOutPulse pin n => Sys2Proof.Machine.execTimeOutPulse pin n s
  | .timeOutPulseEnd pin => Sys2Proof.Machine.execTimeOutPulseEnd pin s
  | .schedCancel slot => Sys2Proof.Machine.execSchedCancel slot s
  | .gridInstant g => Sys2Proof.Machine.execGridInstant g s
  | .gridStart g => Sys2Proof.Machine.execGridStart g s
  | .stopIndexPassed g => Sys2Proof.Machine.execStopIndexPassed g s
  | .muxWrite n m => Sys2Proof.Machine.execMuxWrite n m s
  | .rangeWrite n v => Sys2Proof.Machine.execRangeWrite n v s
  | .rangeLimitWrite n lo hi => Sys2Proof.Machine.execRangeLimitWrite n lo hi s
  | .autorangeStepUp n => Sys2Proof.Machine.execAutorangeStepUp n s
  | .dwellEnd n upHolds lowPeak => Sys2Proof.Machine.execDwellEnd n upHolds lowPeak s
  | .openDeclared n c => Sys2Proof.Machine.execOpenDeclared n c s
  | .openEnded n => Sys2Proof.Machine.execOpenEnded n s
  | .apply n => Sys2Proof.Machine.execApply n s
  | .restore n => Sys2Proof.Machine.execRestore n s
  | .autoRestore => Sys2Proof.Machine.execAutoRestore s
  | .governorWindowEnd draws => Sys2Proof.Machine.execGovernorWindowEnd draws s
  | .fastTrip draws => Sys2Proof.Machine.execFastTrip draws s
  | .foldBack n => Sys2Proof.Machine.execFoldBack n s
  | .foldRetry n => Sys2Proof.Machine.execFoldRetry n s
  | .foldRetryEnd n => Sys2Proof.Machine.execFoldRetryEnd n s
  | .vexcLoss => Sys2Proof.Machine.execVexcLoss s
  | .excBudgetWrite v => Sys2Proof.Machine.execExcBudgetWrite v s
  | .excGroupStart => Sys2Proof.Machine.execExcGroupStart s
  | .overload n => Sys2Proof.Machine.execOverload n s
  | .overloadRecoveryEnd n => Sys2Proof.Machine.execOverloadRecoveryEnd n s
  | .modulatorValid b => Sys2Proof.Machine.execModulatorValid b s
  | .scanStart => Sys2Proof.Machine.execScanStart s
  | .scanTimer => Sys2Proof.Machine.execScanTimer s
  | .scanStop => Sys2Proof.Machine.execScanStop s
  | .hkSettleEnd => Sys2Proof.Machine.execHkSettleEnd s
  | .hkConversionDone raw => Sys2Proof.Machine.execHkConversionDone raw s
  | .injGo j => Sys2Proof.Machine.execInjGo j s
  | .calStart => Sys2Proof.Machine.execCalStart s
  | .calWaitConvDone => Sys2Proof.Machine.execCalWaitConvDone s
  | .calHkSelfDone sum => Sys2Proof.Machine.execCalHkSelfDone sum s
  | .calRefCheckDone sum => Sys2Proof.Machine.execCalRefCheckDone sum s
  | .calSettleEnd => Sys2Proof.Machine.execCalSettleEnd s
  | .calAverageDone m => Sys2Proof.Machine.execCalAverageDone m s
  | .calApply => Sys2Proof.Machine.execCalApply s
  | .calAbort => Sys2Proof.Machine.execCalAbort s
  | .save => Sys2Proof.Machine.execSave s
  | .hkPatDataAccess path wr => Sys2Proof.Machine.execHkPatDataAccess path wr s
  | .check => Sys2Proof.Machine.execCheck s
  | .reload => Sys2Proof.Machine.execReload s
  | .chainRestart n => Sys2Proof.Machine.execChainRestart n s
  | .demodPhaseWrite n v => Sys2Proof.Machine.execDemodPhaseWrite n v s
  | .dcbKWrite n k => Sys2Proof.Machine.execDcbKWrite n k s
  | .dcbFreezeWrite n v => Sys2Proof.Machine.execDcbFreezeWrite n v s
  | .dcbEstWrite n v => Sys2Proof.Machine.execDcbEstWrite n v s
  | .outputReady n => Sys2Proof.Machine.execOutputReady n s
  | .engineeringWordReady n => Sys2Proof.Machine.execEngineeringWordReady n s
  | .linLoad n => Sys2Proof.Machine.execLinLoad n s
  | .trgArm t => Sys2Proof.Machine.execTrgArm t s
  | .trgDisarm t => Sys2Proof.Machine.execTrgDisarm t s
  | .force t => Sys2Proof.Machine.execForce t s
  | .armAll => Sys2Proof.Machine.execArmAll s
  | .disarmAll => Sys2Proof.Machine.execDisarmAll s
  | .autoTimeout t => Sys2Proof.Machine.execAutoTimeout t s
  | .rearmEnd t => Sys2Proof.Machine.execRearmEnd t s
  | .trigOutPulseEnd pin => Sys2Proof.Machine.execTrigOutPulseEnd pin s
  | .frameInputComplete e => Sys2Proof.Machine.execFrameInputComplete e s
  | .frameDone e => Sys2Proof.Machine.execFrameDone e s
  | .engFault e code task addr => Sys2Proof.Machine.execEngFault e code task addr s
  | .hang e task addr => Sys2Proof.Machine.execHang e task addr s
  | .engRestart e => Sys2Proof.Machine.execEngRestart e s
  | .halt e => Sys2Proof.Machine.execHalt e s
  | .restartComplete e ok => Sys2Proof.Machine.execRestartComplete e ok s
  | .winDataAccess path e wr => Sys2Proof.Machine.execWinDataAccess path e wr s
  | .paramSwap e => Sys2Proof.Machine.execParamSwap e s
  | .taskQuery e => Sys2Proof.Machine.execTaskQuery e s
  | .detectReset e => Sys2Proof.Machine.execDetectReset e s
  | .detectSet e => Sys2Proof.Machine.execDetectSet e s
  | .lockTry path lock => Sys2Proof.Machine.execLockTry path lock s
  | .lockRelease lock => Sys2Proof.Machine.execLockRelease lock s
  | .lockBreak lock => Sys2Proof.Machine.execLockBreak lock s
  | .reliefContribution q => Sys2Proof.Machine.execReliefContribution q s
  | .reliefDeadline slot => Sys2Proof.Machine.execReliefDeadline slot s
  | .cmpAttemptDone fault => Sys2Proof.Machine.execCmpAttemptDone fault s
  | .cmpPageGranted => Sys2Proof.Machine.execCmpPageGranted s
  | .cmpStallLimit => Sys2Proof.Machine.execCmpStallLimit s
  | .dcmpGo => Sys2Proof.Machine.execDcmpGo s
  | .dcmpAbort out => Sys2Proof.Machine.execDcmpAbort out s
  | .dcmpJobDone => Sys2Proof.Machine.execDcmpJobDone s
  | .scrubPass ce ues => Sys2Proof.Machine.execScrubPass ce ues s
  | .windowAccess path off wr err => Sys2Proof.Machine.execWindowAccess path off wr err s
  | .starved q => Sys2Proof.Machine.execStarved q s
  | .gapRecordSlotObtained q => Sys2Proof.Machine.execGapRecordSlotObtained q s
  | .pushLen q n => Sys2Proof.Machine.execPushLen q n s
  | .push q v => Sys2Proof.Machine.execPush q v s
  | .popLoRead path q => Sys2Proof.Machine.execPopLoRead path q s
  | .ack q v => Sys2Proof.Machine.execAck q v s
  | .replay q => Sys2Proof.Machine.execReplay q s
  | .flush q => Sys2Proof.Machine.execFlush q s
  | .flushComplete q => Sys2Proof.Machine.execFlushComplete q s
  | .dmaGo c => Sys2Proof.Machine.execDmaGo c s
  | .dmaResume c => Sys2Proof.Machine.execDmaResume c s
  | .dmaAbort c => Sys2Proof.Machine.execDmaAbort c s
  | .dmaDescriptorDone c wait delayed ext => Sys2Proof.Machine.execDmaDescriptorDone c wait delayed ext s
  | .dmaLockRetry c => Sys2Proof.Machine.execDmaLockRetry c s
  | .dmaFault c cause off ext => Sys2Proof.Machine.execDmaFault c cause off ext s
  | .arbitrationRound r t ends withdrawn new => Sys2Proof.Machine.execArbitrationRound r t ends withdrawn new s
  | .quotaWindowEnd => Sys2Proof.Machine.execQuotaWindowEnd s
  | .starve r who => Sys2Proof.Machine.execStarve r who s
  | .refusedOverload r who off ext => Sys2Proof.Machine.execRefusedOverload r who off ext s
  | .arbPrioWrite v => Sys2Proof.Machine.execArbPrioWrite v s
  | .linkPlanWrite n what v => Sys2Proof.Machine.execLinkPlanWrite n what v s
  | .signalDetect k => Sys2Proof.Machine.execSignalDetect k s
  | .cdrLock n => Sys2Proof.Machine.execCdrLock n s
  | .slipStep n found => Sys2Proof.Machine.execSlipStep n found s
  | .slipWrite n v run => Sys2Proof.Machine.execSlipWrite n v run s
  | .autoPol n => Sys2Proof.Machine.execAutoPol n s
  | .adaptationDone n eye eyes => Sys2Proof.Machine.execAdaptationDone n eye eyes s
  | .trainRx n head width pos ready => Sys2Proof.Machine.execTrainRx n head width pos ready s
  | .markerRx k skew => Sys2Proof.Machine.execMarkerRx k skew s
  | .trainTimeout k => Sys2Proof.Machine.execTrainTimeout k s
  | .backoffEnd k => Sys2Proof.Machine.execBackoffEnd k s
  | .quietProbe k => Sys2Proof.Machine.execQuietProbe k s
  | .los n => Sys2Proof.Machine.execLos n s
  | .blockLockLoss n => Sys2Proof.Machine.execBlockLockLoss n s
  | .hiBerWindowEnd n bad => Sys2Proof.Machine.execHiBerWindowEnd n bad s
  | .hiBerTimeout n => Sys2Proof.Machine.execHiBerTimeout n s
  | .lpEntry k => Sys2Proof.Machine.execLpEntry k s
  | .lpReqRx n => Sys2Proof.Machine.execLpReqRx n s
  | .laneWake k => Sys2Proof.Machine.execLaneWake k s
  | .wakeEnd k => Sys2Proof.Machine.execWakeEnd k s
  | .wakeRx n locked => Sys2Proof.Machine.execWakeRx n locked s
  | .lpFail n => Sys2Proof.Machine.execLpFail n s
  | .markerSend k => Sys2Proof.Machine.execMarkerSend k s
  | .idleColumnSend k => Sys2Proof.Machine.execIdleColumnSend k s
  | .retrain n => Sys2Proof.Machine.execRetrain n s
  | .errInject n => Sys2Proof.Machine.execErrInject n s
  | .prbsSync n => Sys2Proof.Machine.execPrbsSync n s
  | .syncLost n bits errs => Sys2Proof.Machine.execSyncLost n bits errs s
  | .ethFrameRx k kind src kfid frag fcount => Sys2Proof.Machine.execEthFrameRx k kind src kfid frag fcount s
  | .fragmentTimeout k => Sys2Proof.Machine.execFragmentTimeout k s
  | .dataRx k vc lseq cseq flags body => Sys2Proof.Machine.execDataRx k vc lseq cseq flags body s
  | .erroredFrameRx k crc f => Sys2Proof.Machine.execErroredFrameRx k crc f s
  | .linkAckRx k a => Sys2Proof.Machine.execLinkAckRx k a s
  | .linkNakRx k a => Sys2Proof.Machine.execLinkNakRx k a s
  | .replayTimeout k => Sys2Proof.Machine.execReplayTimeout k s
  | .ackDelay k => Sys2Proof.Machine.execAckDelay k s
  | .creditRx k m => Sys2Proof.Machine.execCreditRx k m s
  | .creditRepeat k => Sys2Proof.Machine.execCreditRepeat k s
  | .custodyAckRx k c => Sys2Proof.Machine.execCustodyAckRx k c s
  | .timeRx k kind m ingress egress ts => Sys2Proof.Machine.execTimeRx k kind m ingress egress ts s
  | .triggerRx k lseq m => Sys2Proof.Machine.execTriggerRx k lseq m s
  | .helloRx k lseq m => Sys2Proof.Machine.execHelloRx k lseq m s
  | .assignRx k lseq route depth => Sys2Proof.Machine.execAssignRx k lseq route depth s
  | .raccReqRx k lseq m refused => Sys2Proof.Machine.execRaccReqRx k lseq m refused s
  | .raccRespRx k lseq m => Sys2Proof.Machine.execRaccRespRx k lseq m s
  | .resetRx k lseq dest auth => Sys2Proof.Machine.execResetRx k lseq dest auth s
  | .commitNoteRx k lseq route stamp streams => Sys2Proof.Machine.execCommitNoteRx k lseq route stamp streams s
  | .raccGo k => Sys2Proof.Machine.execRaccGo k s
  | .raccTimeout who => Sys2Proof.Machine.execRaccTimeout who s
  | .heartbeatSend => Sys2Proof.Machine.execHeartbeatSend s
  | .heartbeatRx k lseq head route body => Sys2Proof.Machine.execHeartbeatRx k lseq head route body s
  | .samplesRx k m => Sys2Proof.Machine.execSamplesRx k m s
  | .timemapRx k lseq edge map => Sys2Proof.Machine.execTimemapRx k lseq edge map s
  | .digestRx k lseq window entries => Sys2Proof.Machine.execDigestRx k lseq window entries s
  | .rangeStepEvent k lseq n r edge => Sys2Proof.Machine.execRangeStepEvent k lseq n r edge s
  | .regWriteEvent k lseq edge w => Sys2Proof.Machine.execRegWriteEvent k lseq edge w s
  | .triggerEvent k lseq u source forced stamp => Sys2Proof.Machine.execTriggerEvent k lseq u source forced stamp s
  | .shedEvent k lseq n e => Sys2Proof.Machine.execShedEvent k lseq n e s
  | .patinaEvent k lseq slot edge offset gain => Sys2Proof.Machine.execPatinaEvent k lseq slot edge offset gain s
  | .swapEvent k lseq stamp => Sys2Proof.Machine.execSwapEvent k lseq stamp s
  | .duplexSyncPulse stamp edge => Sys2Proof.Machine.execDuplexSyncPulse stamp edge s
  | .digestReady kind id rest window => Sys2Proof.Machine.execDigestReady kind id rest window s
  | .digestMissing => Sys2Proof.Machine.execDigestMissing s
  | .codesOverdue t => Sys2Proof.Machine.execCodesOverdue t s
  | .syncPulseLoss => Sys2Proof.Machine.execSyncPulseLoss s
  | .heartbeatLoss => Sys2Proof.Machine.execHeartbeatLoss s
  | .driverStart => Sys2Proof.Machine.execDriverStart s
  | .swap => Sys2Proof.Machine.execSwap s
  | .swapCancel => Sys2Proof.Machine.execSwapCancel s
  | .swapInstant => Sys2Proof.Machine.execSwapInstant s
  | .clearSuspect => Sys2Proof.Machine.execClearSuspect s
  | .loadStart => Sys2Proof.Machine.execLoadStart s
  | .armCopy => Sys2Proof.Machine.execArmCopy s
  | .armLoadData v => Sys2Proof.Machine.execArmLoadData v s
  | .validationDone => Sys2Proof.Machine.execValidationDone s
  | .discard => Sys2Proof.Machine.execDiscard s
  | .commit => Sys2Proof.Machine.execCommit s
  | .cancelCommit => Sys2Proof.Machine.execCancelCommit s
  | .commitPrestart => Sys2Proof.Machine.execCommitPrestart s
  | .commitInstant => Sys2Proof.Machine.execCommitInstant s
  | .withdraw => Sys2Proof.Machine.execWithdraw s
  | .cancelWithdraw => Sys2Proof.Machine.execCancelWithdraw s
  | .withdrawalInstant => Sys2Proof.Machine.execWithdrawalInstant s
  | .drainLimitExpired => Sys2Proof.Machine.execDrainLimitExpired s
  | .updStart => Sys2Proof.Machine.execUpdStart s
  | .updCopy => Sys2Proof.Machine.execUpdCopy s
  | .updData v => Sys2Proof.Machine.execUpdData v s
  | .updAbort => Sys2Proof.Machine.execUpdAbort s
  | .castCheckDone flash => Sys2Proof.Machine.execCastCheckDone flash s
  | .updPowerCheck supplies holdup => Sys2Proof.Machine.execUpdPowerCheck supplies holdup s
  | .schedule => Sys2Proof.Machine.execSchedule s
  | .updCancel => Sys2Proof.Machine.execUpdCancel s
  | .activationInstant => Sys2Proof.Machine.execActivationInstant s
  | .confirm => Sys2Proof.Machine.execConfirm s
  | .revert => Sys2Proof.Machine.execRevert s
  | .probEnd => Sys2Proof.Machine.execProbEnd s
  | .stagePrev => Sys2Proof.Machine.execStagePrev s
  | .setDataAccess path wr => Sys2Proof.Machine.execSetDataAccess path wr s
  | .settingsWrite => Sys2Proof.Machine.execSettingsWrite s
  | .settingsLoad => Sys2Proof.Machine.execSettingsLoad s
  | .settingsWriteDone => Sys2Proof.Machine.execSettingsWriteDone s
  | .lcArm v => Sys2Proof.Machine.execLcArm v s
  | .lcArmExpiry => Sys2Proof.Machine.execLcArmExpiry s
  | .lcGo target => Sys2Proof.Machine.execLcGo target s
  | .factoryWrite => Sys2Proof.Machine.execFactoryWrite s
  | .logSeqWrite v => Sys2Proof.Machine.execLogSeqWrite v s
  | .set => Sys2Proof.Machine.execSet s
  | .write32 addr v => Sys2Proof.Machine.execWrite32 addr v s
  | .read32 addr => Sys2Proof.Machine.execRead32 addr s
  | .write64 addr v u => Sys2Proof.Machine.execWrite64 addr v u s
  | .read64 addr => Sys2Proof.Machine.execRead64 addr s
  | .spiReadTimeout => Sys2Proof.Machine.execSpiReadTimeout s
  | .spiCsRise c => Sys2Proof.Machine.execSpiCsRise c s
  | .postedWriteApply => Sys2Proof.Machine.execPostedWriteApply s
  | .registerWrite addr v => Sys2Proof.Machine.execRegisterWrite addr v s
  | .rsLowRead path addr => Sys2Proof.Machine.execRsLowRead path addr s
  | .rsHighRead path addr => Sys2Proof.Machine.execRsHighRead path addr s
  | .lostClr pin => Sys2Proof.Machine.execLostClr pin s
  | .shedClr => Sys2Proof.Machine.execShedClr s
  | .excCntClr n => Sys2Proof.Machine.execExcCntClr n s
  | .chainCntClr n => Sys2Proof.Machine.execChainCntClr n s
  | .linCntClr n => Sys2Proof.Machine.execLinCntClr n s
  | .hkCntClr => Sys2Proof.Machine.execHkCntClr s
  | .acqCntClr => Sys2Proof.Machine.execAcqCntClr s
  | .trgCntClr t => Sys2Proof.Machine.execTrgCntClr t s
  | .engCntClr e => Sys2Proof.Machine.execEngCntClr e s
  | .rlfCntClr => Sys2Proof.Machine.execRlfCntClr s
  | .cmpCntClr => Sys2Proof.Machine.execCmpCntClr s
  | .dcmpCntClr => Sys2Proof.Machine.execDcmpCntClr s
  | .memCntClr => Sys2Proof.Machine.execMemCntClr s
  | .dmaCntClr c => Sys2Proof.Machine.execDmaCntClr c s
  | .qCntClr q => Sys2Proof.Machine.execQCntClr q s
  | .arbCntClr => Sys2Proof.Machine.execArbCntClr s
  | .laneCntClr n => Sys2Proof.Machine.execLaneCntClr n s
  | .linkCntClr n => Sys2Proof.Machine.execLinkCntClr n s
  | .dupCntClr => Sys2Proof.Machine.execDupCntClr s
  | .armCntClr => Sys2Proof.Machine.execArmCntClr s
  | .updCntClr => Sys2Proof.Machine.execUpdCntClr s
  | .pwrCntClr => Sys2Proof.Machine.execPwrCntClr s
  | .rstCntClr => Sys2Proof.Machine.execRstCntClr s
  | .frameSend k => Sys2Proof.Machine.execFrameSend k s
  | .samplesSend first => Sys2Proof.Machine.execSamplesSend first s
  | .timemapSend m => Sys2Proof.Machine.execTimemapSend m s
  | .pllLosesLock which => Sys2Proof.Machine.execPllLosesLock which s
  | .lanePllRelock q => Sys2Proof.Machine.execLanePllRelock q s
  | .vexcRestored => Sys2Proof.Machine.execVexcRestored s
  | .vplnLoss => Sys2Proof.Machine.execVplnLoss s
  | .plinthRealign => Sys2Proof.Machine.execPlinthRealign s
  | .testEnFall => Sys2Proof.Machine.execTestEnFall s
  | .tapInstructionLoad op testEn => Sys2Proof.Machine.execTapInstructionLoad op testEn s

end Sys2Proof.Machine
end

