-- ==== Sys2Proof/Machine/Step.lean ====
section
/-! DEFINITION. One step: the command at the front of the queue acts, or time passes where none waits. -/

namespace Sys2Proof.Machine

/-- One step (DESIGN CHOICE, log entry 67). -/
def step (s : State) : Host.Outcome State Fault Refusal :=
  match s.pending with
  | [] => .next (s.onHub Hub.idle)
  | c :: rest => exec c (s.queue rest)

/-- The command a word spells, at the front of the queue (DESIGN CHOICE, log entry 6). -/
def State.withFetchWord (s : State) (nbits w : Nat) : State :=
  match decodeTableWord nbits w with
  | some c => s.queue (c :: s.pending)
  | none => s

end Sys2Proof.Machine
end

