-- ==== Sys2Proof/WellFormed.lean ====
section
/-! DEFINITION. Which commands are well formed: the bounds the spec gives the operands that are not bounded by their type. -/

namespace Sys2Proof.Machine

/-- An instant lies in local time's range (R34). -/
def instantOk (t : Nat) : Bool := decide (t < timeWrap)

/-- A correction or residence time fits 64 signed bits of 2^-16 ns (R48). -/
def corrOk (c : Int) : Bool := decide (-(2 ^ 63) ≤ c) && decide (c < 2 ^ 63)

/-- The fields of a PTP message (R48). -/
def PtpMsg.ok (m : PtpMsg) : Bool :=
  decide (m.domain < 2 ^ 8) && decide (m.sdo < 2 ^ 12) && decide (m.seq < 2 ^ 16) && corrOk m.corr && instantOk m.ts && decide (m.steps < 2 ^ 16)
    && decide (-(2 ^ 15) ≤ m.utc) && decide (m.utc < 2 ^ 15) && decide (m.clockId < 2 ^ 64) && decide (m.port < 2 ^ 16) && decide (m.cls < 2 ^ 8)
    && decide (m.prio1 < 2 ^ 8)

/-- The stamps at which a message leaves: ports among the lanes, instants of local time. -/
def egressOk (l : List (Nat × Nat)) : Bool := l.all fun e => decide (e.1 < 64) && instantOk e.2

/-- Numbers below a bound, strictly rising. -/
def rising (b : Nat) : List Nat → Bool
  | [] => true
  | [x] => decide (x < b)
  | x :: y :: t => decide (x < y) && rising b (y :: t)

/-- Draws by channel, each channel once, each in the 32 bits of its register. -/
def drawsOk (l : List (Nat × Nat)) : Bool := rising 192 (l.map (·.1)) && l.all fun d => decide (d.2 < 2 ^ 32)

/-- A CREDIT (R323): an entry for each of the four data VCs. -/
def CreditMsg.ok (m : CreditMsg) : Bool :=
  decide (m.pkts.length = 4) && decide (m.words.length = 4) && decide (m.limP.length = 4) && decide (m.limW.length = 4)
    && decide (m.freed < 2 ^ 32)

/-- A TRIGGER (R342). -/
def TrigMsg.ok (m : TrigMsg) : Bool := decide (m.group < 2 ^ 8) && decide (m.unit < 32) && decide (m.origin < 2 ^ 48) && instantOk m.time

/-- A HELLO (R338). -/
def HelloMsg.ok (m : HelloMsg) : Bool :=
  decide (m.route < 2 ^ 48) && decide (m.depth ≤ 8) && decide (m.hw < 2 ^ 16) && decide (m.rev < 2 ^ 8) && decide (m.role < 4)
    && decide (m.lead < 64) && (m.width == 1 || m.width == 2 || m.width == 4)

/-- A RACC_REQ or RACC_RESP (R340). -/
def RaccMsg.ok (m : RaccMsg) : Bool :=
  decide (m.dest < 2 ^ 48) && decide (m.src < 2 ^ 48) && decide (m.tag < 2 ^ 16) && decide (m.op < 2 ^ 8) && decide (m.status < 2 ^ 8)
    && decide (m.addr < 2 ^ 32) && decide (m.len < 2 ^ 16) && decide (m.data.length ≤ 1024)

end Sys2Proof.Machine

namespace Sys2Proof

open Sys2Proof.Machine

/-- The operands of a command lie within the bounds the spec gives them. -/
def Instr.wf : Instr → Bool
  | .powerOn => true
  | .supplyReset => true
  | .rstN _ => true
  | .wdtCore => true
  | .wdtWarn => true
  | .wdtHost => true
  | .wdtKick _ => true
  | .rstKey _ => true
  | .rstKeyExpiry => true
  | .swReset => true
  | .partnerReset => true
  | .release => true
  | .systemPllLocked => true
  | .pllFail _ => true
  | .modulatorPllRelock => true
  | .laneWakeFail _ => true
  | .gessoPassComplete => true
  | .castLoaded => true
  | .settingsLoaded => true
  | .startUpComplete => true
  | .xtalFail => true
  | .xtalOk => true
  | .modeIdle => true
  | .modeDormant => true
  | .modeMaintenance => true
  | .dormantEntryComplete => true
  | .timerWake => true
  | .pinWake _ _ => true
  | .linkWake _ => true
  | .wake => true
  | .wakeMemoryReady => true
  | .clockStart _ => true
  | .step => true
  | .slew => true
  | .slewEnd => true
  | .slewAbort => true
  | .srcChange _ => true
  | .holdoverForce _ => true
  | .incrAdjWrite _ => true
  | .syncRx _ m ingress egress => m.ok && instantOk ingress && egressOk egress
  | .followUpRx _ m ts => m.ok && instantOk ts
  | .delayReqRx _ m ingress egress => m.ok && instantOk ingress && egressOk egress
  | .delayRespRx _ m => m.ok
  | .pdelayReqRx _ m ingress egress => m.ok && instantOk ingress && egressOk egress
  | .pdelayRespRx _ m times => m.ok && instantOk times.1 && egressOk times.2
  | .pdelayRespFollowUpRx _ m => m.ok
  | .announceRx _ m => m.ok
  | .signalingManagementRx _ m => m.ok
  | .announceTimeout _ => true
  | .syncSend _ egress => instantOk egress
  | .txTimestampReturn _ seq egress => decide (seq < 2 ^ 16) && instantOk egress
  | .announceSend _ _ => true
  | .pdelayReqSend _ egress => instantOk egress
  | .delayReqSend _ egress => instantOk egress
  | .ppsInEdge e => instantOk e.2
  | .todArm => true
  | .todMissed => true
  | .ppsInLost => true
  | .ppsOutPulse => true
  | .ppsOutPulseEnd => true
  | .trigInEdge _ _ t => instantOk t
  | .glitchFilterEnd _ => true
  | .capW0Read _ _ => true
  | .timeOutArm _ => true
  | .timeOutDisarm _ => true
  | .timeOutPulse _ _ => true
  | .timeOutPulseEnd _ => true
  | .schedCancel _ => true
  | .gridInstant _ => true
  | .gridStart _ => true
  | .stopIndexPassed _ => true
  | .muxWrite _ _ => true
  | .rangeWrite _ _ => true
  | .rangeLimitWrite _ _ _ => true
  | .autorangeStepUp _ => true
  | .dwellEnd _ _ _ => true
  | .openDeclared _ c => instantOk c.2
  | .openEnded n => instantOk n.2
  | .apply _ => true
  | .restore _ => true
  | .autoRestore => true
  | .governorWindowEnd draws => drawsOk draws
  | .fastTrip draws => drawsOk draws
  | .foldBack _ => true
  | .foldRetry _ => true
  | .foldRetryEnd _ => true
  | .vexcLoss => true
  | .excBudgetWrite _ => true
  | .excGroupStart => true
  | .overload _ => true
  | .overloadRecoveryEnd _ => true
  | .modulatorValid _ => true
  | .scanStart => true
  | .scanTimer => true
  | .scanStop => true
  | .hkSettleEnd => true
  | .hkConversionDone _ => true
  | .injGo _ => true
  | .calStart => true
  | .calWaitConvDone => true
  | .calHkSelfDone sum => decide (sum.natAbs ≤ 256 * 2 ^ 15)
  | .calRefCheckDone sum => decide (sum < 64 * 2 ^ 16)
  | .calSettleEnd => true
  | .calAverageDone m => rising 192 (m.map (·.1))
  | .calApply => true
  | .calAbort => true
  | .save => true
  | .hkPatDataAccess _ _ => true
  | .check => true
  | .reload => true
  | .chainRestart _ => true
  | .demodPhaseWrite _ _ => true
  | .dcbKWrite _ _ => true
  | .dcbFreezeWrite _ _ => true
  | .dcbEstWrite _ _ => true
  | .outputReady _ => true
  | .engineeringWordReady _ => true
  | .linLoad _ => true
  | .trgArm _ => true
  | .trgDisarm _ => true
  | .force _ => true
  | .armAll => true
  | .disarmAll => true
  | .autoTimeout _ => true
  | .rearmEnd _ => true
  | .trigOutPulseEnd _ => true
  | .frameInputComplete _ => true
  | .frameDone _ => true
  | .engFault _ _ _ _ => true
  | .hang _ _ _ => true
  | .engRestart _ => true
  | .halt _ => true
  | .restartComplete _ _ => true
  | .winDataAccess _ _ _ => true
  | .paramSwap _ => true
  | .taskQuery _ => true
  | .detectReset _ => true
  | .detectSet _ => true
  | .lockTry _ _ => true
  | .lockRelease _ => true
  | .lockBreak _ => true
  | .reliefContribution _ => true
  | .reliefDeadline _ => true
  | .cmpAttemptDone _ => true
  | .cmpPageGranted => true
  | .cmpStallLimit => true
  | .dcmpGo => true
  | .dcmpAbort out => decide (out < 2 ^ 28)
  | .dcmpJobDone => true
  | .scrubPass _ ues => rising (2 ^ 28) (ues.map (·.val))
  | .windowAccess _ _ _ _ => true
  | .starved _ => true
  | .gapRecordSlotObtained _ => true
  | .pushLen _ _ => true
  | .push _ _ => true
  | .popLoRead _ _ => true
  | .ack _ _ => true
  | .replay _ => true
  | .flush _ => true
  | .flushComplete _ => true
  | .dmaGo _ => true
  | .dmaResume _ => true
  | .dmaAbort _ => true
  | .dmaDescriptorDone _ wait _ _ => decide (wait < 2 ^ 32)
  | .dmaLockRetry _ => true
  | .dmaFault _ _ _ _ => true
  | .arbitrationRound _ t _ withdrawn new => instantOk t && rising 64 (withdrawn.map (·.val)) && new.all fun a => decide (1 ≤ a.words)
  | .quotaWindowEnd => true
  | .starve _ _ => true
  | .refusedOverload _ _ _ _ => true
  | .arbPrioWrite _ => true
  | .linkPlanWrite _ _ _ => true
  | .signalDetect _ => true
  | .cdrLock _ => true
  | .slipStep _ _ => true
  | .slipWrite _ _ run => decide (run ≤ 64)
  | .autoPol _ => true
  | .adaptationDone _ _ eyes => decide (eyes.length = 16)
  | .trainRx _ _ _ _ _ => true
  | .markerRx _ skew => decide (skew < 2 ^ 16)
  | .trainTimeout _ => true
  | .backoffEnd _ => true
  | .quietProbe _ => true
  | .los _ => true
  | .blockLockLoss _ => true
  | .hiBerWindowEnd _ bad => decide (bad < 2 ^ 32)
  | .hiBerTimeout _ => true
  | .lpEntry _ => true
  | .lpReqRx _ => true
  | .laneWake _ => true
  | .wakeEnd _ => true
  | .wakeRx _ _ => true
  | .lpFail _ => true
  | .markerSend _ => true
  | .idleColumnSend _ => true
  | .retrain _ => true
  | .errInject _ => true
  | .prbsSync _ => true
  | .syncLost _ bits errs => decide (errs ≤ bits)
  | .ethFrameRx _ _ _ _ _ _ => true
  | .fragmentTimeout _ => true
  | .dataRx _ _ _ _ _ body => decide (1 ≤ body.length) && decide (body.length ≤ 16440)
  | .erroredFrameRx _ _ f => f.data.all fun f => decide (f.lseq < 2 ^ 32) && decide (f.vc < 4) && decide (f.len ≤ 16440)
      && decide (f.head.length ≤ min 64 f.len)
  | .linkAckRx _ _ => true
  | .linkNakRx _ _ => true
  | .replayTimeout _ => true
  | .ackDelay _ => true
  | .creditRx _ m => m.ok
  | .creditRepeat _ => true
  | .custodyAckRx _ c => decide (c.length = 4)
  | .timeRx _ _ m ingress egress ts => m.ok && instantOk ingress && egressOk egress && instantOk ts
  | .triggerRx _ _ _ => true
  | .helloRx _ _ m => m.ok
  | .assignRx _ _ _ _ => true
  | .raccReqRx _ _ m _ => m.ok
  | .raccRespRx _ _ m => m.ok
  | .resetRx _ _ _ _ => true
  | .commitNoteRx _ _ _ _ streams => rising 256 streams
  | .raccGo _ => true
  | .raccTimeout _ => true
  | .heartbeatSend => true
  | .heartbeatRx _ _ _ _ _ => true
  | .samplesRx _ m => decide (m.first < 2 ^ 64) && m.codes.length == 4 && m.codes.all fun l => l.length == 192 && l.all (decide <| · < 64)
  | .timemapRx _ _ edge map => decide (map.2 < 2 ^ 64) && decide (edge < 2 ^ 64) && decide (edge % 1024 = 0) && instantOk map.1
  | .digestRx _ _ _ entries => decide (1 ≤ entries.length) && decide (entries.length ≤ 76)
  | .rangeStepEvent _ _ _ _ _ => true
  | .regWriteEvent _ _ _ _ => true
  | .triggerEvent _ _ _ _ _ _ => true
  | .shedEvent _ _ _ _ => true
  | .patinaEvent _ _ _ _ _ _ => true
  | .swapEvent _ _ _ => true
  | .duplexSyncPulse stamp edge => instantOk stamp && decide (edge % 1024 = 0)
  | .digestReady kind id rest _ => decide (rest.length ≤ 75) && decide ((kind, id) :: rest).Nodup
  | .digestMissing => true
  | .codesOverdue t => instantOk t
  | .syncPulseLoss => true
  | .heartbeatLoss => true
  | .driverStart => true
  | .swap => true
  | .swapCancel => true
  | .swapInstant => true
  | .clearSuspect => true
  | .loadStart => true
  | .armCopy => true
  | .armLoadData _ => true
  | .validationDone => true
  | .discard => true
  | .commit => true
  | .cancelCommit => true
  | .commitPrestart => true
  | .commitInstant => true
  | .withdraw => true
  | .cancelWithdraw => true
  | .withdrawalInstant => true
  | .drainLimitExpired => true
  | .updStart => true
  | .updCopy => true
  | .updData _ => true
  | .updAbort => true
  | .castCheckDone _ => true
  | .updPowerCheck _ _ => true
  | .schedule => true
  | .updCancel => true
  | .activationInstant => true
  | .confirm => true
  | .revert => true
  | .probEnd => true
  | .stagePrev => true
  | .setDataAccess _ _ => true
  | .settingsWrite => true
  | .settingsLoad => true
  | .settingsWriteDone => true
  | .lcArm _ => true
  | .lcArmExpiry => true
  | .lcGo _ => true
  | .factoryWrite => true
  | .logSeqWrite _ => true
  | .set => true
  | .write32 _ _ => true
  | .read32 _ => true
  | .write64 _ _ _ => true
  | .read64 _ => true
  | .spiReadTimeout => true
  | .spiCsRise _ => true
  | .postedWriteApply => true
  | .registerWrite _ _ => true
  | .rsLowRead _ _ => true
  | .rsHighRead _ _ => true
  | .lostClr _ => true
  | .shedClr => true
  | .excCntClr _ => true
  | .chainCntClr _ => true
  | .linCntClr _ => true
  | .hkCntClr => true
  | .acqCntClr => true
  | .trgCntClr _ => true
  | .engCntClr _ => true
  | .rlfCntClr => true
  | .cmpCntClr => true
  | .dcmpCntClr => true
  | .memCntClr => true
  | .dmaCntClr _ => true
  | .qCntClr _ => true
  | .arbCntClr => true
  | .laneCntClr _ => true
  | .linkCntClr _ => true
  | .dupCntClr => true
  | .armCntClr => true
  | .updCntClr => true
  | .pwrCntClr => true
  | .rstCntClr => true
  | .frameSend _ => true
  | .samplesSend first => decide (first % 4 = 0)
  | .timemapSend _ => true
  | .pllLosesLock _ => true
  | .lanePllRelock _ => true
  | .vexcRestored => true
  | .vplnLoss => true
  | .plinthRealign => true
  | .testEnFall => true
  | .tapInstructionLoad _ _ => true

end Sys2Proof
end

