-- ==== Sys2Proof/Safety.lean ====
section
/-! DEFINITION. The terms in which claims speak of the block and its runs. -/

namespace Sys2Proof.Machine

/-- The invariant of the block: buffer memory is in its canonical form. -/
def State.inv (s : State) : Prop := memoryWf s.hw.mem.cells = true

/-- The hub serves the host and its units run (R413, R416, R417). -/
def State.up (s : State) : Prop := s.hw.hub.inService = true

/-- In service and in no duplex section: host writes of mirrored registers act alone (R351, R352). -/
def State.alone (s : State) : Prop := s.up ∧ s.hw.hub.dupStandby = false ∧ s.hw.hub.dupActive = false

/-- The state with another hub: buffer memory, flash, fuses and the queue stay. -/
def State.withHub (s : State) (h : Hub) : State := { s with hw := { s.hw with hub := h } }

/-- The command completes on `s`: the next state differs in the hub alone, and the hub is as `P` says. -/
def Leads (c : Instr) (s : State) (P : Hub → Prop) : Prop := ∃ h, exec c s = .next (s.withHub h) ∧ P h

/-- The command completes on `s`: the queue stays, and hub, memory and flash are as `P` says. -/
def LeadsHw (c : Instr) (s : State) (P : Hw → Prop) : Prop := ∃ w, exec c s = .next { s with hw := w } ∧ P w

/-- The command completes on `s` with exactly this hub, and everything else as it was. -/
def Gives (c : Instr) (s : State) (h : Hub) : Prop := exec c s = .next (s.withHub h)

/-- The command completes on `s` with exactly this hub, memory and flash; the queue stays. -/
def GivesHw (c : Instr) (s : State) (w : Hw) : Prop := exec c s = .next { s with hw := w }

/-- Every register field whose key is not among those of `l` reads as before. -/
def OnlyRegs (l : List Field) (h h' : Hub) : Prop := ∀ f : Field, f.key ∉ l.map Field.key → h'.get f = h.get f

/-- A command that leaves memory, flash and fuses alone. -/
def KeepsStores (c : Instr) : Prop :=
  ∀ s t, exec c s = .next t → t.hw.mem = s.hw.mem ∧ t.hw.nv = s.hw.nv ∧ t.pending = s.pending

/-- What a reset of a source leaves (R22, R410, R418): the hub stands before start-up with nothing of its units kept, the plinth
records the source in RST_CAUSE, counts the reset and logs it with the mode before it; TIME_INCR_ADJ, the wake registers and the
log stay, unless the source is POWER_ON, which clears them. -/
def ResetLeaves (src : Nat) (h h' : Hub) : Prop :=
  h'.pwr.phase = .held ∧ h'.time.running = false ∧ h'.chans = [] ∧ h'.mm = {} ∧ h'.lk = {} ∧ h'.lanes = [] ∧ h'.carve = {} ∧ h'.arm = {}
  ∧ h'.get PWR_READY = 0 ∧ h'.get RST_LAST = src ∧ h'.get RST_ALL / 2 ^ (src - 1) % 2 = 1
  ∧ (src ≠ 1 → h'.get RST_COUNT = min (h.get RST_COUNT + 1) RST_COUNT.top ∧ h'.get TIME_INCR_ADJ = h.get TIME_INCR_ADJ
      ∧ h'.get PWR_WAKES = h.get PWR_WAKES ∧ h'.pwr.logSeq = (h.pwr.logSeq + 1) % 2 ^ 32 ∧ h'.pwr.coarse = h.coarse)
  ∧ (src = 1 → h'.get RST_COUNT = 1 ∧ h'.get TIME_INCR_ADJ = 0 ∧ h'.pwr.log.length = 1 ∧ h'.get TIME_STAT_QUALITY = 0 ∧ h'.pwr.coarse = 0)
  ∧ (h'.pwr.log.head?.map fun e => (e.code, e.p0, e.p1)) = some (1, src, h.get DEV_MODE_MODE % 2 ^ 32)

/-- A range change of channel `n` to `r` decided at `t` (R73, R75, R77, R351): the new range is in force from the next modulator edge, and for
what the chains take from the next edge they count; XSIT marks the larger transient from there, the step is counted and a dwell begins; no
register but those of the change moves. -/
def RangeStepped (n r t : Nat) (h h' : Hub) : Prop :=
  let tr := max (h.transientOf n (h.rangeNow n)) (h.transientOf n r)
  h'.get (CH_RANGE_RANGE_NOW n) = r ∧ h'.get (CH_RANGE_STEPS n) = min (h.get (CH_RANGE_STEPS n) + 1) (CH_RANGE_STEPS n).top
  ∧ (h'.chan n).ranges = (h.edgeAfter t, r) :: (h.chan n).ranges ∧ (h'.chan n).actRanges = (h.nextEdge t, r) :: (h.chan n).actRanges
  ∧ (⟨.xsit, h.nextEdge t, some (h.nextEdge t + tr)⟩ : Span) ∈ (h'.chan n).spans
  ∧ (h'.chan n).dwellEnd = h.edgeAfter t + max (h.get EXC_DWELL_US * usU) tr ∧ (h'.chan n).upWait = false
  ∧ OnlyRegs [CH_RANGE_RANGE_NOW n, CH_RANGE_STEPS n, CH_EXCS_SAT n, CH_DELAY_NS n] h h'

end Sys2Proof.Machine
end

