-- ==== Sys2Proof/Certificates/Slice0/Obligations.lean ====
section
/-! DEFINITION. What the model is claimed to do, command family by command family. -/

open Sys2Proof Sys2Proof.Machine

/-- A step takes the command at the front of the queue and runs it on the rest. -/
def Obligations.StepRunsFront : Prop :=
  ∀ (c : Instr) (s : State), step { s with pending := c :: s.pending } = exec c s

/-- The model's choice (log entry 2): with no command waiting, a step is one 4 ns tick of the time unit where it runs, else one cycle of the plinth,
and nothing at all without VPLN; it answers a next state. -/
def Obligations.EmptyQueueIdles : Prop := ∀ s : State, s.pending = [] → let h := s.hw.hub
  (h.time.running = true → step s = .next (s.withHub h.tick))
  ∧ (h.time.running = false → h.pwr.phase ≠ .dead → step s = .next (s.withHub (h.setPwr { h.pwr with coarse := (h.pwr.coarse + 1) % 2 ^ 63 })))
  ∧ (h.time.running = false → h.pwr.phase = .dead → step s = .next s)

/-- Every command completes: whatever the state, exec answers a next state and leaves the queue alone. What that state is, the statements of each
family say; a command turned away, or met in a phase in which its unit does not run, is a command that completes with the effect its rule gives it
there. -/
def Obligations.EveryCommandCompletes : Prop := ∀ (c : Instr) (s : State), ∃ t, exec c s = .next t ∧ t.pending = s.pending

/-- Host writes (R351, R352, R406, R413, R417, R457): a write has its effect where its address is served, which the phase of power and start-up
decides; in MIRROR a write of a mirrored register does nothing but set the WERR bit of its register; the active member that accepts one sends it
to its partner as a REG_WRITE event naming its next modulator edge; every other write acts alone. -/
def Obligations.HostWrites : Prop := (∀ (h : Hub) (a v : Nat) (f : Hub → Hub),
    (h.served a = false → h.hostWr a v f = h)
    ∧ (h.served a = true → mirroredAddr a = false → h.hostWr a v f = f h)
    ∧ (h.served a = true → mirroredAddr a = true →
        (h.get DEV_MODE_MODE = 6 → (0xD000 ≤ a → a < 0xE000 → h.hostWr a v f = h) ∧ (a < 0xD000 ∨ 0xE000 ≤ a → h.hostWr a v f = h.on (mirrorWerr a)))
        ∧ (h.get DEV_MODE_MODE ≠ 6 → (h.dupActive = false → h.hostWr a v f = f h)
          ∧ (h.dupActive = true → ((f (h.off (mirrorWerr a))).get (mirrorWerr a) ≠ 0 → h.hostWr a v f = f h)
            ∧ ((f (h.off (mirrorWerr a))).get (mirrorWerr a) = 0 → h.hostWr a v f = (f h).dupEvent .regWrite a v)))))
  ∧ (∀ a, mirroredAddr a = true ↔ (0x10000 ≤ a ∧ a < 0x1C000) ∨ a = 0x2200 ∨ (0xD000 ≤ a ∧ a < 0xE000) ∨ (0x50000 ≤ a ∧ a < 0x51000) ∨ (0xB000 ≤ a ∧ a < 0xB200) ∨ (0x30000 ≤ a ∧ a < 0x40000))
  ∧ (∀ (h : Hub) (a : Nat), let plinth := 0x9000 ≤ a ∧ a < 0xA000
    (h.pwr.phase = .run ∨ h.pwr.phase = .entering → h.served a = true)
    ∧ (h.pwr.phase = .gesso ∨ h.pwr.phase = .casting ∨ h.pwr.phase = .loading ∨ h.pwr.phase = .loaded → (h.served a = true ↔ plinth))
    ∧ (h.pwr.phase = .dormant ∨ h.pwr.phase = .waking ∨ h.pwr.phase = .wakingMem → (h.served a = true ↔ plinth ∧ (a < 0x9100 ∨ 0x9200 ≤ a)))
    ∧ (h.pwr.phase = .retired → (h.served a = true ↔ a < 0x1000 ∨ (0x8800 ≤ a ∧ a < 0x8810)))
    ∧ (h.pwr.phase = .held ∨ h.pwr.phase = .released ∨ h.pwr.phase = .dead → h.served a = false))
  ∧ (∀ (h : Hub) (k : EventKind) (i v : Nat), (h.dupActive = false → h.dupEvent k i v = h)
    ∧ (h.dupActive = true → h.dupEvent k i v = h.sendCtrl (h.get DUP_LINK) (.duplex (.event
        { kind := k, subject := i, value := v, time := h.edgeAfter h.time.now, edge := h.edgeIndex (h.edgeAfter h.time.now), stamp := 0 }))))
  ∧ ∀ s : State, s.up → s.hw.hub.get DEV_MODE_MODE = 6 → let h := s.hw.hub
    (∀ n m, Gives (.muxWrite n m) s (h.on (CH_EXCS_WERR n))) ∧ (∀ n v, Gives (.rangeWrite n v) s (h.on (CH_EXCS_WERR n)))
    ∧ (∀ n, Gives (.apply n) s (h.on (CH_EXCS_WERR n)) ∧ Gives (.chainRestart n) s (h.on (CH_EXCS_WERR n)))
    ∧ (∀ e, Gives (.engRestart e) s (h.on (ENG_WERR e)) ∧ Gives (.paramSwap e) s (h.on (ENG_WERR e)))
    ∧ Gives .calStart s (h.on HK_CAL_WERR) ∧ Gives .armAll s (h.on ACQ_WERR)

/-- After reset (R22, R418, R449) the memory is in its canonical form and reads zero everywhere (log entry 3), no command waits, every register reads
its value of the reset column, and no sensor is driven, no link is up, no lock held, no packet or relief frame kept. -/
def Obligations.ResetState : Prop := State.reset.inv ∧ State.reset.pending = [] ∧ (∀ a, memRead State.reset.hw.mem.cells a = 0)
  ∧ (∀ f : Machine.Field, State.reset.hw.hub.get f = f.reset)
  ∧ (∀ n, (State.reset.hw.hub.chan n).driving = false ∧ (State.reset.hw.hub.q n).pkts = [] ∧ (State.reset.hw.hub.link n).unacked = [])
  ∧ State.reset.hw.hub.lk.held = noRoute ∧ State.reset.hw.hub.arm.committed = false ∧ State.reset.hw.hub.spi.posted = []

/-- Buffer memory keeps its canonical form (the model's form of its 2^28 bytes): if the cells rise strictly in address and none lists what an unlisted
address reads as, the same holds after every step, whatever command runs. -/
def Obligations.MemoryStaysCanonical : Prop := ∀ s t : State, s.inv → step s = .next t → t.inv

/-- A pulse on RST_N while the hub is powered (R419): of 1 µs or more it always resets, below 200 ns it never does and nothing changes, and between
the two the hub either resets or is left unchanged (but for the model's own count of free values). -/
def Obligations.RstNPulse : Prop := ∀ (s : State) (ns : Nat),
  let h := s.hw.hub
  h.pwr.phase ≠ .dead →
  (1000 ≤ ns → Leads (.rstN ns) s (ResetLeaves 3 h))
  ∧ (ns < 200 → Gives (.rstN ns) s h)
  ∧ (200 ≤ ns → ns < 1000 → Leads (.rstN ns) s (ResetLeaves 3 h.draw) ∨ Gives (.rstN ns) s h.draw)

/-- The log's window (R428): a write of LOG_SEQ copies the held entry of that SEQ into LOG_DATA[0] to LOG_DATA[7], its bytes 0x00 to 0x1F; with no
held entry of that SEQ they read 0 and GONE is set; a later entry leaves the copy as it is; LOG_OLDEST and LOG_NEWEST read the range of SEQ held. -/
def Obligations.LogEntryRead : Prop :=
  (∀ (s : State) (v : Word), s.hw.hub.served 0x9314 = true →
    let h := s.hw.hub
    (∀ e, h.pwr.log.find? (fun e => e.seq == v.toNat) = some e → LeadsHw (.logSeqWrite v) s fun w =>
      (∀ i : Fin 8, w.peek (0x9320 + 4 * i) = (wordsOf 8 e.bytes).getD i 0) ∧ w.hub.get LOG_SEQ = v.toNat ∧ OnlyRegs [LOG_SEQ] h w.hub)
    ∧ (h.pwr.log.find? (fun e => e.seq == v.toNat) = none → LeadsHw (.logSeqWrite v) s fun w =>
      (∀ i : Fin 8, w.peek (0x9320 + 4 * i) = 0) ∧ w.hub.get LOG_GONE = 1 ∧ w.hub.get LOG_SEQ = v.toNat ∧ OnlyRegs [LOG_SEQ, LOG_GONE] h w.hub))
  ∧ (∀ (w : Hw) (c : LogCode) (a b d : Nat) (i : Fin 8),
      (w.onHub fun h => h.log c a b d).peek (0x9320 + 4 * i) = w.peek (0x9320 + 4 * i))
  ∧ (∀ (w : Hw) (l : List LogEntry) (o n : LogEntry), w.hub.pwr.log = n :: (l ++ [o]) → w.peek 0x9308 = o.seq ∧ w.peek 0x930C = n.seq)
  ∧ (∀ (w : Hw) (o : LogEntry), w.hub.pwr.log = [o] → w.peek 0x9308 = o.seq ∧ w.peek 0x930C = o.seq)

/-- Reset sources (R418, R421 to R423): POWER_ON in any state; PWR_GOOD falling with VPLN; the core watchdog in service; the host watchdog where it is
enabled; the armed SW bit, which sets WERR alone where nothing is armed. -/
def Obligations.ResetSources : Prop := ∀ s : State,
  let h := s.hw.hub
  Leads .powerOn s (ResetLeaves 1 h)
  ∧ (h.pwr.phase ≠ .dead → h.pwr.pwrGood = true → Leads .supplyReset s (ResetLeaves 2 h))
  ∧ (s.up → Leads .wdtCore s (ResetLeaves 4 h) ∧ (h.get RST_WDT_EN = 1 →
      Leads .wdtHost s (ResetLeaves 5 (h.upTo (h.pwr.wdtFrom + h.wdtPeriod)))))
  ∧ (h.served 0x9200 = true → (h.pwr.rstArmed = true → Leads .swReset s (ResetLeaves 8 h))
      ∧ (h.pwr.rstArmed = false → Gives .swReset s (h.on RST_WERR)))

/-- Start-up (R386, R399, R416, R421): the held reset is released, the system PLL locks, the gesso pass wipes memory and the loader selects the cast
of the boot record that governs, the other slot's where the cast was in probation, which is the fallback, and the staged one on probation where an
activation was due; a cast that boots runs; with none that boots the hub is in RECOVERY with cause NO_CAST, but in BLANK as it is. The end of
start-up (R40, R124, R296, R404, R416): the settings in force load the patina, the clock records and the link plan, local time starts from coarse
time, and the hub is READY in IDLE, with the reset interrupt, and its lanes start; a life cycle that keeps it there puts the hub in MAINTENANCE,
and in RETIRED nothing but its lanes and DEV_ and LC_ runs (log entry 126). -/
def Obligations.StartUp : Prop :=
  (∀ s : State,
  let h := s.hw.hub
  let n := s.hw.nv
  let g := n.governing
  (h.pwr.phase = .held → Gives .release s
    ((h.setPwr { h.pwr with phase := .released, pwrGood := true, rstLow := false }).on PWR_PWR_GOOD))
  ∧ (h.pwr.phase = .released → Gives .systemPllLocked s
      (((h.setPwr { h.pwr with phase := .gesso }).on CLK_SYS_LOCK) |> fun k => k.setPwr { k.pwr with pllFailLogged := false }))
  ∧ (h.pwr.phase = .gesso →
      (g.state = 1 → GivesHw .gessoPassComplete s
        { s.hw with mem := {}, nv := { n with boot := g }
                    hub := (h.setPwr { h.pwr with phase := .casting, actGo := false }).set UPD_STAT_RUN_SLOT g.active })
      ∧ (g.state = 2 → h.pwr.actGo = true → n.lcFuse ≠ 4 → GivesHw .gessoPassComplete s
        { s.hw with mem := {}
                    nv := ({ n with boot := g } : Nv).appendBoot { g with state := 3, active := 1 - g.active, seq := (g.seq + 1) % 2 ^ 32 }
                    hub := (h.setPwr { h.pwr with phase := .casting, actGo := false }).set UPD_STAT_RUN_SLOT (1 - g.active) })
      ∧ (g.state = 3 → n.lcFuse ≠ 4 → LeadsHw .gessoPassComplete s fun w => w.mem = {}
          ∧ w.nv = ({ n with boot := g } : Nv).appendBoot
            { g with state := if n.recovery then 4 else 1, active := 1 - g.active, probEnd := 0, seq := (g.seq + 1) % 2 ^ 32 }
          ∧ w.hub.get UPD_STAT_RUN_SLOT = (1 - g.active) % 2 ∧ w.hub.get UPD_STAT_FELL_BACK = 1
          ∧ w.hub.get UPD_FALLBACKS = min (h.get UPD_FALLBACKS + 1) UPD_FALLBACKS.top
          ∧ (w.hub.pwr.log.head?.map fun e => (e.code, e.p0)) = some (0x72, (1 - g.active) % 2 ^ 32)))
  ∧ (h.pwr.phase = .casting → s.hw.loaderOnly = false → n.boots (h.get UPD_STAT_RUN_SLOT) = true →
      LeadsHw .castLoaded s fun w => w.nv = n ∧ w.mem = s.hw.mem ∧ w.hub.pwr = { h.pwr with phase := .loading }
        ∧ w.hub.upd.running = n.castOf (h.get UPD_STAT_RUN_SLOT)
        ∧ w.hub.get UPD_RUN_VERSION = ((n.castOf (h.get UPD_STAT_RUN_SLOT)).elim 0 (·.version)) % 2 ^ 32
        ∧ w.hub.get UPD_STAT_STATE = if n.boot.state = 3 ∧ n.boot.active = h.get UPD_STAT_RUN_SLOT then 5 else if n.boot.valid (1 - h.get UPD_STAT_RUN_SLOT) then 3 else 0)
  ∧ (h.pwr.phase = .casting → s.hw.loaderOnly = false → n.boots 0 = false → n.boots 1 = false →
      LeadsHw .castLoaded s fun w => w.hub.pwr.phase = .loading ∧ w.hub.upd.running = none ∧ w.mem = s.hw.mem
        ∧ (s.hw.lcState ≠ 0 → w.nv.boot.state = 4 ∧ w.nv.recovery = true ∧ w.hub.get LC_RECOVERY_CAUSE = 1)
        ∧ (s.hw.lcState = 0 → w.nv = n)))
  ∧ (∀ s : State,
  let h := s.hw.hub
  (h.pwr.phase = .loading → h.upd.running = none → LeadsHw .settingsLoaded s fun w =>
    w.mem = s.hw.mem ∧ w.nv = s.hw.nv ∧ w.hub.pwr.phase = .loaded ∧ w.hub.time.running = true
    ∧ w.hub.time.now = coarseInstant h.pwr.coarse ∧ w.hub.time.slew = 0)
  ∧ (∀ c slot img, h.pwr.phase = .loading → h.upd.running = some c → h.get UPD_STAT_STATE ≠ 5 → h.get UPD_STAT_SETTINGS_UNREADABLE = 0 →
      s.hw.boundSlot = some slot → s.hw.readable c slot = some img →
      let h1 := ((h.patLoad s.hw.nv.factory (some img)).set UPD_SETC_SLOT slot).on UPD_SETC_SLOT_VALID
      Gives .settingsLoaded s (((((h1.setUpd { h1.upd with inUse := img, setImg := img }).set UPD_SET_SEQ (imgVal img 0x0C 4)).applyClock
        img).applyPlan img).timeStart.setPhase .loaded))
  ∧ (h.pwr.phase = .loaded → Gives .startUpComplete s
      ((((h.setPwr { h.pwr with phase := if s.hw.lcState = 4 then .retired else .run }).set DEV_MODE_MODE (if s.hw.lcState = 0 ∨ s.hw.lcState = 3 ∨ s.hw.lcState = 4 then 7 else 1)).on
        PWR_READY).on DEV_IRQ_RESET).startLanes))

/-- The watchdogs, the reset keys and their counter (R422, R423, R446): half a period without a kick warns once, the kick word begins a new period and
any other sets WERR; the key arms a reset for 1 s; RESET_PARTNER sends the reset code over the duplex link where it is armed and partner and code
are known, and sets WERR elsewhere. -/
def Obligations.WatchdogAndKeys : Prop := ∀ s : State,
  let h := s.hw.hub
  (∀ v : Word, h.served 0x9204 = true → Gives (.rstKey v) s
      (if v = 0x52535421#32 then h.setPwr { h.pwr with rstArmed := true, rstArmAt := h.time.now } else h))
  ∧ (h.pwr.rstArmed = true → Leads .rstKeyExpiry s fun h' => h'.pwr = { h.pwr with rstArmed := false }
      ∧ h'.time.now = max h.time.now (h.pwr.rstArmAt + secU) ∧ h'.regs = h.regs)
  ∧ (h.served 0x9200 = true → Gives .rstCntClr s (h.set RST_COUNT 0)
      ∧ (∀ k, h.duplexLink = some k → h.pwr.rstArmed = true → h.partnerRoute ≠ noRoute → h.resetCode ≠ 0 →
          Gives .partnerReset s (h.sendCtrl k (.reset h.partnerRoute h.resetCode)))
      ∧ (h.pwr.rstArmed = false → Gives .partnerReset s (h.on RST_WERR)))
  ∧ (s.up → ∀ v : Word, (v ≠ 0x4B49434B#32 → Gives (.wdtKick v) s (h.on RST_WERR))
      ∧ (v = 0x4B49434B#32 → h.get RST_WDT_EN = 1 →
          Gives (.wdtKick v) s (h.setPwr { h.pwr with wdtFrom := h.time.now, wdtWarned := false })))
  ∧ (s.up → h.get RST_WDT_EN = 1 → h.pwr.wdtWarned = false →
      Leads .wdtWarn s fun h' => h'.time.now = max h.time.now (h.pwr.wdtFrom + h.wdtPeriod / 2) ∧ h'.get RST_WDT_WARN = 1
        ∧ h'.get DEV_IRQ_RESET = 1 ∧ h'.pwr.wdtWarned = true ∧ (h'.pwr.log.head?.map fun e => (e.code, e.sev, e.p0)) = some (3, 1, 1)
        ∧ OnlyRegs [RST_WDT_WARN, DEV_IRQ_RESET, LOG_OVERWRITES, LOG_SAT, LOG_NEW, DEV_IRQ_LOG] h h')

/-- Clocks and the test pins (R28, R29, R107, R411, R428, R457, R463): the crystal, the PLLs and their log entries, the gates of a unit, the log's
window, loss of VPLN and the test access port. -/
def Obligations.ClocksAndTestPins : Prop := ∀ s : State,
  let h := s.hw.hub
  (h.pwr.phase ≠ .dead → h.get CLK_XTAL_OK = 1 → Leads .xtalFail s fun h' => h'.get CLK_XTAL_OK = 0 ∧ h'.get CLK_XTAL_FAIL = 1
      ∧ (h'.pwr.log.head?.map fun e => (e.code, e.sev)) = some (4, 1)
      ∧ OnlyRegs [CLK_XTAL_OK, CLK_XTAL_FAIL, LOG_OVERWRITES, LOG_SAT, LOG_NEW, DEV_IRQ_LOG] h h')
  ∧ (h.pwr.phase ≠ .dead → Gives .xtalOk s (h.on CLK_XTAL_OK))
  ∧ (h.pwr.phase = .run → h.pwr.pllFailLogged = false → Leads (.pllFail 0) s fun h' => h'.get CLK_PLL_FAIL = 1 ∧ h'.get DEV_IRQ_CLOCK = 1
      ∧ h'.get CLK_SYS_LOCK = 0 ∧ (h'.pwr.log.head?.map fun e => (e.code, e.sev, e.p0)) = some (5, 2, 0)
      ∧ OnlyRegs [CLK_PLL_FAIL, DEV_IRQ_CLOCK, CLK_SYS_LOCK, LOG_OVERWRITES, LOG_SAT, LOG_NEW, DEV_IRQ_LOG] h h')
  ∧ (h.pwr.phase = .run → h.pwr.modRunning = true → Gives (.pllFail 1) s
      ((((((h.on CLK_PLL_FAIL).on DEV_IRQ_CLOCK).log .pllFail 1 0 0)) |> fun g =>
        ((g.setPwr { g.pwr with modFailed := true, modUnlocked := false }).off CLK_MOD_LOCK).modLost)))
  ∧ (h.pwr.phase = .run → ∀ q : Fin 18, 2 ≤ q.val → Gives (.pllFail q) s
      (((((h.on CLK_PLL_FAIL).on DEV_IRQ_CLOCK).log .pllFail q.val 0 0).clrBit CLK_QUAD_LOCK (q.val - 2)).quadLost (q.val - 2)))
  ∧ (h.pwr.phase = .run → Gives (.pllLosesLock 0) s (h.off CLK_SYS_LOCK)
      ∧ (h.get CLK_MOD_LOCK = 1 → Gives (.pllLosesLock 1) s ((h.setPwr { h.pwr with modUnlocked := true }).off CLK_MOD_LOCK).modLost)
      ∧ ∀ q : Fin 18, 2 ≤ q.val → Gives (.pllLosesLock q) s ((h.clrBit CLK_QUAD_LOCK (q.val - 2)).quadLost (q.val - 2)))
  ∧ (h.pwr.modRunning = true → h.modLocked = false → Leads .modulatorPllRelock s fun h' => h'.get CLK_MOD_LOCK = 1
      ∧ h'.pwr.modFailed = false ∧ h'.pwr.modUnlocked = false ∧ h'.time.now = h.time.now
      ∧ h'.time.edge0 = h.time.now + Config.modPhase h.free ∧ h'.free = h.free + 1
      ∧ ∀ f : Field, f.key < 0x200000 → f.key ≠ CLK_MOD_LOCK.key → h'.get f = h.get f)
  ∧ (s.up → (∀ e, Gives (.clockStart (.carver e)) s (h.setBit CLK_CARVER_ON e)) ∧ Gives (.clockStart .compressor) s (h.on CLK_CMP_ON)
      ∧ Gives (.clockStart .memory) s (h.on CLK_DRAM_ACTIVE))
  ∧ Leads .vplnLoss s (fun h' => h'.pwr.phase = .dead ∧ h'.pwr.log = [] ∧ ∀ f : Field, h'.get f = f.reset)
  ∧ (h.served 0x9314 = true → ∀ v : Word,
      (∀ e, (h.pwr.log.find? fun e => e.seq == v.toNat) = some e → Gives (.logSeqWrite v) s
        ((h.set LOG_SEQ v.toNat).setPwr { h.pwr with logCopy := wordsOf 8 e.bytes }))
      ∧ ((h.pwr.log.find? fun e => e.seq == v.toNat) = none → Gives (.logSeqWrite v) s
        (((h.set LOG_SEQ v.toNat).setPwr { h.pwr with logCopy := [] }).on LOG_GONE)))
  ∧ (∀ (op : Fin 64) (en : Bool), Leads (.tapInstructionLoad op en) s fun h' => (∀ f : Field, f.key < 0x200000 → h'.get f = h.get f) ∧ h'.pwr = { h.pwr with
        testEn := en, tap := if op.val = 1 then 1 else if tapTakes op.val ∧ en = true then op.val else 0x3F })
  ∧ Leads .testEnFall s (fun h' => h'.regs = h.regs
      ∧ h'.pwr = { h.pwr with testEn := false, tap := if tapTakes h.pwr.tap then 0x3F else h.pwr.tap })

/-- Mode commands (R17, R31, R32, R443): CMD is written, and GO acts by the mode or is refused with its reason in DEV_MODE: 1 in a transition, 2 from
another mode, 3 with a packet in a queue, 4 with a scheduler slot pending, 5 while settings are written, 6 where the life cycle keeps MAINTENANCE.
DORMANT and wake (R32, R410 to R414, R446): entry ends with the mode DORMANT, buffer memory lost and the fast clocks stopped; a source that is
enabled wakes the hub, is counted and logged with where it was seen, or ends an entry; memory is wiped before the hub is in IDLE again. -/
def Obligations.ModesAndDormant : Prop :=
  (∀ s : State, s.up →
  let h := s.hw.hub
  let refuse := fun c r => ((h.set DEV_MODE_CMD c).on DEV_MODE_REFUSED).set DEV_MODE_REFUSE r
  (h.get DEV_MODE_IN_TRANSITION = 1 → Gives .modeIdle s ((refuse 1 1).on DEV_MODE_MODE_BUSY)
    ∧ Gives .modeDormant s ((refuse 0 1).on DEV_MODE_MODE_BUSY) ∧ Gives .modeMaintenance s ((refuse 7 1).on DEV_MODE_MODE_BUSY))
  ∧ (h.get DEV_MODE_IN_TRANSITION = 0 →
    (h.mode = 1 → Gives .modeMaintenance s ((h.set DEV_MODE_CMD 7).enter 7) ∧ Gives .modeIdle s (h.set DEV_MODE_CMD 1))
    ∧ (h.mode ≠ 1 → Gives .modeMaintenance s (refuse 7 2) ∧ Gives .modeDormant s (refuse 0 2))
    ∧ (h.mode = 1 → h.holdsPackets = true → Gives .modeDormant s (refuse 0 3))
    ∧ (h.mode = 1 → h.holdsPackets = false →
        ((List.range 8).any h.schedPending = true → Gives .modeDormant s (refuse 0 4))
        ∧ ((List.range 8).any h.schedPending = false → h.get UPD_SETC_BUSY = 1 → Gives .modeDormant s (refuse 0 5))
        ∧ ((List.range 8).any h.schedPending = false → h.get UPD_SETC_BUSY = 0 → Gives .modeDormant s
            (((h.set DEV_MODE_CMD 0).setPwr { h.pwr with phase := .entering }).on DEV_MODE_IN_TRANSITION)))
    ∧ (h.mode = 7 → (s.hw.staysMaint = true → Gives .modeIdle s (refuse 1 6))
        ∧ (s.hw.staysMaint = false → h.upState = 0 →
            GivesHw .modeIdle s { s.hw with hub := ((h.set DEV_MODE_CMD 1).toIdle).clearTests }))
    ∧ (h.acquiring = true → h.get ARM_STAT_WITHDRAW_PENDING = 0 → h.get ARM_STAT_DRAINING = 0 →
        let g := (h.set DEV_MODE_CMD 1).calDrop
        Gives .modeIdle s ((g.withdrawFrom g.nextTick).on DEV_MODE_IN_TRANSITION))
    ∧ (h.acquiring = true → h.get ARM_STAT_WITHDRAW_PENDING = 1 ∨ h.get ARM_STAT_DRAINING = 1 →
        Gives .modeIdle s ((refuse 1 1).on DEV_MODE_MODE_BUSY))
    ∧ (h.mode = mStaging → Gives .modeIdle s (h.set DEV_MODE_CMD 1).discard)))
  ∧ (∀ s : State,
  let h := s.hw.hub
  let awake := fun (src where_ : Nat) (h' : Hub) => h'.pwr.phase = .waking ∧ h'.get PWR_WAKE_SRC = src ∧ h'.get PWR_WAKE_WHERE = where_
    ∧ h'.get PWR_WAKES = min (h.get PWR_WAKES + 1) PWR_WAKES.top
    ∧ (h'.pwr.log.head?.map fun e => (e.code, e.sev, e.p0, e.p1)) = some (2, 0, src, where_)
    ∧ OnlyRegs [PWR_WAKE_SRC, PWR_WAKE_WHERE, PWR_WAKES, PWR_SAT, LOG_OVERWRITES, LOG_SAT, LOG_NEW, DEV_IRQ_LOG] h h'
  let aborted := fun (src where_ : Nat) (g : Hub) =>
    (((((g.set PWR_WAKE_SRC src).set PWR_WAKE_WHERE where_).on PWR_WAKE_ABORTED_ENTRY).setPwr { g.pwr with phase := .run }).off
      DEV_MODE_IN_TRANSITION)
  (h.pwr.phase = .entering → LeadsHw .dormantEntryComplete s fun w => w.mem = {} ∧ w.nv = s.hw.nv
      ∧ w.hub = ((h.enter 0).sleep |> fun g => if g.get PWR_WAKE_TIMER_EN = 1 ∧ g.wakeAt ≤ g.pwr.coarse then g.wake 1 0 else g))
  ∧ (h.pwr.phase = .dormant →
      (h.get PWR_WAKE_TIMER_EN = 1 → Leads .timerWake s fun h' => awake 1 0 h' ∧ h'.pwr.coarse = max h.pwr.coarse h.wakeAt)
      ∧ (∀ i : Fin 4, (h.get PWR_WAKE_PIN_EN).testBit i = true → bitsAt (h.get PWR_WAKE_PIN_EDGE) (2 * i) 2 = 3 → ∀ r,
          Leads (.pinWake i r) s (awake 2 i))
      ∧ (∀ k : Fin 64, (h.get PWR_WAKE_LANES_LO + 2 ^ 32 * h.get PWR_WAKE_LANES_HI).testBit k = true → Leads (.linkWake k) s (awake 3 k))
      ∧ (h.get PWR_WAKE_HOST_EN = 1 → Leads .wake s (awake 4 0)))
  ∧ (h.pwr.phase = .entering →
      (h.get PWR_WAKE_TIMER_EN = 1 → h.coarse < h.wakeAt → Gives .timerWake s (aborted 1 0 (h.upTo (coarseInstant h.wakeAt))))
      ∧ (∀ k : Fin 64, (h.get PWR_WAKE_LANES_LO + 2 ^ 32 * h.get PWR_WAKE_LANES_HI).testBit k = true →
          Gives (.linkWake k) s (aborted 3 k h))
      ∧ Gives .wake s h)
  ∧ (h.pwr.phase = .wakingMem → LeadsHw .wakeMemoryReady s fun w => w.mem = {} ∧ w.nv = s.hw.nv
      ∧ w.hub = ((h.setPwr { h.pwr with phase := .run }).enter 1).startLanes.wdtStart)
  ∧ (h.pwr.phase = .waking → Leads .systemPllLocked s fun h' => h'.pwr.phase = .wakingMem ∧ h'.get CLK_SYS_LOCK = 1
      ∧ h'.time.running = true ∧ h'.time.now = coarseInstant h.pwr.coarse ∧ h'.time.slew = 0)
  ∧ (h.served 0x9000 = true → Gives .pwrCntClr s (h.set PWR_WAKES 0)))

/-- Steering of local time (R36, R37, R41): in service, a write of TIME_INCR_ADJ in ±8,589,934 stores it and any other sets ADJ_RANGE and nothing
else; a slew within the limit is added to what is outstanding, leaves local time where it is and makes QUALITY SLEWING, and one that would reach
2^31 ns or whose NS is no nanosecond count changes nothing but ADJ_RANGE; SLEW_ABORT discards what is outstanding; HOLDOVER_FORCE is stored and
moves FREE and LOCKED to HOLDOVER. -/
def Obligations.TimeSteering : Prop := ∀ s : State, s.up →
  let h := s.hw.hub
  let mag : Int := (h.get TIME_ADJ_SEC_LO + 2 ^ 32 * h.get TIME_ADJ_SEC_HI) * (10 ^ 9 * 2 ^ 32) + h.get TIME_ADJ_NS * 2 ^ 32
    + h.get TIME_ADJ_FRAC
  let total : Int := h.time.slew + (if h.get TIME_ADJ_SIGN = 1 then -mag else mag)
  (∀ v : Word, -8589934 ≤ v.toInt → v.toInt ≤ 8589934 → Leads (.incrAdjWrite v) s fun h' => h'.get TIME_INCR_ADJ = v.toNat
      ∧ h'.time.now = h.time.now ∧ h'.time.slew = h.time.slew ∧ OnlyRegs [TIME_INCR_ADJ] h h')
  ∧ (∀ v : Word, v.toInt < -8589934 ∨ 8589934 < v.toInt → Gives (.incrAdjWrite v) s (h.on TIME_STAT_ADJ_RANGE))
  ∧ (h.get TIME_ADJ_NS ≤ 999999999 → -(2 ^ 31 * 2 ^ 32) < total → total < 2 ^ 31 * 2 ^ 32 →
      Leads .slew s fun h' => h'.time.slew = total ∧ h'.time.now = h.time.now ∧ (total ≠ 0 → h'.get TIME_STAT_QUALITY = 3)
        ∧ h'.get TIME_CTL_ADJ_MODE = 1 ∧ OnlyRegs [TIME_CTL_ADJ_MODE, TIME_STAT_QUALITY] h h')
  ∧ (999999999 < h.get TIME_ADJ_NS ∨ total ≤ -(2 ^ 31 * 2 ^ 32) ∨ 2 ^ 31 * 2 ^ 32 ≤ total →
      Gives .slew s ((h.on TIME_CTL_ADJ_MODE).on TIME_STAT_ADJ_RANGE))
  ∧ (Leads .slewAbort s fun h' => h'.time.slew = 0 ∧ h'.time.now = h.time.now ∧ OnlyRegs [TIME_STAT_QUALITY] h h'
      ∧ (h.time.slew ≠ 0 → h.get TIME_STAT_QUALITY = 3 → h.get TIME_CTL_HOLDOVER_FORCE = 1 → h'.get TIME_STAT_QUALITY = 4))
  ∧ (h.time.slew ≠ 0 → Leads .slewEnd s fun h' => h'.time.slew = 0 ∧ OnlyRegs [TIME_STAT_QUALITY] h h')
  ∧ (∀ v : Bool, Leads (.holdoverForce v) s fun h' => h'.get TIME_CTL_HOLDOVER_FORCE = v.toNat
      ∧ h'.get TIME_STAT_QUALITY
          = (if v = true ∧ (h.get TIME_STAT_QUALITY = 1 ∨ h.get TIME_STAT_QUALITY = 2) then 4 else h.get TIME_STAT_QUALITY)
      ∧ OnlyRegs [TIME_CTL_HOLDOVER_FORCE, TIME_STAT_QUALITY] h h')

/-- A step of local time and the choice of its source (R38, R39, R41, R44, R45). With every grid IDLE and a valid TIME_ADJ, STEP sets local time to
what the next tick would have given plus the offset, discards the outstanding slew and leaves QUALITY FREE, or HOLDOVER under HOLDOVER_FORCE;
while a grid is WAITING, RUNNING or STOPPING it sets STEP_REFUSED and changes nothing else. A change of source to a domain slot or PPS_IN never
steps local time: the negated offset of the new source joins the outstanding slew and the source is taken, unless the slew would reach its limit,
when ADJ_RANGE is set and the old source stays. -/
def Obligations.TimeStepAndSource : Prop := ∀ s : State, s.up →
  let h := s.hw.hub
  let mag : Int := (h.get TIME_ADJ_SEC_LO + 2 ^ 32 * h.get TIME_ADJ_SEC_HI) * (10 ^ 9 * 2 ^ 32) + h.get TIME_ADJ_NS * 2 ^ 32
    + h.get TIME_ADJ_FRAC
  let off : Int := if h.get TIME_ADJ_SIGN = 1 then -mag else mag
  (h.get TIME_ADJ_NS ≤ 999999999 → (∀ g, g < 8 → h.get (GRID_STATE g) = 0) →
      Leads .step s fun h' => h'.time.now = timeAdd (timeAdd h.time.now h.tickInc) off
        ∧ h'.time.slew = 0 ∧ h'.get TIME_STAT_QUALITY = (if h.get TIME_CTL_HOLDOVER_FORCE = 1 then 4 else 1)
        ∧ h'.get TIME_INCR_ADJ = h.get TIME_INCR_ADJ)
  ∧ (h.get TIME_ADJ_NS ≤ 999999999 → (∃ g, g < 8 ∧ h.get (GRID_STATE g) ≠ 0) →
      Gives .step s ((h.off TIME_CTL_ADJ_MODE).on TIME_STAT_STEP_REFUSED))
  ∧ (∀ src : Fin 4, src.val ≠ 3 → ¬(h.get TIME_CTL_SRC = src.val ∧ h.get TIME_STAT_SRC_ACTIVE = src.val) →
      let v := h.time.slew - (h.dom src.val).lastOff * 2 ^ 16
      (-(2 ^ 63) < v → v < 2 ^ 63 → Leads (.srcChange src) s fun h' => h'.time.now = h.time.now ∧ h'.time.slew = v
          ∧ h'.get TIME_CTL_SRC = src.val ∧ h'.get TIME_STAT_SRC_ACTIVE = src.val ∧ (v ≠ 0 → h'.get TIME_STAT_QUALITY = 3)
          ∧ OnlyRegs [TIME_CTL_SRC, TIME_STAT_SRC_ACTIVE, TIME_STAT_QUALITY] h h')
      ∧ (v ≤ -(2 ^ 63) ∨ 2 ^ 63 ≤ v → Gives (.srcChange src) s (h.on TIME_STAT_ADJ_RANGE)))
  ∧ (¬(h.get TIME_CTL_SRC = 3 ∧ h.get TIME_STAT_SRC_ACTIVE = 3) → Leads (.srcChange 3) s fun h' => h'.time.now = h.time.now ∧ h'.time.slew = h.time.slew ∧ h'.get TIME_CTL_SRC = 3
      ∧ h'.get TIME_STAT_SRC_ACTIVE = 3 ∧ h'.get TIME_STAT_QUALITY ≠ 2)

/-- A transparent clock's port relays (R49, R51), in service: every other port of the clock that may send and for which the command gives an egress
stamp sends an event message with its residence time added to the correction, in peer-to-peer mode a Sync also with the mean link delay of the
port it came by; a two-step Sync leaves as it came and its Follow_Up leaves where it left, with what the Sync was due; the other messages leave
unchanged by every other port. No register changes. PTP messages that arrive at another port (R44, R48, R50, R52, R54), in service. A master port
answers Delay_Req with the receive stamp, and a port that may send answers Pdelay_Req with its receive and transmit stamps. The slave port of a
slot that asked takes half of the round trip less the turn-round as mean path delay. A Sync to the slave port of a slot measures its offset, a
two-step one once its Follow_Up has come. Announce takes the port state the best-master firmware chooses, whatever it is, and makes the slot valid
in SLAVE alone; an announce timeout makes it invalid; Signaling and Management messages do nothing. PTP messages the hub sends (R34, R48 to R51,
R54), in service: a master port's Sync carries the whole nanoseconds of its transmit stamp in its time and the rest in the correction where the
settings say one-step, and nothing of it where they say two-step, when the stamp returned for it goes out in a Follow_Up with the same split;
Announce goes out only once the slot has been locked, with clockClass 248, priority1 255 and the currentUtcOffset; a slave port's request takes
the asymmetry off its correction and is kept with its transmit stamp until it is answered. -/
def Obligations.PtpMessages : Prop :=
  (∀ (s : State) (lane : Fin 64) (m : PtpMsg) (i : Nat) (eg : List (Nat × Nat)), s.up →
  let h := s.hw.hub
  let out : Nat → Option Int := fun p => (eg.find? fun e => e.1 == p).map fun e => h.txStamp p e.2 - h.rxStamp lane.val i
  let made : PtpKind → Nat → Int → PtpOut := fun k p c =>
    { lane := p, kind := k, domain := m.domain, sdo := m.sdo, seq := m.seq, corr := c, ts := m.ts, clockId := m.clockId, port := m.port
      cls := m.cls, prio1 := m.prio1, steps := m.steps, utc := m.utc }
  let sent : PtpKind → (Nat → Option Int) → List PtpOut := fun k c => (h.tcPorts lane.val).filterMap fun p =>
    if h.ptpMaySend p then (c p).map (made k p) else none
  let tells : Instr → List PtpOut → Prop := fun c l => Leads c s fun h' => h'.time.ptpTx = l.reverse ++ h.time.ptpTx ∧ OnlyRegs [] h h'
  let mine : Relayed → Bool := fun r => r.lane == lane.val && r.domain == m.domain && r.seq == m.seq
  let x := if h.tcPeer m then h.linkDelay lane.val else 0
  h.portTc lane.val = true →
    (m.twoStep = false → tells (.syncRx lane m i eg) (sent .sync fun p => (out p).map fun r => m.corr + r + x))
    ∧ (m.twoStep = true → tells (.syncRx lane m i eg) (sent .sync fun p => (out p).map fun _ => m.corr)
      ∧ ∀ p r, p ∈ h.tcPorts lane.val → out p = some r → Leads (.syncRx lane m i eg) s fun h' =>
        ⟨lane.val, p, m.domain, m.seq, r + x⟩ ∈ h'.time.relayed)
    ∧ (∀ ts, tells (.followUpRx lane { m with ts := ts } m.ts) ((h.time.relayed.filter mine).filterMap fun r =>
        if h.ptpMaySend r.port then some (made .followUp r.port (m.corr + r.corr)) else none))
    ∧ tells (.delayReqRx lane m i eg) (sent .delayReq fun p => (out p).map fun r => m.corr + r + 0)
    ∧ tells (.delayRespRx lane m) (sent .delayResp fun _ => some m.corr)
    ∧ tells (.announceRx lane m) (sent .announce fun _ => some m.corr)
    ∧ tells (.signalingManagementRx lane m) (sent .signaling fun _ => some m.corr)
    ∧ (h.tcPeer m = false → tells (.pdelayReqRx lane m i eg) (sent .pdelayReq fun p => (out p).map fun r => m.corr + r + 0)
      ∧ tells (.pdelayRespRx lane m (i, eg)) (sent .pdelayResp fun p => (out p).map fun r => m.corr + r + 0)
      ∧ tells (.pdelayRespFollowUpRx lane m) (sent .pdelayRespFollowUp fun _ => some m.corr)))
  ∧ (∀ (s : State) (lane : Fin 64) (m : PtpMsg) (i : Nat) (eg : List (Nat × Nat)), s.up →
  let h := s.hw.hub
  let half : Int → Nat → Hub → Hub := fun v d h => (h.setDom d { h.dom d with meanDelay := v }).set (DOM_DELAY d) (ofSigned 32 (v / 2 ^ 8))
  let ours : PtpKind → Int → Int → PtpOut := fun k c t =>
    { lane := lane.val, kind := k, domain := m.domain, sdo := m.sdo, seq := m.seq, corr := c
      ts := (t * 2 ^ 16).toNat, clockId := if h.ptpEth lane.val then h.clockIdentity else 0, port := lane.val + 1 }
  let sent := ((eg.find? fun e => e.1 == lane.val).map fun e => e.2).getD i
  (h.portTc lane.val = false →
    (h.ptpMaster lane.val = true → Leads (.delayReqRx lane m i eg) s fun h' =>
      h'.time.ptpTx = ours .delayResp m.corr (h.rxStamp lane.val i) :: h.time.ptpTx ∧ OnlyRegs [] h h')
    ∧ (h.ptpMaster lane.val = false → Gives (.delayReqRx lane m i eg) s (h.upTo i))
    ∧ Gives (.signalingManagementRx lane m) s h)
  ∧ (h.portTc lane.val = false ∨ h.tcPeer m = true →
    (h.ptpMaySend lane.val = true → Leads (.pdelayReqRx lane m i eg) s fun h' =>
      h'.time.ptpTx = ours .pdelayRespFollowUp m.corr (h.txStamp lane.val sent) :: ours .pdelayResp 0 (h.rxStamp lane.val i) :: h.time.ptpTx
      ∧ OnlyRegs [] h h')
    ∧ (h.ptpMaySend lane.val = false → Gives (.pdelayReqRx lane m i eg) s (h.upTo i)))
  ∧ (∀ d, h.slotOf lane.val m = some d →
    (h.get (DOM_PORT_STATE d) = 9 →
      let c := m.corr + h.asym lane.val
      let t21 : Int := h.rxStamp lane.val i - (m.ts : Int) / 2 ^ 16 - c
      let u21 : Int := (h.dom d).syncIngress - (m.ts : Int) / 2 ^ 16 - (h.dom d).syncCorr - m.corr
      (m.twoStep = true → Gives (.syncRx lane m i eg) s ((h.upTo i).setDom d
        { h.dom d with syncSeq := m.seq, syncIngress := h.rxStamp lane.val i, syncCorr := c, syncPending := true }))
      ∧ (m.twoStep = false → Gives (.syncRx lane m i eg) s (((h.upTo i).setDom d
        { h.dom d with lastT21 := t21, syncPending := false }).measure d (t21 - (h.dom d).meanDelay)))
      ∧ ((h.dom d).syncPending = true → (h.dom d).syncSeq = m.seq → ∀ ts, Gives (.followUpRx lane { m with ts := ts } m.ts) s
        ((h.setDom d { h.dom d with lastT21 := u21, syncPending := false }).measure d (u21 - (h.dom d).meanDelay))))
    ∧ ((h.dom d).reqPending = true → (h.dom d).reqSeq = m.seq → h.get (DOM_DELAY_MECH d) = 0 →
      Gives (.delayRespRx lane m) s (half (((h.dom d).lastT21 + ((m.ts : Int) / 2 ^ 16 - m.corr - (h.dom d).reqEgress)) / 2) d
        (h.setDom d { h.dom d with reqPending := false })))
    ∧ ((h.dom d).reqPending = true → (h.dom d).reqSeq = m.seq → Leads (.pdelayRespRx lane m (i, eg)) s fun h' =>
        (h'.dom d).respPending = true ∧ (h'.dom d).respIngress = h.rxStamp lane.val i
        ∧ (h'.dom d).respT2 = (m.ts : Int) / 2 ^ 16 - (m.corr + h.asym lane.val) ∧ OnlyRegs [] h h')
    ∧ ((h.dom d).respPending = true → (h.dom d).reqSeq = m.seq → Leads (.pdelayRespFollowUpRx lane m) s fun h' =>
        (h'.dom d).meanDelay = (((h.dom d).respIngress - (h.dom d).reqEgress)
            - ((m.ts : Int) / 2 ^ 16 + m.corr - (h.dom d).respT2)) / 2
        ∧ (h'.dom d).respPending = false ∧ OnlyRegs [DOM_DELAY d, DOM_RATE d] h h')
    ∧ (d < 2 → Leads (.announceRx lane m) s fun h' => h'.get (DOM_PORT_STATE d) = (Config.bmcaState h.free).toNat
        ∧ h'.get (domValidF d) = (if (Config.bmcaState h.free).toNat = 9 then 1 else 0) ∧ h'.free = h.free + 1))
  ∧ (∀ d : Fin 2, h.get (DOM_ENABLE d.val) = 1 → Leads (.announceTimeout d) s fun h' =>
      h'.get (DOM_ANNOUNCE_TIMEOUT d.val) = 1 ∧ h'.get (domValidF d.val) = 0))
  ∧ (∀ (s : State) (lane : Fin 64) (e : Nat), s.up →
  let h := s.hw.hub
  let x := h.txStamp lane.val e
  let ours : Nat → Nat → PtpOut → PtpOut := fun l d o =>
    { o with lane := l, domain := h.get (DOM_DOMAIN_NUMBER d), sdo := h.get (DOM_SDO_ID d),
             clockId := if h.ptpEth l then h.clockIdentity else 0, port := l + 1 }
  let bare : PtpKind → Nat → Int → Nat → PtpOut := fun k q c t => { lane := 0, kind := k, domain := 0, sdo := 0, seq := q, corr := c, ts := t }
  (h.ptpMaster lane.val = true → ∀ d : Fin 2,
    Leads (.syncSend (lane, d) e) s (fun h' => h'.time.ptpTx.head? = some (ours lane.val d.val
        (if h.oneStep then bare .sync (h.nextPtpSeq lane.val 0) (x % 2 ^ 16) ((x / 2 ^ 16) * 2 ^ 32).toNat
          else bare .sync (h.nextPtpSeq lane.val 0) 0 0))
      ∧ (h.oneStep = false → h'.time.syncOut.head? = some (lane.val, d.val, h.nextPtpSeq lane.val 0))
      ∧ h'.nextPtpSeq lane.val 0 = (h.nextPtpSeq lane.val 0 + 1) % 2 ^ 16 ∧ OnlyRegs [] h h')
    ∧ ((h.dom d.val).everLocked = true → Leads (.announceSend lane d) s fun h' =>
        h'.time.ptpTx.head? = some (ours lane.val d.val
          { bare .announce (h.nextPtpSeq lane.val 11) 0 0 with cls := 248, prio1 := 255, steps := h.get (DOM_STEPS_REMOVED d.val) + 1, utc := (h.dom d.val).utc }) ∧ OnlyRegs [] h h')
    ∧ (∀ q, (h.time.syncOut.find? fun e => e.1 == lane.val && e.2.2 == q) = some (lane.val, d.val, q) →
        Leads (.txTimestampReturn lane q e) s fun h' => h'.time.ptpTx.head? = some (ours lane.val d.val
          (bare .followUp q (x % 2 ^ 16) ((x / 2 ^ 16) * 2 ^ 32).toNat))
        ∧ h'.time.syncOut = h.time.syncOut.erase (lane.val, d.val, q) ∧ OnlyRegs [] h h'))
  ∧ (∀ d : Fin 2, h.ptpMaster lane.val = false ∨ (h.dom d.val).everLocked = false → Gives (.announceSend lane d) s h)
  ∧ (∀ q, (∀ e ∈ h.time.syncOut, ¬(e.1 = lane.val ∧ e.2.2 = q)) → Gives (.txTimestampReturn lane q e) s h)
  ∧ (∀ d : Fin 2, h.get (DOM_ENABLE d.val) = 1 → h.ptpMaySend (h.get (DOM_SLAVE_LANE d.val)) = true →
      let l := h.get (DOM_SLAVE_LANE d.val)
      let asked : PtpKind → Hub → Prop := fun k h' => (h'.dom d.val).reqPending = true ∧ (h'.dom d.val).reqEgress = h.txStamp l e
        ∧ (h'.dom d.val).reqSeq = h.nextPtpSeq l 1 ∧ h'.time.ptpTx.head? = some (ours l d.val (bare k (h.nextPtpSeq l 1) (-h.asym l) 0))
        ∧ OnlyRegs [] h h'
      (h.get (DOM_DELAY_MECH d.val) = 1 → Leads (.pdelayReqSend d e) s (asked .pdelayReq))
      ∧ (h.get (DOM_DELAY_MECH d.val) = 0 → h.get (DOM_PORT_STATE d.val) = 9 → Leads (.delayReqSend d e) s (asked .delayReq))))

/-- PPS and time-of-day (R47, R55), in service. The chosen edge of an enabled PPS_IN is captured to 250 ps (which neighbour is left open, log entry
101), the other edge does nothing; with ARM waiting and no grid in use the whole second in TIME_TOD_SEC is applied as a step from the edge, ARM
clears and TOD_APPLIED is set, and otherwise the edge is a phase measurement. ARM waits; without an edge it lapses with TOD_MISSED. Three seconds
without an edge set PPS_IN_LOST and lose the source where PPS_IN is in use. PPS_OUT rises at the next whole second for 1 to 999 ms, on a standby
not at all. The TIME_OUT pins (R57), in service. ARM in ONCE mode arms a START at least 1 µs ahead and otherwise sets MISSED alone; in PERIODIC
mode it arms where WIDTH is shorter than PERIOD and PERIOD within 100 ns to 65,535 s and otherwise sets WERR alone (PERIOD out of that range: the
model's choice, log entry 99); in GRID mode it arms, and GRID_IDLE says whether the grid runs. DISARM stops the output and leaves a pulse in
progress. A ONCE pulse comes at START, to 250 ps, and disarms; a PERIODIC one comes and the next is PERIOD later; its end comes at its WIDTH. -/
def Obligations.TimePins : Prop :=
  (∀ s : State, s.up →
  let h := s.hw.hub
  (∀ (r : Bool) (t : Nat), h.get TIME_PPS_CFG_PPS_IN_EN = 1 → (r = true ↔ h.get TIME_PPS_CFG_PPS_IN_EDGE ≠ 1) →
    let c := captured h.free t
    let k := (h.draw.upTo t).rsChange 0x1088 TIME_PPS_STAT_OVR
    let g := (k.setTime { k.time with ppsCap := c, ppsLast := c }).on TIME_PPS_STAT_PPS_IN_SEEN
    (h.time.todArmed = false → Gives (.ppsInEdge (r, t)) s (g.measure 2 (phaseOff c)))
    ∧ (h.time.todArmed = true → (∀ k, k < 8 → h.get (GRID_STATE k) = 0) →
      Gives (.ppsInEdge (r, t)) s (((((g.setTime { g.time with todArmed := false }).off TIME_ARM).doStep
        ((((h.get TIME_TOD_SEC_LO + 2 ^ 32 * h.get TIME_TOD_SEC_HI) * secU : Nat) : Int) - c)).on TIME_PPS_STAT_TOD_APPLIED))))
  ∧ (∀ (r : Bool) (t : Nat), h.get TIME_PPS_CFG_PPS_IN_EN ≠ 1 ∨ (r = true ↔ h.get TIME_PPS_CFG_PPS_IN_EDGE = 1) → Gives (.ppsInEdge (r, t)) s h)
  ∧ Gives .todArm s ((h.setTime { h.time with todArmed := true, todArmAt := h.time.now }).on TIME_ARM)
  ∧ (h.time.todArmed = true → Leads .todMissed s fun h' => h'.time.todArmed = false ∧ h'.get TIME_ARM = 0
      ∧ h'.get TIME_PPS_STAT_TOD_MISSED = 1 ∧ h.time.todArmAt + 3 * secU / 2 ≤ h'.time.now
      ∧ OnlyRegs [TIME_ARM, TIME_PPS_STAT_TOD_MISSED] h h')
  ∧ (h.get TIME_PPS_CFG_PPS_IN_EN = 1 → h.get TIME_STAT_SRC_ACTIVE ≠ 2 →
      Gives .ppsInLost s ((h.upTo (h.time.ppsLast + 3 * secU)).on TIME_PPS_STAT_PPS_IN_LOST))
  ∧ (h.get TIME_PPS_CFG_PPS_IN_EN = 1 → h.get TIME_STAT_SRC_ACTIVE = 2 →
      Gives .ppsInLost s ((h.upTo (h.time.ppsLast + 3 * secU)).on TIME_PPS_STAT_PPS_IN_LOST).sourceLost)
  ∧ (h.get TIME_PPS_CFG_PPS_OUT_EN = 1 → h.time.running = true → Leads .ppsOutPulse s fun h' =>
      h'.time.now = nextSecond h.time.ppsDone h.time.now * secU ∧ OnlyRegs [] h h'
      ∧ (h.get DEV_MODE_MODE ≠ 6 → h'.time.ppsOut = true
          ∧ h'.time.ppsOutEnd = h'.time.now + min 999 (max 1 (h.get TIME_PPS_CFG_WIDTH_MS)) * msU)
      ∧ (h.get DEV_MODE_MODE = 6 → h'.time.ppsOut = h.time.ppsOut))
  ∧ (h.time.ppsOut = true → Leads .ppsOutPulseEnd s fun h' => h'.time.ppsOut = false ∧ h.time.ppsOutEnd ≤ h'.time.now ∧ OnlyRegs [] h h'))
  ∧ (∀ (s : State) (p : Fin 4), s.up →
  let h := s.hw.hub
  let i := p.val
  (h.get (TOUT_MODE i) = 1 →
    (h.time.now + usU ≤ h.outStart i →
      Gives (.timeOutArm p) s ((h.setOut i { h.out i with nextAt := h.outStart i }).on (TOUT_ARMED i)))
    ∧ (h.outStart i < h.time.now + usU → Gives (.timeOutArm p) s (h.on (TOUT_MISSED i))))
  ∧ (h.get (TOUT_MODE i) = 2 →
    (h.outWidth i < h.outPeriod i → 100 * nsU ≤ h.outPeriod i → h.outPeriod i ≤ 65535 * secU → Leads (.timeOutArm p) s fun h' => h'.get (TOUT_ARMED i) = 1
      ∧ h.time.now + usU ≤ (h'.out i).nextAt ∧ OnlyRegs [TOUT_ARMED i] h h')
    ∧ (h.outPeriod i ≤ h.outWidth i ∨ h.outPeriod i < 100 * nsU ∨ 65535 * secU < h.outPeriod i → Gives (.timeOutArm p) s (h.on (TOUT_WERR i))))
  ∧ (h.get (TOUT_MODE i) = 3 → Leads (.timeOutArm p) s fun h' => h'.get (TOUT_ARMED i) = 1
      ∧ (h'.outIdle i = true ↔ h.get (GRID_STATE (h.get (TOUT_GRID i))) ≠ 2) ∧ OnlyRegs [TOUT_ARMED i] h h')
  ∧ Gives (.timeOutDisarm p) s (h.off (TOUT_ARMED i))
  ∧ (∀ n, h.get (TOUT_ARMED i) = 1 → h.get (TOUT_MODE i) = 1 → h.get DEV_MODE_MODE ≠ 6 → Leads (.timeOutPulse p n) s fun h' =>
      (h'.out i).pulse = true ∧ (h'.out i).pulseEnd = near250 (h.out i).nextAt + max 1 (h.get (TOUT_WIDTH i)) * 4 * nsU
      ∧ h'.get (TOUT_ARMED i) = 0 ∧ OnlyRegs [TOUT_ARMED i] h h')
  ∧ (∀ n, h.get (TOUT_ARMED i) = 1 → h.get (TOUT_MODE i) = 2 → h.get DEV_MODE_MODE ≠ 6 → Leads (.timeOutPulse p n) s fun h' =>
      (h'.out i).pulse = true ∧ (h'.out i).pulseEnd = near250 (h.out i).nextAt + max 1 (h.get (TOUT_WIDTH i)) * 4 * nsU
      ∧ (h'.out i).nextAt = (h.out i).nextAt + h.outPeriod i ∧ OnlyRegs [] h h')
  ∧ (∀ n, h.get (TOUT_ARMED i) ≠ 1 → Gives (.timeOutPulse p n) s h)
  ∧ ((h.out i).pulse = true → Leads (.timeOutPulseEnd p) s fun h' => (h'.out i).pulse = false ∧ (h.out i).pulseEnd ≤ h'.time.now
      ∧ OnlyRegs [] h h'))

/-- Captures (R10, R56), in service. While the time unit runs and EVT.EDGE is not 0 every edge enters the glitch filter at its instant; one that comes
within FILTER of the edge before it takes that edge back and is rejected too. At the end of its filter time an edge of a selected direction enters
the store of eight, to 250 ps (which neighbour is left open, log entry 101), or is counted in LOST with OVR where the store is full, and goes on
to the pin triggers and injected conversions; an edge of the other direction is dropped. A read of CAP_W0 moves the oldest entry into the path's
snapshot, and of an empty store returns all ones. -/
def Obligations.Captures : Prop := ∀ (s : State) (p : Fin 4), s.up →
  let h := s.hw.hub
  let i := p.val
  (∀ (r : Bool) (t : Nat), h.time.running = true → h.get (EVT_EDGE i) ≠ 0 →
      ((∀ e, (h.pin i).noted.getLast? = some e → e.due ≤ t) → Gives (.trigInEdge p r t) s ((h.upTo t).setPin i { h.pin i with
        level := r, noted := (h.pin i).noted ++ [{ time := t, rising := r, due := t + h.get (EVT_FILTER i) * 4 * nsU }] }))
      ∧ (∀ e, (h.pin i).noted.getLast? = some e → t < e.due →
        Gives (.trigInEdge p r t) s ((h.upTo t).setPin i { h.pin i with level := r, noted := (h.pin i).noted.dropLast })))
  ∧ (∀ (r : Bool) (t : Nat), h.time.running = false ∨ h.get (EVT_EDGE i) = 0 →
      Gives (.trigInEdge p r t) s ((h.upTo t).setPin i { h.pin i with level := r }))
  ∧ (∀ e rest, (h.pin i).noted = e :: rest →
      let g := (h.upTo e.due).setPin i { h.pin i with noted := rest }
      let c := captured h.free e.time
      ((if e.rising then h.get (EVT_EDGE i) % 2 = 1 else 2 ≤ h.get (EVT_EDGE i)) →
        ((h.pin i).fifo.length < 8 → Gives (.glitchFilterEnd p) s
          ((((g.draw.setPin i { h.pin i with noted := rest, fifo := (h.pin i).fifo ++ [⟨c, e.rising, e.stepped⟩] }).set (EVT_LEVEL i)
            ((h.pin i).fifo.length + 1)).trigPin i c).injPin i))
        ∧ (8 ≤ (h.pin i).fifo.length → Gives (.glitchFilterEnd p) s
          ((((g.draw.bump (EVT_LOST i) (EVT_SAT i)).on (EVT_OVR i)).trigPin i c).injPin i)))
      ∧ ((if e.rising then h.get (EVT_EDGE i) % 2 = 0 else h.get (EVT_EDGE i) < 2) → Gives (.glitchFilterEnd p) s g))
  ∧ (∀ path : Fin 2, ((h.pin i).fifo = [] → Gives (.capW0Read path p) s (h.setRd path.val 0xFFFFFFFF))
      ∧ (∀ c rest, (h.pin i).fifo = c :: rest → Leads (.capW0Read path p) s fun h' => (h'.pin i).fifo = rest
          ∧ aGet h'.rd path.val 0 = c.time % secU / nsU ∧ h'.get (EVT_LEVEL i) = rest.length % 16
          ∧ h'.get (EVT_STEPPED i) = c.stepped.toNat ∧ h'.get (EVT_RISING i) = c.rising.toNat
          ∧ OnlyRegs [EVT_LEVEL i, EVT_STEPPED i, EVT_RISING i] h h'))
  ∧ Gives (.lostClr p) s (h.off (EVT_LOST i))

/-- Grids and coarse time (R40, R57, R60, R62), in service. A WAITING grid becomes RUNNING at the instant of RESUME_INDEX; a STOPPING grid becomes
IDLE once the instant of its stop index has passed, and its registers read 0; the next index of a RUNNING grid passes at the instant R60 gives it,
and no other index takes its place. At a whole second the plinth's count is realigned. -/
def Obligations.GridsAndPlinth : Prop := ∀ (s : State) (g : Fin 8), s.up →
  let h := s.hw.hub
  let k := g.val
  (h.get (GRID_STATE k) = 1 → Leads (.gridStart g) s fun h' => h'.get (GRID_STATE k) = 2 ∧ h'.gridNext k = h.gridResume k
      ∧ h.gridTime k (h.gridResume k) ≤ h'.time.now ∧ OnlyRegs [GRID_STATE k] h h')
  ∧ (h.get (GRID_STATE k) = 3 → Leads (.stopIndexPassed g) s fun h' => h'.get (GRID_STATE k) = 0 ∧ h'.gridStop k = 0
      ∧ h'.gridResume k = 0 ∧ h'.gridEpoch k = 0 ∧ h'.get (GRID_RATE_P k) = 0 ∧ h'.get (GRID_RATE_Q k) = 0
      ∧ h.gridTime k (h.gridStop k) ≤ h'.time.now)
  ∧ (h.get (GRID_STATE k) = 2 → Leads (.gridInstant g) s fun h' => ∃ x : Hub, h' = (x.hkGrid k (h.gridNext k)).trigGrid k (h.gridNext k)
        (h.gridTime k (h.gridNext k))
      ∧ x.gridNext k = h.gridNext k + 1)
  ∧ (h.time.running = true → Leads .plinthRealign s fun h' => h'.time.now = nextSecond h.time.alignDone h.time.now * secU
      ∧ h'.pwr.coarse = h'.time.now * 32768 / secU ∧ OnlyRegs [] h h')

/-- The multiplexer and the ranges by host writes (R68, R69, R75, R76): a setting or code that the kind does not have, or a write under autorange,
sets WERR alone; a change of MUX opens its SETTLE span; a change of range is a range step; limits that leave the range in force outside step it to
the nearest one, and others change nothing more. The chain's own host writes and the cleared counts (R134, R139, R141, R152, R446). -/
def Obligations.InputCellsAndChains : Prop :=
  (∀ (s : State) (n : Fin 192), s.alone →
  let h := s.hw.hub
  let t := h.time.now
  (h.kind n = 1 → Gives (.muxWrite n 3) s (h.on (CH_EXCS_WERR n)))
  ∧ (∀ m : Fin 4, (m.val = 3 → h.kind n ≠ 1) → (h.get (CH_CFG_MUX n) = m → Gives (.muxWrite n m) s h)
    ∧ (h.get (CH_CFG_MUX n) ≠ m → Leads (.muxWrite n m) s fun h' =>
      h'.get (CH_CFG_MUX n) = m ∧ (h'.chan n).muxEnd = t + h.muxSettle n ∧ OnlyRegs [CH_CFG_MUX n] h h'
      ∧ (⟨.settle, t, some (t + h.muxSettle n)⟩ : Span) ∈ (h'.chan n).spans))
  ∧ (∀ v : Fin 8, (h.get (CH_CFG_AUTORANGE n) = 1 ∨ maxCode (h.kind n) < v.val → Gives (.rangeWrite n v) s (h.on (CH_EXCS_WERR n)))
      ∧ (h.get (CH_CFG_AUTORANGE n) = 0 → v.val ≤ maxCode (h.kind n) →
          (h.rangeNow n = v → Gives (.rangeWrite n v) s (h.set (CH_RANGE_RANGE n) v))
          ∧ (h.rangeNow n ≠ v → Leads (.rangeWrite n v) s (RangeStepped n v t (h.set (CH_RANGE_RANGE n) v)))))
  ∧ (∀ lo hi : Fin 8,
      let g := (h.set (CH_CFG_RANGE_MIN n) lo).set (CH_CFG_RANGE_MAX n) hi
      (h.get (CH_CFG_AUTORANGE n) = 0 → Gives (.rangeLimitWrite n lo hi) s g)
      ∧ (h.get (CH_CFG_AUTORANGE n) = 1 → (h.chan n).live = true →
        (h.rangeNow n < (g.rangeSpan n).1 → Leads (.rangeLimitWrite n lo hi) s (RangeStepped n (g.rangeSpan n).1 t g))
        ∧ ((g.rangeSpan n).2 < h.rangeNow n → Leads (.rangeLimitWrite n lo hi) s (RangeStepped n (g.rangeSpan n).2 t g))
        ∧ ((g.rangeSpan n).1 ≤ h.rangeNow n → h.rangeNow n ≤ (g.rangeSpan n).2 → Gives (.rangeLimitWrite n lo hi) s g))))
  ∧ (∀ (s : State) (n : Fin 192), s.alone →
  let h := s.hw.hub
  let e := h.nextEdge h.time.now
  let wr : DcWrite → Hub → Hub := fun w g => g.setChan n { h.chan n with dcWrites := (h.time.now, w) :: (h.chan n).dcWrites }
  (∀ v : BitVec 16,
    let a := e - h.delayOf n (h.rangeWas n e)
    Leads (.demodPhaseWrite n v) s fun h' => h'.get (CH_DEMOD_PHASE n) = v.toNat ∧ (h'.chan n).psiHist.head? = some (e, v.toNat)
      ∧ (⟨.settle, a, some a⟩ : Span) ∈ (h'.chan n).spans ∧ OnlyRegs [CH_DEMOD_PHASE n] h h')
  ∧ ((h.chan n).live = false → Gives (.chainRestart n) s (h.on (CH_EXCS_WERR n)))
  ∧ (∀ r, (h.chan n).live = true → (h.chan n).run = some r → Leads (.chainRestart n) s fun h' =>
      (h'.chan n).restartAt = e ∧ (h'.chan n).n0 = firstIndexAt r.epoch r.p r.q e ∧ h'.get (CH_CHAIN_LAST_CAUSE n) = 2
      ∧ h'.get (CH_CHAIN_RESTARTED n) = 1 ∧ h'.get (CH_DCB_EST n) = 0
      ∧ h'.get (CH_RESTART_COUNT n) = min (h.get (CH_RESTART_COUNT n) + 1) (CH_RESTART_COUNT n).top)
  ∧ (∀ k : Fin 32, (k.val ≠ 0 ∧ (k.val < 4 ∨ 24 < k.val) → Gives (.dcbKWrite n k) s (h.on (CH_EXCS_WERR n)))
      ∧ (4 ≤ k.val → k.val ≤ 24 → h.get (CH_CHAIN_DCB_K n) ≠ 0 → Gives (.dcbKWrite n k) s (wr (.k k) (h.set (CH_CHAIN_DCB_K n) k)))
      ∧ (4 ≤ k.val → k.val ≤ 24 → h.get (CH_CHAIN_DCB_K n) = 0 → Gives (.dcbKWrite n k) s
          ((wr (.k k) (h.set (CH_CHAIN_DCB_K n) k)).off (CH_DCB_EST n)))
      ∧ Gives (.dcbKWrite n 0) s ((wr (.k 0) (h.set (CH_CHAIN_DCB_K n) 0)).off (CH_DCB_EST n)))
  ∧ (∀ b : Bool, Gives (.dcbFreezeWrite n b) s
      (wr (.freeze b) ((h.set (CH_CHAIN_DCB_FREEZE n) (b2n b)).set (CH_CHAIN_DCB_FROZEN n) (b2n b))))
  ∧ (∀ v : Word, Gives (.dcbEstWrite n v) s
      (if h.get (CH_CHAIN_DCB_K n) ≠ 0 ∧ h.dcSeeded n = true ∧ h.get (CH_CHAIN_DCB_FREEZE n) = 1
       then wr (.est v.toInt) (h.set (CH_DCB_EST n) v.toNat) else h.on (CH_EXCS_WERR n)))
  ∧ Gives (.excCntClr n) s ((h.set (CH_RANGE_STEPS n) 0).set (CH_FOLD_COUNT n) 0)
  ∧ Gives (.chainCntClr n) s (h.set (CH_RESTART_COUNT n) 0) ∧ Gives .shedClr s (h.set EXC_SHED_COUNT 0))

/-- Autorange and the open wire, as the input cell reports them (R76, R77, R80, R81, R103, R106): a step up outside the dwell of a step, one that
waits inside it, the steps at the end of a dwell, the next dwell after one without a step, the open state with its span where the condition
applies to the channel; an overload clips the 8 samples before it and the 32 of its recovery, and a recovery ends 32 modulator clocks on. -/
def Obligations.AutorangeAndOpen : Prop := ∀ (s : State) (n : Fin 192), s.up →
  let h := s.hw.hub
  (h.autoActs n = true → h.dupActive = false →
    (h.time.now < (h.chan n).holdEnd → Gives (.autorangeStepUp n) s (h.setChan n { h.chan n with upWait := true }))
    ∧ ((h.chan n).holdEnd ≤ h.time.now → h.rangeNow n < (h.rangeSpan n).2 →
        Leads (.autorangeStepUp n) s (RangeStepped n (h.rangeNow n + 1) h.time.now h)))
  ∧ (∀ up low, (h.chan n).live = false → Gives (.dwellEnd n up low) s ((h.upTo (h.chan n).dwellEnd).setChan n
      { h.chan n with dwellEnd := (h.chan n).dwellEnd + h.dwellLen n, upWait := false }))
  ∧ (let g := h.upTo (h.chan n).dwellEnd;
      g.autoActs n = true → h.dupActive = false →
      ((g.rangeSpan n).1 < h.rangeNow n → h.rangeNow n ≤ 8 → ∀ up, (h.chan n).upWait = false →
        Leads (.dwellEnd n up true) s (RangeStepped n (h.rangeNow n - 1) g.time.now g))
      ∧ (h.rangeNow n < (g.rangeSpan n).2 → (h.chan n).upWait = true → ∀ low,
        Leads (.dwellEnd n true low) s (RangeStepped n (h.rangeNow n + 1) g.time.now g)))
  ∧ (∀ (c : OpenCond) (since : Nat),
      let g := h.upTo (since + h.openTime)
      let k := if c = .compliance then g.on (CH_EXCS_COMPLIANCE n) else g
      (h.openApplies n c = true → (h.get (CH_EXCS_OPEN n) ≠ 1 → Gives (.openDeclared n (c, since)) s
          ((k.on (CH_EXCS_OPEN n)).markFrom n .openw g.time.now))
        ∧ (h.get (CH_EXCS_OPEN n) = 1 → Gives (.openDeclared n (c, since)) s k))
      ∧ (h.openApplies n c = false → Gives (.openDeclared n (c, since)) s h)
      ∧ (h.get (CH_EXCS_OPEN n) = 1 → Gives (.openEnded (n, since)) s
          (((g.off (CH_EXCS_OPEN n)).off (CH_EXCS_COMPLIANCE n)).markEnd n .openw g.time.now))
      ∧ (h.get (CH_EXCS_OPEN n) ≠ 1 → Gives (.openEnded (n, since)) s h))
  ∧ Leads (.overload n) s (fun h' => (h'.chan n).recoverEnd = some (h.edgeTime (h.edgeIndex h.time.now + 32)) ∧ h'.regs = h.regs
      ∧ ∀ k, h.edgeIndex h.time.now ≤ k + 8 → k < h.edgeIndex h.time.now + 32 → h'.ownClip n k = true)
  ∧ (∀ e, (h.chan n).recoverEnd = some e →
      Gives (.overloadRecoveryEnd n) s ((h.upTo e).setChan n { h.chan n with recoverEnd := none }))

/-- Excitation by the host (R82, R89, R92 to R94, R96): a refused APPLY sets WERR alone; an accepted one takes MODE, LEVEL and the carrier fraction
into force together with the static demand; a shed channel stays shed, settings in force already disturb nothing (the model's choice, log entry
105), and others are an excitation change, which a change of carrier follows with a restart of the chain; RESTORE brings a shed channel back where
the budget has room; the budget is bounded. -/
def Obligations.ExcitationByHost : Prop := ∀ (s : State) (n : Fin 192), s.alone →
  let h := s.hw.hub
  let t := h.time.now
  let mode := h.get (CH_EXC_MODE n)
  let level := h.get (CH_EXC_LEVEL n)
  let c : Chan := { h.chan n with exMode := mode, exLevel := level, carP := h.get (CH_CARRIER_P n), carQ := h.get (CH_CARRIER_Q n) }
  let g := (h.setChan n c).setStatic n
  (h.applyRefused n = true → Gives (.apply n) s (h.on (CH_EXCS_WERR n)))
  ∧ (h.applyRefused n = false → (h.chan n).shed = true → Gives (.apply n) s g)
  ∧ (h.applyRefused n = false → g.carrierChanged n = false → (h.chan n).exMode = mode → (mode = 0 ∨ (h.chan n).exLevel = level) → Gives (.apply n) s g)
  ∧ (h.applyRefused n = false → (h.chan n).shed = false → g.carrierChanged n = false →
      ((h.chan n).exMode ≠ mode ∨ (mode ≠ 0 ∧ (h.chan n).exLevel ≠ level)) →
      Gives (.apply n) s (g.drive n t (g.startSettle n mode c.carP c.carQ)))
  ∧ (h.applyRefused n = false → (h.chan n).shed = false → g.carrierChanged n = true →
      Gives (.apply n) s ((g.drive n t (g.carrierSettle n)).restartChain n t 3))
  ∧ ((h.chan n).shed = false → Gives (.restore n) s h)
  ∧ ((h.chan n).shed = true → h.get EXC_BUDGET_MW * 1000 < h.get EXC_MEAS_UW + h.get (CH_EXC_STATIC_UW n) →
      Gives (.restore n) s (h.on (CH_EXCS_RESTORE_REFUSED n)))
  ∧ ((h.chan n).shed = true → h.get EXC_MEAS_UW + h.get (CH_EXC_STATIC_UW n) ≤ h.get EXC_BUDGET_MW * 1000 →
      Leads (.restore n) s fun h' => (h'.chan n).shed = false ∧ (h'.chan n).driving = ((h.chan n).exMode != 0 && h.mayDrive))
  ∧ (∀ v : BitVec 12, Gives (.excBudgetWrite v) s
      (if 2400 < v.toNat ∨ v.toNat * 1000 < h.get EXC_STATIC_UW then h.on EXC_STAT_WERR else h.set EXC_BUDGET_MW v.toNat))

/-- The governor (R90, R91, R93): a window records every draw and its headroom, and at or below the budget sheds nothing; above it the candidates are
shed in their order until the rest is at or below the budget; a fast measurement counts those above 1.25 times the budget, and the fifth in a row
sheds by its own draws; AUTO_RESTORE brings back the first channel of the list that has had the headroom. The standby's governor does not act.
Fold-back, the supply and the start of groups (R86, R87, R95, R96, R98): a fold-back outside a retry, or inside one, counts and shows FOLDED with
EXCF FAULT, and changes nothing between retries; a retry is an excitation change that lasts 1 ms, and its end clears FOLDED; loss of VEXC and its
return reach every channel; a group starts at its instant. -/
def Obligations.GovernorAndSupply : Prop :=
  (∀ (s : State) (draws : List (Nat × Nat)), s.up →
  let h := s.hw.hub
  let w := h.upTo (h.exc.windowAt + h.get EXC_WINDOW_US * usU)
  let g := (w.setExc { w.exc with windowAt := w.time.now }).record draws
  let budget := h.get EXC_BUDGET_MW * 1000
  let kept := h.exc.headroom.filter fun e => decide (w.time.now < e.1 + 100 * msU)
  let noted := g.setExc { g.exc with headroom := (w.time.now, (budget : Int) - (g.get EXC_MEAS_UW : Int)) :: kept }
  let v := h.upTo (h.exc.fastAt + 10 * usU)
  let f := v.setExc { v.exc with fastAt := v.time.now }
  let sum := (chanList.map (drawIn draws)).sum
  let trip := (f.setExc { f.exc with fastRun := 0 }).on EXC_STAT_FAST_TRIP
  (h.governs = false → Gives (.governorWindowEnd draws) s h ∧ Gives (.fastTrip draws) s h ∧ Gives .autoRestore s h)
  ∧ (h.governs = true →
      (g.get EXC_MEAS_UW ≤ budget → Gives (.governorWindowEnd draws) s noted)
      ∧ (budget < g.get EXC_MEAS_UW →
        Gives (.governorWindowEnd draws) s (Hub.shedDown noted.draw1 noted.candidates (g.get EXC_MEAS_UW) budget noted))
      ∧ (4 * sum ≤ 5 * budget → Gives (.fastTrip draws) s (f.setExc { f.exc with fastRun := 0 }))
      ∧ (5 * budget < 4 * sum → h.exc.fastRun < 4 → Gives (.fastTrip draws) s (f.setExc { f.exc with fastRun := h.exc.fastRun + 1 }))
      ∧ (∀ n t, 5 * budget < 4 * sum → 4 ≤ h.exc.fastRun → trip.candidates = n :: t → sum - drawIn draws n ≤ budget →
          Gives (.fastTrip draws) s (trip.shed n)))
  ∧ (∀ n, h.governs = true → h.get EXC_CTL_AUTO_RESTORE = 1 → h.exc.lastRestore + 100 * msU ≤ h.time.now →
      (h.shedList.find? fun n => h.headroomFor n) = some n →
      Gives .autoRestore s ((h.restoreChan n).setExc { h.exc with lastRestore := h.time.now })))
  ∧ (∀ (s : State) (n : Fin 192),
  let h := s.hw.hub
  let c := h.chan n
  let span := 20 * usU + h.get (CH_SETTLE_EXTRA n) * usU
  (s.up → c.driving = true → c.shed = false → c.retryEnd = none ∧ h.get (CH_EXCS_FOLDED n) = 0 ∨ (∃ e, c.retryEnd = some e ∧ h.time.now ≤ e) →
    Leads (.foldBack n) s fun h' => h'.get (CH_EXCS_FOLDED n) = 1 ∧ h'.get (CH_EXCS_EXCF n) = 1
      ∧ h'.get (CH_EXCS_REASON n) = 1 ∧ h'.get (CH_FOLD_COUNT n) = min (h.get (CH_FOLD_COUNT n) + 1) (CH_FOLD_COUNT n).top
      ∧ (⟨.settle, h.time.now, some (h.time.now + span)⟩ : Span) ∈ (h'.chan n).spans
      ∧ OnlyRegs [CH_EXCS_FOLDED n, CH_FOLD_COUNT n, CH_EXCS_SAT n, CH_EXCS_EXCF n, CH_EXCS_REASON n] h h')
  ∧ (s.up → c.retryEnd = none → h.get (CH_EXCS_FOLDED n) = 1 → Gives (.foldBack n) s h
      ∧ Leads (.foldRetry n) s fun h' =>
        let t := max h.time.now (c.foldAt + h.retryPeriod)
        (h'.chan n).retryEnd = some (t + msU) ∧ (h'.chan n).foldAt = t ∧ h'.regs = h.regs
        ∧ (⟨.settle, t, some (t + span)⟩ : Span) ∈ (h'.chan n).spans)
  ∧ (s.up → ∀ e, c.retryEnd = some e → Leads (.foldRetryEnd n) s fun h' => h'.get (CH_EXCS_FOLDED n) = 0
        ∧ (⟨.settle, max h.time.now e, some (max h.time.now e + span)⟩ : Span) ∈ (h'.chan n).spans
        ∧ (c.shed = false → (h.pwr.vexcOk = true ∨ c.exMode = 0) → h'.get (CH_EXCS_REASON n) = 0 ∧ h'.get (CH_EXCS_EXCF n) = 0))
  ∧ Leads .vexcLoss s (fun h' => h'.pwr = { h.pwr with vexcOk := false } ∧ h'.time = h.time
      ∧ ∀ k < 192, (h.chan k).exMode ≠ 0 → (h'.chan k).driving = false ∧ h'.get (CH_EXCS_EXCF k) = 1
        ∧ h'.get (CH_EXCS_REASON k) = if (h.chan k).shed then 2 else 1)
  ∧ Leads .vexcRestored s (fun h' => h'.pwr = { h.pwr with vexcOk := true } ∧ h'.time = h.time
      ∧ ∀ k < 192, (h.chan k).exMode ≠ 0 → (h.chan k).shed = false → h.get (CH_EXCS_FOLDED k) = 0 →
        (h'.chan k).driving = (h.mode != 6) ∧ h'.get (CH_EXCS_EXCF k) = 0)
  ∧ (∀ t l rest, s.up → h.exc.groups = (t, l) :: rest → Leads .excGroupStart s fun h' => h'.time.now = max h.time.now t ∧ h'.exc.groups = rest
      ∧ OnlyRegs (l.flatMap fun k => [CH_EXCS_COMPLIANCE k, CH_EXCS_EXCF k, CH_EXCS_REASON k]) h h'))

/-- The regular scan and the injected conversions (R107, R108, R112, R113, R115, R116, R119, R446): a start while one runs, or while calibration does,
is skipped and counted; a start with a free converter and nothing injected settles the lowest input; the converter's result goes to HK_DATA with
its number and hold instant, and overwriting an unread one sets OVR and counts LOST; an injected request takes a free converter, is dropped with
MISS where one waits, and is held under calibration. -/
def Obligations.Housekeeping : Prop := ∀ s : State, s.up →
  let h := s.hw.hub
  let mask := h.get HK_SCAN_MASK_LO + 2 ^ 32 * h.get HK_SCAN_MASK_HI
  let started : Hub → Hub := fun g => (((g.on HK_STAT_SCAN_BUSY).setHk
    { g.hk with scan := (List.range 48).filter fun i => mask / 2 ^ i % 2 == 1, settleUs := h.get HK_CTL_SETTLE_US }).hkServe)
  let skipped : Hub → Hub := fun g => g.bump HK_SCAN_SKIP HK_STAT_SAT
  let timed : Nat → Hub := fun t => (h.upTo t).setHk { h.hk with timerAt := some (t + max 1 (h.get HK_SCAN_PERIOD) * usU) }
  (h.get HK_STAT_SCAN_BUSY = 1 ∨ h.get HK_CAL_STATE ≠ 0 → (h.get HK_CTL_SCAN_MODE = 1 → Gives .scanStart s (skipped h))
    ∧ (∀ t, h.get HK_CTL_SCAN_MODE = 2 → h.hk.timerAt = some t → Gives .scanTimer s (skipped (timed t))))
  ∧ (h.get HK_STAT_SCAN_BUSY = 0 → h.get HK_CAL_STATE = 0 → h.hk.conv = .idle → (h.get HK_CTL_SCAN_MODE = 1 → Gives .scanStart s (started h))
    ∧ (∀ t, h.get HK_CTL_SCAN_MODE = 2 → h.hk.timerAt = some t → Gives .scanTimer s (started (timed t))))
  ∧ (h.get HK_CTL_SCAN_MODE ≠ 1 → Gives .scanStart s h)
  ∧ (∀ i, h.get HK_STAT_SCAN_BUSY = 1 → h.hk.conv = .regular i →
      Gives .scanStop s ((h.on HK_STAT_SCAN_ABORT).setHk { h.hk with scan := [i] }))
  ∧ (∀ i, h.hk.conv = .settle i → h.get HK_CTL_WAIT_READ = 0 → Leads .hkSettleEnd s fun h' => h'.hk.conv = .regular i
      ∧ h'.time.now = max h.time.now (h.hk.convAt + h.hk.settleUs * usU) ∧ h'.hk.convAt = h'.time.now ∧ OnlyRegs [HK_STAT_WAIT_STALL] h h')
  ∧ (∀ (i : Nat) (raw : BitVec 16), h.hk.conv = .regular i → i < 20 ∨ 31 < i → Leads (.hkConversionDone raw) s fun h' =>
      h'.hk.data = some { code := hkCorrect h.hk.inForce h.free i raw.toNat, input := i, seq := h.hk.seq, time := h.hk.convAt + 250 * nsU }
      ∧ h'.hk.seq = (h.hk.seq + 1) % 256 ∧ h'.time.now = max h.time.now (h.hk.convAt + usU)
      ∧ (unreadRes h.hk.data = true → h'.get HK_STAT_OVR = 1 ∧ h'.get HK_LOST = min (h.get HK_LOST + 1) HK_LOST.top)
      ∧ (unreadRes h.hk.data = false → h'.get HK_LOST = h.get HK_LOST))
  ∧ (∀ j : Fin 4, j.val ≠ 3 → h.get (INJ_SRC j) = 0 → h.get (INJ_ENABLE j) = 1 →
      (h.get (INJ_PENDING j) = 1 → Gives (.injGo j) s ((h.on (INJ_MISS j)).bump HK_INJ_MISS HK_STAT_SAT))
      ∧ (h.get (INJ_PENDING j) = 0 → h.get (INJ_HELD j) = 0 → h.calState ≠ 0 → Gives (.injGo j) s (h.on (INJ_HELD j)))
      ∧ (h.get (INJ_PENDING j) = 0 → h.get (INJ_HELD j) = 0 → h.calState = 0 → ∀ i, h.hk.conv = .regular i →
          Gives (.injGo j) s (h.on (INJ_PENDING j)))
      ∧ (h.get (INJ_PENDING j) = 0 → h.get (INJ_HELD j) = 0 → h.calState = 0 → h.hk.conv = .idle →
          Gives (.injGo j) s (h.on (INJ_PENDING j)).hkServe))
  ∧ Gives (.injGo 3) s ((h.on (INJ_WERR 3)).on HK_STAT_WERR)
  ∧ Gives .hkCntClr s (((h.set HK_LOST 0).set HK_SCAN_SKIP 0).set HK_INJ_MISS 0)
  ∧ (∀ b : Fin 12, h.get CLK_BANK_ON / 2 ^ b.val % 2 = 1 → h.pwr.modValid.contains b.val = false → h.modLocked = true →
      Gives (.modulatorValid b) s (((h.upTo (aGet h.pwr.bankAt b 0 + 100 * usU)).setPwr { h.pwr with modValid := b.val :: h.pwr.modValid }).set CLK_MOD_LOCK 1))

/-- The calibration sequence (R117, R119 to R123): START is refused with WERR outside STREAM and SEGMENT, and the standby takes the active's start;
each step hands over to the next; averages of ZERO lead to REFERENCE; APPLY enters the accepted entries and, with no conversion held, sets DONE;
ABORT outside APPLY restores and ends the sequence, which sets ABORTED. -/
def Obligations.Calibration : Prop := ∀ s : State, s.alone →
  let h := s.hw.hub
  let refused := (h.on HK_CAL_WERR).on HK_STAT_WERR
  (h.mode ≠ 4 → h.mode ≠ 5 → h.mode ≠ 6 ∨ h.get HK_CAL_STATE ≠ 0 → Gives .calStart s refused)
  ∧ (h.mode = 4 ∨ h.mode = 5 → h.get DEV_MODE_IN_TRANSITION = 1 → Gives .calStart s refused)
  ∧ (h.mode = 6 → h.get HK_CAL_STATE = 0 → Gives .calStart s (h.calBegin (h.get HK_CAL_BANKS)))
  ∧ (h.mode = 4 ∨ h.mode = 5 → h.get DEV_MODE_IN_TRANSITION = 0 → Gives .calStart s ((h.enter 3).calBegin (h.get HK_CAL_BANKS)))
  ∧ (h.calState = 1 → h.hk.conv = .idle → Leads .calWaitConvDone s fun h' => h'.get HK_CAL_STATE = 2 ∧ h'.get HK_STAT_CAL_OWNS = 1
      ∧ h'.hk = { h.hk with conv := .cal, calAt := h.time.now } ∧ OnlyRegs [HK_CAL_STATE, HK_STAT_CAL_OWNS] h h')
  ∧ (∀ sum, h.calState = 2 → Leads (.calHkSelfDone sum) s fun h' => h'.get HK_CAL_STATE = 3 ∧ h'.hk.calHkOffset = sum
      ∧ h'.time.now = max h.time.now (h.hk.calAt + 256 * usU) ∧ h'.hk.calAt = h'.time.now ∧ OnlyRegs [HK_CAL_STATE] h h')
  ∧ (∀ sum, h.calState = 3 → h.hk.calIdx = [] → Leads (.calRefCheckDone sum) s fun h' => h'.get HK_CAL_STATE = 6
      ∧ (200 * (imgVal h.hk.inForce 0x28 4 : Int) < 1000000 * |4 * (sum : Int) - imgVal h.hk.inForce 0x28 4| → h'.get HK_CAL_REF_DRIFT = 1)
      ∧ OnlyRegs [HK_CAL_STATE, HK_CAL_REF_DRIFT] h h')
  ∧ (h.calState = 4 ∨ h.calState = 5 → h.hk.calAveraging = false → Leads .calSettleEnd s fun h' =>
      h'.hk.calAveraging = true ∧ h'.hk.calAt = h'.time.now ∧ h'.regs = h.regs
      ∧ h'.time.now = max h.time.now (h.hk.calAt + h.hk.calTr + h.get HK_CAL_CAL_SETTLE * usU))
  ∧ (∀ m, h.calState = 4 → h.hk.calAveraging = true →
      let i := h.get HK_CAL_RANGE_IDX
      let g := h.upTo (h.hk.calAt + h.get HK_CAL_AVG_MS * msU)
      Gives (.calAverageDone m) s ((g.setHk { h.hk with calZero := (h.calStep i).map fun n => (n, meanOf m n) }).calEnter 5 i))
  ∧ (h.calState = 6 → (∀ j < 4, h.get (INJ_HELD j) = 0) → Leads .calApply s fun h' => h'.get HK_CAL_DONE = 1 ∧ h'.get HK_CAL_STATE = 0 ∧ h'.hk.calStaged = [])
  ∧ (h.calState ≠ 0 → h.calState ≠ 6 → Gives .calAbort s (h.calRestoreAll.calEnd false))
  ∧ (h.calState = 0 ∨ h.calState = 6 → Gives .calAbort s h)

/-- The patina store and the linearisation's staged pair (R126, R127, R172, R446): the data port reads and writes a word and moves on by 4, a write
outside IDLE and MAINTENANCE sets BAD; CHECK takes a store that passes and reloads one that fails; SAVE hands the field entries to the settings;
LOAD applies both staged values together. -/
def Obligations.PatinaStore : Prop := ∀ (s : State) (n : Fin 192), s.alone →
  let h := s.hw.hub
  let a := h.get HK_PAT_ADDR / 4 * 4
  (∀ (p : Fin 2) (v : Word), h.mode = 1 ∨ h.mode = 7 → a < patCrcAt → Gives (.hkPatDataAccess p (some v)) s
      ((h.set HK_PAT_ADDR (a + 4)).setHk { h.hk with patina := imgPut h.hk.patina a (leBytes 4 v.toNat) }))
  ∧ (∀ (p : Fin 2) (v : Word), h.mode ≠ 1 → h.mode ≠ 7 → Gives (.hkPatDataAccess p (some v)) s (((h.set HK_PAT_ADDR (a + 4)).on HK_PAT_BAD).on HK_STAT_WERR))
  ∧ (∀ p : Fin 2, a ≤ patCrcAt → Gives (.hkPatDataAccess p none) s ((h.set HK_PAT_ADDR (a + 4)).setRd p (imgVal h.hk.patina a 4)))
  ∧ (patOk h.hk.patina = true → Gives .check s (h.setHk { h.hk with checked := h.hk.patina }))
  ∧ (patOk h.hk.patina = false → Gives .check s ((h.on HK_PAT_BAD).patLoad s.hw.nv.factory s.hw.setImage))
  ∧ Gives .reload s (h.patLoad s.hw.nv.factory s.hw.setImage)
  ∧ (h.get HK_CAL_STATE ≠ 0 → Gives .save s ((h.on HK_CAL_SAVE_REFUSED).on HK_STAT_WERR))
  ∧ (s.hw.setRefused = false → h.get UPD_STAT_SETTINGS_UNREADABLE = 0 → h.get HK_CAL_STATE = 0 →
      GivesHw .save s (s.hw.setBegin (mergePatina h.upd.setImg h.hk.patina)))
  ∧ (∀ g o, (h.chan n).stGain = some g → (h.chan n).stOffset = some o → Gives (.linLoad n) s
      (((h.set (CH_LIN_GAIN n) g).set (CH_LIN_OFFSET n) o).setChan n { h.chan n with stGain := none, stOffset := none }))
  ∧ Gives (.linCntClr n) s (h.set (CH_LIN_DOMAIN_COUNT n) 0)

/-- The states of a trigger unit by command and event (R183, R185, R187, R190, R446): ARM leads to FILLING or ARMED by the fill of the ring and is
refused in MODE 0, DISARM acts at once or at the end of the record, FORCE is refused in DISARMED, the re-arm ends by MODE. ARM_ALL and DISARM_ALL
(R191): every unit whose MODE is not 0 leaves DISARMED, and every unit in FILLING or ARMED enters it. A decision (R184, R185): in COLLECTING and
REARM the trigger is missed, counted, and the first T is held; an index before the oldest row of the ring is LATE; one whose history reaches
before it is ignored and counted under PRE_STRICT. -/
def Obligations.TriggerUnits : Prop :=
  (∀ (s : State) (t : Fin 32), s.alone →
  let h := s.hw.hub
  let u := h.unit t
  (h.get (TRG_MODE t) = 0 → Gives (.trgArm t) s (h.on (TRG_WERR t)))
  ∧ (h.get (TRG_MODE t) ≠ 0 → (h.uState t ≠ 0 → Gives (.trgArm t) s h)
      ∧ (h.uState t = 0 → Gives (.trgArm t) s
          ((h.setUnit t { u with prev := none, lo := false, hi := false, inside := none, disarm := false, autoAt := some h.time.now }).set (TRG_STATE t)
            (if h.get (TRG_FILL t) < h.get (TRG_PRE t) then 1 else 2))))
  ∧ (h.uState t = 0 → Gives (.trgDisarm t) s h ∧ Gives (.force t) s (h.on (TRG_WERR t)))
  ∧ (h.uState t = 1 ∨ h.uState t = 2 → Gives (.trgDisarm t) s ((h.set (TRG_STATE t) 0).setUnit t { u with autoAt := none }))
  ∧ (h.uState t = 3 ∨ h.uState t = 4 → Gives (.trgDisarm t) s (h.setUnit t { u with disarm := true }))
  ∧ (h.uState t ≠ 0 → Gives (.force t) s (h.trigger t { time := h.time.now, source := 8, origin := h.route }))
  ∧ (∀ a, u.autoAt = some a → h.get (TRG_MODE t) = 3 → h.uState t = 1 ∨ h.uState t = 2 →
      let T := a + max 1 (h.get (TRG_AUTO_TIMEOUT t)) * msU
      Gives (.autoTimeout t) s (((h.upTo T).setUnit t { u with autoAt := none }).trigger t
        { time := T, source := h.get (TRG_SOURCE t), forced := true, group := h.groupOf t (h.get (TRG_SOURCE t)), origin := h.route }))
  ∧ (h.uState t = 4 → (u.disarm = true ∨ h.get (TRG_MODE t) = 1 → Gives (.rearmEnd t) s ((h.set (TRG_STATE t) 0).setUnit t { u with disarm := false }))
      ∧ (u.disarm = false → h.get (TRG_MODE t) ≠ 1 →
          Gives (.rearmEnd t) s ((h.set (TRG_STATE t) 2).setUnit t { u with autoAt := some h.time.now })))
  ∧ Gives (.trgCntClr t) s ((((h.set (TRG_RECORDS t) 0).set (TRG_MISSED t) 0).set (TRG_PRE_IGNORED t) 0).set (TRG_LATE t) 0)
  ∧ Gives .acqCntClr s ((h.set ACQ_DIST_RX 0).set ACQ_DIST_DUP 0)
  ∧ (∀ (i : Fin 4) (e : Nat), aFind h.acq.pulses i = some e →
      Gives (.trigOutPulseEnd i) s ((h.upTo e).setAcq { h.acq with pulses := aErase h.acq.pulses i })))
  ∧ (∀ s : State, s.alone →
  let h := s.hw.hub
  Leads .armAll s (fun h' => (∀ t < 32, h.get (TRG_MODE t) ≠ 0 → h.uState t = 0 →
        h'.uState t = if h.get (TRG_FILL t) < h.get (TRG_PRE t) then 1 else 2)
      ∧ (∀ t < 32, h.get (TRG_MODE t) = 0 ∨ h.uState t ≠ 0 → h'.uState t = h.uState t)
      ∧ OnlyRegs ((List.range 32).map TRG_STATE) h h')
  ∧ Leads .disarmAll s (fun h' => (∀ t < 32, h.uState t = 1 ∨ h.uState t = 2 → h'.uState t = 0)
      ∧ (∀ t < 32, h.uState t = 3 ∨ h.uState t = 4 → h'.uState t = h.uState t ∧ (h'.unit t).disarm = true)
      ∧ OnlyRegs ((List.range 32).map TRG_STATE) h h'))
  ∧ (∀ (h : Hub) (t : Nat) (run : StreamRun) (g : Trig), t < 32 → h.unitRun t = some run →
  let ti := firstIndexAt run.epoch run.p run.q g.time
  let o := max run.first (match run.ring.head? with
    | some e => e.1
    | none => run.next)
  (h.uState t = 0 → h.decide1 t g = h)
  ∧ (h.uState t = 3 ∨ h.uState t = 4 → (h.decide1 t g).get (TRG_MISSED t) = min (h.get (TRG_MISSED t) + 1) (TRG_MISSED t).top
      ∧ (h.get (TRG_MISS_HELD t) = 0 → (h.decide1 t g).get (TRG_MISS_HELD t) = 1 ∧ ((h.decide1 t g).unit t).held = some g.time)
      ∧ (h.get (TRG_MISS_HELD t) = 1 → ((h.decide1 t g).unit t).held = (h.unit t).held))
  ∧ (h.uState t = 1 ∨ h.uState t = 2 → (ti < o → h.decide1 t g = h.bump (TRG_LATE t) (TRG_SAT t))
      ∧ (o ≤ ti → ti < o + h.get (TRG_PRE t) → h.get (TRG_PRE_STRICT t) = 1 → h.decide1 t g = h.bump (TRG_PRE_IGNORED t) (TRG_SAT t))
      ∧ (o ≤ ti → ti < o + h.get (TRG_PRE t) → h.get (TRG_PRE_STRICT t) = 0 → h.decide1 t g = h.accept t run g ti o true)
      ∧ (o + h.get (TRG_PRE t) ≤ ti → h.decide1 t g = h.accept t run g ti (ti - h.get (TRG_PRE t)) false)))

/-- The mailbox (R206, R207): a command is refused with WERR while BUSY and answered NOT_RUNNING outside READY and RUNNING and BAD_TASK where no task
of the named number takes it; PARAM_SWAP waits in BUSY, the others are answered; a reply sets MB_OUT and DONE and clears BUSY. -/
def Obligations.Mailbox : Prop := (∀ (s : State) (e : Fin 16), s.alone →
  let h := s.hw.hub
  let k := h.get (MBIN_WORD e 0)
  let a := h.get (MBIN_WORD e 1)
  let b := h.get (MBIN_WORD e 2)
  let c := h.get (MBIN_WORD e 3)
  let all := [Instr.paramSwap e, .taskQuery e, .detectReset e, .detectSet e]
  (h.get (ENG_MB_BUSY e) = 1 → ∀ i ∈ all, Gives i s (h.on (ENG_MB_WERR e)))
  ∧ (h.get (ENG_MB_BUSY e) = 0 → (h.eState e ≠ 1 → h.eState e ≠ 2 → ∀ i ∈ all, Gives i s (h.mbReply e 6 []))
      ∧ (h.eState e = 1 ∨ h.eState e = 2 → ((h.eng e).tasks[k]? = none → ∀ i ∈ all, Gives i s (h.mbReply e 2 []))
        ∧ (∀ t, (h.eng e).tasks[k]? = some t →
          (t.op = 1 → Gives (.paramSwap e) s ((h.on (ENG_MB_BUSY e)).setEng e
              { h.eng e with swap := some { task := k, index := a + 2 ^ 32 * b, crc := c } }))
          ∧ (t.op ≠ 1 → Gives (.paramSwap e) s (h.mbReply e 2 []))
          ∧ Gives (.taskQuery e) s (h.mbReply e 0 [t.frames % 2 ^ 32, h.get (TASK_LAST_FRAME_LO e k), h.get (TASK_LAST_FRAME_HI e k),
              h.get (TASK_LAST_CYCLES e k)])
          ∧ (t.op ≠ 4 → Gives (.detectReset e) s (h.mbReply e 2 []) ∧ Gives (.detectSet e) s (h.mbReply e 2 []))
          ∧ (t.op = 4 → Gives (.detectReset e) s ((h.modTask e k fun t => { t with reset := true }).mbReply e 0 [])
            ∧ (fFinite a = false ∨ fFinite b = false ∨ fFinite c = false ∨ fVal a < 0 ∨ fVal b < 0 ∨ fVal c < 0 ∨ fVal b < fVal c →
                Gives (.detectSet e) s (h.mbReply e 3 []))
            ∧ (fFinite a = true → fFinite b = true → fFinite c = true → 0 ≤ fVal a → 0 ≤ fVal b → 0 ≤ fVal c → fVal c ≤ fVal b →
                Gives (.detectSet e) s ((h.modTask e k fun t => { t with staged := some (a, b, c), stagedAt := 0 }).mbReply e 0
                  [(h.eng e).upcoming % 2 ^ 32, (h.eng e).upcoming / 2 ^ 32])))))))
  ∧ ∀ (h : Hub) (e : Fin 16) (st : Nat) (rest : List Nat), st < 8 → rest.length ≤ 6 →
      let h' := h.mbReply e st rest
      h'.get (MBOUT_WORD e 0) = st ∧ h'.get (ENG_MB_BUSY e) = 0 ∧ h'.get (ENG_MB_DONE e) = 1
      ∧ OnlyRegs ([ENG_MB_BUSY e, ENG_MB_DONE e, DEV_PEND_ENG] ++ (List.range 7).map (MBOUT_WORD e.val)) h h'

/-- The host's use of the locks (R209, R211): TRY takes a free lock and says whether it was broken, and answers OWNED or BUSY on a held one; RELEASE
by the owner frees it; BREAK frees a lock of the host or of a FAULTED or HALTED carver; anything else sets WERR. A waiting PARAM_SWAP at the start
of a frame (R208): below its index nothing; on a lock held by another it tries again, 64 times; on a broken lock and on a CRC mismatch the bank
stays; on a match the bank changes and the reply says whether the frame is the one named. -/
def Obligations.LocksAndSwaps : Prop :=
  (∀ (s : State) (p : Fin 2) (l : Fin 64), s.alone →
  let h := s.hw.hub
  let o := h.get (LOCK_STAT_OWNER l)
  (h.get (LOCK_STAT_HELD l) = 0 → Gives (.lockTry p l) s
      ((((h.on (LOCK_STAT_HELD l)).set (LOCK_STAT_OWNER l) 17).off (LOCK_STAT_BROKEN l)).setRd p
        ((if h.get (LOCK_STAT_BROKEN l) = 1 then 1 else 0) + 256 * 17)))
  ∧ (h.get (LOCK_STAT_HELD l) = 1 → Gives (.lockTry p l) s (h.setRd p ((if o = 17 then 3 else 2) + 256 * o)))
  ∧ (h.get (LOCK_STAT_HELD l) = 1 → o = 17 → Gives (.lockRelease l) s ((h.off (LOCK_STAT_HELD l)).set (LOCK_STAT_LAST_OWNER l) 17))
  ∧ (h.get (LOCK_STAT_HELD l) = 0 ∨ o ≠ 17 → Gives (.lockRelease l) s (h.on (LOCK_STAT_WERR l)))
  ∧ (h.get (LOCK_STAT_HELD l) = 1 → o = 17 ∨ (o < 16 ∧ (h.eState o = 3 ∨ h.eState o = 5)) → Gives (.lockBreak l) s
      ((((h.off (LOCK_STAT_HELD l)).on (LOCK_STAT_BROKEN l)).set (LOCK_STAT_LAST_OWNER l) o).log .lockBroken l o 0))
  ∧ (h.get (LOCK_STAT_HELD l) = 0 → Gives (.lockBreak l) s (h.on (LOCK_STAT_WERR l)))
  ∧ (o ≠ 17 → (16 ≤ o ∨ (h.eState o ≠ 3 ∧ h.eState o ≠ 5)) → Gives (.lockBreak l) s (h.on (LOCK_STAT_WERR l))))
  ∧ (∀ (h : Hub) (e : Fin 16) (idx l : Nat) (w : Swap) (t : Task),
  (h.eng e).swap = some w → (h.eng e).tasks[w.task]? = some t → t.lock = some l → l < 64 →
  let done := fun (g : Hub) => g.setEng e { g.eng e with swap := none }
  let got := ((h.on (LOCK_STAT_HELD l)).set (LOCK_STAT_OWNER l) e).off (LOCK_STAT_BROKEN l)
  let bank := h.get (TASK_BANK e w.task)
  (idx < w.index → h.swapAttempt e idx = h)
  ∧ (w.index ≤ idx → (h.get (LOCK_STAT_HELD l) = 1 → h.get (LOCK_STAT_OWNER l) ≠ e →
        (w.tries = 63 → h.swapAttempt e idx = (done h).mbReply e 5 [])
        ∧ (w.tries ≠ 63 → h.swapAttempt e idx = h.setEng e { h.eng e with swap := some { w with tries := w.tries + 1 } }))
      ∧ (h.get (LOCK_STAT_HELD l) = 0 → (h.get (LOCK_STAT_BROKEN l) = 1 → h.swapAttempt e idx = (done (got.lockRelease l e)).mbReply e 4 [])
        ∧ (h.get (LOCK_STAT_BROKEN l) = 0 → (crc32c (h.shadow e w.task (h.eng e) t) ≠ w.crc →
              h.swapAttempt e idx = (done (got.lockRelease l e)).mbReply e 3 [])
          ∧ (crc32c (h.shadow e w.task (h.eng e) t) = w.crc →
              h.swapAttempt e idx = (done ((got.lockRelease l e).set (TASK_BANK e w.task) (1 - bank))).mbReply e (if idx = w.index then 0 else 1)
                [idx % 2 ^ 32, idx / 2 ^ 32])))))

/-- The window (R205): every access moves WIN_ADDR on by 4; a write lands in a shadow bank whose PARAM_LOCK the host owns, and any other is ignored
and sets WERR; a read of the CODE region gives 0, of a bank its word, and of the operators' own store 0 while it is cleared, else a word whose
value the spec does not state. -/
def Obligations.CarverWindow : Prop := ∀ (s : State) (p : Fin 2) (e : Fin 16), s.alone →
  let h := s.hw.hub
  let a := h.get (ENG_WIN_ADDR e) / 4 * 4
  let moved := h.set (ENG_WIN_ADDR e) (a + 4)
  (∀ (v : Word) k t l, h.bankAt e a = some (k, true) → (h.eng e).tasks[k]? = some t → t.lock = some l → l < 64 →
      (h.get (LOCK_STAT_HELD l) = 1 → h.get (LOCK_STAT_OWNER l) = 17 → Gives (.winDataAccess p e (some v)) s
          (moved.setEng e { h.eng e with sram := aInsert (h.eng e).sram a v.toNat }))
      ∧ (h.get (LOCK_STAT_HELD l) = 0 ∨ h.get (LOCK_STAT_OWNER l) ≠ 17 → Gives (.winDataAccess p e (some v)) s
          ((h.on (ENG_WERR e)).set (ENG_WIN_ADDR e) (a + 4))))
  ∧ (∀ v : Word, h.bankAt e a = none ∨ (∃ k, h.bankAt e a = some (k, false)) → Gives (.winDataAccess p e (some v)) s
      ((h.on (ENG_WERR e)).set (ENG_WIN_ADDR e) (a + 4)))
  ∧ (a < 65536 → Gives (.winDataAccess p e none) s (moved.setRd p 0))
  ∧ (65536 ≤ a → ∀ k, h.bankAt e a = some k → Gives (.winDataAccess p e none) s (moved.setRd p (aGet (h.eng e).sram a 0)))
  ∧ (65536 ≤ a → h.bankAt e a = none → Gives (.winDataAccess p e none) s
      (moved.setRd p (if (h.eng e).blank then 0 else (Config.sramWord e (h.eng e).gen a).toNat)))

/-- Frames (R196, R197, R221): a complete input opens the slots it feeds, starts at a READY carver, is held by a RUNNING one, and is skipped with
OVERRUN where one is held already, whose skip restarts the tasks after the held frame; FAULTED, RESTARTING and HALTED carvers skip it; the end of
a frame with none held returns the carver to READY, or to OFF where a commit took its tasks. -/
def Obligations.Frames : Prop := ∀ (s : State) (e : Fin 16), s.up →
  let h := s.hw.hub.engSwitch e
  let x := (h.eng e).advance
  let f : CFrame := ⟨x.nextIn, x.count, x.cells.filter fun c => decide (c.index < x.nextIn + x.count)⟩
  let taken := h.setEng e { x with nextIn := x.nextIn + x.len, cells := x.cells.filter fun c => decide (x.nextIn + x.count ≤ c.index) }
  let g := taken.each ((taken.eng e).slots x.nextIn) fun h k => h.rlfInput k e x.nextIn
  let live := x.resumeAt ≤ gridInstant x.epoch x.p x.q x.nextIn
  let lost := ((((g.bump (ENG_OVERRUNS e) (ENG_SAT e)).on (ENG_OVERRUN e)).logFirst .engOverrun 0 e (x.nextIn % 2 ^ 32) (x.nextIn / 2 ^ 32)).skipFrame e x.nextIn)
  (h.eState e = 0 ∨ x.complete = false → Gives (.frameInputComplete e) s h)
  ∧ (h.eState e ≠ 0 → x.complete = true → (g.eState e = 1 → live → Gives (.frameInputComplete e) s (g.startFrame e f))
    ∧ (g.eState e = 2 → live → x.held = none → Gives (.frameInputComplete e) s (g.setEng e { g.eng e with held := some f }))
    ∧ (g.eState e = 2 → live → (∃ y, x.held = some y) → Gives (.frameInputComplete e) s
        (lost.setEng e { lost.eng e with skips := (lost.eng e).skips ++ [x.nextIn] }))
    ∧ (g.eState e = 3 ∨ g.eState e = 4 ∨ g.eState e = 5 → Gives (.frameInputComplete e) s ((g.skipFrame e x.nextIn).engSwitch e)))
  ∧ (∀ y, s.hw.hub.eState e = 2 → (s.hw.hub.eng e).running = some y → (s.hw.hub.eng e).held = none →
      Leads (.frameDone e) s fun h' => h'.eState e ≤ 1)
  ∧ (s.hw.hub.eState e ≠ 2 → Gives (.frameDone e) s (s.hw.hub.carverGate e))

/-- Faults, halts and restarts of a carver (R213 to R216, R446): a fault or a HALT stops it, breaks its locks, counts and logs; RESTART acts in
FAULTED and HALTED only; a reload that passes leads to READY with its frames after that instant, one that fails to CODE. -/
def Obligations.CarverFaults : Prop := (∀ (s : State) (e : Fin 16) (task : Fin 8) (addr : Fin (2 ^ 18)), s.alone →
  let h := s.hw.hub
  (∀ code : Fin 3, (h.eState e = 1 ∨ h.eState e = 2 → Gives (.engFault e code task addr) s (h.engFault e ([1, 3, 4].getD code 0) task addr))
    ∧ (h.eState e ≠ 1 → h.eState e ≠ 2 → Gives (.engFault e code task addr) s h))
  ∧ (h.eState e = 2 → Gives (.hang e task addr) s (h.engFault e 2 task addr))
  ∧ (h.eState e ≠ 2 → Gives (.hang e task addr) s h)
  ∧ (h.eState e ≠ 0 → Gives (.halt e) s
      ((((h.stopCarver e 5).off (ENG_FAULT e)).bump (ENG_FAULTS e) (ENG_SAT e)).log .engFault e 0 0 |>.irqEng e))
  ∧ (h.eState e = 3 ∨ h.eState e = 5 → Gives (.engRestart e) s (((h.off (ENG_RESTART_LIMIT e)).breakAll e).beginRestart e))
  ∧ (h.eState e ≠ 3 → h.eState e ≠ 5 → Gives (.engRestart e) s (h.on (ENG_WERR e)))
  ∧ (h.eState e = 4 → Gives (.restartComplete e false) s ((h.upTo (h.eng e).restartAt).engFault e 3 0 0)
      ∧ Leads (.restartComplete e true) s fun h' => h'.eState e = 1 ∧ (h'.eng e).resumeAt = max h.time.now (h.eng e).restartAt)
  ∧ (h.eState e ≠ 4 → ∀ ok, Gives (.restartComplete e ok) s h)
  ∧ Gives (.engCntClr e) s (h.engCntClr e))
  ∧ ∀ (h : Hub) (e : Fin 16) (l : Nat), l < 64 → h.get (LOCK_STAT_HELD l) = 1 →
      (h.get (LOCK_STAT_OWNER l) = e → (h.breakAll e).get (LOCK_STAT_HELD l) = 0 ∧ (h.breakAll e).get (LOCK_STAT_BROKEN l) = 1
        ∧ (h.breakAll e).get (LOCK_STAT_LAST_OWNER l) = e)
      ∧ (h.get (LOCK_STAT_OWNER l) ≠ e → (h.breakAll e).get (LOCK_STAT_HELD l) = 1 ∧ (h.breakAll e).get (LOCK_STAT_OWNER l) = h.get (LOCK_STAT_OWNER l))

/-- A relief contribution from below (R221, R223, R225, R446): below the first frame it is STALE; one that does not fit is dropped and counted in
MISMATCH; one for an emitted frame goes on as RELIEF_LATE, or is DUP where its port or the pair partner was included; one that can open its frame
is combined, and lets waiting local parts go on; otherwise it waits in its queue. The deadline and the counters of a relief slot (R221, R446): the
deadline lies RELIEF_WAIT after the frame's last index and emits the slot's next frame with what it has, identity elements where nobody
contributed, and then serves the local parts that waited; CNT_CLR keeps the slot's SAT bit. -/
def Obligations.Relief : Prop :=
  (∀ (s : State) (q : Fin 256) (p0 p : Pkt) (sl : Nat) (x : Slot) (h : Hub), s.up →
  let port := p.port.getD 255
  let g := contribOf port p.rx (Pkt.out p)
  let first := ((h.slots sl).headD x).first
  let take := fun (h : Hub) => h.freePkts q fun k => k.qseq == p.qseq
  let dup := (take (h.slotBump sl (·.dup) fun c v => { c with dup := v })).rlfDrop g
  s.hw.hub.rlfHead q = some (p0, sl) → s.hw.hub.readPkt q p0 = (p, h) → h.slotFor sl g.index = some x →
    (g.index < first → Gives (.reliefContribution q) s ((take (h.slotBump sl (·.stale) fun c v => { c with stale := v })).rlfDrop g))
    ∧ (first ≤ g.index → (x.mismatch port p.words = true → Gives (.reliefContribution q) s
          ((take ((h.slotBump sl (·.mismatch) fun c v => { c with mismatch := v }).logFirst .rlfMismatch 0 sl port 0)).rlfDrop g))
      ∧ (x.mismatch port p.words = false →
        (x.isOut g.index = true → (∀ e ∈ x.past, e.1 = g.index → x.twice port e.2.1 = false) →
            Gives (.reliefContribution q) s ((take h).rlfLate sl x g port 0 0 (some p.words)))
        ∧ (x.isOut g.index = true → (∃ e ∈ x.past, e.1 = g.index ∧ x.twice port e.2.1 = true) → Gives (.reliefContribution q) s dup)
        ∧ (x.isOut g.index = false → (∃ o ∈ x.opens, o.index = g.index ∧ x.twice port o.ports = true) → Gives (.reliefContribution q) s dup)
        ∧ (x.isOut g.index = false → (∀ o ∈ x.opens, o.index = g.index → x.twice port o.ports = false) →
            (x.canOpen g.index = true → Gives (.reliefContribution q) s (((take h).rlfInclude sl x g).rlfServe sl))
            ∧ (x.canOpen g.index = false → Gives (.reliefContribution q) s h)))))
  ∧ (∀ (s : State) (sl : Fin 64) (x : Slot), s.alone →
  let h := s.hw.hub
  (x.over = false → h.slots sl = [x] → ∀ n, n = x.next →
    let t := gridInstant x.epoch x.p x.q (n + x.count n - 1) + x.waitUs * usU
    ((∀ f ∈ x.opens, f.index ≠ n) → Gives (.reliefDeadline sl) s (((h.upTo t).rlfEmit sl x
        { index := n, elems := List.replicate x.elems (if x.combine = 0 then 0 else if x.combine = 1 then 2 ^ 63 - 1 else -(2 ^ 63))
          trunc := decide (x.count n < x.len), skip := x.locals.any fun l => l.index == n && l.lost }).rlfServe sl))
    ∧ (∀ f, x.opens.find? (fun o => o.index == n) = some f → Gives (.reliefDeadline sl) s (((h.upTo t).rlfEmit sl x f).rlfServe sl)))
  ∧ (let c := h.slotCnt (h.get RLF_SEL)
     Gives .rlfCntClr s (h.setSlotCnt (h.get RLF_SEL) { sat := c.sat, ovr := c.ovr, seqerr := c.seqerr })))

/-- Elements and the combining rules (R217): rounding to even, the clamp, infinities and NaN; SUM stays a 64-bit value, and each rule is associative
and commutative on 64-bit values with its identity neutral, so the result does not depend on the tree. The operators (R199, R200, R202, R203):
MODAL is a chain of fused multiply-adds over the inputs; STATS gives the sum, the sum of squares and the number, or the extreme; DETECT in LEVEL
mode fires at THRESH and never within MIN_GAP of a firing, in STA_LTA mode not before 4·2^LTA_K evaluations, and an input that is NaN, infinite,
or flagged under SKIP_FLAGGED is not evaluated. -/
def Obligations.ElementsAndOperators : Prop :=
  ((∀ (s : Int) (v : ℚ), let r := elemOf s v
    (-(2 ^ 52 - 1) ≤ r.1 ∧ r.1 ≤ 2 ^ 52 - 1)
    ∧ (r.2 = false → |(r.1 : ℚ) - v * scalePow s| ≤ 1 / 2)
    ∧ (r.2 = false → |(r.1 : ℚ) - v * scalePow s| = 1 / 2 → r.1 % 2 = 0)
    ∧ (r.2 = true → r.1 = 2 ^ 52 - 1 ∨ r.1 = -(2 ^ 52 - 1)))
  ∧ (∀ (c b : Nat) (s : Int), fIsNaN b = true → elemOf32 c s b = (identity c, false, true))
  ∧ ∀ (c : Nat) (a b d : Int), (∀ v ∈ [a, b, d], -(2 ^ 63) ≤ v ∧ v < 2 ^ 63) →
      combine1 c a b = combine1 c b a ∧ combine1 c (combine1 c a b) d = combine1 c a (combine1 c b d)
      ∧ (-(2 ^ 63) ≤ combine1 c a b ∧ combine1 c a b < 2 ^ 63) ∧ combine1 c (identity c) a = a
      ∧ (c = 0 → (combine1 c a b - (a + b)) % 2 ^ 64 = 0))
  ∧ ((∀ (m : Nat → Nat) (ins outs o : Nat) (xs : List Nat), o < outs →
    (modalRow m ins outs xs).getD o 0 = ((List.range ins).map fun i => (m (o * ins + i), xs.getD i 0)).foldl (fun y a => fFma a.1 a.2 y) 0)
  ∧ (∀ v : ℚ, ∀ vs : List ℚ, statsOf 1 (v :: vs) = [vs.foldl min v] ∧ statsOf 2 (v :: vs) = [vs.foldl max v]
      ∧ (statsOf 0 vs).getD 2 0 = vs.length ∧ statsOf 1 [] = [] ∧ statsOf 2 [] = [])
  ∧ (∀ (t : Task) (x : Nat), t.mode = 0 →
      let r := t.detect x
      (r.2 = true ↔ t.gap = 0 ∧ fLe t.thresh (x % 2 ^ 31) = true)
      ∧ (r.2 = true → r.1.gap = t.minGap) ∧ (r.2 = false → r.1.gap = t.gap - 1) ∧ r.1.evals = t.evals + 1)
  ∧ (∀ (t : Task) (x : Nat), t.mode = 1 →
      let r := t.detect x
      (r.2 = true ↔ t.gap = 0 ∧ t.armed = true ∧ 4 * 2 ^ t.ltaK ≤ t.evals ∧ 0 < fVal r.1.lta ∧ fVal t.on * fVal r.1.lta ≤ fVal r.1.sta)
      ∧ (r.2 = true → r.1.gap = t.minGap ∧ (fVal t.off < fVal t.on → r.1.armed = false))
      ∧ (t.armed = false → r.1.armed = true → fVal r.1.sta ≤ fVal t.off * fVal r.1.lta)
      ∧ r.1.sta = fAdd t.sta (fMul (fSub (x % 2 ^ 31) t.sta) (fRound (1 / 2 ^ t.staK) false))
      ∧ r.1.lta = fAdd t.lta (fMul (fSub (x % 2 ^ 31) t.lta) (fRound (1 / 2 ^ t.ltaK) false)))
  ∧ (∀ (t : Task) (v : Nat × Nat) (rest : List (Nat × Nat)) (i : Nat) (acc : List Nat),
      fFinite v.1 = false ∨ (t.skip = true ∧ v.2 ≠ 0) → detectRows t (v :: rest) i acc = detectRows t rest (i + 1) acc))

/-- The compression engine (R240 to R244, R446): an attempt ends by what it met, with its code in LAST_CODE; only CMP_OK, whose output decodes to the
body again, commits the compressed body, every other code the original with RAW, a poisoned one with POISON too; a stalled engine has not done; a
granted page lets it take the output pages it needs, and where one is missing it stalls; a stall at its limit ends the attempt with CMP_ERR_STALL.
Host decompression (R237, R245, R246, R446): GO starts a job of two disjoint ranges of buffer memory while none runs, and sets WERR otherwise; the
end sets DONE, the code and both lengths, counts, and writes what was decoded where the target is host region; ABORT ends it with code 8; a stored
block decodes to its bytes. -/
def Obligations.CompressionJobs : Prop :=
  ((∀ s : State, s.alone →
  let h := s.hw.hub
  (h.cmpHead = none → ∀ f, Gives (.cmpAttemptDone f) s h.cmpGate)
  ∧ (h.get CMP_STAT_STALLED = 1 → ∀ f, Gives (.cmpAttemptDone f) s h.cmpGate)
  ∧ (∀ j, h.cmpHead = some j →
      let g := fun (h : Hub) code => ((h.set CMP_STAT_LAST_CODE code).off CMP_STAT_STALLED).setCmp { h.cmp with stallAt := none, ctl := none, out := (0, 0) }
      let fin := fun (x : Hub) (p : Pkt) =>
        (((x.setCmp { x.cmp with list := x.cmp.list.map fun e => if e = j then { e with ready := some p } else e }).cmpSettle).refill
          (h.get (Q_PARTITION j.queue))).cmpBegin
      let raw := j.pkt.flag hdrRaw
      let out := deflate h.cmpRun j.area
      let seq := j.pkt.words.getD 1 0
      let bad := ((g h 2).bump CMP_VERIFY_FAIL CMP_STAT_SAT).log .cmpVerify j.stream seq 0
      (h.get CMP_STAT_STALLED = 0 →
        Gives (.cmpAttemptDone 1) s (fin bad raw).cmpGate
        ∧ Gives (.cmpAttemptDone 2) s (fin ((g h 4).bump CMP_POISON CMP_STAT_SAT) { raw.flag hdrPoison with poison := true }).cmpGate
        ∧ (j.pkt.len - 56 ≤ out.length → Gives (.cmpAttemptDone 0) s (fin ((g h 1).bump CMP_NOSHRINK CMP_STAT_SAT) raw).cmpGate)
        ∧ (out.length < j.pkt.len - 56 → cmpVerified out j.area = false → Gives (.cmpAttemptDone 0) s (fin bad raw).cmpGate)
        ∧ (out.length < j.pkt.len - 56 → cmpVerified out j.area = true → Gives (.cmpAttemptDone 0) s (fin
          (((((g h 0).bump CMP_PACKETS CMP_STAT_SAT).rsChange 0x5028 CMP_STAT_OVR).rsChange 0x5030 CMP_STAT_OVR).addBytes CMP_BYTES_IN_LO CMP_BYTES_IN_HI
            (j.pkt.len - 56) |>.addBytes CMP_BYTES_OUT_LO CMP_BYTES_OUT_HI out.length)
          { j.pkt.flag hdrCmp with words := (j.pkt.flag hdrCmp).words.take 14 ++ wordsOf ((out.length + 3) / 4) out, len := 56 + out.length }).cmpGate))
      ∧ (∀ t, h.cmp.stallAt = some t → Gives .cmpStallLimit s
          (fin (((g (h.upTo (t + h.cmpRun.stallUs * usU)) 3).bump CMP_ABANDON CMP_STAT_SAT).logFirst .cmpAbandon 0 j.stream seq 0) raw))
      ∧ (h.cmp.stallAt = none → Gives .cmpStallLimit s h))
  ∧ (h.get CMP_STAT_STALLED = 1 → Gives .cmpPageGranted s h.cmpTake)
  ∧ (h.get CMP_STAT_STALLED = 0 → Gives .cmpPageGranted s h)
  ∧ Gives .cmpCntClr s (h.offs [CMP_PACKETS, CMP_NOSHRINK, CMP_VERIFY_FAIL, CMP_ABANDON, CMP_BYPASS, CMP_POISON, CMP_BYTES_IN_LO, CMP_BYTES_IN_HI,
      CMP_BYTES_OUT_LO, CMP_BYTES_OUT_HI]))
  ∧ ∀ (h : Hub) (j : CmpJob), h.cmpHead = some j →
      let k := j.outPages h.cmpRun - h.cmp.out.2
      let free := h.cmpMasked = false ∧ (h.get (Q_MAX_PAGES j.queue) = 0 ∨ h.qPages j.queue + k ≤ h.get (Q_MAX_PAGES j.queue))
        ∧ k ≤ h.poolFree (h.get (Q_PARTITION j.queue))
      (free → h.cmpTake.get CMP_STAT_STALLED = 0 ∧ h.cmpTake.cmp = { h.cmp with out := (j.queue, h.cmp.out.2 + k), stallAt := none })
      ∧ (0 < k → ¬ free → h.cmp.stallAt = none → h.cmpTake.get CMP_STAT_STALLED = 1 ∧ h.cmpTake.cmp.stallAt = some h.time.now))
  ∧ ((∀ s : State, s.alone →
  let w := s.hw
  let h := w.hub
  let a := h.get DCMP_SRC_ADDR
  let n := h.get DCMP_SRC_LEN
  let b := h.get DCMP_DST_ADDR
  let m := h.get DCMP_DST_MAX
  (h.get DCMP_BUSY = 0 → 0 < n → 0 < m → a + n ≤ 2 ^ 28 → b + m ≤ 2 ^ 28 → a + n ≤ b ∨ b + m ≤ a → Gives .dcmpGo s
      (((h.on DCMP_BUSY).off DCMP_ERR).setCmp { h.cmp with job := some (a, n, b, m, h.get DCMP_XFORM, h.bit DCMP_SKIP64) }))
  ∧ (h.get DCMP_BUSY = 1 ∨ n = 0 ∨ m = 0 ∨ 2 ^ 28 < a + n ∨ 2 ^ 28 < b + m → Gives .dcmpGo s (h.on DCMP_WERR))
  ∧ (∀ a n b m x skip, h.cmp.job = some (a, n, b, m, x, skip) → b + m ≤ 2 ^ 28 →
      let src := w.jobBytes a n
      let r := dcmpResult src m x (max 1 (Config.rowUnits h.free)) skip
      let i := inflate src m
      GivesHw .dcmpJobDone s { w with hub := (h.draw.dcmpEnd r.1 r.2.1.length r.2.2).cmpGate
                                      mem := if w.hub.hostRange b (r.2.1.take m).length then w.mem.put b (r.2.1.take m) else w.mem }
      ∧ ∀ out, let k := min out i.2.1.length
        GivesHw (.dcmpAbort out) s { w with hub := (h.draw.dcmpEnd 8 k (min n i.2.2)).cmpGate
                                            mem := if w.hub.hostRange b (i.2.1.take k).length then w.mem.put b (i.2.1.take k) else w.mem })
  ∧ Gives .dcmpCntClr s (h.offs [DCMP_JOBS, DCMP_ERRORS]))
  ∧ (∀ (h : Hub) (code out used : Nat), code < 16 → out < 2 ^ 24 → used < 2 ^ 24 →
      let e := h.dcmpEnd code out used
      e.get DCMP_BUSY = 0 ∧ e.get DCMP_DONE = 1 ∧ e.get DCMP_ERR = code ∧ e.get DCMP_OUT_LEN = out ∧ e.get DCMP_IN_USED = used ∧ e.cmp.job = none
      ∧ e.get DCMP_JOBS = min (h.get DCMP_JOBS + 1) (2 ^ 32 - 1)
      ∧ e.get DCMP_ERRORS = if 1 ≤ code ∧ code ≤ 7 then min (h.get DCMP_ERRORS + 1) (2 ^ 32 - 1) else h.get DCMP_ERRORS)
  ∧ ∀ (b : List (BitVec 8)) (top : Nat), b.length < 2 ^ 16 → b.length ≤ top →
      inflate (1 :: leBytes 2 b.length ++ leBytes 2 (2 ^ 16 - 1 - b.length) ++ b) top = (0, b, 5 + b.length))

/-- The pre-transforms and their inverses (R233 to R235): SHUFFLE and DELTA, alone or together, are undone exactly, whatever the row length. -/
def Obligations.TransformsInvert : Prop := ∀ (x r : Nat) (u : List Nat), 1 ≤ r → (∀ v ∈ u, v < 2 ^ 32) →
  untransform x r (transform x r u) = bytesOf u ∧ (transform x r u).length = 4 * u.length
  ∧ (∀ i, r ≤ i → i < u.length → (delta r u).getD i 0 = (u.getD i 0 + 2 ^ 32 - u.getD (i - r) 0) % 2 ^ 32)

/-- The paged window and the scrubber (R249, R252, R447, R448, R446): a 32-bit write merges with its word and is refused with WERR outside the host
region; a word with an uncorrectable error keeps it, and only an aligned WRITE64 replaces it whole; a read of host memory gives what was written,
of the SYSTEM pages 0; the scrubber counts corrected words and leaves the others as stored. -/
def Obligations.WindowAndScrub : Prop := ∀ (s : State) (p : Fin 2) (off : Fin (2 ^ 20)) (v u : Word), s.alone →
  let w := s.hw
  let h := w.hub
  let a := h.get MEM_BASE * 2 ^ 20 + off / 4 * 4
  (h.hostPage (a / 4096) = false → GivesHw (.windowAccess p off (some (v, none)) 0) s { w with hub := h.on MEM_WERR })
  ∧ (h.hostPage (a / 4096) = true → (w.mem.isBad a = false →
        GivesHw (.windowAccess p off (some (v, none)) 0) s { w with mem := { w.mem with cells := memPut w.mem.cells a (leBytes 4 v.toNat) } }
        ∧ GivesHw (.windowAccess p off none 0) s { w with hub := h.setRd p (w.mem.word a) })
      ∧ (w.mem.isBad a = true → GivesHw (.windowAccess p off (some (v, none)) 0) s { w with hub := h.ueAt a }
        ∧ GivesHw (.windowAccess p off none 0) s { w with hub := (h.ueAt a).setRd p (w.mem.word a) })
      ∧ (a % 8 = 0 → GivesHw (.windowAccess p off (some (v, some u)) 0) s
          { w with mem := { cells := memPut w.mem.cells a (leBytes 4 v.toNat ++ leBytes 4 u.toNat), bad := w.mem.bad.filter fun k => k != a / 8 } }))
  ∧ (a < 2 ^ 20 → GivesHw (.windowAccess p off none 0) s { w with hub := h.setRd p 0 })
  ∧ (h.hostPage (a / 4096) = true → w.mem.isBad a = false →
      GivesHw (.windowAccess p off none 1) s { w with hub := (h.bump MEM_CE_COUNT MEM_SAT).setRd p (w.mem.word a) })
  ∧ (∀ (ce : Nat) (ues : List (Fin (2 ^ 28))), (h.get MEM_SCRUB_EN = 1 → h.pwr.phase = .run → GivesHw (.scrubPass ce ues) s
        { w with hub := ues.foldl (fun g e => g.ueAt e.val) (h.bumpBy MEM_CE_COUNT MEM_SAT ce)
                 mem := ues.foldl (fun m e => m.spoil e.val) w.mem })
      ∧ (h.get MEM_SCRUB_EN = 0 → GivesHw (.scrubPass ce ues) s w))
  ∧ Gives .memCntClr s (h.offs [MEM_CE_COUNT, MEM_UE_COUNT, MEM_DISCARDS, MEM_GAPS])

/-- The push port (R260, R261, R446): writes to a queue without HOST in its mask set WERR; while FULL a PUSH_LEN, and a PUSH with no packet open, set
OVR; a PUSH_LEN opens a packet and rewinds one still open; the packet commits with its last word, at the queue's next QSEQ. The pop port and
acknowledgement (R256, R263, R264, R446): POP_LO gives the next word of the packet in progress, else of a pending gap record, else of the oldest
COMMITTED packet, with its tag, count and QSEQ for POP_HI, makes the packet SENT at END and shows POISON; ACK frees the SENT packets up to the one
named; REPLAY returns them to COMMITTED. -/
def Obligations.QueuePorts : Prop :=
  (∀ (s : State) (q : Fin 256) (n : Fin (2 ^ 13)) (v : Word), s.alone →
  let h := s.hw.hub
  let x := h.q q
  let opened := fun (g : Hub) => (g.setQ q { g.q q with
    push := some (n.val, []), prods := ((g.q q).prods.filter fun p => p.prod != 4) ++ [{ prod := 4, tag := 0, need := need (4 * n) }] }).press (h.get (Q_PARTITION q))
  (h.qMask q 4 = false → Gives (.pushLen q n) s (h.on (Q_WERR q)) ∧ Gives (.push q v) s (h.on (Q_WERR q)))
  ∧ (h.qMask q 4 = true →
    (h.qFull q = true → Gives (.pushLen q n) s (h.on (Q_OVR q)) ∧ (x.push = none → Gives (.push q v) s (h.on (Q_OVR q))))
    ∧ (h.qFull q = false → (n.val = 0 ∨ 4110 < n.val → Gives (.pushLen q n) s (h.on (Q_WERR q)))
      ∧ (n.val ≠ 0 → n.val ≤ 4110 → (x.push = none → Gives (.pushLen q n) s (opened h))
        ∧ (∀ o, x.push = some o → Gives (.pushLen q n) s (opened (h.bump (Q_REWINDS q) (Q_SAT q)))))
      ∧ (x.push = none → Gives (.push q v) s (h.on (Q_WERR q))))
    ∧ (∀ k ws, x.push = some (k, ws) →
      (ws.length + 1 < k → Gives (.push q v) s (h.setQ q { x with push := some (k, v.toNat :: ws) }))
      ∧ (k ≤ ws.length + 1 → h.get (Q_FLUSH_BUSY q) = 0 → Leads (.push q v) s fun h' =>
          (h'.q q).pkts = x.pkts ++ [{ words := ws.reverse ++ [v.toNat], len := 4 * k, qseq := x.nextSeq, off := x.tail }]
          ∧ (h'.q q).nextSeq = (x.nextSeq + 1) % 2 ^ 32 ∧ (h'.q q).push = none ∧ h'.regs = h.regs
          ∧ ∀ j, j ≠ q.val → h'.q j = h.q j))))
  ∧ ((∀ (s : State) (p : Fin 2) (q : Fin 256) (v : Word), s.alone →
  let h := s.hw.hub
  let x := h.q q
  let snap := fun (g : Hub) (hi : Nat) => { g with snaps := aInsert g.snaps (snapKey p (0x40018 + 0x40 * q)) ⟨[hi], [0]⟩ }
  (h.get (Q_CONSUMER q) = 0 → Gives (.popLoRead p q) s ((snap (h.on (Q_WERR q)) (x.nextSeq % 2 ^ 16)).setRd p 0)
      ∧ Gives (.ack q v) s (h.on (Q_WERR q)) ∧ Gives (.replay q) s (h.on (Q_WERR q)))
  ∧ (h.get (Q_CONSUMER q) = 1 →
    ((∀ k ∈ x.pkts, k.sent = true) → Gives (.popLoRead p q) s ((snap h (x.nextSeq % 2 ^ 16)).setRd p 0))
    ∧ (∀ k0 k h1, x.front = some k0 → (if k0.popped = 0 then h.readPkt q k0 else (k0, h)) = (k, h1) →
        let left := k.out.length - k.popped - 1
        let tag := if left = 0 then 3 else if k.popped = 0 then 1 else 2
        let g := h1.modPkt q k.qseq fun a => if left = 0 then { a with sent := true, popped := 0 } else { a with popped := k.popped + 1 }
        let y := g.setQ q { g.q q with popLen := k.out.length, popPoison := k.poison }
        Gives (.popLoRead p q) s ((snap (if k.poison then y.on (Q_POISON q) else y)
          (tag * 2 ^ 30 + left % 2 ^ 14 * 2 ^ 16 + k.qseq % 2 ^ 16)).setRd p (k.out.getD k.popped 0)))
    ∧ ((∃ k ∈ x.pkts, k.sent = true ∧ k.qseq = v.toNat) → Gives (.ack q v) s (h.freePkts q fun k => k.sent && serialLe k.qseq v.toNat))
    ∧ ((∃ k ∈ x.pkts, k.qseq = v.toNat) → (∀ k ∈ x.pkts, k.qseq = v.toNat → k.sent = false) → Gives (.ack q v) s (h.on (Q_WERR q)))
    ∧ ((∀ k ∈ x.pkts, k.qseq ≠ v.toNat) → serialLe v.toNat (h.get (Q_ACKED_QSEQ q)) = true → x.nextSeq ≠ 0 → Gives (.ack q v) s h)
    ∧ Gives (.replay q) s (h.setQ q { x with pkts := x.pkts.map fun k =>
        { k with sent := false, popped := 0, again := k.again || k.sent || decide (0 < k.popped) } })))
  ∧ ∀ (x : QSt) (k : Pkt), x.front = some k → k ∈ x.pkts ∧ k.sent = false
      ∧ (k.popped = 0 → (∀ e ∈ x.pkts, e.sent = false → e.popped = 0) ∧ (k.gap = none → ∀ e ∈ x.pkts, e.sent = false → e.gap = none)))

/-- FLUSH and its completion (R257, R262, R446): refused with WERR in OFF or while one is in progress; an ACTIVE queue is FLUSHING; once the packets
in progress have ended, the COMMITTED ones are discarded, FLUSHED is set and Q_FLUSH logged; SENT packets, gap records and newer packets stay.
Sacrificial discard, starvation and gap records (R259, R266, R267): a queue with HOST in its mask gives no candidate, and a gap record or a SENT
packet is none; the victim has the lowest rank among the sheddable queues; a packet given up after 50 µs sets STARVED and is covered; a waiting
record is issued when its page can be had; its range is the packet's. -/
def Obligations.FlushesAndDiscards : Prop :=
  (∀ (s : State) (q : Fin 256), s.alone →
  let h := s.hw.hub
  let x := h.q q
  let marked := ((h.setQ q { x with prods := x.prods.map fun p => { p with old := true }, pkts := x.pkts.map fun p => { p with fresh := false } }).on
    (Q_FLUSH_BUSY q))
  let doomed := x.pkts.filter fun p => !p.sent && !p.isGap && !p.fresh && p.popped == 0 && !p.moving
  (h.qState q = 0 ∨ h.get (Q_FLUSH_BUSY q) = 1 → Gives (.flush q) s (h.on (Q_WERR q)))
  ∧ (h.get (Q_FLUSH_BUSY q) = 0 → (h.qState q = 1 → Gives (.flush q) s (marked.set (Q_STATE q) 2))
    ∧ (h.qState q = 3 → Gives (.flush q) s marked))
  ∧ (h.get (Q_FLUSH_BUSY q) = 0 ∨ (∃ p ∈ x.prods, p.old = true) → Gives (.flushComplete q) s h)
  ∧ (h.get (Q_FLUSH_BUSY q) = 1 → (∀ p ∈ x.prods, p.old = false) →
      let g := (((doomed.foldl (fun g p => g.dropPkt q p 1) h).off (Q_FLUSH_BUSY q)).on (Q_FLUSHED q)).log .qFlush q doomed.length 0
      (g.qState q = 2 → Gives (.flushComplete q) s ((g.set (Q_STATE q) 1).refill (g.get (Q_PARTITION q))))
      ∧ (g.qState q ≠ 2 → Gives (.flushComplete q) s (g.refill (g.get (Q_PARTITION q)))))
  ∧ Gives (.qCntClr q) s (h.offs [Q_DISCARDS q, Q_REWINDS q]))
  ∧ ((∀ (s : State) (q : Fin 256), s.up →
  let h := s.hw.hub
  let x := h.q q
  ((∀ p ∈ x.prods, p.granted = true ∨ 2 ≤ p.prod) → Gives (.starved q) s h)
  ∧ (∀ r, (x.prods.find? fun p => !p.granted && decide (p.prod ≤ 1)) = some r → r.prod = 1 → 0 < r.pkt.count →
      let g := (((h.upTo (r.since + 50 * usU)).prodEnd q r.prod r.tag).on MEM_STARVED).settleAll r.pkt.owes
      Gives (.starved q) s (g.gapIssue q (g.gapOf r.pkt 1)))
  ∧ (x.waiting = [] → Gives (.gapRecordSlotObtained q) s h)
  ∧ (∀ l g, x.waiting = l ++ [g] → Gives (.gapRecordSlotObtained q) s ((h.setQ q { x with waiting := l }).gapIssue q g)))
  ∧ (∀ (h : Hub) (q : Nat) (p : Pkt), h.candidate q = some p → h.qMask q 4 = false ∧ p ∈ (h.q q).pkts ∧ p.sent = false ∧ p.gap = none ∧ p.relayedGap = false
      ∧ p.moving = false)
  ∧ (∀ (h : Hub) (p v : Nat), h.victim p = some v →
      v ∈ h.qsOf p ∧ h.candidate v ≠ none
      ∧ (h.get (Q_UNSHEDDABLE v) ≠ 0 → ∀ q ∈ h.qsOf p, h.candidate q ≠ none → h.get (Q_UNSHEDDABLE q) ≠ 0)
      ∧ (∀ q ∈ h.qsOf p, h.candidate q ≠ none → (h.get (Q_UNSHEDDABLE q) = 0 ↔ h.get (Q_UNSHEDDABLE v) = 0) →
          h.get (Q_SAC_RANK v) ≤ h.get (Q_SAC_RANK q) ∧ (h.get (Q_SAC_RANK q) = h.get (Q_SAC_RANK v) → q ≤ v)))
  ∧ ∀ (h : Hub) (p : Pkt) (reason : Nat), let g := h.gapOf p reason
      g.first = p.first ∧ g.last = p.first + p.count - 1 ∧ g.origin = p.origin ∧ g.stream = p.stream ∧ g.issuer = h.route ∧ g.reason = reason)

/-- DMA channels (R269 to R275, R446): GO acts in IDLE only and fetches the descriptor at DESC; one outside the channel's pages, misaligned or not
allowed halts it; RESUME acts in HALTED only; ABORT returns the channel to IDLE with its locks broken; the last word of a descriptor leads on to
the next of the chain or to IDLE; a retry attempts the lock 1 µs later; a lost link halts a REMOTE transfer. One word and one halt of a channel
(R269, R270, R274): a word of a MEM to MEM transfer is copied and PROGRESS moves on by 4; outside the channel's pages it faults, on its own side,
with nothing moved; a halt records code, side and address, counts, raises the channel's interrupt and keeps the descriptor. -/
def Obligations.DmaTransfers : Prop :=
  (∀ (s : State) (c : Fin 32), s.alone →
  let w := s.hw
  let h := w.hub
  let started := w.onHub fun h => h.set (DMA_CUR_DESC c) (h.get (DMA_DESC c))
  let a := h.get (DMA_DESC c)
  let d := parseDesc a (memBytes w.mem.cells a 64)
  (h.get (DMA_STATE c) ≠ 0 → Gives (.dmaGo c) s (h.on (DMA_WERR c)))
  ∧ (h.get (DMA_STATE c) = 0 → a < 2 ^ 28 → GivesHw (.dmaGo c) s (started.dmaFetch c)
      ∧ (h.dmaPage c a = false → LeadsHw (.dmaGo c) s fun w' => w'.hub.get (DMA_STATE c) = 3 ∧ w'.hub.get (DMA_FAULT c) = 1 ∧ w'.hub.get (DMA_FAULT_ADDR c) = a)
      ∧ (h.dmaPage c a = true → (∀ i < 8, w.mem.isBad (a + 8 * i) = false) →
        (a % 64 ≠ 0 ∨ d.ok = false → LeadsHw (.dmaGo c) s fun w' => w'.hub.get (DMA_STATE c) = 3 ∧ w'.hub.get (DMA_FAULT c) = 4 ∧ w'.hub.get (DMA_FAULT_ADDR c) = a)
        ∧ (a % 64 = 0 → d.ok = true → d.lockAcq = false → d.srcKind = 0 → d.dstKind = 0 → LeadsHw (.dmaGo c) s fun w' =>
            w'.hub.get (DMA_STATE c) = 1 ∧ w'.hub.get (DMA_FAULT c) = 0 ∧ w'.hub.get (DMA_CUR_DESC c) = a ∧ w'.hub.get (DMA_PROGRESS c) = 0
            ∧ (w'.hub.dmaSt c).desc = some d ∧ (w'.hub.dmaSt c).moving = true ∧ w'.mem = w.mem
            ∧ OnlyRegs [DMA_STATE c, DMA_FAULT c, DMA_CUR_DESC c, DMA_PROGRESS c] h w'.hub)))
  ∧ (h.get (DMA_STATE c) ≠ 3 → Gives (.dmaResume c) s (h.on (DMA_WERR c)))
  ∧ (h.get (DMA_STATE c) = 3 → ((h.dmaSt c).desc = none → GivesHw (.dmaResume c) s (w.dmaFetch c))
      ∧ (∀ d, (h.dmaSt c).desc = some d →
        let g := w.onHub fun h => (h.set (DMA_STATE c) 1).off (DMA_FAULT c)
        (h.get (DMA_FAULT c) = 5 → GivesHw (.dmaResume c) s (g.dmaLock c d true))
        ∧ (h.get (DMA_FAULT c) ≠ 5 → GivesHw (.dmaResume c) s (g.dmaBegin c d))))
  ∧ ((h.dmaSt c).desc = none → GivesHw (.dmaAbort c) s { w with hub := ((((h.setDma c {}).set (DMA_STATE c) 0).breakAll (32 + c)).dmaShowLock c).arbWithdraw (32 + c) })
  ∧ (∀ d, (h.dmaSt c).desc = some d → d.srcKind ≠ 1 → (h.dmaSt c).producing = false →
      GivesHw (.dmaAbort c) s { w with hub := ((((h.setDma c {}).set (DMA_STATE c) 0).breakAll (32 + c)).dmaShowLock c).arbWithdraw (32 + c) })
  ∧ (∀ d, (h.dmaSt c).desc = some d → h.get (DMA_STATE c) = 2 →
      GivesHw (.dmaLockRetry c) s ((w.onHub fun h => h.upTo (h.time.now + usU)).dmaLock c d false))
  ∧ (h.get (DMA_STATE c) ≠ 2 → GivesHw (.dmaLockRetry c) s w)
  ∧ (∀ d wait ext r, (h.dmaSt c).desc = some d → h.get (DMA_STATE c) = 1 → (h.dmaSt c).moving = true → d.dstKind = 0 → d.lockRel = false → d.irq = false →
      w.dmaAdvance c d (ext.map (·.toNat)) d.len = (r, none) → r.hub.dmaOver c d = true →
      let y := r.dmaWriteBack c 0 false (r.hub.dmaSt c).poison (r.hub.get (DMA_PROGRESS c)) wait
      let z := y.onHub fun h => (((h.bump (DMA_DESCS c) (DMA_SAT c)).set (DMA_DELAYED c) 0).set (DMA_WAIT c) (min wait (2 ^ 32 - 1))).dmaShowLock c
      (d.chain = true → GivesHw (.dmaDescriptorDone c wait false ext) s ((z.onHub fun h => h.set (DMA_CUR_DESC c) d.next).dmaFetch c))
      ∧ (d.chain = false → GivesHw (.dmaDescriptorDone c wait false ext) s (z.onHub fun h => (h.setDma c {}).set (DMA_STATE c) 0)))
  ∧ (∀ d off ext, (h.dmaSt c).desc = some d → h.get (DMA_STATE c) = 1 → (h.dmaSt c).moving = true → d.srcKind = 3 → d.dstKind = 0 →
      GivesHw (.dmaFault c .link off ext) s (w.dmaHalt c ⟨3, d.dstKind == 3, memEnd d.src + h.get (DMA_PROGRESS c)⟩))
  ∧ Gives (.dmaCntClr c) s (h.offs [DMA_DESCS c, DMA_FAULTS c]))
  ∧ (∀ (w : Hw) (c : Fin 32) (d : Desc) (v : Nat), d.srcKind = 0 → d.dstKind = 0 →
  let i := w.hub.get (DMA_PROGRESS c)
  let a := memEnd d.src + i
  let b := memEnd d.dst + i
  (w.hub.dmaPage c a = true → w.hub.dmaPage c b = true → w.mem.isBad a = false → i + 4 < 2 ^ 32 →
      (w.dmaWord c d v).2 = none ∧ (w.dmaWord c d v).1.mem = w.mem.put b (leBytes 4 (w.mem.word a)) ∧ (w.dmaWord c d v).1.hub.get (DMA_PROGRESS c) = i + 4)
  ∧ (w.hub.dmaPage c a = false → w.dmaWord c d v = (w, some ⟨1, false, a⟩))
  ∧ (w.hub.dmaPage c a = true → w.mem.isBad a = false → w.hub.dmaPage c b = false → w.dmaWord c d v = (w, some ⟨1, true, b⟩))
  ∧ ∀ f : Halt, f.code < 16 → f.addr < 2 ^ 32 →
      let w' := w.dmaHalt c f
      w'.hub.get (DMA_STATE c) = 3 ∧ w'.hub.get (DMA_FAULT c) = f.code ∧ w'.hub.get (DMA_FAULT_DST c) = b2n f.dst
      ∧ w'.hub.get (DMA_FAULT_ADDR c) = f.addr ∧ w'.hub.get (DMA_FAULTS c) = min (w.hub.get (DMA_FAULTS c) + 1) (2 ^ 32 - 1)
      ∧ w'.hub.get (DMA_PROGRESS c) = i ∧ w'.hub.get (DMA_CUR_DESC c) = w.hub.get (DMA_CUR_DESC c))

/-- Arbitration (R280 to R282, R285 to R289, R446): the round's winner is an unmasked class A request next in rotation, else the class B request of
the highest level, else the oldest class C one; a window restarts the counts and masks; a starved or refused request is recorded; a level write
reaches the requester selected, where it has class B traffic. -/
def Obligations.Arbitration : Prop := (∀ (s : State) (r : Fin 20) (who : Fin 64), s.alone →
  let h := s.hw.hub
  let x := h.arbRes r
  (∀ t ends wd new,
      let g := h.upTo t
      let g := g.setRes r { g.arbRes r with waiting := (g.arbRes r).waiting.filter fun q => !(wd.map (·.val)).contains q.who }
      Gives (.arbitrationRound r t ends wd new) s (((new.foldl (fun g a => g.arrive r a.who.val a.words a.cls) g).wordEnds r ends).grant r))
  ∧ (h.arb.running = true → Leads .quotaWindowEnd s fun h' => h'.arb.windowAt = h.arb.windowAt + h.get ARB_WIN_CYC * 2 * nsU
      ∧ h'.time.now = max h.time.now h'.arb.windowAt ∧ (∀ e ∈ h'.arb.res, e.2.used = [] ∧ e.2.masked = []) ∧ h'.regs = h.regs)
  ∧ (h.arb.running = false → Gives .quotaWindowEnd s h)
  ∧ ((∀ q ∈ x.waiting, q.who = who.val → q.cls = .b → q.starved = true) → Gives (.starve r who) s h)
  ∧ (∀ q, x.waiting.find? (fun q => q.who == who.val && q.cls == .b && !q.starved) = some q → Leads (.starve r who) s fun h' =>
      h'.get ARB_STARVE = 1 ∧ h'.get DEV_IRQ_ARB = 1 ∧ h'.get ARB_STARVE_COUNT = min (h.get ARB_STARVE_COUNT + 1) ARB_STARVE_COUNT.top
      ∧ (h.get ARB_STARVE_WHO_VALID = 0 → h'.get ARB_STARVE_WHO_VALID = 1 ∧ h'.get ARB_STARVE_WHO_RES = r ∧ h'.get ARB_STARVE_WHO_REQ = who)
      ∧ (h.get ARB_STARVE_WHO_VALID = 1 → h'.get ARB_STARVE_WHO_RES = h.get ARB_STARVE_WHO_RES ∧ h'.get ARB_STARVE_WHO_REQ = h.get ARB_STARVE_WHO_REQ))
  ∧ (∀ off ext, h.overdue r who = none → GivesHw (.refusedOverload r who off ext) s s.hw)
  ∧ (∀ off ext q, h.overdue r who = some q → who.val = 17 → 4 ≤ r.val → GivesHw (.refusedOverload r who off ext) s
      { s.hw with hub := ((h.arbRefuse r q).hostRefused fun a => a == 0x30044 + 0x1000 * (r.val - 4)).on (ENG_WIN_REFUSED (r.val - 4)) })
  ∧ (∀ off ext q, h.overdue r who = some q → who.val = 23 → GivesHw (.refusedOverload r who off ext) s
      { s.hw with hub := (h.arbRefuse r q).dcmpRefused })
  ∧ (∀ off ext q, h.overdue r who = some q → 32 ≤ who.val → GivesHw (.refusedOverload r who off ext) s
      ((s.hw.onHub fun h => h.arbRefuse r q).dmaFault (who.val - 32) .refused off ext))
  ∧ (∀ v : Fin 8, (h.get ARB_RSEL < 20 → h.classB (h.get ARB_RSEL) (h.get ARB_QSEL) = true → Gives (.arbPrioWrite v) s
        (h.setArb { h.arb with level := aInsert h.arb.level (arbKey (h.get ARB_RSEL) (h.get ARB_QSEL)) v }))
      ∧ (20 ≤ h.get ARB_RSEL ∨ h.classB (h.get ARB_RSEL) (h.get ARB_QSEL) = false → Gives (.arbPrioWrite v) s (h.on ARB_WERR)))
  ∧ Gives .arbCntClr s (h.offs [ARB_STARVE_COUNT, ARB_REFUSE_COUNT, ARB_MASK_COUNT]))
  ∧ ∀ (h : Hub) (r : Nat) (x : ResSt),
      let A := fun (q : Req) => q ∈ x.waiting ∧ q.cls = .a ∧ h.hasQuota r x q.who = true
      let B := fun (q : Req) => q ∈ x.waiting ∧ q.cls = .b
      let C := fun (q : Req) => q ∈ x.waiting ∧ q.cls = .c
      ((∃ q, A q) → ∃ q, h.winner r x = some q ∧ A q ∧ ∀ p, A p → rotation x.lastA q.who ≤ rotation x.lastA p.who)
      ∧ ((∀ q, ¬ A q) → (∃ q, B q) → ∃ q, h.winner r x = some q ∧ B q ∧ ∀ p, B p → h.level r p.who ≤ h.level r q.who
          ∧ (h.level r p.who = h.level r q.who → rotation x.lastB q.who ≤ rotation x.lastB p.who))
      ∧ ((∀ q, ¬ A q) → (∀ q, ¬ B q) → (∃ q, C q) → ∃ q, h.winner r x = some q ∧ C q ∧ ∀ p, C p → q.since ≤ p.since)
      ∧ ((∀ q, ¬ A q) → (∀ q, ¬ B q) → (∀ q, ¬ C q) → h.winner r x = none)

/-- Attempts of a link (R294 to R296, R307, R308, R314, R446): signal leads DETECT on to ALIGN and starts a new attempt from BACKOFF and QUIET; a
deadline that passes is a failure, which backs off 2^(n-1) ms up to 1 s, parks after TRAIN_RETRIES and returns a probe to QUIET; RETRAIN starts
over; the plan changes in IDLE and MAINTENANCE alone. The steps of training (R298, R299, R302 to R305, R307): CDR lock, the search over the 66
offsets, the manual boundary of MAINTENANCE, the polarity, the eye, the TRAIN sets and the MARKER columns, each in its own state alone. -/
def Obligations.LaneTraining : Prop :=
  ((∀ (s : State) (k : Fin 64), s.alone →
  let h := s.hw.hub
  let st := h.laneState k
  let seen := h.each (h.linkLanes k) fun h n => h.off (LANE_LOS n)
  let same := ∀ n ∈ h.linkLanes k, h.get (LANE_MODE n) = h.get (LANE_MODE k) ∧ h.get (LANE_MODE n) ≠ 0
  (h.get (LANE_LINK_LEAD k) = 1 →
    (same → st = 1 → (h.lane k).pllLost = false → Gives (.signalDetect k) s (seen.setLinkState k 2))
    ∧ (¬ same → Gives (.signalDetect k) s h)
    ∧ (st = 7 → (same → Gives (.signalDetect k) s (seen.startAttempt k false)) ∧ Gives (.backoffEnd k) s ((h.upTo (h.lane k).backoffEnd).startAttempt k false))
    ∧ (st = 8 → (same → Gives (.signalDetect k) s (seen.startAttempt k true))
        ∧ ∀ q, (h.lane k).quietAt = some q → Gives (.quietProbe k) s ((h.upTo (q + ((h.time.now - q) / secU + 1) * secU)).startAttempt k true))
    ∧ (1 ≤ st → st ≤ 4 → (h.lane k).pllLost = false → Gives (.trainTimeout k) s ((h.upTo (h.lane k).deadline).attemptFails k)))
  ∧ (h.get (LANE_LINK_LEAD k) = 0 → Gives (.signalDetect k) s h ∧ Gives (.trainTimeout k) s h ∧ Gives (.backoffEnd k) s h ∧ Gives (.quietProbe k) s h)
  ∧ (h.get (LANE_MODE k) = 1 ∨ h.get (LANE_MODE k) = 2 → st ≠ 9 → Gives (.retrain k) s (h.replan (h.leadOf k)))
  ∧ (h.get (LANE_MODE k) = 0 ∨ h.get (LANE_MODE k) = 3 ∨ st = 9 → Gives (.retrain k) s h)
  ∧ (∀ q : Fin 16, Gives (.lanePllRelock q) s ((h.setBit CLK_QUAD_LOCK q).each ((h.setBit CLK_QUAD_LOCK q).leadsOf (quadLanes q)) fun h k =>
      if (h.lane k).pllLost then (h.modLane k fun l => { l with pllLost := false }).startAttempt k false else h))
  ∧ (∀ v : Fin 8, (h.get (LANE_MODE k) = v → Gives (.linkPlanWrite k 0 v) s h)
      ∧ (h.get (LANE_MODE k) ≠ v → h.mode ≠ 1 → h.mode ≠ 7 → Gives (.linkPlanWrite k 0 v) s (h.on (LANE_WERR k)))
      ∧ (h.get (LANE_MODE k) ≠ v → h.mode = 1 ∨ h.mode = 7 → v.val = 0 ∨ v.val = 1 →
          Gives (.linkPlanWrite k 0 v) s (((h.linkLost (h.leadOf k)).set (LANE_MODE k) v).replan (h.leadOf k)))
      ∧ (k.val % 4 ≠ 0 → Gives (.linkPlanWrite k 1 v) s (h.on (LANE_WERR k)))
      ∧ (k.val % 4 = 0 → h.get (LANE_QCFG_RATE k) ≠ v → h.mode = 1 ∨ h.mode = 7 → v.val ≠ 7 → v.val = 0 ∨ (quadLanes (k / 4)).any h.isEth = false →
          Gives (.linkPlanWrite k 1 v) s ((h.set (LANE_QCFG_RATE k) v).each (h.leadsOf (quadLanes (k / 4))) Hub.replan))
      ∧ (h.get (LANE_LINK_LEAD k) = 0 → Gives (.linkPlanWrite k 2 v) s (h.on (LANE_WERR k)))
      ∧ (h.get (LANE_LINK_LEAD k) = 1 → h.get (LANE_LINK_WIDTH k) ≠ v → (h.mode ≠ 1 ∧ h.mode ≠ 7) ∨ 2 < v.val ∨ k.val % 2 ^ v.val ≠ 0 →
          Gives (.linkPlanWrite k 2 v) s (h.on (LANE_WERR k)))))
  ∧ (∀ (h : Hub) (k : Fin 64), let a := min 255 (h.get (LANE_TRAIN_ATTEMPTS k) + 1)
      let g := (h.bump (LANE_TRAIN_FAILS k) (LANE_SAT k)).set (LANE_TRAIN_ATTEMPTS k) a
      ((h.lane k).probe = true → h.attemptFails k = g.setLinkState k 8)
      ∧ ((h.lane k).probe = false → a < max 1 (h.get (LANE_TRAIN_RETRIES k)) → h.attemptFails k =
          (g.setLinkState k 7).modLane k fun l => { l with backoffEnd := h.time.now + min (2 ^ (a - 1)) 1000 * msU })
      ∧ ((h.lane k).probe = false → max 1 (h.get (LANE_TRAIN_RETRIES k)) ≤ a →
          let y := (g.setLinkState k 8).modLane k fun l => { l with quietAt := some h.time.now }
          h.attemptFails k = ((y.each (y.linkLanes k) fun h n => h.on (LANE_PARKED n)).log .laneParked k 0 0).irqLane k))
  ∧ ∀ (h : Hub) (k st : Nat), st < 16 → (∀ n ∈ h.linkLanes k, (h.setLinkState k st).laneState n = st)
      ∧ OnlyRegs ((h.linkLanes k).map LANE_STATE) h (h.setLinkState k st))
  ∧ (∀ (s : State) (n : Fin 64), s.alone →
  let h := s.hw.hub
  let st := h.laneState n
  let k := h.leadOf n
  let l := h.lane n
  (st = 2 ∨ st = 9 → Gives (.cdrLock n) s ((h.on (LANE_CDR_LOCK n)).modLane n fun l => { l with since := h.time.now }))
  ∧ (st ≠ 2 → st ≠ 9 → l.rxWake = none → Gives (.cdrLock n) s h)
  ∧ (st = 2 → h.get (LANE_CDR_LOCK n) = 1 → h.get (LANE_BLOCK_LOCK n) = 0 → h.mode ≠ 7 ∨ h.get (LANE_MANUAL_ALIGN n) = 0 →
      let t := h.blocksPass n 66
      let g := (t.set (LANE_RX_SLIP n) ((l.searchStart + l.tried) % 66)).setLane n { t.lane n with tried := (l.tried + 1) % 66 }
      Gives (.slipStep n false) s (g.set (LANE_RX_SH_RUN n) 0)
      ∧ Gives (.slipStep n true) s (((g.set (LANE_RX_SH_RUN n) 64).on (LANE_BLOCK_LOCK n)).alignDone (g.leadOf n)))
  ∧ (∀ (v : Fin 128) run, let g := (h.set (LANE_RX_SLIP n) v).set (LANE_RX_SH_RUN n) (min 65535 run)
      (h.mode = 7 → h.get (LANE_MANUAL_ALIGN n) = 1 → v.val ≤ 65 →
        (run < 64 → Gives (.slipWrite n v run) s (g.off (LANE_BLOCK_LOCK n)))
        ∧ (64 ≤ run → Gives (.slipWrite n v run) s ((g.on (LANE_BLOCK_LOCK n)).alignDone (g.leadOf n))))
      ∧ (h.mode ≠ 7 ∨ h.get (LANE_MANUAL_ALIGN n) = 0 ∨ 65 < v.val → Gives (.slipWrite n v run) s (h.on (LANE_WERR n))))
  ∧ (h.get (LANE_AUTO_POL n) = 1 → h.get (LANE_BLOCK_LOCK n) = 1 → st = 2 ∨ st = 3 → h.get (LANE_MODE n) ≠ 2 → Leads (.autoPol n) s fun h' =>
      h'.get (LANE_RX_INV n) = (1 - h.get (LANE_RX_INV n)) ∧ h'.get (LANE_RX_INV_AUTO n) = 1 ∧ h'.get (LANE_BLOCK_LOCK n) = 0
      ∧ (h'.lane n).searchStart = h.get (LANE_RX_SLIP n) ∧ (h'.lane n).tried = 0)
  ∧ (h.get (LANE_AUTO_POL n) = 0 → Gives (.autoPol n) s h)
  ∧ (∀ (eye : Fin 65) (eyes : List (Fin 65)), let w := widest (eyes.map (·.val))
      let e := fun (h : Hub) (w : Nat) => (h.set (LANE_EYE_WIDTH n) w).modLane n fun l => { l with adapted := true }
      let g := (e (h.blocksPass n 65536) w).set (LANE_EYE_PEAK_CHOSEN n) ((eyes.map (·.val)).findIdx (· == w))
      (st ≠ 3 → Gives (.adaptationDone n eye eyes) s h)
      ∧ (st = 3 → (h.get (LANE_CTLE_MANUAL n) = 1 → Gives (.adaptationDone n eye eyes) s (e h eye))
        ∧ (h.get (LANE_CTLE_MANUAL n) = 0 → h.get (LANE_EYE_EYE_MIN n) ≤ w → Gives (.adaptationDone n eye eyes) s g)
        ∧ (h.get (LANE_CTLE_MANUAL n) = 0 → w < h.get (LANE_EYE_EYE_MIN n) →
            Gives (.adaptationDone n eye eyes) s ((g.on (LANE_EYE_LOW n)).attemptFails (g.leadOf n)))))
  ∧ (∀ (o rate : Fin 16) (width pos : Fin 4) (ready : Bool),
      let good := rate.val = h.get (LANE_QCFG_RATE (n / 4 * 4)) ∧ width.val = h.get (LANE_LINK_WIDTH k) ∧ pos.val = n.val - k
      let t := if h.training k then h.trainSend n else h
      let g := t.modLane n fun l => { l with trains := if ready then l.trains + 1 else 0 }
      (st = 0 ∨ (0 < o.val ∧ o.val < 4) → Gives (.trainRx n (o, rate) width pos ready) s h)
      ∧ (st ≠ 0 → 4 ≤ o.val → Gives (.trainRx n (o, rate) width pos ready) s (h.bump (LANE_BLOCK_ERRS n) (LANE_SAT n)))
      ∧ (st ≠ 0 → st ≠ 3 → Gives (.trainRx n (0, rate) width pos ready) s t)
      ∧ (st = 3 → (¬ good → Gives (.trainRx n (0, rate) width pos ready) s ((t.on (LANE_WIDTH_MISMATCH n)).modLane n fun l => { l with trains := 0 }))
        ∧ (good → (g.trained k = false → Gives (.trainRx n (0, rate) width pos ready) s g)
          ∧ (g.trained k = true → width.val = 0 → Gives (.trainRx n (0, rate) width pos ready) s (g.goActive k))
          ∧ (g.trained k = true → width.val ≠ 0 →
              Gives (.trainRx n (0, rate) width pos ready) s ((g.modLane k fun l => { l with since := g.time.now }).setLinkState k 4)))))
  ∧ (∀ skew, (h.get (LANE_LINK_LEAD n) = 1 → st = 4 → (skew ≤ 32 → Gives (.markerRx n skew) s (h.goActive n))
        ∧ (32 < skew → Gives (.markerRx n skew) s ((h.on (LANE_SKEW_ERR n)).attemptFails n)))
      ∧ (st ≠ 4 → Gives (.markerRx n skew) s h))
  ∧ (h.get (LANE_LINK_LEAD n) = 1 → st = 4 ∨ st = 5 → h.get (LANE_MODE n) ≠ 2 → Gives (.idleColumnSend n) s (h.column n [idleBlock])
      ∧ (h.get (LANE_LINK_WIDTH n) ≠ 0 → Gives (.markerSend n) s
          (((h.blocksPass n 16384).column n [markerSet l.markers]).modLane n fun l => { l with markers := (l.markers + 1) % 2 ^ 24 })))
  ∧ (h.get (LANE_LINK_LEAD n) = 0 ∨ (st ≠ 4 ∧ st ≠ 5) ∨ h.get (LANE_MODE n) = 2 → Gives (.idleColumnSend n) s h ∧ Gives (.markerSend n) s h))

/-- Losses, low power and test patterns (R29, R304, R306, R309, R311, R313, R446): loss of signal or of block lock brings an ACTIVE link down, no
signal being missed while the far end is in low power; HI_BER follows each window; low power is entered from an idle ACTIVE link and left in 20
us, or the link trains again; the checker counts while in sync. -/
def Obligations.LaneLosses : Prop := ∀ (s : State) (n : Fin 64), s.alone →
  let h := s.hw.hub
  let st := h.laneState n
  let k := h.leadOf n
  let l := h.lane n
  let los := (h.bump (LANE_LOS_EVENTS n) (LANE_SAT n)).on (LANE_LOS n)
  (h.get (LANE_RX_LP n) = 1 ∨ h.get (LANE_LOS n) = 1 → Gives (.los n) s h)
  ∧ (h.get (LANE_RX_LP n) = 0 → h.get (LANE_LOS n) = 0 → (st = 5 ∨ st = 6 → Gives (.los n) s (los.lose k))
    ∧ (st = 2 ∨ st = 3 ∨ st = 4 → Gives (.los n) s ((los.each (los.linkLanes k) Hub.laneFresh).setLinkState k 1))
    ∧ (st = 0 ∨ st = 1 ∨ 7 ≤ st → Gives (.los n) s los))
  ∧ (st = 5 → Gives (.blockLockLoss n) s (((h.set (LANE_RX_SH_BAD64 n) 16).off (LANE_BLOCK_LOCK n)).lose
      (((h.set (LANE_RX_SH_BAD64 n) 16).off (LANE_BLOCK_LOCK n)).leadOf n)))
  ∧ (st ≠ 5 → Gives (.blockLockLoss n) s h)
  ∧ (∀ bad, (st = 0 → Gives (.hiBerWindowEnd n bad) s h)
    ∧ (st ≠ 0 → let g := ((h.bumpBy (LANE_SYNC_ERRS n) (LANE_SAT n) bad).set (LANE_HI_BER n) (if 16 ≤ bad then 1 else 0)).modLane n fun l =>
        { l with hiBerAt := if 16 ≤ bad then some (l.hiBerAt.getD h.time.now) else none }
      (h.get (LANE_MODE n) ≠ 2 ∨ st ≠ 5 → Gives (.hiBerWindowEnd n bad) s g)
      ∧ (h.get (LANE_MODE n) = 2 → st = 5 → (16 ≤ bad → h.get (LANE_HI_BER n) = 0 → Gives (.hiBerWindowEnd n bad) s (g.linkLost n))
        ∧ (bad < 16 → h.get (LANE_HI_BER n) = 1 → h.peerMac n ≠ 0 → Gives (.hiBerWindowEnd n bad) s (g.linkActive n)))))
  ∧ (∀ t, l.hiBerAt = some t → h.get (LANE_HI_BER n) = 1 → st = 5 → let g := (h.upTo (t + msU)).modLane n fun l => { l with hiBerAt := none }
      Gives (.hiBerTimeout n) s (g.lose (g.leadOf n)))
  ∧ (h.get (LANE_LINK_LEAD n) = 1 → h.get (LANE_LP_LP_EN n) = 1 → st = 5 → h.get (LANE_MODE n) ≠ 2 → h.hasFrame n = false → Gives (.lpEntry n) s
      ((((h.upTo ((h.link n).idleFrom + max 1 (h.get (LANE_LP_IDLE_US n)) * usU)).column n (List.replicate 8 lpReqSet)).setLinkState n 6).modLane n fun l => { l with txLp := true, wakeEnd := none }))
  ∧ (h.get (LANE_LP_LP_EN n) = 0 → Gives (.lpEntry n) s h)
  ∧ (h.linkUp k = true → Gives (.lpReqRx n) s (h.on (LANE_RX_LP n)))
  ∧ (l.txLp = true → l.wakeEnd = none → Gives (.laneWake n) s ((h.column n [wakeSet]).modLane n fun l => { l with wakeEnd := some (h.time.now + 20 * usU) }))
  ∧ (∀ t, l.wakeEnd = some t → Gives (.wakeEnd n) s (((h.upTo t).setLinkState n 5).modLane n fun l => { l with txLp := false, wakeEnd := none }))
  ∧ (l.wakeEnd = none → Gives (.wakeEnd n) s h)
  ∧ (h.get (LANE_RX_LP n) = 1 →
      Gives (.wakeRx n true) s ((((h.off (LANE_RX_LP n)).on (LANE_CDR_LOCK n)).on (LANE_BLOCK_LOCK n)).setLane n { l with rxWake := none })
      ∧ Gives (.wakeRx n false) s ((h.off (LANE_RX_LP n)).setLane n { l with rxWake := some (l.rxWake.getD h.time.now) }))
  ∧ (∀ t, l.rxWake = some t → let g := ((h.upTo (t + 40 * usU)).on (LANE_LP_FAIL n)).modLane n fun l => { l with rxWake := none }
      Gives (.lpFail n) s (g.lose (((h.upTo (t + 40 * usU)).on (LANE_LP_FAIL n)).leadOf n)))
  ∧ ((h.lane k).txLp = true → Gives (.laneWakeFail n) s
      ((((h.log .laneWakeFail n 0 0).on DEV_IRQ_CLOCK).modLane k fun l => { l with txLp := false, wakeEnd := none }).lose k))
  ∧ ((h.lane k).txLp = false → Gives (.laneWakeFail n) s h)
  ∧ (h.mode = 7 → Gives (.errInject n) s (h.setLane n { l with injected := l.injected + 1 }))
  ∧ (h.mode ≠ 7 → Gives (.errInject n) s (h.on (LANE_WERR n)))
  ∧ (st = 9 → h.get (LANE_PRBS_CHK_EN n) = 1 → h.get (LANE_PRBS_PATTERN n) ≠ 0 → h.get (LANE_PRBS_SYNC n) = 0 →
      Gives (.prbsSync n) s ((h.on (LANE_PRBS_SYNC n)).modLane n fun l => { l with prbsAt := h.time.now, injected := 0 }))
  ∧ (∀ bits errs, (h.get (LANE_PRBS_SYNC n) = 1 → let b := min (h.get (LANE_PRBS_BITS_LO n) + 2 ^ 32 * h.get (LANE_PRBS_BITS_HI n) + bits) (2 ^ 48 - 1)
        Leads (.syncLost n bits errs) s fun h' => h'.get (LANE_PRBS_SYNC n) = 0 ∧ h'.get (LANE_SYNC_LOST n) = 1
          ∧ h'.get (LANE_PRBS_BITS_LO n) = b % 2 ^ 32 ∧ h'.get (LANE_PRBS_BITS_HI n) = b / 2 ^ 32)
      ∧ (h.get (LANE_PRBS_SYNC n) = 0 → Gives (.syncLost n bits errs) s h))
  ∧ Gives (.laneCntClr n) s (h.offs [LANE_SYNC_ERRS n, LANE_BLOCK_ERRS n, LANE_LOS_EVENTS n, LANE_TRAIN_FAILS n, LANE_ETH_DROPS n, LANE_PRBS_ERR_LO n,
      LANE_PRBS_ERR_HI n, LANE_PRBS_BITS_LO n, LANE_PRBS_BITS_HI n])
  ∧ Gives (.linkCntClr n) s (h.offs [LINK_CRC_ERRS n, LINK_CNT_PROTO_ERRS n, LINK_REPLAYS n, LINK_RX_DUPS n, LINK_DUPS n, LINK_PAIR_DROPS n,
      LINK_DEDUP_EVICT n, LINK_RST_REFUSED n])

/-- Sequenced frames (R317, R320, R321, R343): one that is expected is acted on, an earlier one is a resend, discarded, counted and answered with
LINK_ACK, a later or errored one is answered with LINK_NAK once; LINK_ACK frees what it covers, beyond the frames sent it is a protocol error;
LINK_NAK and a REPLAY_US without an acknowledgement resend everything, and after 8 resends of the oldest the link is lost. -/
def Obligations.LinkSequence : Prop := (∀ (s : State) (k : Fin 64), s.up →
  let h := s.hw.hub
  let e := h.get (LINK_RX_LSEQ k)
  (∀ (lseq : Word) vc cseq poison body cut group unit origin stamp hm route depth rq ro refused dest auth streams,
    let all := [Instr.dataRx k vc lseq cseq (poison, cut) body, .triggerRx k lseq ⟨group, unit, origin, stamp⟩, .helloRx k lseq hm, .assignRx k lseq route depth,
      .raccReqRx k lseq rq refused, .raccRespRx k lseq ro, .resetRx k lseq dest auth, .commitNoteRx k lseq route stamp streams]
    (h.linkUp k = false → ∀ i ∈ all, Gives i s h)
    ∧ (h.linkUp k = true → lseq.toNat ≠ e →
        (serialLe lseq.toNat e = true → ∀ i ∈ all, Gives i s ((h.bump (LINK_RX_DUPS k) (LINK_SAT k)).modLink k fun l => { l with dueAck := true }))
        ∧ (serialLe lseq.toNat e = false → ∀ i ∈ all, Gives i s (h.nakOnce k))))
  ∧ (∀ (a : Word), h.linkUp k = true →
      (serialLe a.toNat (h.get (LINK_TX_LSEQ k)) = false → Gives (.linkAckRx k a) s (h.protoErr k) ∧ Gives (.linkNakRx k a) s (h.protoErr k))
      ∧ (serialLe a.toNat (h.get (LINK_TX_LSEQ k)) = true → Leads (.linkAckRx k a) s fun h' =>
          h'.regs = h.regs
          ∧ (h'.link k).unacked = (h.link k).unacked.filter (fun u => !(serialLe u.lseq a.toNat && u.lseq != a.toNat))
          ∧ (h'.link k).resend = (h.link k).resend.filter (fun x => !(serialLe x a.toNat && x != a.toNat))
          ∧ Gives (.linkNakRx k a) s (h'.resendAll k)))
  ∧ (h.linkUp k = true → (h.link k).unacked ≠ [] →
      Gives (.replayTimeout k) s ((h.upTo ((h.link k).replayFrom + max 1 (h.get (LINK_REPLAY_US k)) * usU)).resendAll k))
  ∧ ((h.link k).unacked = [] → Gives (.replayTimeout k) s h)
  ∧ (h.linkUp k = true → 0 < (h.link k).sinceAck → Gives (.ackDelay k) s
      ((h.upTo ((h.link k).ackFrom + max 1 (h.get (LINK_ACK_DELAY_US k)) * usU)).setLink k { h.link k with dueAck := true }))
  ∧ ((h.link k).sinceAck = 0 → Gives (.ackDelay k) s h)
  ∧ (h.linkUp k = true → ∀ crc ab cut, let g := if crc then h.bump (LINK_CRC_ERRS k) (LINK_SAT k) else h.protoErr k
      Gives (.erroredFrameRx k crc ⟨none, ab, none, cut⟩) s (g.nakOnce k)
      ∧ (∀ (f : FrameStart), let rewound := fun q => if f.lseq = h.get (LINK_RX_LSEQ k) then g.bump (Q_REWINDS q) (Q_SAT q) else g
        (g.dataQueue k f.vc f.len = none → Gives (.erroredFrameRx k crc ⟨none, false, some f, false⟩) s (g.nakOnce k))
        ∧ (∀ q, g.dataQueue k f.vc f.len = some q → Gives (.erroredFrameRx k crc ⟨none, false, some f, false⟩) s ((rewound q).nakOnce k)
          ∧ Gives (.erroredFrameRx k crc ⟨none, true, some f, false⟩) s
              ((((rewound q).creditUsed k f.vc f.len).returnCredit k f.vc f.len).nakOnce k))
        ∧ ∀ j v q, g.cutLink k f = some (j, v, q) → let t := g.bump (Q_REWINDS q) (Q_SAT q)
          Gives (.erroredFrameRx k crc ⟨none, false, some f, true⟩) s
            (((t.useCredit j v f.len q).emit j (.aborted (t.get (LINK_TX_LSEQ j)) (t.get (VC_TX_CSEQ j v)) v f.len f.head)).nakOnce k)))
  ∧ (h.linkUp k = false → ∀ crc f, Gives (.erroredFrameRx k crc f) s h))
  ∧ ∀ (h : Hub) (k : Fin 64), let l := h.link k
      (l.unacked = [] → h.resendAll k = h)
      ∧ (∀ u t, l.unacked = u :: t → (u.resends < 8 → h.resendAll k = h.setLink k { l with resend := l.unacked.map (·.lseq), replayFrom := h.time.now })
        ∧ (8 ≤ u.resends → h.resendAll k = (h.on (LINK_REPLAY_LIMIT k)).lose k))
      ∧ (let e := h.get (LINK_RX_LSEQ k)
         (∀ t, l.nakAt = some (e, t) → h.time.now < t + max 1 (h.get (LINK_REPLAY_US k)) * usU → h.nakOnce k = h)
         ∧ (l.nakAt = none → h.nakOnce k = h.setLink k { l with dueNak := true, nakAt := some (e, h.time.now) })
         ∧ (∀ e' t, l.nakAt = some (e', t) → e' ≠ e ∨ t + max 1 (h.get (LINK_REPLAY_US k)) * usU ≤ h.time.now →
            h.nakOnce k = h.setLink k { l with dueNak := true, nakAt := some (e, h.time.now) }))

/-- What a transmitter sends next (R319, R321, R322): LINK_NAK, LINK_ACK, CUSTODY_ACK, CREDIT, resends, control frames while fewer than 16 are
outstanding, and last DATA, VC 0 first and the queues of a VC in turn; a packet sent is SENT under the next LSEQ and CSEQ and uses its credit. -/
def Obligations.LinkTransmitter : Prop := (∀ (s : State) (k : Fin 64), s.up →
  let h := s.hw.hub.raiseGrants k
  let l := h.link k
  let due := l.dueNak = true ∨ l.dueAck = true ∨ l.dueCustody = true ∨ l.dueCredit = true
  (s.hw.hub.linkUp k = false ∨ (s.hw.hub.lane k).txLp = true → Gives (.frameSend k) s s.hw.hub)
  ∧ (s.hw.hub.linkUp k = true → (s.hw.hub.lane k).txLp = false → s.hw.hub.get (LANE_MODE k) ≠ 2 →
      (l.dueNak = true → Gives (.frameSend k) s ((h.setLink k { l with dueNak := false }).emit k (.nak (h.get (LINK_RX_LSEQ k)))))
      ∧ (l.dueNak = false → l.dueAck = true →
          Gives (.frameSend k) s ((h.setLink k { l with dueAck := false, sinceAck := 0 }).emit k (.ack (h.get (LINK_RX_LSEQ k)))))
      ∧ (l.dueNak = false → l.dueAck = false → l.dueCustody = true →
          Gives (.frameSend k) s ((h.setLink k { l with dueCustody := false }).emit k (.custodyAck ([0, 1, 2, 3].map fun v => (h.vc k v).cack))))
      ∧ (l.dueNak = false → l.dueAck = false → l.dueCustody = false → l.dueCredit = true →
          Gives (.frameSend k) s ((h.setLink k { l with dueCredit := false }).emit k (.credit (h.creditMsg k))))
      ∧ (¬ due → ∀ m t, l.times = m :: t → Gives (.frameSend k) s ((h.setLink k { l with times := t }).emit k (.time m)))
      ∧ (¬ due → l.times = [] → ∀ x t, l.resend = x :: t → Gives (.frameSend k) s (h.sendAgain k x))
      ∧ (¬ due → l.times = [] → l.resend = [] → ∀ c t, l.ready = c :: t →
          (l.ctrlOut < 16 → Leads (.frameSend k) s fun h' =>
              (h'.link k).out = some (.ctrl (h.get (LINK_TX_LSEQ k)) false c) ∧ (h'.link k).ready = t
              ∧ (h'.link k).unacked = l.unacked ++ [{ lseq := h.get (LINK_TX_LSEQ k), ctrl := some c }]
              ∧ h'.get (LINK_TX_LSEQ k) = (h.get (LINK_TX_LSEQ k) + 1) % 2 ^ 32 ∧ OnlyRegs [LINK_TX_LSEQ k] h h')
          ∧ (16 ≤ l.ctrlOut → Gives (.frameSend k) s (h.sendQueues k)))
      ∧ (¬ due → l.times = [] → l.resend = [] → l.ready = [] → Gives (.frameSend k) s (h.sendQueues k))))
  ∧ (∀ (h : Hub) (k : Fin 64), (h.rolesOk k = false → h.sendQueues k = h)
      ∧ (h.rolesOk k = true → ∀ v : Fin 4, (∀ u, u < v.val → h.vcNext k u = none) →
          (∀ q, h.vcNext k v = some q → h.sendQueues k = h.sendData k v q)
          ∧ (v.val = 3 → h.vcNext k 3 = none → h.sendQueues k = h)))
  ∧ ∀ (h : Hub) (k : Fin 64) (v : Fin 4) (q : Nat) (p : Pkt), (h.q q).front = some p →
      let h' := h.sendData k v q
      let e := (h.readPkt q p).1
      let h := (h.readPkt q p).2
      let c := h.vc k v
      h'.get (LINK_TX_LSEQ k) = (h.get (LINK_TX_LSEQ k) + 1) % 2 ^ 32
      ∧ h'.get (VC_TX_CSEQ k v) = (h.get (VC_TX_CSEQ k v) + 1) % 2 ^ 32
      ∧ (h'.vc k v).usedP = (c.usedP + 1) % 2 ^ 32 ∧ (h'.vc k v).usedW = (c.usedW + need e.len) % 2 ^ 32
      ∧ (h'.link k).out = some (.data (h.get (LINK_TX_LSEQ k)) (h.get (VC_TX_CSEQ k v)) v e.poison false e.len e.out)
      ∧ (h'.q q).pkts = (h.q q).pkts.map fun x => if x.qseq = p.qseq then { x with sent := true, popped := 0, cseq := h.get (VC_TX_CSEQ k v) } else x

/-- DATA, credit and custody arriving (R323 to R327, R331, R336): a frame with no reservation behind it is a protocol error; a duplicate and a packet
of a pair already passed are counted, settled and give their credit back; any other is committed; grants rise unless they exceed the limits; CACK
frees what it covers. -/
def Obligations.DataAndCredit : Prop := (∀ (s : State) (k : Fin 64) (vc : Fin 4) (cseq : Word) (poison cut : Bool) (body : List Byte), s.up →
  let h := s.hw.hub
  let e : Word := BitVec.ofNat 32 (h.get (LINK_RX_LSEQ k))
  let on := (h.rxAccept k).creditUsed k vc body.length
  let ok := on.setVc k vc { on.vc k vc with rxCseq := (cseq.toNat + 1) % 2 ^ 32 }
  let r := parsePkt body
  h.linkUp k = true → h.get (LINK_RX_LSEQ k) < 2 ^ 32 →
    (h.role k ≠ roleDown ∨ 16440 < body.length ∨ body = [] ∨ h.get (VC_RXQ_VALID k vc) = 0 → Gives (.dataRx k vc e cseq (poison, cut) body) s ((h.protoErr k).nakOnce k))
    ∧ (∀ q, h.dataQueue k vc body.length = some q →
        (ok.isDup r.1 r.2 = true → Gives (.dataRx k vc e cseq (poison, cut) body) s
            (((ok.bump (LINK_DUPS k) (LINK_SAT k)).settle k vc cseq.toNat).returnCredit k vc body.length))
        ∧ (ok.isDup r.1 r.2 = false → r.2.type ≠ 0x20 → ok.pairDrops r.1 r.2 = true → Gives (.dataRx k vc e cseq (poison, cut) body) s
            (((ok.bump (LINK_PAIR_DROPS k) (LINK_SAT k)).settle k vc cseq.toNat).returnCredit k vc body.length))
        ∧ (ok.isDup r.1 r.2 = false → r.2.type = 0x20 ∨ ok.pairDrops r.1 r.2 = false → Gives (.dataRx k vc e cseq (poison, cut) body) s
            ((ok.dataCommit k vc cseq.toNat q poison r.1 r.2).cutThrough
              (if cut then h.cutLink k ⟨h.get (LINK_RX_LSEQ k), vc, body.length, body.take 64⟩ else none)))))
  ∧ (∀ (h : Hub) (p : Pkt) (m : PktHead), h.isDup p m = true ↔ m.type ≠ 0x20 ∧ ∃ d ∈ h.lk.dedup, d.relief = p.relief ∧ d.origin = p.origin
      ∧ d.stream = p.stream ∧ d.armId = m.armId ∧ serialLe m.seq d.seq = true ∧ p.first ≤ d.maxIndex)
  ∧ (∀ (h : Hub) (j v q : Nat), let own := (h.q q).pkts.findRev? fun p => p.gap.isNone && !p.sent
      h.cutThrough none = h ∧ (∀ p, own = some p → h.cutThrough (some (j, v, q)) = h.sendPkt j v q p) ∧ (own = none → h.cutThrough (some (j, v, q)) = h))
  ∧ (∀ (s : State) (k : Fin 64), s.up → let h := s.hw.hub
      (h.linkUp k = true → ∀ (m : CreditMsg) (c : List Word),
        Gives (.creditRx k m) s ((h.each [0, 1, 2, 3] fun h v => h.grantRx k v m).modLink k fun l => { l with ctrlFreed := m.freed })
        ∧ Gives (.custodyAckRx k c) s (h.each [0, 1, 2, 3] fun h v => h.cackRx k v (c.getD v 0).toNat)
        ∧ (h.time.now ≤ (h.link k).changedAt + msU → Gives (.creditRepeat k) s (h.setLink k { h.link k with dueCredit := true, dueCustody := true })))
      ∧ ((h.link k).changedAt + msU < h.time.now → Gives (.creditRepeat k) s h)
      ∧ (h.linkUp k = false → ∀ m c, Gives (.creditRx k m) s h ∧ Gives (.custodyAckRx k c) s h ∧ Gives (.creditRepeat k) s h))
  ∧ (∀ (h : Hub) (k : Fin 64) (v : Fin 4) (m : CreditMsg), let c := h.vc k v
      let p := m.pkts.getD v 0
      let w := m.words.getD v 0
      let rise := (p ≠ c.grantP ∧ serialLe c.grantP p = true) ∨ (w ≠ c.grantW ∧ serialLe c.grantW w = true)
      let excess := m.limP.getD v 0 < (p + 2 ^ 32 - c.usedP) % 2 ^ 32 ∨ m.limW.getD v 0 < (w + 2 ^ 32 - c.usedW) % 2 ^ 32
      (rise ∧ excess → h.grantRx k v m = (((h.bump (LINK_CNT_PROTO_ERRS k) (LINK_SAT k)).on (LINK_PROTO_ERR k)).on (LINK_CREDIT_ERR k)).log .creditErr 1 k v)
      ∧ (¬ (rise ∧ excess) → ((h.grantRx k v m).vc k v).limP = m.limP.getD v 0 ∧ ((h.grantRx k v m).vc k v).limW = m.limW.getD v 0
          ∧ ((h.grantRx k v m).vc k v).grantP = (if serialLe c.grantP p then p else c.grantP)
          ∧ ((h.grantRx k v m).vc k v).grantW = (if serialLe c.grantW w then w else c.grantW)
          ∧ OnlyRegs [VC_AVAIL_PKTS k v, VC_AVAIL_WORDS k v] h (h.grantRx k v m)))
  ∧ ∀ (h : Hub) (k : Fin 64) (v : Fin 4) (c : Nat), c < 2 ^ 32 →
      (serialLe c (h.get (VC_TX_CSEQ k v)) = false → h.cackRx k v c = h.protoErr k)
      ∧ (serialLe c (h.get (VC_TX_CSEQ k v)) = true → (h.cackRx k v c).get (VC_TX_CACK k v) = c)

/-- Enumeration (R333, R337 to R339, R444): a HELLO fills the partner's registers, sets ROLE_MISMATCH on a wrong pairing and is answered with ASSIGN
when the partner is unassigned; an ASSIGN that is not well formed is a protocol error, and only an unassigned hub takes an address, on an UP link;
SET gives a top hub its address. -/
def Obligations.Enumeration : Prop := (∀ (s : State) (k : Fin 64), s.up → s.hw.hub.linkUp k = true → s.hw.hub.get (LINK_RX_LSEQ k) < 2 ^ 32 →
  let e : Word := BitVec.ofNat 32 (s.hw.hub.get (LINK_RX_LSEQ k))
  let h := s.hw.hub.rxAccept k
  let did := fun (g : Hub) => (g.modLink k fun l => { l with myFreed := (l.myFreed + 1) % 2 ^ 32 }).creditDue k
  (∀ m : HelloMsg, let shown := (((((((h.modLink k fun l => { l with hello := some m }).set (LINK_PEER_ROUTE_LO k) m.route).set (LINK_PEER_ROUTE_HI k)
        (m.route / 2 ^ 32)).set (LINK_PEER_DEPTH k) m.depth).set (LINK_PEER_ROLE k) m.role).set (LINK_PEER_HW k) m.hw).set (LINK_PEER_REV k) m.rev)
      let paired := if rolesPair (h.role k) m.role = true then shown else shown.on (LINK_ROLE_MISMATCH k)
      (m.route ≠ noRoute → Gives (.helloRx k e m) s (did paired)) ∧ (m.route = noRoute → Gives (.helloRx k e m) s (did (paired.assignTo k))))
  ∧ ∀ (route : BitVec 48) (depth : Fin 256),
      (assignOk route.toNat depth = false → Gives (.assignRx k e route depth) s (did (h.protoErr k)))
      ∧ (assignOk route.toNat depth = true → (h.role k ≠ roleUp → Gives (.assignRx k e route depth) s (did h))
        ∧ (h.role k = roleUp → (h.route = noRoute →
              Gives (.assignRx k e route depth) s (did ((h.modLink k fun l => { l with gaveRoute := true }).takeRoute route.toNat)))
          ∧ (h.route ≠ noRoute → (route.toNat = h.route → Gives (.assignRx k e route depth) s (did h))
            ∧ (route.toNat ≠ h.route → (h.lk.routeSet = true ∨ (h.link k).gaveRoute = true →
                  Gives (.assignRx k e route depth) s (did ((h.on (LINK_ROUTE_CONFLICT k)).log .routeConflict k route.toNat (route.toNat / 2 ^ 32))))
              ∧ (h.lk.routeSet = false → (h.link k).gaveRoute = false → Gives (.assignRx k e route depth) s (did h)))))))
  ∧ (∀ s : State, s.up → let h := s.hw.hub
      let r := h.get DEV_ROUTE_LO + 2 ^ 32 * h.get DEV_ROUTE_ROUTE_HI
      let held := h.setLk { h.lk with routeSet := true }
      (assignOk r 1 = false → Gives .set s (h.on DEV_ROUTE_WERR))
      ∧ (h.route ≠ noRoute → h.route ≠ r → Gives .set s (h.on DEV_ROUTE_WERR))
      ∧ (assignOk r 1 = true → (h.route = noRoute → Gives .set s (held.takeRoute r)) ∧ (h.route ≠ noRoute → h.route = r → Gives .set s held)))
  ∧ (∀ (h : Hub) (r : Nat), let h' := h.takeRoute r
      h'.route = r ∧ h'.get DEV_ROUTE_LO = r % 2 ^ 32 ∧ h'.get DEV_ROUTE_ROUTE_HI = r / 2 ^ 32 % 2 ^ 16 ∧ h'.get DEV_ROUTE_DEPTH = routeDepth r % 16
      ∧ h'.get DEV_ROUTE_ASSIGNED = 1 ∧ OnlyRegs [DEV_ROUTE_LO, DEV_ROUTE_ROUTE_HI, DEV_ROUTE_DEPTH, DEV_ROUTE_ASSIGNED] h h')
  ∧ ∀ (h : Hub) (k : Fin 64), let d := routeDepth h.route
      (h.role k = roleDown → 1 ≤ d → d ≤ 7 → h.get (LINK_UP k) = 1 →
        ((h.assignTo k).link k).ready = (h.link k).ready ++ [.assign (setHop h.route (d + 1) k) (d + 1)])
      ∧ (h.role k ≠ roleDown ∨ d = 0 ∨ 8 ≤ d → h.assignTo k = h)

/-- Routing and remote access (R333, R340, R341, R345, R366): a request is carried out at its destination, forwarded towards it, or answered NO_ROUTE;
responses and resets are forwarded alike, one without a way being a protocol error; GO sends the port's request unless BUSY or unassigned, and a
time without a response ends it with status 7; a reset needs the hub's own non-zero code. -/
def Obligations.RemoteAccess : Prop := (∀ (s : State) (k : Fin 64), s.up → s.hw.hub.linkUp k = true → s.hw.hub.get (LINK_RX_LSEQ k) < 2 ^ 32 →
  let e : Word := BitVec.ofNat 32 (s.hw.hub.get (LINK_RX_LSEQ k))
  let w := s.hw.onHub fun h => h.rxCtrl k (s.hw.hub.get (LINK_RX_LSEQ k)) id
  let h := w.hub
  (∀ (m : RaccMsg) (refused : Bool), let no : RaccMsg := { m with dest := m.src, src := h.route, status := 1, data := [] }
      (m.dest ≠ noRoute ∨ h.lk.routeSet = false →
        (h.routeTo m.dest = some none → let r := w.regReq (Hw.raccGoN 65) m refused
          GivesHw (.raccReqRx k e m refused) s (r.2.respond k r.1))
        ∧ (∀ j, h.routeTo m.dest = some (some j) → Gives (.raccReqRx k e m refused) s (h.sendCtrl j (.raccReq m)))
        ∧ (h.routeTo m.dest = none → GivesHw (.raccReqRx k e m refused) s (w.respond k no)))
      ∧ (m.dest = noRoute → h.lk.routeSet = true →
        (m.op = 1 → GivesHw (.raccReqRx k e m refused) s ((w.onHub fun h => h.reportHere m.src (ofLe (m.data.take 4))).respond k { no with status := 0 }))
        ∧ (m.op ≠ 1 → GivesHw (.raccReqRx k e m refused) s (w.respond k no)))
      ∧ GivesHw (.raccRespRx k e m) s (w.respond k m))
  ∧ ∀ (dest : BitVec 48) (auth : Word),
      (h.routeTo dest.toNat = some none →
        (auth.toNat ≠ 0 → auth.toNat = h.resetCode →
          Gives (.resetRx k e dest auth) s (h.resetBy (if h.role k = roleDuplex then srcPartner else srcLink)))
        ∧ (auth.toNat = 0 ∨ auth.toNat ≠ h.resetCode → Gives (.resetRx k e dest auth) s (h.bump (LINK_RST_REFUSED k) (LINK_SAT k))))
      ∧ (∀ j, h.routeTo dest.toNat = some (some j) → Gives (.resetRx k e dest auth) s (h.sendCtrl j (.reset dest.toNat auth.toNat)))
      ∧ (h.routeTo dest.toNat = none → Gives (.resetRx k e dest auth) s (h.protoErr k)))
  ∧ (∀ (w : Hw) (k : Nat) (r : RaccMsg),
      (w.hub.raccMine r.dest = true → w.respond k r = w.raccDeliver r)
      ∧ (w.hub.raccMine r.dest = false → (∀ j, w.hub.routeTo r.dest = some (some j) → w.respond k r = w.onHub fun h => h.sendCtrl j (.raccResp r))
        ∧ (w.hub.routeTo r.dest = none → w.respond k r = w.onHub fun h => h.protoErr k)))
  ∧ (∀ (go : Nat → Hw → Hw) (w : Hw) (m : RaccMsg), let r : RaccMsg := { m with dest := m.src, src := w.hub.route, status := 0, data := [] }
      (m.op = 0 ∨ m.op = 1 → m.len ≠ 4 → ∀ x, w.regReq go m x = ({ r with status := 3 }, w))
      ∧ (m.op = 0 → m.len = 4 → ∀ x, w.regReq go m x = ({ r with data := leBytes 4 (w.readWord 1 m.addr).1 }, (w.readWord 1 m.addr).2))
      ∧ (m.op = 1 → m.len = 4 → ∀ x, w.regReq go m x = (r, w.writeVia go m.addr (ofLe (m.data.take 4))))
      ∧ (m.op = 2 ∨ m.op = 3 → w.regReq go m true = ({ r with status := 4 }, w.onHub fun h => (h.bump ARB_REFUSE_COUNT ARB_SAT).on ARB_REFUSED)
        ∧ (m.len = 0 ∨ 1024 < m.len ∨ m.len % 4 ≠ 0 → (w.regReq go m false).1.status = 3 ∧ (w.regReq go m false).2 = w)
        ∧ (m.len ≠ 0 → m.len ≤ 1024 → m.len % 4 = 0 → w.hub.hostRange m.addr m.len = false →
            (w.regReq go m false).1.status = 2 ∧ (w.regReq go m false).2 = w)
        ∧ (m.len ≠ 0 → m.len ≤ 1024 → m.len % 4 = 0 → m.addr + m.len ≤ 2 ^ 28 → w.hub.hostRange m.addr m.len = true →
            (w.regReq go m false).1.status = 0
            ∧ (m.op = 2 → (w.regReq go m false).1.data = memBytes w.mem.cells m.addr m.len ∧ (w.regReq go m false).2.mem = w.mem)
            ∧ (m.op = 3 → (w.regReq go m false).2 = w.setMem (w.mem.put m.addr (m.data.take m.len)))))
      ∧ (4 ≤ m.op → ∀ x, w.regReq go m x = ({ r with status := 3 }, w)))
  ∧ (∀ (s : State) (k : Fin 64), s.up → let h := s.hw.hub
      let m : RaccMsg := { dest := h.get (LINK_RACC_DEST_LO k) + 2 ^ 32 * h.get (LINK_RACC_DEST_HI k), src := h.raccSrc, tag := h.lk.raccTag
                           op := h.get (LINK_RACC_WRITE k), status := 0, addr := h.get (LINK_RACC_ADDR k), len := 4
                           data := if h.get (LINK_RACC_WRITE k) = 1 then leBytes 4 (h.get (LINK_RACC_DATA k)) else [] }
      let sent := ((h.setLk { h.lk with raccTag := (h.lk.raccTag + 1) % 2 ^ 16 }).on (LINK_RACC_BUSY k)).modLink k fun l => { l with racc := some h.lk.raccTag, raccAt := h.time.now }
      (h.get (LANE_LINK_LEAD k) = 0 → Gives (.raccGo k) s h)
      ∧ (h.get (LANE_LINK_LEAD k) = 1 → (h.get (LINK_RACC_BUSY k) = 1 ∨ h.route = noRoute → Gives (.raccGo k) s (h.on (LINK_WERR k)))
        ∧ (h.get (LINK_RACC_BUSY k) = 0 → h.route ≠ noRoute →
          (∀ j, h.routeTo m.dest = some (some j) → Gives (.raccGo k) s (sent.sendCtrl j (.raccReq m)))
          ∧ (h.routeTo m.dest = none → Gives (.raccGo k) s (sent.portDone k 1))
          ∧ (h.routeTo m.dest = some none → let r := (s.hw.setHub sent).regReq (Hw.raccGoN 64) m false
              GivesHw (.raccGo k) s (r.2.raccDeliver r.1))))
      ∧ ((h.link k).racc = none → Gives (.raccTimeout (.port k)) s h)
      ∧ (∀ t, (h.link k).racc = some t → Gives (.raccTimeout (.port k)) s ((h.upTo ((h.link k).raccAt + max 1 (h.get (LINK_RACC_TIMEOUT_MS k)) * msU)).portDone k 7))
      ∧ (∀ c : Fin 32, GivesHw (.raccTimeout (.dma c)) s (s.hw.dmaTimeout c))
      ∧ ∀ t, (t ∈ h.pair.reports → Gives (.raccTimeout (.report t)) s
            ((h.setPair { h.pair with reports := h.pair.reports.filter (· != t) }).bump DUP_CNT_RPT_FAIL DUP_SAT))
        ∧ (t ∉ h.pair.reports → Gives (.raccTimeout (.report t)) s h))
  ∧ ∀ (h : Hub) (k : Fin 64) (st : Nat), let h' := h.portDone k st
      (h'.link k).racc = none ∧ h'.get (LINK_RACC_BUSY k) = 0 ∧ h'.get (LINK_RACC_DONE k) = 1 ∧ h'.get (LINK_RACC_STATUS k) = st % 8
      ∧ OnlyRegs [LINK_RACC_BUSY k, LINK_RACC_DONE k, LINK_RACC_STATUS k] h h'

/-- TRIGGER, COMMIT_NOTE and TIME frames and Kamrel over Ethernet (R52, R330, R342, R343): the first copy of a trigger fires the units of its group
and goes on over every other link, a later one is counted; a note on another link than a DOWN one is a protocol error, else it closes the open
records of its hub; PTP messages come over serial links alone; fragments come in order from the peer. -/
def Obligations.LinkFrames : Prop := (∀ (s : State) (k : Fin 64), s.up → s.hw.hub.linkUp k = true → s.hw.hub.get (LINK_RX_LSEQ k) < 2 ^ 32 →
  let e : Word := BitVec.ofNat 32 (s.hw.hub.get (LINK_RX_LSEQ k))
  let h := s.hw.hub.rxAccept k
  let did := fun (g : Hub) => (g.modLink k fun l => { l with myFreed := (l.myFreed + 1) % 2 ^ 32 }).creditDue k
  (∀ (group unit : Fin 256) (origin : BitVec 48) stamp, (stampOf stamp = none → Gives (.triggerRx k e ⟨group, unit, origin, stamp⟩) s (did (h.protoErr k)))
    ∧ ∀ t, stampOf stamp = some t → let m : TrigMsg := ⟨group, unit, origin.toNat, t⟩
      (h.known group origin.toNat t = true → Gives (.triggerRx k e ⟨group, unit, origin, stamp⟩) s (did (h.bump ACQ_DIST_DUP ACQ_SAT)))
      ∧ (h.known group origin.toNat t = false → Gives (.triggerRx k e ⟨group, unit, origin, stamp⟩) s
          (did ((((h.bump ACQ_DIST_RX ACQ_SAT).remember group origin.toNat t).trigDist m).sendTrigger m (some k)))))
  ∧ ∀ (route : BitVec 48) stamp streams,
    (h.role k ≠ roleDown ∨ stampOf stamp = none → Gives (.commitNoteRx k e route stamp streams) s (did (h.protoErr k)))
    ∧ (h.role k = roleDown → ∀ tc, stampOf stamp = some tc → Gives (.commitNoteRx k e route stamp streams) s
        (did ((h.lk.opens.filter fun o => o.gap.origin == route.toNat && (o.gap.relief || !streams.contains o.gap.stream)).foldl
          (fun h o => h.closeRec o endedIndex (some tc)) h))))
  ∧ ∀ (s : State) (k : Fin 64), s.up → let h := s.hw.hub
    (h.linkUp k = true → h.get (LANE_MODE k) ≠ 2 → ∀ m i o ts,
      Gives (.timeRx k .sync { m with ts := ts } i o m.ts) s (h.syncRx k m i o) ∧ Gives (.timeRx k .delayReq { m with ts := ts } i o m.ts) s (h.delayReqRx k m i o)
      ∧ Gives (.timeRx k .pdelayReq { m with ts := ts } i o m.ts) s (h.pdelayReqRx k m i o) ∧ Gives (.timeRx k .pdelayResp { m with ts := ts } i o m.ts) s (h.pdelayRespRx k m i o)
      ∧ Gives (.timeRx k .followUp { m with ts := ts } i o m.ts) s (h.followUpRx k m) ∧ Gives (.timeRx k .delayResp { m with ts := ts } i o m.ts) s (h.delayRespRx k m)
      ∧ Gives (.timeRx k .pdelayRespFollowUp { m with ts := ts } i o m.ts) s (h.pdelayFollowUpRx k m) ∧ Gives (.timeRx k .announce { m with ts := ts } i o m.ts) s (h.announceRx k m)
      ∧ Gives (.timeRx k .signaling { m with ts := ts } i o m.ts) s (h.signalingRx k m) ∧ Gives (.timeRx k .management { m with ts := ts } i o m.ts) s (h.signalingRx k m))
    ∧ (h.linkUp k = false ∨ h.get (LANE_MODE k) = 2 → ∀ kind m i o ts, Gives (.timeRx k kind m i o ts) s h)
    ∧ (h.get (LANE_MODE k) ≠ 2 → ∀ kind src id f n, Gives (.ethFrameRx k kind src id f n) s h)
    ∧ (h.get (LANE_MODE k) = 2 → (∀ (src : BitVec 48) (id : Word) (f n : Fin 256), let drop := h.bump (LANE_ETH_DROPS k) (LANE_SAT k)
        Gives (.ethFrameRx k .ptp src id f n) s h ∧ Gives (.ethFrameRx k .other src id f n) s drop ∧ Gives (.ethFrameRx k .bad src id f n) s drop
        ∧ (src.toNat ≠ h.peerMac k → Gives (.ethFrameRx k .fragment src id f n) s drop)
        ∧ (src.toNat = h.peerMac k →
          ((h.link k).asm = none → (f.val ≠ 0 ∨ n.val = 0 ∨ 12 < n.val → Gives (.ethFrameRx k .fragment src id f n) s ((h.dropAsm k).erroredRx k false none false none false))
            ∧ (f.val = 0 → n.val = 1 → Gives (.ethFrameRx k .fragment src id f n) s h)
            ∧ (f.val = 0 → 1 < n.val → n.val ≤ 12 →
                Gives (.ethFrameRx k .fragment src id f n) s (h.modLink k fun l => { l with asm := some (id.toNat, 1, n.val) })))
          ∧ (∀ g, (h.link k).asm = some (id.toNat, g, n.val) →
            (f.val = g → g + 1 = n.val → Gives (.ethFrameRx k .fragment src id f n) s (h.dropAsm k))
            ∧ (f.val = g → g + 1 ≠ n.val → Gives (.ethFrameRx k .fragment src id f n) s (h.modLink k fun l => { l with asm := some (id.toNat, g + 1, n.val) }))
            ∧ (f.val ≠ g → Gives (.ethFrameRx k .fragment src id f n) s ((h.dropAsm k).erroredRx k false none false none false))))))
    ∧ ((h.link k).asm = none → Gives (.fragmentTimeout k) s h)
    ∧ (∀ x, (h.link k).asm = some x → Gives (.fragmentTimeout k) s ((h.dropAsm k).erroredRx k false none false none false))

/-- DUPLEX frames that arrive (R350, R351, R353, R354, R364, R393): on the pair's link the next frame in sequence is a sign of life and acts, on
another link it is accepted alone; the standby takes the active's codes, edges, digests, and each of its decisions at the edge named, another
member does not; a write the active sent is made where its register is mirrored; a HEARTBEAT fills the partner's address, its SUSPECT bit on the
active, and ARM_CRC decides MISMATCH. What a member sends, and the checks of a pair (R349, R354 to R360, R446): a HEARTBEAT goes over every ACTIVE
duplex link with its count, codes and edges from the active that drives, with a pulse of 80 ns at every 64th map; overdue codes make the standby
DEGRADED on its own codes from that edge; digests are formed, sent and compared; those too old are counted and dropped; a pulse is stamped and, in
LOCKSTEP, its deviation checked against the limit, 16 in a row being a divergence; CNT_CLR clears the counters. -/
def Obligations.DuplexLink : Prop :=
  ((∀ (s : State) (k : Fin 64), s.up → s.hw.hub.linkUp k = true → s.hw.hub.get (LINK_RX_LSEQ k) < 2 ^ 32 →
  let e : Word := BitVec.ofNat 32 (s.hw.hub.get (LINK_RX_LSEQ k))
  let h := s.hw.hub
  let g := h.rxAccept k
  let l := g.lifeSign
  let did := fun (g : Hub) => (g.modLink k fun l => { l with myFreed := (l.myFreed + 1) % 2 ^ 32 }).creditDue k
  (h.dupFrom k = true →
    (∀ edge t p, Gives (.timemapRx k e edge (t, p)) s (did (l.setPair { l.pair with maps := (edge, t, p) :: l.pair.maps })))
    ∧ (∀ win ents, Gives (.digestRx k e win ents) s (did (l.setPair { l.pair with
        other := l.pair.other ++ ents.map fun x => (⟨win, x.1, x.2.1, x.2.2.1, x.2.2.2⟩ : Digest) }).compareAll))
    ∧ (h.standby = true →
      (∀ first codes, let y := l.setPair { l.pair with codes := (codes.zipIdx).foldl (fun m e => aInsert m (first + e.2) e.1) l.pair.codes }
        let x := y.feedActive.setPair { y.feedActive.pair with lostEdge := none }
        (h.pstate = psMismatch → Gives (.samplesRx k ⟨e, first, codes⟩) s (did y))
        ∧ (h.pstate ≠ psMismatch → (x.pstate = psDegraded → Gives (.samplesRx k ⟨e, first, codes⟩) s (did (x.set DUP_PSTATE psJoining)))
          ∧ (x.pstate ≠ psDegraded → Gives (.samplesRx k ⟨e, first, codes⟩) s (did x))))
      ∧ (∀ edge, let a := l.atEdge edge
          let back := fun (g : Hub) => did (g.backTo l.time.now)
          (∀ n r, Gives (.rangeStepEvent k e n r edge) s (back (a.rangeStep n r a.time.now)))
          ∧ (∀ n : Fin 192, ((h.chan n).shed = false → Gives (.shedEvent k e n (edge, true)) s
                (back ((((a.disturb n a.time.now (50 * usU + a.extra n)).showShed n true).showExcf n).noteExc n a.time.now))
                ∧ Gives (.shedEvent k e n (edge, false)) s (back a))
              ∧ ((h.chan n).shed = true → Gives (.shedEvent k e n (edge, false)) s (back (a.restoreChan n)) ∧ Gives (.shedEvent k e n (edge, true)) s (back a)))
          ∧ (∀ n (i : Fin 10) (o : Int) (v : Word), Gives (.patinaEvent k e (n, i) edge o v) s (back (a.setPair { a.pair with
              pats := (a.memberEdge false edge, patEntryPut ((a.pair.pats.head?).elim a.hk.inForce (·.2)) n i o v.toNat 0) :: a.pair.pats })))
          ∧ (∀ r v : Word, mirroredAddr (r.toNat / 4 * 4) = true → GivesHw (.regWriteEvent k e edge (r, v)) s
              (((s.hw.setHub ((did l).atEdge edge)).writeReg (fun _ w => w) (r.toNat / 4 * 4) v.toNat).onHub fun h => h.backTo (did l).time.now)))
      ∧ (∀ (u : Fin 32) (src : Fin 256) stamp T, stampOf stamp = some T → let at' := fun forced origin word => did (l.draw.decide1 u
            { time := T, source := src, forced := forced, group := l.groupOf u src, origin := origin, word := word })
          let partner := l.get DUP_PARTNER_LO + 2 ^ 32 * l.get DUP_PARTNER_HI
          Gives (.triggerEvent k e u src true stamp) s (at' true partner 0)
          ∧ (1 ≤ src.val → src.val ≤ 3 → Gives (.triggerEvent k e u src false stamp) s (at' false partner (l.sourceWord u T)))
          ∧ (src.val = 7 → Gives (.triggerEvent k e u src false stamp) s (at' false (l.originOf (l.groupOf u src) T) 0)))
      ∧ (∀ stamp S, stampOf stamp = some S → Gives (.swapEvent k e stamp) s (did ((l.setPair { l.pair with swapAt := S }).on DUP_SWAP_PENDING))))
    ∧ (∀ stamp, stampOf stamp = none → Gives (.swapEvent k e stamp) s (did (l.protoErr k))
        ∧ ∀ u src forced, Gives (.triggerEvent k e u src forced stamp) s (did (l.protoErr k)))
    ∧ (h.standby = false → (∀ first codes, Gives (.samplesRx k ⟨e, first, codes⟩) s (did l)) ∧ (∀ n r edge, Gives (.rangeStepEvent k e n r edge) s (did l))
      ∧ (∀ n edge b, Gives (.shedEvent k e n (edge, b)) s (did l)) ∧ (∀ n i edge o v, Gives (.patinaEvent k e (n, i) edge o v) s (did l))
      ∧ (∀ edge (a v : Word), Gives (.regWriteEvent k e edge (a, v)) s (did l))
      ∧ ∀ stamp S, stampOf stamp = some S → Gives (.swapEvent k e stamp) s (did l)
        ∧ ∀ u src forced, Gives (.triggerEvent k e u src forced stamp) s (did l))
    ∧ (h.role k = roleDuplex → ∀ kind (route : BitVec 48) (flags : BitVec 8) (crc : Word), flags.toNat.testBit 3 = false →
        let x := ((g.set DUP_PARTNER_LO route.toNat).set DUP_PARTNER_HI (route.toNat / 2 ^ 32)).lifeSign
        let y := x.setPair { x.pair with partner := some (crc.toNat, flags.toNat), lastSign := x.time.now }
        let on := fun (g : Hub) => Gives (.heartbeatRx k e (1, kind) route (flags, crc)) s (did ((g.compareCrc crc.toNat).partnerDegraded (flags.toNat.testBit 1)))
        (h.get DUP_ROLE = 0 → on (y.set DUP_PARTNER_SUSPECT (b2n (flags.toNat.testBit 0))))
        ∧ (h.get DUP_ROLE = 1 → (h.get DUP_SWAP_PENDING = 0 → on y)
          ∧ (h.get DUP_SWAP_PENDING = 1 → flags.toNat.testBit 2 = false → h.time.now < h.pair.swapAt → on (y.off DUP_SWAP_PENDING)))))
  ∧ (h.dupFrom k = false → (∀ first codes, Gives (.samplesRx k ⟨e, first, codes⟩) s (did g)) ∧ (∀ edge t p, Gives (.timemapRx k e edge (t, p)) s (did g))
    ∧ (∀ n r edge, Gives (.rangeStepEvent k e n r edge) s (did g)) ∧ (∀ stamp, Gives (.swapEvent k e stamp) s (did g))
    ∧ (h.role k = roleDuplex → h.pstate = psNone → ∀ kind (route : BitVec 48) (flags : BitVec 8) (crc : Word), flags.toNat.testBit 3 = false →
        Gives (.heartbeatRx k e (1, kind) route (flags, crc)) s (did ((g.set DUP_PARTNER_LO route.toNat).set DUP_PARTNER_HI (route.toNat / 2 ^ 32)))))
  ∧ (h.role k ≠ roleDuplex → ∀ kind route flags crc, Gives (.heartbeatRx k e (1, kind) route (flags, crc)) s (did g))
  ∧ (∀ (sub kind : BitVec 8) route flags crc,
      (sub.toNat = 0 ∨ 5 < sub.toNat ∨ (sub.toNat = 5 ∧ (kind.toNat = 0 ∨ 6 < kind.toNat)) → Gives (.heartbeatRx k e (sub, kind) route (flags, crc)) s (did (g.protoErr k)))
      ∧ ((2 ≤ sub.toNat ∧ sub.toNat ≤ 4) ∨ (sub.toNat = 5 ∧ 1 ≤ kind.toNat ∧ kind.toNat ≤ 6) → Gives (.heartbeatRx k e (sub, kind) route (flags, crc)) s h)))
  ∧ (∀ (h : Hub) (crc : Nat),
      (crc ≠ h.pair.armCrc → h.pstate ≠ psMismatch →
        h.compareCrc crc = (((h.set DUP_PSTATE psMismatch).feedOwn h.time.now).on DEV_IRQ_DUPLEX).report dvMismatch 0)
      ∧ (crc ≠ h.pair.armCrc → h.pstate = psMismatch → h.compareCrc crc = h)
      ∧ (crc = h.pair.armCrc → h.pstate = psMismatch →
        (h.get DUP_ROLE = 1 → h.compareCrc crc = (h.set DUP_PSTATE psJoining).feedActive)
        ∧ (h.get DUP_ROLE = 0 → h.compareCrc crc = h.set DUP_PSTATE psJoining))
      ∧ (crc = h.pair.armCrc → h.pstate ≠ psMismatch → h.compareCrc crc = h))
  ∧ (∀ (h : Hub),
      (h.get DUP_ROLE = 1 → ∀ d, h.partnerDegraded d = h)
      ∧ (h.get DUP_ROLE = 0 → (h.pstate = psJoining ∨ h.pstate = psLockstep → h.partnerDegraded true = h.set DUP_PSTATE psDegraded ∧ h.partnerDegraded false = h)
        ∧ (h.pstate = psDegraded → h.partnerDegraded true = h ∧ h.partnerDegraded false = h.set DUP_PSTATE psJoining)
        ∧ (h.pstate = psMismatch → ∀ d, h.partnerDegraded d = h))))
  ∧ ((∀ s : State, s.up →
  let h := s.hw.hub
  (let flags := h.get DUP_SUSPECT + 2 * b2n (h.pstate == psDegraded) + 4 * h.get DUP_SWAP_PENDING + 8 * h.get UPD_STAT_UPDATING
   ∀ k, h.activeOf roleDuplex = [k] → Gives .heartbeatSend s ((h.setPair { h.pair with hbCount := (h.pair.hbCount + 1) % 2 ^ 32 }).sendCtrl k
      (.duplex (.heartbeat h.route (h.get DUP_ROLE) flags h.pair.armCrc h.pair.hbCount))))
  ∧ (h.dupDriving = true → (∀ f, Gives (.samplesSend f) s (h.sendCtrl (h.get DUP_LINK) (.duplex (.samples f ((List.range 4).map fun j => h.codeFields (f + j))))))
      ∧ ∀ m, let u := h.upTo (h.edgeTime (1024 * m))
        Gives (.timemapSend m) s ((u.setPair { u.pair with pulseNs := if m % 64 = 0 then 80 else 40 }).sendCtrl (u.get DUP_LINK)
          (.duplex (.timemap (1024 * m) (u.edgeTime (1024 * m)) u.modPeriod))))
  ∧ (h.dupDriving = false → (∀ f, Gives (.samplesSend f) s h) ∧ ∀ m, Gives (.timemapSend m) s h)
  ∧ (h.standby = true → h.shadowing = true → h.pstate ≠ psMismatch → ∀ t, let u := (h.upTo (t + 100 * usU)).feedFrom true t
      Gives (.codesOverdue t) s ((u.setPair { u.pair with lostEdge := some t }).set DUP_PSTATE psDegraded))
  ∧ (h.standby = false ∨ h.shadowing = false ∨ h.pstate = psMismatch → ∀ t, Gives (.codesOverdue t) s h)
  ∧ (let old := fun (d : Digest) => decide (d.window + 1024 ≤ windowOf h.time.now)
     Gives .digestMissing s ((h.setPair { h.pair with own := h.pair.own.filter fun d => !old d, other := h.pair.other.filter fun d => !old d }).bumpBy
      DUP_CNT_DIGEST_MISSING DUP_SAT ((h.pair.own.filter old).length + (h.pair.other.filter old).length)))
  ∧ (∀ (kind : Fin 2) (id : Fin 64) rest win, let gs := ((kind, id) :: rest).map fun g => (g.1.val, g.2.val)
      let ds := gs.filterMap fun g => h.digestOf win g
      (ds = [] ∨ h.pstate = psNone → Gives (.digestReady kind id rest win) s h)
      ∧ (ds ≠ [] → h.pstate ≠ psNone →
        let x := ((h.setPair { h.pair with parts := h.pair.parts.filter fun e => !(e.1 == win && gs.contains (e.2.1, e.2.2.1))
                                           own := h.pair.own ++ ds }).sendCtrl (h.get DUP_LINK)
          (.duplex (.digest win (ds.map fun d => (d.kind, d.id, d.words, d.crc))))).compareAll
        (x.get DUP_ROLE = 0 ∨ x.pstate ≠ psLockstep → Gives (.digestReady kind id rest win) s x)
        ∧ (x.get DUP_ROLE = 1 → x.pstate = psLockstep → Gives (.digestReady kind id rest win) s
            (x.each ((ds.filter fun d => d.kind == 0).flatMap fun d => (List.range 16).map (· + 16 * d.id)) (Hub.anaCheck win)))))
  ∧ (∀ win (g : Nat × Nat), let mine := h.pair.parts.filter fun e => e.1 == win && e.2.1 == g.1 && e.2.2.1 == g.2
      let crc := crc32c ((mine.mergeSort fun a b => decide (a.2.2.2.1 ≤ b.2.2.2.1)).flatMap (·.2.2.2.2))
      (mine = [] → h.digestOf win g = none)
      ∧ (mine ≠ [] → h.digestOf win g = some { window := win, kind := g.1, id := g.2, words := mine.length, crc := crc }))
  ∧ (∀ stamp edge, (h.standby = false → Gives (.duplexSyncPulse stamp edge) s h)
      ∧ (h.standby = true →
        let u := (h.upTo stamp).lifeSign
        let v := (u.setPair { u.pair with lastPulse := u.time.now }).off DUP_SYNC_LOST
        (h.pair.maps.find? (fun m => m.1 == edge) = none → Gives (.duplexSyncPulse stamp edge) s v)
        ∧ (∀ m t p, h.pair.maps.find? (fun m => m.1 == edge) = some (m, t, p) →
          let ps := ((stamp : Int) - t) * 1000 / 2 ^ 32 - toSigned 16 (h.get DUP_SYNC_DLY)
          let x := v.set DUP_TDIFF (ofSigned 32 (max (-(2 ^ 31)) (min (2 ^ 31 - 1) ps)))
          (h.pstate ≠ psLockstep → Gives (.duplexSyncPulse stamp edge) s x)
          ∧ (h.pstate = psLockstep → (ps.natAbs ≤ h.get DUP_TTOL * 1000 →
                Gives (.duplexSyncPulse stamp edge) s (x.setPair { x.pair with tdiffRun := 0 }))
            ∧ (h.get DUP_TTOL * 1000 < ps.natAbs → h.pair.tdiffRun ≠ 15 → Gives (.duplexSyncPulse stamp edge) s
                ((x.bump DUP_CNT_XCHECK_COUNT DUP_SAT).setPair { x.pair with tdiffRun := h.pair.tdiffRun + 1 }))))))
  ∧ (h.standby = true → let u := (h.upTo (h.pair.lastPulse + 300 * usU)).on DUP_SYNC_LOST
      Gives .syncPulseLoss s (u.setPair { u.pair with tdiffRun := 0 }))
  ∧ (h.standby = false → Gives .syncPulseLoss s h)
  ∧ Gives .dupCntClr s (h.offs [DUP_CNT_DIVERGE_COUNT, DUP_CNT_DIGEST_MISSING, DUP_CNT_TAKEOVERS, DUP_CNT_XCHECK_COUNT, DUP_CNT_RPT_FAIL]))
  ∧ ∀ (h : Hub) (a b : Digest), let x := h.setPair { h.pair with own := h.pair.own.filter (· != a), other := h.pair.other.filter (· != b) }
      (h.pstate = psJoining ∨ h.pstate = psLockstep → x.comparable a.kind a.id a.window = true →
        (a.words = b.words → a.crc = b.crc → h.compareDigests a b = x.set DUP_PSTATE psLockstep)
        ∧ (a.words ≠ b.words ∨ a.crc ≠ b.crc → h.compareDigests a b = (x.set DUP_PSTATE psLockstep).diverge dvDigest a.id a.window))
      ∧ (h.pstate ≠ psJoining → h.pstate ≠ psLockstep → h.compareDigests a b = x))

/-- Loss of the partner, takeover and planned swap (R359 to R362): the active, a member in MISMATCH and a suspect standby under POLICY 1 only report a
lost partner; any other standby takes over, its drivers starting 55 us later; SWAP is refused with WERR outside LOCKSTEP, on the standby, with a
partner that is suspect or updating, or less than 10 ms ahead, and a cancel less than 1 ms ahead; at the swap instant the roles change. -/
def Obligations.TakeoverAndSwap : Prop := (∀ s : State, s.up →
  let h := s.hw.hub
  let u := h.upTo (h.pair.lastSign + h.get DUP_TIMEOUT_US * usU)
  let v := if u.time.now < u.pair.swapAt then u.off DUP_SWAP_PENDING else u
  (h.pstate = psNone → Gives .heartbeatLoss s h)
  ∧ (h.pstate ≠ psNone →
    (h.get DUP_ROLE = 0 ∨ h.pstate = psMismatch ∨ (h.get DUP_SUSPECT = 1 ∧ h.get DUP_POLICY = 1) →
        Gives .heartbeatLoss s ((v.on DEV_IRQ_DUPLEX).report dvPartnerLost 0))
    ∧ (h.get DUP_ROLE = 1 → h.pstate ≠ psMismatch → h.get DUP_SUSPECT = 0 ∨ h.get DUP_POLICY = 0 → Gives .heartbeatLoss s v.takeover))
  ∧ (h.pair.driverAt = none → Gives .driverStart s h)
  ∧ (∀ t, h.pair.driverAt = some t → Leads .driverStart s fun h' => h'.time.now = max h.time.now t ∧ h'.pair.driverAt = none ∧ OnlyRegs [] h h'
      ∧ ∀ n, (h'.chan n).driving = (if n ∈ h.driven then h.mayDrive else (h.chan n).driving))
  ∧ (h.get DUP_ROLE ≠ 0 ∨ h.get DUP_PARTNER_SUSPECT = 1 ∨ h.pstate ≠ psLockstep ∨ h.swapInstant < h.time.now + 10 * msU → Gives .swap s (h.on DUP_WERR))
  ∧ (∀ crc flags, h.pair.partner = some (crc, flags) → flags.testBit 0 = true ∨ flags.testBit 3 = true → Gives .swap s (h.on DUP_WERR))
  ∧ (h.pstate = psLockstep → h.get DUP_ROLE = 0 → h.get DUP_PARTNER_SUSPECT = 0 → h.time.now + 10 * msU ≤ h.swapInstant →
      (∀ crc flags, h.pair.partner = some (crc, flags) → flags.testBit 0 = false → flags.testBit 3 = false →
        let x := (h.setPair { h.pair with swapAt := h.swapInstant }).on DUP_SWAP_PENDING
        Gives .swap s (x.dupSend .swap 0 0 x.swapInstant)))
  ∧ (h.get DUP_ROLE = 0 → h.get DUP_SWAP_PENDING = 1 → h.time.now + msU ≤ h.pair.swapAt → Gives .swapCancel s (h.off DUP_SWAP_PENDING))
  ∧ (h.get DUP_ROLE ≠ 0 ∨ h.get DUP_SWAP_PENDING ≠ 1 ∨ h.pair.swapAt < h.time.now + msU → Gives .swapCancel s (h.on DUP_WERR))
  ∧ (h.get DUP_SWAP_PENDING ≠ 1 → Gives .swapInstant s h)
  ∧ (h.get DUP_SWAP_PENDING = 1 → let S := h.pair.swapAt
      let E := h.swapEdge
      let x := ((h.upTo E).off DUP_SWAP_PENDING).handover E (S + 55 * usU)
      (x.get DUP_ROLE = 0 → let y := (x.on DUP_ROLE).enter mMirror
        let z := y.feed false E
        Gives .swapInstant s (((z.setPair { z.pair with lastSign := y.time.now, lastPulse := y.time.now }).each chanList fun h n => h.discharge n).onlyLinks))
      ∧ (x.get DUP_ROLE ≠ 0 → let z := (((x.off DUP_ROLE).enter x.arm.acqMode).onlyLinks).feed true E
        Gives .swapInstant s (z.setPair { z.pair with driverAt := some (S + 55 * usU) })))
  ∧ (h.standby = true → Gives .clearSuspect s (h.off DUP_SUSPECT))
  ∧ (h.standby = false → Gives .clearSuspect s (h.on DUP_WERR)))

/-- Staging (R374 to R377, R384): LOAD_START and COPY begin in EMPTY or FAILED with no commit pending, in the modes that may stage and outside a
transition, and enter STAGING from IDLE; bytes arrive in LOADING alone, each port write at the next offset, a format failure stopping the loading
and the last byte starting validation; its end is VALID or FAILED; a failure holds its code and place, is counted, and cancels a pending commit
with REASON 6; DISCARD empties the maquette; every write out of turn sets WERR. -/
def Obligations.StagingMaquette : Prop := (∀ s : State, s.up →
  let h := s.hw.hub
  let st := h.get ARM_STAT_STATE
  let may := (h.get DEV_MODE_MODE = 1 ∨ h.get DEV_MODE_MODE = 2 ∨ h.acquiring = true) ∧ h.get DEV_MODE_IN_TRANSITION ≠ 1
  let load := may ∧ (st = 0 ∨ st = 4) ∧ h.get ARM_STAT_COMMIT_PENDING ≠ 1
  let a := h.get ARM_SRC_ADDR
  (load → Leads .loadStart s fun h' => h'.get ARM_STAT_STATE = 1 ∧ h'.get ARM_LOAD_OFS = 0 ∧ h'.get ARM_STAT_ERR = 0 ∧ h'.arm.maq = []
      ∧ h'.get DEV_MODE_MODE = (if h.get DEV_MODE_MODE = 1 then 2 else h.get DEV_MODE_MODE)
      ∧ OnlyRegs [ARM_STAT_STATE, ARM_STAT_SIGNED, ARM_LOAD_OFS, ARM_TOTAL_LEN, ARM_ID_MAQ, ARM_KEY_ID, ARM_STAT_ERR, ARM_ERR_OFS, ARM_ERR_TYPE, ARM_ERR_INST,
          DEV_MODE_MODE, DEV_MODE_IN_TRANSITION, DEV_IRQ_MODE] h h')
  ∧ (¬ load → Gives .loadStart s (h.on ARM_STAT_WERR))
  ∧ (¬ load ∨ a % 4 ≠ 0 → Gives .armCopy s (h.on ARM_STAT_WERR))
  ∧ (load → a % 4 = 0 → h.loadBegin.hostRange a 64 = false → Gives .armCopy s (h.loadBegin.maqFail { code := 3, ofs := 8, type := 0, inst := 0 }))
  ∧ (load → a % 4 = 0 → h.loadBegin.hostRange a 64 = true →
      let x := h.loadBegin.loadBytes (memBytes s.hw.mem.cells a 64)
      let n := x.get ARM_TOTAL_LEN
      (x.get ARM_STAT_STATE ≠ 1 → Gives .armCopy s x)
      ∧ (x.get ARM_STAT_STATE = 1 → x.hostRange a n = false → Gives .armCopy s (x.maqFail { code := 3, ofs := 8, type := 0, inst := 0 }))
      ∧ (x.get ARM_STAT_STATE = 1 → x.hostRange a n = true → Gives .armCopy s (x.loadBytes (memBytes s.hw.mem.cells (a + 64) (n - 64)))))
  ∧ (∀ v : Word, (st ≠ 1 → Gives (.armLoadData v) s (h.on ARM_STAT_WERR))
      ∧ (st = 1 → let m := h.arm.maq ++ leBytes 4 v.toNat
        let x := (h.setArm { h.arm with maq := m }).set ARM_LOAD_OFS m.length
        let y := (x.set ARM_TOTAL_LEN (fieldAt m 8 4)).set ARM_ID_MAQ (fieldAt m 0x14 4)
        (m.length < 64 → formatErr h.route h.arm.keys h.arm.sigReq m = none → Gives (.armLoadData v) s x)
        ∧ (64 ≤ m.length → m.length < fieldAt m 8 4 → formatErr h.route h.arm.keys h.arm.sigReq m = none → Gives (.armLoadData v) s y)
        ∧ (64 ≤ m.length → fieldAt m 8 4 ≤ m.length → formatErr h.route h.arm.keys h.arm.sigReq m = none → armSigned m = false →
            Gives (.armLoadData v) s (y.set ARM_STAT_STATE 2))
        ∧ (∀ e, formatErr h.route h.arm.keys h.arm.sigReq m = some e → Gives (.armLoadData v) s ((if 64 ≤ m.length then y else x).maqFail e))))
  ∧ (st ≠ 2 → Gives .validationDone s h)
  ∧ (st = 2 → (∀ e, contentErr h h.arm.maq = some e → Gives .validationDone s (h.maqFail e))
      ∧ (contentErr h h.arm.maq = none → Gives .validationDone s (h.set ARM_STAT_STATE 3)))
  ∧ (¬ may → Gives .discard s (h.on ARM_STAT_WERR))
  ∧ (may → h.get ARM_STAT_COMMIT_PENDING = 0 → Leads .discard s fun h' =>
      h'.get ARM_STAT_STATE = 0 ∧ h'.get ARM_LOAD_OFS = 0 ∧ h'.get ARM_TOTAL_LEN = 0 ∧ h'.get ARM_ID_MAQ = 0 ∧ h'.arm.maq = []
      ∧ h'.get DEV_MODE_MODE = (if h.get DEV_MODE_MODE = 2 then 1 else h.get DEV_MODE_MODE))
  ∧ Gives .armCntClr s (h.offs [ARM_COMMITS, ARM_FAILS]))
  ∧ ∀ (h : Hub) (e : ArmErr),
      let y := ((((h.set ARM_STAT_STATE 4).set ARM_STAT_ERR e.code).set ARM_ERR_OFS e.ofs).set ARM_ERR_TYPE e.type).set ARM_ERR_INST e.inst
      let z := y.bump ARM_FAILS ARM_STAT_SAT
      (h.get ARM_STAT_COMMIT_PENDING = 0 → h.maqFail e = if h.get DEV_MODE_MODE = 2 then z.toIdle else z)
      ∧ (∀ k, h.get ARM_STAT_COMMIT_PENDING = 1 → h.arm.prestarted = false → h.schedOf 1 = some k →
          let c := ((((z.set (SCHED_STATE k) 4).off ARM_STAT_COMMIT_PENDING).off ARM_COMMIT_SLOT_VALID).on ARM_STAT_COMMIT_REFUSED).set ARM_STAT_REASON 6
          h.maqFail e = if h.get DEV_MODE_MODE = 2 then c.toIdle else c)

/-- Scheduling of a commit and of a withdrawal (R17, R39, R58, R378, R379, R383): COMMIT is refused with REASON 10, 4, 1, 2 or 3 and otherwise takes
the lowest slot not pending; its instant without COMMIT_AT_EN is the first whole millisecond at least 1 ms ahead; CANCEL_COMMIT and CANCEL in the
slot give REASON 9; at T_c - 1 ms a VALID maquette starts its banks and another is MISSED with REASON 5; WITHDRAW is refused with WERR where no
armature is committed, while one is pending or draining, too soon or with no slot. The instant of a commit and of a withdrawal, and the drain
limit (R17, R268, R380, R381, R383): a refused commit leaves the armature and sets COMMIT_REFUSED with REASON 7, 8 or 11, ERR loaded with 0x41 in
the first case alone; otherwise the maquette takes effect, COMMITTED is set, ARM_COMMITS counts, T_c and ARM_ID are recorded, the interrupt is
raised, and the mode is MIRROR, CALIBRATION or ACQ_MODE's; a withdrawal sets the stop indices, its queues drain and the limit runs from its
instant. -/
def Obligations.CommitAndWithdrawal : Prop :=
  ((∀ s : State, s.up →
  let h := s.hw.hub
  let st := h.get ARM_STAT_STATE
  let refuse := fun r => (h.on ARM_STAT_COMMIT_REFUSED).set ARM_STAT_REASON r
  let atC := mkTime (h.get ARM_COMMIT_SEC_LO + 2 ^ 32 * h.get ARM_COMMIT_SEC_HI) (h.get ARM_COMMIT_NS) 0
  let atW := mkTime (h.get ARM_WITHDRAW_SEC_LO + 2 ^ 32 * h.get ARM_WITHDRAW_SEC_HI) (h.get ARM_WITHDRAW_NS) 0
  let taken := fun own t k => ((h.setTime { h.time with schedAt := aInsert h.time.schedAt k t }).set (SCHED_OWNER k) own).set (SCHED_STATE k) 1
  let pended := fun t k => (((taken 1 t k).on ARM_STAT_COMMIT_PENDING).set ARM_COMMIT_SLOT k).on ARM_COMMIT_SLOT_VALID
  let fresh := fun k => k < 8 ∧ h.get (SCHED_STATE k) ≠ 1 ∧ ∀ j < k, h.get (SCHED_STATE j) = 1
  let full := ∀ j < 8, h.get (SCHED_STATE j) = 1
  (h.get UPD_STAT_SETTINGS_UNREADABLE = 1 → Gives .commit s (refuse 10))
  ∧ (h.get UPD_STAT_SETTINGS_UNREADABLE = 0 → h.get ARM_STAT_COMMIT_PENDING = 1 → Gives .commit s (refuse 4))
  ∧ (h.get UPD_STAT_SETTINGS_UNREADABLE = 0 → h.get ARM_STAT_COMMIT_PENDING = 0 →
      (h.get ARM_COMMIT_AT_EN = 0 → st ≠ 3 → Gives .commit s (refuse 1))
      ∧ (h.get ARM_COMMIT_AT_EN = 0 → st = 3 → (full → Gives .commit s (refuse 3)) ∧ ∀ k, fresh k → Gives .commit s (pended (nextMs h.time.now) k))
      ∧ (h.get ARM_COMMIT_AT_EN = 1 → st = 0 ∨ 3 < st → Gives .commit s (refuse 1))
      ∧ (h.get ARM_COMMIT_AT_EN = 1 → st = 1 ∨ st = 2 ∨ st = 3 → (atC < h.time.now + msU → Gives .commit s (refuse 2))
          ∧ (h.time.now + msU ≤ atC → (full → Gives .commit s (refuse 3)) ∧ ∀ k, fresh k → Gives .commit s (pended atC k))))
  ∧ (h.get ARM_STAT_COMMIT_PENDING = 0 → Gives .cancelCommit s h)
  ∧ (∀ k, h.get ARM_STAT_COMMIT_PENDING = 1 → h.arm.prestarted = false → h.schedOf 1 = some k →
      Gives .cancelCommit s (((((h.set (SCHED_STATE k) 4).off ARM_STAT_COMMIT_PENDING).off ARM_COMMIT_SLOT_VALID).on ARM_STAT_COMMIT_REFUSED).set ARM_STAT_REASON 9))
  ∧ (∀ k : Fin 8, (h.get (SCHED_STATE k) ≠ 1 → Gives (.schedCancel k) s h)
      ∧ (h.get (SCHED_STATE k) = 1 → (h.get (SCHED_OWNER k) = 1 → Gives (.schedCancel k) s (h.commitCancel 9))
        ∧ (h.get (SCHED_OWNER k) = 2 → Gives (.schedCancel k) s h.cancelWithdraw)
        ∧ (h.get (SCHED_OWNER k) = 3 → GivesHw (.schedCancel k) s s.hw.updUnschedule)))
  ∧ (h.schedOf 1 = none ∨ h.arm.prestarted = true → Gives .commitPrestart s h)
  ∧ (∀ k, h.schedOf 1 = some k → h.arm.prestarted = false → let u := h.upTo (h.schedInstant k - msU)
      (st = 3 → Gives .commitPrestart s
          ((u.startBanks (banksOf (armSects u.arm.maq))).setArm { (u.startBanks (banksOf (armSects u.arm.maq))).arm with prestarted := true }))
      ∧ (st ≠ 3 → Gives .commitPrestart s
          (((((u.set (SCHED_STATE k) 3).off ARM_STAT_COMMIT_PENDING).off ARM_COMMIT_SLOT_VALID).on ARM_STAT_COMMIT_MISSED).set ARM_STAT_REASON 5)))
  ∧ (h.arm.committed = false ∨ h.get ARM_STAT_WITHDRAW_PENDING = 1 ∨ h.get ARM_STAT_DRAINING = 1 → Gives .withdraw s (h.on ARM_STAT_WERR))
  ∧ (h.arm.committed = true → h.get ARM_STAT_WITHDRAW_PENDING = 0 → h.get ARM_STAT_DRAINING = 0 →
      (h.get ARM_WITHDRAW_AT_EN = 0 → let t := timeAdd h.time.now h.tickInc
        Gives .withdraw s (((h.on ARM_STAT_WITHDRAW_PENDING).setArm { h.arm with wdAt := t, wdLimit := h.get ARM_DRAIN_MS }).gridsStop t))
      ∧ (h.get ARM_WITHDRAW_AT_EN = 1 → (atW < h.time.now + msU → Gives .withdraw s (h.on ARM_STAT_WERR))
        ∧ (h.time.now + msU ≤ atW → (full → Gives .withdraw s (h.on ARM_STAT_WERR))
          ∧ ∀ k, fresh k → let g := taken 2 atW k
            Gives .withdraw s (((((g.on ARM_STAT_WITHDRAW_PENDING).setArm { g.arm with wdAt := atW, wdLimit := h.get ARM_DRAIN_MS }).gridsStop atW).set ARM_WD_SLOT k).on ARM_WD_SLOT_VALID))))
  ∧ (h.get ARM_STAT_WITHDRAW_PENDING = 0 → Gives .cancelWithdraw s h)
  ∧ (h.get ARM_STAT_WITHDRAW_PENDING = 1 → (h.schedOf 2 = none →
        Gives .cancelWithdraw s (h.offs [ARM_STAT_WITHDRAW_PENDING, ARM_WD_SLOT_VALID, DEV_MODE_IN_TRANSITION]).gridsResume)
      ∧ ∀ k, h.schedOf 2 = some k → Gives .cancelWithdraw s
        ((h.set (SCHED_STATE k) 4).offs [ARM_STAT_WITHDRAW_PENDING, ARM_WD_SLOT_VALID, DEV_MODE_IN_TRANSITION]).gridsResume))
  ∧ (∀ t, nextMs t % msU = 0 ∧ t + msU ≤ nextMs t ∧ nextMs t < t + 2 * msU)
  ∧ ∀ (h : Hub) (t : Nat) (g : Fin 8), let k := firstIndexAt (h.gridEpoch g) (h.get (GRID_RATE_P g)) (h.get (GRID_RATE_Q g)) t
      (h.gridState g = 1 ∨ h.gridState g = 2 → (h.gridsStop t).gridState g = 3 ∧ (h.gridsStop t).get (GRID_STOP_LO g) = k % 2 ^ 32
        ∧ (h.gridsStop t).get (GRID_STOP_HI g) = k / 2 ^ 32 % 2 ^ 32)
      ∧ (h.gridState g = 0 ∨ h.gridState g = 3 → (h.gridsStop t).gridState g = h.gridState g ∧ (h.gridsStop t).gridStop g = h.gridStop g))
  ∧ ((∀ s : State, s.up →
  let h := s.hw.hub
  (h.schedOf 1 = none → Gives .commitInstant s h)
  ∧ (∀ k, h.schedOf 1 = some k → h.arm.prestarted = true → let t := h.schedInstant k
      let x := ((h.upTo t).set (SCHED_STATE k) 2).offs [ARM_STAT_COMMIT_PENDING, ARM_COMMIT_SLOT_VALID]
      let r := x.refusedAt (armId x.arm.maq) (armSects x.arm.maq)
      (r = 0 → Gives .commitInstant s (h.watchNext fun _ => x.takeEffect t x.arm.maq))
      ∧ (r = 7 → Gives .commitInstant s (h.watchNext fun _ => (((x.set ARM_STAT_ERR 0x41).commitOff).on ARM_STAT_COMMIT_REFUSED).set ARM_STAT_REASON 7))
      ∧ (r ≠ 0 → r ≠ 7 → Gives .commitInstant s (h.watchNext fun _ => ((x.commitOff).on ARM_STAT_COMMIT_REFUSED).set ARM_STAT_REASON r)))
  ∧ (h.get ARM_STAT_WITHDRAW_PENDING = 0 → Gives .withdrawalInstant s h)
  ∧ (h.get ARM_STAT_WITHDRAW_PENDING = 1 → Leads .withdrawalInstant s fun h' => h'.get ARM_STAT_DRAINING = 1 ∧ h'.arm.drainEnd = h.arm.wdAt + h'.arm.wdLimit * msU
      ∧ ∀ q < 256, h'.qState q = 0 ∨ h'.qState q = 3)
  ∧ (h.get ARM_STAT_DRAINING = 0 → Gives .drainLimitExpired s h)
  ∧ (h.get ARM_STAT_DRAINING = 1 → Gives .drainLimitExpired s h.drainLimit))
  ∧ (∀ (h : Hub) (id : Nat) (new : List Sect),
      (h.memBusy new = true → h.refusedAt id new = 7)
      ∧ (h.memBusy new = false → ∀ d, findSect new 15 0 = some d → h.pstate ≠ 0 → d.b 0 ≠ h.get DUP_ROLE → h.refusedAt id new = 8)
      ∧ (h.memBusy new = false → h.pstate = 0 ∨ findSect new 15 0 = none →
          (h.arm.committed = true → id = h.get ARM_ID_COMMITTED → sectsDiffer h.arm.sects new = true → h.refusedAt id new = 11)
          ∧ (h.arm.committed = false ∨ id ≠ h.get ARM_ID_COMMITTED ∨ sectsDiffer h.arm.sects new = false → h.refusedAt id new = 0)))
  ∧ (∀ (h : Hub) (c : Ctx), let g := h.commitRecord c
      g.get ARM_STAT_COMMITTED = 1 ∧ g.get ARM_COMMITS = min (h.get ARM_COMMITS + 1) ARM_COMMITS.top ∧ g.get ARM_ID_COMMITTED = c.armId % 2 ^ 32
      ∧ g.get ARM_CT_NS = tNs c.tc % 2 ^ 30 ∧ g.get ARM_CT_SEC_LO = tSec c.tc % 2 ^ 32 ∧ g.get ARM_CT_SEC_HI = tSec c.tc / 2 ^ 32 % 2 ^ 16
      ∧ g.get DEV_IRQ_ARM = 1 ∧ g.arm.sects = c.new ∧ g.arm.committed = true ∧ g.arm.commitAt = c.tc)
  ∧ ∀ (h : Hub) (b : List (BitVec 8)) (new : List Sect), let acq := if fieldAt b 0x10 1 = 2 then 5 else 4
      let g := h.setArm { h.arm with acqMode := acq }
      (∀ d, findSect new 15 0 = some d → d.b 0 = 1 → h.commitMode b new = (g.enter 6).onlyLinks)
      ∧ (findSect new 15 0 = none ∨ (∃ d, findSect new 15 0 = some d ∧ d.b 0 ≠ 1) →
          (armCalibrate b = true → h.commitMode b new = (g.enter 3).calBegin 0) ∧ (armCalibrate b = false → h.commitMode b new = g.enter acq)))

/-- A grid output and its engineering words (R132, R149, R150, R156, R158): the due output of a channel appears 4 us after its support and its
analogue delay have passed, with its index and the word of one path or both, whose value saturates at 8,388,607 either way and whose status bits
and range stand below it; it waits for linearisation, and its engineering words follow in order. -/
def Obligations.Outputs : Prop := (∀ (s : State) (n : Fin 192), s.up →
  let h := s.hw.hub
  ((h.chan n).due = none → Gives (.outputReady n) s h)
  ∧ (∀ r, (h.chan n).due = some r → ∃ o g, h.takeOutput n = some (o, r, g) ∧ o.index = r.next ∧ o.words = h.outputWords n r r.next
      ∧ (r.two = false → o.words = [h.outputWord n r (h.bit (CH_CHAIN_DEMOD n) && h.get (CH_CHAIN_DEMOD_OUT n) == 1) r.next])
      ∧ g.time.now = max h.time.now (gridInstant r.epoch r.p r.q r.next + (r.w * 4294967296).ceil.toNat
          + h.delayOf n (h.outputRange n r r.next) + 4 * usU)
      ∧ (g.chan n).runs = stepRuns (h.chan n).runs
      ∧ Gives (.outputReady n) s (h.watchNext fun _ =>
          let t := gridInstant r.epoch r.p r.q r.next
          let a := g.setChan n { g.chan n with linQ := (g.chan n).linQ ++ [(o, r)] }
          let b := if a.get DUP_PSTATE = 0 then a else a.setPair { a.pair with parts := digestParts n t o ++ a.pair.parts }
          ((((b.route1 n r.next r false o.words).carverCells n r.next r false o.words).trigSample n t (o.words.headD 0)).chanClear n)))
  ∧ ((h.chan n).linQ = [] → Gives (.engineeringWordReady n) s h)
  ∧ (∀ o r rest, (h.chan n).linQ = (o, r) :: rest → ∃ ws g, h.takeLin n = some (o, r, ws, g) ∧ Gives (.engineeringWordReady n) s (h.watchNext fun _ =>
      ((g.route1 n o.index r true (ws.flatMap halves)).carverCells n o.index r true (ws.flatMap halves)).chanClear n)))
  ∧ (∀ v : Int, (saturate v).1 ≤ 8388607 ∧ -8388607 ≤ (saturate v).1 ∧ ((saturate v).2 = true ↔ v > 8388607 ∨ v < -8388607) ∧ ((saturate v).2 = false → (saturate v).1 = v))
  ∧ ∀ (v : Int) (settle xsit clip excf openw : Bool) (range : Nat), let w := sampleWord v settle xsit clip excf openw range
      (-8388608 ≤ v → v ≤ 8388607 → w / 256 = (v % 2 ^ 24).toNat ∧ w % 8 = range % 8 ∧ w.testBit 7 = settle ∧ w.testBit 6 = xsit ∧ w.testBit 5 = clip ∧ w.testBit 4 = excf
        ∧ w.testBit 3 = openw)

/-- The checks of a request and a load (R389, R391, R393, R394, R396, R446): the first failing check of R393 is REFUSE and changes nothing else but
WERR; START and COPY enter RECEIVING; a write of UPD_DATA outside RECEIVING sets WERR, with ROOM 0 sets OVR, and otherwise brings four bytes; the
header is checked at its 256th byte, an NLH-2096 block at its last; ABORT ends the load with 0x11; the last checks end in STAGED, with the slot's
VALID bit in a new boot record, or FAILED, which counts; a failed power check during a load ends it with 0x0E. -/
def Obligations.CastLoading : Prop := (∀ (w : Hw) (b : Bool), let h := w.hub
  (h.get DEV_MODE_MODE ≠ 7 → w.updRefusal b = 1)
  ∧ (h.get DEV_MODE_MODE = 7 → w.lcState = 4 → w.updRefusal b = 2)
  ∧ (h.get DEV_MODE_MODE = 7 → w.lcState ≠ 4 → b = true → h.updBusy = true → w.updRefusal b = 3)
  ∧ (h.get DEV_MODE_MODE = 7 → w.lcState ≠ 4 → b = false ∨ h.updBusy = false →
      (h.get UPD_OBS_LOCK = 1 → w.updRefusal b = 4)
      ∧ (h.get UPD_OBS_LOCK ≠ 1 → (h.updLock = true → w.updRefusal b = 5)
        ∧ (h.updLock = false → (h.pwr.holdup < h.get UPD_HOLDUP_MIN ∨ h.pwr.supplies = false → w.updRefusal b = 6)
          ∧ (h.get UPD_HOLDUP_MIN ≤ h.pwr.holdup → h.pwr.supplies = true →
            (∀ t, h.upd.partnerUpdAt = some t → h.time.now ≤ t + 10 * secU → w.updRefusal b = 7)
            ∧ (h.upd.partnerUpdAt = none ∨ (∃ t, h.upd.partnerUpdAt = some t ∧ t + 10 * secU < h.time.now) → w.updRefusal b = 0)))))
  ∧ (h.updBusy = true ↔ h.get UPD_STAT_STATE = 1 ∨ h.get UPD_STAT_STATE = 2 ∨ h.get UPD_STAT_STATE = 4 ∨ h.get UPD_STAT_STATE = 5))
  ∧ (∀ (h : Hub) (c : Nat), c < 256 → let g := h.updFail c
      g.get UPD_STAT_STATE = 6 ∧ g.get UPD_STAT_ERR = c ∧ g.get UPD_STAT_UPDATING = 0 ∧ g.get UPD_FAILS = min (h.get UPD_FAILS + 1) UPD_FAILS.top ∧ g.upd.bytes = []
      ∧ g.upd.cast = none ∧ (g.pwr.log.head?.map fun e => (e.code, e.p0)) = some ((logCode .castRefused).1, c))
  ∧ ∀ s : State, s.up →
    let h := s.hw.hub
    let st := h.get UPD_STAT_STATE
    let r := s.hw.updRefusal true
    let refuse := (h.on UPD_STAT_WERR).set UPD_STAT_REFUSE r
    (r ≠ 0 → Gives .updStart s refuse ∧ Gives .updCopy s refuse)
    ∧ (r = 0 → Leads .updStart s fun h' => h'.get UPD_STAT_STATE = 1 ∧ h'.get UPD_STAT_UPDATING = 1 ∧ h'.get UPD_ROOM = 262144 ∧ h'.get UPD_STAT_ERR = 0
        ∧ h'.get UPD_LOAD_OFS = 0 ∧ h'.get UPD_EXPECT = 0 ∧ h'.upd.bytes = [] ∧ h'.upd.cast = none
        ∧ OnlyRegs [UPD_STAT_STATE, UPD_STAT_UPDATING, UPD_ROOM, UPD_STAT_ERR, UPD_STAT_FORMAT, UPD_LOAD_OFS, UPD_EXPECT, UPD_BLOCK_COUNT, UPD_STAGED_VERSION] h h')
    ∧ (r = 0 → let a := h.get UPD_SRC_ADDR / 4 * 4
        (h.updBegin.hostRange a 256 = false → Gives .updCopy s (h.updBegin.updFail 3))
        ∧ (h.updBegin.hostRange a 256 = true → let x := (s.hw.onHub Hub.updBegin).updFeed a 256
            let y := if x.hub.upd.cast.isNone ∧ x.hub.get UPD_STAT_STATE = 1 then x.updFeed (a + 256) 3840 else x
            GivesHw .updCopy s (if y.hub.get UPD_STAT_STATE = 1 then y.updFeed (a + y.hub.upd.bytes.length) (y.hub.upd.total - y.hub.upd.bytes.length) else y)))
    ∧ (∀ v : Word, (st ≠ 1 → Gives (.updData v) s (h.on UPD_STAT_WERR))
        ∧ (st = 1 → h.get UPD_ROOM = 0 → Gives (.updData v) s ((h.on UPD_STAT_OVR).roomDraw 262144))
        ∧ (st = 1 → h.get UPD_ROOM ≠ 0 →
          let rev := (leBytes 4 v.toNat).reverse ++ h.upd.bytes
          let x := ((h.setUpd { h.upd with bytes := rev }).set UPD_LOAD_OFS rev.length).roomDraw (min rev.length (262148 - h.get UPD_ROOM))
          let w := s.hw.setHub x
          (rev.length < 256 → Gives (.updData v) s x)
          ∧ (rev.length = 256 → fieldAt rev.reverse 0 2 ≠ 0x2096 →
              (∀ e, e ≠ 0 → w.nativeErr rev.reverse = e → Gives (.updData v) s (x.updFail e))
              ∧ (w.nativeErr rev.reverse = 0 → GivesHw (.updData v) s ((w.updAccept (nativeCast rev.reverse) (256 + fieldAt rev.reverse 0x0C 4)).onHub Hub.updLast)))
          ∧ (256 < rev.length → fieldAt rev.reverse 0 2 ≠ 0x2096 → Gives (.updData v) s x.updLast)
          ∧ (256 ≤ rev.length → fieldAt rev.reverse 0 2 = 0x2096 → (rev.length % 4096 ≠ 0 → Gives (.updData v) s x)
              ∧ (rev.length % 4096 = 0 → GivesHw (.updData v) s (w.blockIn rev.reverse false)))))
    ∧ (st = 1 ∨ st = 2 → Gives .updAbort s (h.updFail 0x11))
    ∧ (st ≠ 1 → st ≠ 2 → Gives .updAbort s h)
    ∧ (∀ f : Fin 3, (h.upd.cast = none ∨ st ≠ 2 → Gives (.castCheckDone f) s h)
        ∧ ∀ c, h.upd.cast = some c → st = 2 → let e := castErr c h.upd.bytes.reverse f
          (e ≠ 0 → Gives (.castCheckDone f) s (h.updFail e))
          ∧ (e = 0 → LeadsHw (.castCheckDone f) s fun w' => let o := 1 - h.get UPD_STAT_RUN_SLOT
              w'.hub.get UPD_STAT_STATE = 3 ∧ w'.hub.get UPD_STAT_UPDATING = 0 ∧ w'.hub.upd.cast = none ∧ w'.nv.castOf o = some { c with image := some h.upd.bytes.reverse }
              ∧ w'.nv.boot.valid o = true ∧ w'.nv.boot.seq = (s.hw.nv.boot.seq + 1) % 2 ^ 32 ∧ w'.mem = s.hw.mem))
    ∧ (∀ (supplies : Bool) (v : BitVec 16), let y := ((h.coreConvert v.toNat).setPwr { h.pwr with supplies := supplies, holdup := v.toNat }).showHoldup
        (st ≠ 1 → st ≠ 2 → Gives (.updPowerCheck supplies v) s y)
        ∧ (st = 1 ∨ st = 2 → (h.get UPD_HOLDUP_MIN ≤ v.toNat → supplies = true → Gives (.updPowerCheck supplies v) s y)
          ∧ (v.toNat < h.get UPD_HOLDUP_MIN ∨ supplies = false → Gives (.updPowerCheck supplies v) s (y.updFail 0x0E))))
    ∧ Gives .updCntClr s (h.offs [UPD_UPDATES, UPD_FALLBACKS, UPD_FAILS])

/-- Activation and probation (R58, R386, R392, R397, R398, R400, R401): SCHEDULE is refused outside STAGED, by the checks of R393 but BUSY, less than
100 ms ahead or with no slot, and otherwise takes the lowest free slot and writes a PENDING record; CANCEL and a refused activation go back to
STAGED with a record of the running slot; at the instant the checks run again and the hub resets with ACT_GO; CONFIRM writes STABLE and applies
the fuses; REVERT and PROB_END reset; STAGE_PREV stages the previous cast. -/
def Obligations.CastActivation : Prop := ∀ s : State, s.up →
  let h := s.hw.hub
  let b := s.hw.nv.boot
  let st := h.get UPD_STAT_STATE
  let r := s.hw.updRefusal false
  let at_ := mkTime (h.get UPD_ACT_SEC_LO + 2 ^ 32 * h.get UPD_ACT_SEC_HI) (h.get UPD_ACT_NS) 0
  let full := ∀ j < 8, h.get (SCHED_STATE j) = 1
  let rest := if s.hw.nv.recovery then 4 else 1
  (st ≠ 3 → Gives .schedule s (h.on UPD_STAT_WERR))
  ∧ (st = 3 → r ≠ 0 → Gives .schedule s ((h.on UPD_STAT_WERR).set UPD_STAT_REFUSE r))
  ∧ (st = 3 → r = 0 → at_ < h.time.now + 100 * msU ∨ full → Gives .schedule s (h.on UPD_STAT_WERR))
  ∧ (∀ k < 8, st = 3 → r = 0 → h.time.now + 100 * msU ≤ at_ → h.get (SCHED_STATE k) ≠ 1 → (∀ j < k, h.get (SCHED_STATE j) = 1) →
      LeadsHw .schedule s fun w' => w'.hub.get UPD_STAT_STATE = 4 ∧ w'.hub.get (SCHED_STATE k) = 1 ∧ w'.hub.get (SCHED_OWNER k) = 3 ∧ w'.hub.schedInstant k = at_
        ∧ w'.nv.boot = { b with state := 2, active := h.get UPD_STAT_RUN_SLOT, probEnd := tSec at_ + h.get UPD_PROBATION, seq := (b.seq + 1) % 2 ^ 32 } ∧ w'.mem = s.hw.mem)
  ∧ (st ≠ 4 → Gives .updCancel s h)
  ∧ (∀ k, st = 4 → h.schedOf 3 = some k → LeadsHw .updCancel s fun w' => w'.hub = (h.set (SCHED_STATE k) 4).set UPD_STAT_STATE 3 ∧ w'.mem = s.hw.mem
      ∧ w'.nv.boot = { b with state := rest, active := h.get UPD_STAT_RUN_SLOT, probEnd := 0, seq := (b.seq + 1) % 2 ^ 32 })
  ∧ (h.schedOf 3 = none → Gives .activationInstant s h)
  ∧ (∀ k, h.schedOf 3 = some k → let t := h.schedInstant k
      let x := (((h.withdrawDue t).commitDue t).upTo t).set (SCHED_STATE k) 2
      let q := (s.hw.setHub x).updRefusal false
      (q = 0 → Gives .activationInstant s ((x.setPwr { x.pwr with actGo := true }).resetBy srcCast))
      ∧ (q ≠ 0 → LeadsHw .activationInstant s fun w' => w'.hub = ((x.on UPD_STAT_ACT_REFUSED).set UPD_STAT_REFUSE q).set UPD_STAT_STATE 3 ∧ w'.nv.boot.state = rest
          ∧ w'.nv.boot.probEnd = 0 ∧ w'.nv.boot.seq = (b.seq + 1) % 2 ^ 32 ∧ w'.mem = s.hw.mem))
  ∧ (st ≠ 5 → Gives .confirm s (h.on UPD_STAT_WERR) ∧ Gives .revert s (h.on UPD_STAT_WERR) ∧ Gives .probEnd s h)
  ∧ (st = 5 → (∀ c, h.upd.running = some c → LeadsHw .confirm s fun w' => w'.hub.get UPD_STAT_STATE = 0 ∧ w'.hub.get UPD_STAT_CONFIRMED = 1
        ∧ w'.hub.get UPD_STAT_UPDATING = 0 ∧ w'.hub.get UPD_UPDATES = min (h.get UPD_UPDATES + 1) UPD_UPDATES.top
        ∧ w'.nv.boot.active = h.get UPD_STAT_RUN_SLOT ∧ w'.nv.boot.state = (if s.hw.lcState = 3 then 1 else rest) ∧ w'.nv.boot.probEnd = 0
        ∧ w'.nv.epochFuse = max s.hw.nv.epochFuse c.secEpoch ∧ w'.nv.key0Revoked = (s.hw.nv.key0Revoked || (c.revokeKey0 && c.keyId == 1))
        ∧ (s.hw.lcState = 3 → w'.nv.lcFuse = 2) ∧ (s.hw.lcState ≠ 3 → w'.nv.lcFuse = s.hw.nv.lcFuse) ∧ w'.mem = s.hw.mem)
      ∧ Gives .revert s h.revertReset ∧ Gives .probEnd s (h.upTo (h.upd.probEnd * secU)).revertReset)
  ∧ h.revertReset = h.draw.resetBy (if Config.revertIsCast h.free then srcCast else srcSoftware)
  ∧ (h.get DEV_MODE_MODE = 7 → h.get UPD_STAT_PREV_VALID = 1 → h.updBusy = false →
      LeadsHw .stagePrev s fun w' => w'.hub.get UPD_STAT_STATE = 3 ∧ w'.mem = s.hw.mem ∧ w'.nv = s.hw.nv)
  ∧ (h.get DEV_MODE_MODE ≠ 7 ∨ h.get UPD_STAT_PREV_VALID ≠ 1 ∨ h.updBusy = true → Gives .stagePrev s (h.on UPD_STAT_WERR))

/-- The settings slots (R402 to R405, R409): an access of UPD_SET_DATA moves SET_ADDR by 4 and changes the staged image at that word alone, beyond
0x5D90 nothing; WRITE is refused with WRITE_REFUSED in the cases of R403 and otherwise begins; its end seals one copy, the older or a bad one,
with the next WRITE_SEQ, the version running and a fresh CRC, and clears BUSY with DONE; LOAD takes the bound slot's image. -/
def Obligations.SettingsSlots : Prop := (∀ s : State, s.up →
  let h := s.hw.hub
  let st := h.get UPD_STAT_STATE
  let a := h.get UPD_SET_ADDR / 4 * 4
  let on := fun img => h.setUpd { h.upd with setImg := img }
  (∀ (p : Fin 2) (v : Word), (a ≤ 0x5D90 → Gives (.setDataAccess p (some v)) s ((on (imgPut h.upd.setImg a (leBytes 4 v.toNat))).set UPD_SET_ADDR (a + 4))
        ∧ Gives (.setDataAccess p none) s ((h.set UPD_SET_ADDR (a + 4)).setRd p (imgVal h.upd.setImg a 4)))
      ∧ (0x5D90 < a → Gives (.setDataAccess p (some v)) s (h.set UPD_SET_ADDR (a + 4)) ∧ Gives (.setDataAccess p none) s ((h.set UPD_SET_ADDR (a + 4)).setRd p 0)))
  ∧ ((h.get DEV_MODE_MODE ≠ 1 ∧ h.get DEV_MODE_MODE ≠ 7) ∨ st = 1 ∨ st = 2 ∨ h.get UPD_SETC_BUSY = 1 ∨ h.pwr.holdup < h.get UPD_HOLDUP_MIN ∨ h.pwr.supplies = false
        ∨ s.hw.lcState = 0 ∨ s.hw.lcState = 4 ∨ s.hw.setTarget = none → Gives .settingsWrite s (h.on UPD_SETC_WRITE_REFUSED))
  ∧ (∀ k, h.get DEV_MODE_MODE = 1 ∨ h.get DEV_MODE_MODE = 7 → st ≠ 1 → st ≠ 2 → h.get UPD_SETC_BUSY ≠ 1 → h.get UPD_HOLDUP_MIN ≤ h.pwr.holdup → h.pwr.supplies = true →
      s.hw.lcState ≠ 0 → s.hw.lcState ≠ 4 → s.hw.setTarget = some k →
      Gives .settingsWrite s ((h.on UPD_SETC_BUSY).setUpd { h.upd with setPend := some (k, h.upd.setImg) }))
  ∧ Gives .settingsLoad s (on (s.hw.setImage.getD []))
  ∧ (h.upd.setPend = none → Gives .settingsWriteDone s h)
  ∧ (∀ k img, h.upd.setPend = some (k, img) → LeadsHw .settingsWriteDone s fun w' =>
      let x := aGet s.hw.nv.settings (2 * k) {}
      let y := aGet s.hw.nv.settings (2 * k + 1) {}
      let newer := y.ok = true ∧ (x.ok = false ∨ (y.seq + 2 ^ 32 - x.seq) % 2 ^ 32 < 2 ^ 31)
      let seq := fun n => (n + 1) % 2 ^ 32
      w'.hub.get UPD_SETC_BUSY = 0 ∧ w'.hub.get UPD_SETC_DONE = 1 ∧ w'.hub.upd.setPend = none ∧ w'.mem = s.hw.mem
      ∧ (newer → w'.nv.settings = aInsert s.hw.nv.settings (2 * k) (sealImage img (seq y.seq) (h.get UPD_RUN_VERSION)))
      ∧ (¬ newer → w'.nv.settings = aInsert s.hw.nv.settings (2 * k + 1) (sealImage img (seq (if x.ok then x.seq else 0)) (h.get UPD_RUN_VERSION)))))
  ∧ (∀ (m : AMap Nat) (a : Nat) (v : Word), imgVal (imgPut m a (leBytes 4 v.toNat)) a 4 = v.toNat)
  ∧ ∀ (img : AMap Nat) (n v : Nat), let c := sealImage img n v
    c.ok = true ∧ c.seq = n ∧ imgVal c.img setCrcAt 4 = crc32c (imgBytes c.img 0 setCrcAt) % 2 ^ 32 ∧ imgVal c.img 0x0C 4 = n % 2 ^ 32 ∧ imgVal c.img 0x10 4 = v % 2 ^ 32

/-- The life cycle (R406, R407): the key in LC_ARM arms for 1 s and no other value does; GO is refused with REASON 1 to 5 in that order and otherwise
resets the hub, in the new state, whose log begins with LC_CHANGE; RETIRED erases slots, settings, factory patina and boot record, every other
transition keeps the flash. LC_FACTORY.WRITE (R408): in MANUFACTURE with a patina store that passes its check, FLAGS bit 0 is set and the store
goes to FACTORY_PATINA; anywhere else, or where the check fails, FACTORY_REFUSED is set and the flash stays. -/
def Obligations.LifeCycle : Prop :=
  ((∀ s : State,
  (s.hw.hub.get LC_ARMED = 1 → Gives .lcArmExpiry s ((s.hw.hub.upTo (s.hw.hub.upd.lcArmAt + secU)).off LC_ARMED)) ∧ (s.hw.hub.get LC_ARMED ≠ 1 → Gives .lcArmExpiry s s.hw.hub))
  ∧ ∀ s : State, s.up →
  let h := s.hw.hub
  let lc := s.hw.lcState
  (∀ v : Word, (v = 0x4C434152 → Gives (.lcArm v) s ((h.on LC_ARMED).setUpd { h.upd with lcArmAt := h.time.now })) ∧ (v ≠ 0x4C434152 → Gives (.lcArm v) s h))
  ∧ ∀ t : BitVec 3, let n := t.toNat
    let refuse := fun r => ((h.set LC_TARGET n).on LC_REFUSED).set LC_REASON r
    let reach := (n = 4 ∧ lc ≠ 4) ∨ (lc = 0 ∧ n = 1) ∨ (lc = 1 ∧ n = 2) ∨ (lc = 2 ∧ n = 3) ∨ (lc = 3 ∧ n = 2 ∧ (s.hw.nv.boot.validA = true ∨ s.hw.nv.boot.validB = true))
    let factory := lc = 1 ∧ n = 2 ∧ s.hw.factoryReady = false
    (h.get LC_ARMED ≠ 1 → Gives (.lcGo t) s (refuse 1))
    ∧ (h.get LC_ARMED = 1 → ¬ reach → Gives (.lcGo t) s (refuse 2))
    ∧ (h.get LC_ARMED = 1 → reach → h.updBusy = true → Gives (.lcGo t) s (refuse 3))
    ∧ (h.get LC_ARMED = 1 → reach → h.updBusy = false → h.pwr.holdup < h.get UPD_HOLDUP_MIN ∨ h.pwr.supplies = false → Gives (.lcGo t) s (refuse 4))
    ∧ (h.get LC_ARMED = 1 → reach → h.updBusy = false → h.get UPD_HOLDUP_MIN ≤ h.pwr.holdup → h.pwr.supplies = true →
      (factory → Gives (.lcGo t) s (refuse 5))
      ∧ (¬ factory → LeadsHw (.lcGo t) s fun w' => (n = 1 → w'.nv.lcFuse = 1) ∧ (n ≠ 1 → w'.lcState = n) ∧ w'.hub.pwr.phase = .held ∧ w'.hub.get RST_LAST = srcLifeCycle ∧ w'.mem = s.hw.mem
        ∧ (w'.hub.pwr.log.map fun e => e.code) = [(logCode .reset).1, (logCode .lcChange).1] ∧ (w'.hub.pwr.log.getLast?.map fun e => (e.seq, e.p0, e.p1)) = some (0, lc % 2 ^ 32, n)
        ∧ (n = 3 → w'.hub.get LC_RECOVERY_CAUSE = 2)
        ∧ (n = 4 → w'.nv.castA = none ∧ w'.nv.castB = none ∧ w'.nv.settings = [] ∧ w'.nv.factory = none ∧ w'.nv.boot = {})
        ∧ (n ≠ 4 → w'.nv.castA = s.hw.nv.castA ∧ w'.nv.castB = s.hw.nv.castB ∧ w'.nv.settings = s.hw.nv.settings ∧ w'.nv.factory = s.hw.nv.factory))))
  ∧ (∀ s : State, s.up →
  let h := s.hw.hub
  let m := h.hk.patina
  let f := patSeal (imgPut m 0x18 (leBytes 1 (aGet m 0x18 0 / 2 * 2 + 1)))
  (s.hw.lcState = 1 → patOk m = true →
    GivesHw .factoryWrite s ((s.hw.setNv { s.hw.nv with factory := some f }).setHub ((h.setHk { h.hk with patina := f, checked := f }).on LC_FACTORY_DONE)))
  ∧ (s.hw.lcState ≠ 1 ∨ patOk m = false → Gives .factoryWrite s (h.on LC_FACTORY_FACTORY_REFUSED)))

/-- Posted writes (R437, R439, R440): a write joins the end of the queue of 32, or is dropped with WDROP while it is full; the head of the queue takes
effect first, a WRITE64's two registers in address order; a write cut inside its data sets SHORT, and its complete first register is posted. Reads
over SPI and transactions cut short (R437, R438, R439, R440): a read is served only once every earlier write has taken effect; a read of 64 bits
takes both registers in one step; a read not ready in time gives zero and RD_TIMEOUT and has no effect; a command that is none of the four sets
CMD_ERR; a read cut after START keeps its effects and sets SHORT. -/
def Obligations.SpiAccess : Prop :=
  (∀ s : State,
  let h := s.hw.hub
  let q := h.spi.posted
  let put := fun p => h.setSpi { h.spi with posted := q ++ [p] }
  (h.spiUp = true ↔ h.pwr.phase ≠ .held ∧ h.pwr.phase ≠ .released ∧ h.pwr.phase ≠ .dead)
  ∧ (∀ a v u : Word, h.spiUp = true →
      (q.length < 32 → Gives (.write32 a v) s (put { addr := a.toNat, value := v.toNat }) ∧ Gives (.write64 a v u) s (put { addr := a.toNat, value := v.toNat, second := some u.toNat })
        ∧ Gives (.spiCsRise (.write a (some v))) s ((put { addr := a.toNat, value := v.toNat }).on DEV_SPI_SHORT))
      ∧ (32 ≤ q.length → Gives (.write32 a v) s (h.on DEV_SPI_WDROP) ∧ Gives (.write64 a v u) s (h.on DEV_SPI_WDROP)
        ∧ Gives (.spiCsRise (.write a (some v))) s ((h.on DEV_SPI_WDROP).on DEV_SPI_SHORT))
      ∧ Gives (.spiCsRise (.write a none)) s (h.on DEV_SPI_SHORT))
  ∧ (∀ a v u : Word, h.spiUp = false → Gives (.write32 a v) s h ∧ Gives (.write64 a v u) s h)
  ∧ (q = [] → Gives .postedWriteApply s h)
  ∧ ∀ p rest, q = p :: rest → let w := s.hw.setHub (h.setSpi { h.spi with posted := rest })
      (p.second = none → GivesHw .postedWriteApply s (w.writeAt p.addr p.value))
      ∧ ∀ u, p.second = some u → let a := p.addr / 4 * 4
        (a < 0x100000 ∨ 0x200000 ≤ a + 4 → GivesHw .postedWriteApply s ((w.writeAt a p.value).writeAt ((a + 4) % 2 ^ 32) u))
        ∧ (0x100000 ≤ a → a + 4 < 0x200000 → GivesHw .postedWriteApply s (w.hostWr a p.value fun w => w.windowWrite (a - 0x100000) p.value (some u))))
  ∧ (∀ (s : State) (a : Word),
  let h := s.hw.hub
  let base := a.toNat / 4 * 4
  (h.spi.posted = [] → GivesHw (.read32 a) s (s.hw.read32 0 a.toNat) ∧ GivesHw (.read64 a) s (s.hw.read64 0 a.toNat))
  ∧ (h.spi.posted ≠ [] → GivesHw (.read32 a) s ((Hw.drain 31 s.hw.applyHead).read32 0 a.toNat) ∧ GivesHw (.read64 a) s ((Hw.drain 31 s.hw.applyHead).read64 0 a.toNat))
  ∧ (h.spi.posted = [] → h.served base = false → Gives (.read32 a) s (h.setRd 0 0))
  ∧ (h.spi.posted = [] → h.served base = true → base < 0x100000 ∨ 0x200000 ≤ base → h.portRead 0 base = none → rsAt base = none → Gives (.read32 a) s (h.setRd 0 (s.hw.peek base)))
  ∧ (∀ lo hi w w', h.spi.posted = [] → s.hw.readWord 0 a.toNat = (lo, w) → w.readWord 0 ((base + 4) % 2 ^ 32) = (hi, w') →
      GivesHw (.read64 a) s (w'.setHub (w'.hub.setRd 0 (lo + 2 ^ 32 * hi))))
  ∧ (h.spiUp = true → Gives .spiReadTimeout s ((h.on DEV_SPI_RD_TIMEOUT).setRd 0 0)
      ∧ (∀ c : BitVec 8, (c = 0x02 ∨ c = 0x03 ∨ c = 0x12 ∨ c = 0x13 → Gives (.spiCsRise (.command c)) s h)
        ∧ (c ≠ 0x02 → c ≠ 0x03 → c ≠ 0x12 → c ≠ 0x13 → Gives (.spiCsRise (.command c)) s (h.on DEV_SPI_CMD_ERR)))
      ∧ GivesHw (.spiCsRise (.read a false)) s ((s.hw.spiRead32 a.toNat).onHub fun h => h.on DEV_SPI_SHORT)
      ∧ GivesHw (.spiCsRise (.read a true)) s ((s.hw.spiRead64 a.toNat).onHub fun h => h.on DEV_SPI_SHORT))
  ∧ (h.spiUp = false → Gives .spiReadTimeout s h ∧ ∀ c, Gives (.spiCsRise c) s h))

/-- A write by address (R8, R9, R433, R434): the address is taken in whole words; where no register stands a write does nothing and a read gives 0; a
field takes a write as its access type says, read-only and reserved bits not at all, and no other field moves. RS values (R10, R436): a read of
the low half returns it and takes a snapshot of the rest for its own path; each word of the snapshot is then read once; a read with no low-half
read before it returns the previous snapshot and sets SEQERR; the snapshots of the two paths never meet. -/
def Obligations.RegisterAccess : Prop :=
  ((∀ (s : State) (a v : Word), s.up → let base := a.toNat / 4 * 4
    GivesHw (.registerWrite a v) s (s.hw.hostWr base v.toNat fun w => w.writeReg (Hw.raccGoN 65) base v.toNat)
    ∧ ((0xE000 ≤ base ∧ base < 0x10000) ∨ (0x60000 ≤ base ∧ base < 0x100000) ∨ 0x200000 ≤ base →
        GivesHw (.registerWrite a v) s s.hw ∧ (s.hw.hub.spi.posted = [] → Gives (.read32 a) s (s.hw.hub.setRd 0 0))))
  ∧ (∀ (h : Hub) (v : Nat) (f : Machine.Field), let b := bitsAt v f.lo f.width
    (f.acc = .rw → h.writeField v f = h.set f b) ∧ (f.acc = .w1c → h.writeField v f = h.set f (h.get f - (h.get f &&& b)))
    ∧ (f.acc = .w1s → h.writeField v f = h.set f (h.get f ||| b)) ∧ (f.acc = .ro ∨ f.acc = .wo ∨ f.acc = .sc ∨ f.acc = .rs → h.writeField v f = h))
  ∧ ∀ (h : Hub) (a v : Nat) (f : Machine.Field), f.key ∉ (fieldsAt a).map Field.key → (h.plainWrite a v).get f = h.get f)
  ∧ ((∀ (s : State) (p : Fin 2) (a : Word) (r : RsAt), s.up → rsAt (a.toNat / 4 * 4) = some r →
    (s.hw.hub.aliasAt (a.toNat / 4 * 4)).isSome = true →
    (r.word = 0 → Gives (.rsLowRead p a) s ((s.hw.hub.rsLow p r.low r.words).2.setRd p (s.hw.hub.rsLow p r.low r.words).1) ∧ Gives (.rsHighRead p a) s s.hw.hub)
    ∧ (r.word ≠ 0 → Gives (.rsHighRead p a) s ((s.hw.hub.rsHigh p r).2.setRd p (s.hw.hub.rsHigh p r).1) ∧ Gives (.rsLowRead p a) s s.hw.hub))
  ∧ (∀ (s : State) (p : Fin 2) (a : Word), rsAt (a.toNat / 4 * 4) = none → Gives (.rsLowRead p a) s s.hw.hub ∧ Gives (.rsHighRead p a) s s.hw.hub)
  ∧ (∀ (h : Hub) (p low n : Nat), blockAt 0x1180 0x20 4 low = none → blockAt 0x40000 0x40 256 low = none → blockAt 0x20000 0x400 64 low = none →
      (h.rsLow p low n).1 = (h.rsWords low n).headD 0
      ∧ aGet (h.rsLow p low n).2.snaps (snapKey p low) {} = { words := (h.rsWords low n).tail, unread := List.range (n - 1) }
      ∧ ∀ k, k ≠ snapKey p low → aGet (h.rsLow p low n).2.snaps k {} = aGet h.snaps k {})
  ∧ (∀ (h : Hub) (p : Nat) (r : RsAt), let x := aGet h.snaps (snapKey p r.low) {}
      let i := r.word - 1
      (h.rsHigh p r).1 = x.words.getD i 0
      ∧ (i ∈ x.unread → (h.rsHigh p r).2.regs = h.regs ∧ aGet (h.rsHigh p r).2.snaps (snapKey p r.low) {} = { words := x.words, unread := x.unread.erase i })
      ∧ (i ∉ x.unread → (h.rsHigh p r).2.snaps = h.snaps ∧ ∀ f, r.low ≠ 0xC06C → r.err = some f → (h.rsHigh p r).2 = h.on f))
  ∧ ∀ a b, a < 2 ^ 32 → b < 2 ^ 32 → snapKey 0 a ≠ snapKey 1 b)
end

