-- ==== Sys2Proof/Laws/Deflate.lean ====
section
/-! SUPPORT. The lengths of a compressed block: of one code, and the least a dynamic block takes. -/

namespace Sys2Proof.Machine

theorem codeBits_length (l : List Nat) (s : Nat) : (codeBits l s).length = l.getD s 0 := by
  simp [codeBits, msbBits]

theorem lensFit_getD {top : Nat} {f l : List Nat} (h : lensFit top f l = true) {i : Nat} (a : i < f.length) : f.getD i 0 = 0 ↔ l.getD i 0 = 0 := by
  simp only [lensFit, Bool.and_eq_true, List.all_eq_true, List.mem_range] at h
  have b := (h.2 i a).1
  rw [beq_iff_eq] at b
  by_cases c : f.getD i 0 = 0 <;> by_cases d : l.getD i 0 = 0 <;> simp_all

/-- A dynamic block has 30 bits at least: its header alone has 29, and the end-of-block code has one. -/
theorem dynamicBlock_length {ts : List Tok} {d : List Bool} (h : dynamicBlock ts = some d)
    (a : 256 < (freqs ((ts.map Tok.litSym ++ [256]).foldl max 0 + 1) (ts.map Tok.litSym ++ [256])).length)
    (b : (freqs ((ts.map Tok.litSym ++ [256]).foldl max 0 + 1) (ts.map Tok.litSym ++ [256])).getD 256 0 ≠ 0) : 30 ≤ d.length := by
  simp only [dynamicBlock, Option.ite_none_right_eq_some, Option.some.injEq, Bool.and_eq_true] at h
  obtain ⟨g, rfl⟩ := h
  have e := (lensFit_getD g.1.1.1 a).not.mp b
  simp only [List.length_append, lsbBits, List.length_map, List.length_range, List.length_flatMap, blockBits, codeBits_length, List.length_singleton,
    List.map_const', List.sum_replicate, smul_eq_mul]
  omega

end Sys2Proof.Machine
end

