-- ==== Sys2Proof/Laws/State.lean ====
section
/-! SUPPORT. What each update of the state changes and keeps: one lemma for each field and update. -/

namespace Sys2Proof.Machine

@[simp] theorem State.onHw_hw (s : State) (f : Hw → Hw) : (s.onHw f).hw = f s.hw := rfl
@[simp] theorem State.onHw_pending (s : State) (f : Hw → Hw) : (s.onHw f).pending = s.pending := rfl
@[simp] theorem State.onHub_hub (s : State) (f : Hub → Hub) : (s.onHub f).hw.hub = f s.hw.hub := rfl
@[simp] theorem State.onHub_mem (s : State) (f : Hub → Hub) : (s.onHub f).hw.mem = s.hw.mem := rfl
@[simp] theorem State.onHub_nv (s : State) (f : Hub → Hub) : (s.onHub f).hw.nv = s.hw.nv := rfl
@[simp] theorem State.onHub_pending (s : State) (f : Hub → Hub) : (s.onHub f).pending = s.pending := rfl
@[simp] theorem State.queue_hw (s : State) (l : List Instr) : (s.queue l).hw = s.hw := rfl
@[simp] theorem State.queue_pending (s : State) (l : List Instr) : (s.queue l).pending = l := rfl
@[simp] theorem Hw.onHub_hub (w : Hw) (f : Hub → Hub) : (w.onHub f).hub = f w.hub := rfl
@[simp] theorem Hw.onHub_mem (w : Hw) (f : Hub → Hub) : (w.onHub f).mem = w.mem := rfl
@[simp] theorem Hw.onHub_nv (w : Hw) (f : Hub → Hub) : (w.onHub f).nv = w.nv := rfl
@[simp] theorem Hw.setHub_hub (w : Hw) (h : Hub) : (w.setHub h).hub = h := rfl
@[simp] theorem Hw.setHub_mem (w : Hw) (h : Hub) : (w.setHub h).mem = w.mem := rfl
@[simp] theorem Hw.setHub_nv (w : Hw) (h : Hub) : (w.setHub h).nv = w.nv := rfl
@[simp] theorem Hw.setMem_hub (w : Hw) (m : Mem) : (w.setMem m).hub = w.hub := rfl
@[simp] theorem Hw.setMem_mem (w : Hw) (m : Mem) : (w.setMem m).mem = m := rfl
@[simp] theorem Hw.setMem_nv (w : Hw) (m : Mem) : (w.setMem m).nv = w.nv := rfl
@[simp] theorem Hw.setNv_hub (w : Hw) (n : Nv) : (w.setNv n).hub = w.hub := rfl
@[simp] theorem Hw.setNv_mem (w : Hw) (n : Nv) : (w.setNv n).mem = w.mem := rfl
@[simp] theorem Hw.setNv_nv (w : Hw) (n : Nv) : (w.setNv n).nv = n := rfl
@[simp] theorem Hw.onNv_hub (w : Hw) (f : Nv → Nv) : (w.onNv f).hub = w.hub := rfl
@[simp] theorem Hw.onNv_mem (w : Hw) (f : Nv → Nv) : (w.onNv f).mem = w.mem := rfl
@[simp] theorem Hw.onNv_nv (w : Hw) (f : Nv → Nv) : (w.onNv f).nv = f w.nv := rfl

@[simp] theorem Hub.set_pwr (h : Hub) (f : Field) (v : Nat) : (h.set f v).pwr = h.pwr := rfl
@[simp] theorem Hub.set_time (h : Hub) (f : Field) (v : Nat) : (h.set f v).time = h.time := rfl
@[simp] theorem Hub.set_exc (h : Hub) (f : Field) (v : Nat) : (h.set f v).exc = h.exc := rfl
@[simp] theorem Hub.set_chans (h : Hub) (f : Field) (v : Nat) : (h.set f v).chans = h.chans := rfl
@[simp] theorem Hub.set_hk (h : Hub) (f : Field) (v : Nat) : (h.set f v).hk = h.hk := rfl
@[simp] theorem Hub.set_upd (h : Hub) (f : Field) (v : Nat) : (h.set f v).upd = h.upd := rfl
@[simp] theorem Hub.set_lin (h : Hub) (f : Field) (v : Nat) : (h.set f v).lin = h.lin := rfl
@[simp] theorem Hub.set_arm (h : Hub) (f : Field) (v : Nat) : (h.set f v).arm = h.arm := rfl
@[simp] theorem Hub.set_mm (h : Hub) (f : Field) (v : Nat) : (h.set f v).mm = h.mm := rfl
@[simp] theorem Hub.set_acq (h : Hub) (f : Field) (v : Nat) : (h.set f v).acq = h.acq := rfl
@[simp] theorem Hub.set_cmp (h : Hub) (f : Field) (v : Nat) : (h.set f v).cmp = h.cmp := rfl
@[simp] theorem Hub.set_lk (h : Hub) (f : Field) (v : Nat) : (h.set f v).lk = h.lk := rfl
@[simp] theorem Hub.set_lanes (h : Hub) (f : Field) (v : Nat) : (h.set f v).lanes = h.lanes := rfl
@[simp] theorem Hub.set_pair (h : Hub) (f : Field) (v : Nat) : (h.set f v).pair = h.pair := rfl
@[simp] theorem Hub.set_carve (h : Hub) (f : Field) (v : Nat) : (h.set f v).carve = h.carve := rfl
@[simp] theorem Hub.set_dma (h : Hub) (f : Field) (v : Nat) : (h.set f v).dma = h.dma := rfl
@[simp] theorem Hub.set_arb (h : Hub) (f : Field) (v : Nat) : (h.set f v).arb = h.arb := rfl
@[simp] theorem Hub.set_spi (h : Hub) (f : Field) (v : Nat) : (h.set f v).spi = h.spi := rfl
@[simp] theorem Hub.set_rd (h : Hub) (f : Field) (v : Nat) : (h.set f v).rd = h.rd := rfl
@[simp] theorem Hub.set_snaps (h : Hub) (f : Field) (v : Nat) : (h.set f v).snaps = h.snaps := rfl
@[simp] theorem Hub.set_free (h : Hub) (f : Field) (v : Nat) : (h.set f v).free = h.free := rfl
@[simp] theorem Hub.set_regs (h : Hub) (f : Field) (v : Nat) : (h.set f v).regs = rSet h.regs f v := rfl
@[simp] theorem Hub.on_pwr (h : Hub) (f : Field) : (h.on f).pwr = h.pwr := rfl
@[simp] theorem Hub.off_pwr (h : Hub) (f : Field) : (h.off f).pwr = h.pwr := rfl
@[simp] theorem Hub.draw_pwr (h : Hub) : h.draw.pwr = h.pwr := rfl
@[simp] theorem Hub.on_time (h : Hub) (f : Field) : (h.on f).time = h.time := rfl
@[simp] theorem Hub.off_time (h : Hub) (f : Field) : (h.off f).time = h.time := rfl
@[simp] theorem Hub.draw_time (h : Hub) : h.draw.time = h.time := rfl
@[simp] theorem Hub.on_exc (h : Hub) (f : Field) : (h.on f).exc = h.exc := rfl
@[simp] theorem Hub.off_exc (h : Hub) (f : Field) : (h.off f).exc = h.exc := rfl
@[simp] theorem Hub.draw_exc (h : Hub) : h.draw.exc = h.exc := rfl
@[simp] theorem Hub.on_chans (h : Hub) (f : Field) : (h.on f).chans = h.chans := rfl
@[simp] theorem Hub.off_chans (h : Hub) (f : Field) : (h.off f).chans = h.chans := rfl
@[simp] theorem Hub.draw_chans (h : Hub) : h.draw.chans = h.chans := rfl
@[simp] theorem Hub.on_hk (h : Hub) (f : Field) : (h.on f).hk = h.hk := rfl
@[simp] theorem Hub.off_hk (h : Hub) (f : Field) : (h.off f).hk = h.hk := rfl
@[simp] theorem Hub.draw_hk (h : Hub) : h.draw.hk = h.hk := rfl
@[simp] theorem Hub.on_upd (h : Hub) (f : Field) : (h.on f).upd = h.upd := rfl
@[simp] theorem Hub.off_upd (h : Hub) (f : Field) : (h.off f).upd = h.upd := rfl
@[simp] theorem Hub.draw_upd (h : Hub) : h.draw.upd = h.upd := rfl
@[simp] theorem Hub.on_lin (h : Hub) (f : Field) : (h.on f).lin = h.lin := rfl
@[simp] theorem Hub.off_lin (h : Hub) (f : Field) : (h.off f).lin = h.lin := rfl
@[simp] theorem Hub.draw_lin (h : Hub) : h.draw.lin = h.lin := rfl
@[simp] theorem Hub.on_arm (h : Hub) (f : Field) : (h.on f).arm = h.arm := rfl
@[simp] theorem Hub.off_arm (h : Hub) (f : Field) : (h.off f).arm = h.arm := rfl
@[simp] theorem Hub.draw_arm (h : Hub) : h.draw.arm = h.arm := rfl
@[simp] theorem Hub.on_mm (h : Hub) (f : Field) : (h.on f).mm = h.mm := rfl
@[simp] theorem Hub.off_mm (h : Hub) (f : Field) : (h.off f).mm = h.mm := rfl
@[simp] theorem Hub.draw_mm (h : Hub) : h.draw.mm = h.mm := rfl
@[simp] theorem Hub.on_acq (h : Hub) (f : Field) : (h.on f).acq = h.acq := rfl
@[simp] theorem Hub.off_acq (h : Hub) (f : Field) : (h.off f).acq = h.acq := rfl
@[simp] theorem Hub.draw_acq (h : Hub) : h.draw.acq = h.acq := rfl
@[simp] theorem Hub.on_cmp (h : Hub) (f : Field) : (h.on f).cmp = h.cmp := rfl
@[simp] theorem Hub.off_cmp (h : Hub) (f : Field) : (h.off f).cmp = h.cmp := rfl
@[simp] theorem Hub.draw_cmp (h : Hub) : h.draw.cmp = h.cmp := rfl
@[simp] theorem Hub.on_lk (h : Hub) (f : Field) : (h.on f).lk = h.lk := rfl
@[simp] theorem Hub.off_lk (h : Hub) (f : Field) : (h.off f).lk = h.lk := rfl
@[simp] theorem Hub.draw_lk (h : Hub) : h.draw.lk = h.lk := rfl
@[simp] theorem Hub.on_lanes (h : Hub) (f : Field) : (h.on f).lanes = h.lanes := rfl
@[simp] theorem Hub.off_lanes (h : Hub) (f : Field) : (h.off f).lanes = h.lanes := rfl
@[simp] theorem Hub.draw_lanes (h : Hub) : h.draw.lanes = h.lanes := rfl
@[simp] theorem Hub.on_pair (h : Hub) (f : Field) : (h.on f).pair = h.pair := rfl
@[simp] theorem Hub.off_pair (h : Hub) (f : Field) : (h.off f).pair = h.pair := rfl
@[simp] theorem Hub.draw_pair (h : Hub) : h.draw.pair = h.pair := rfl
@[simp] theorem Hub.on_carve (h : Hub) (f : Field) : (h.on f).carve = h.carve := rfl
@[simp] theorem Hub.off_carve (h : Hub) (f : Field) : (h.off f).carve = h.carve := rfl
@[simp] theorem Hub.draw_carve (h : Hub) : h.draw.carve = h.carve := rfl
@[simp] theorem Hub.on_dma (h : Hub) (f : Field) : (h.on f).dma = h.dma := rfl
@[simp] theorem Hub.off_dma (h : Hub) (f : Field) : (h.off f).dma = h.dma := rfl
@[simp] theorem Hub.draw_dma (h : Hub) : h.draw.dma = h.dma := rfl
@[simp] theorem Hub.on_arb (h : Hub) (f : Field) : (h.on f).arb = h.arb := rfl
@[simp] theorem Hub.off_arb (h : Hub) (f : Field) : (h.off f).arb = h.arb := rfl
@[simp] theorem Hub.draw_arb (h : Hub) : h.draw.arb = h.arb := rfl
@[simp] theorem Hub.on_spi (h : Hub) (f : Field) : (h.on f).spi = h.spi := rfl
@[simp] theorem Hub.off_spi (h : Hub) (f : Field) : (h.off f).spi = h.spi := rfl
@[simp] theorem Hub.draw_spi (h : Hub) : h.draw.spi = h.spi := rfl
@[simp] theorem Hub.on_rd (h : Hub) (f : Field) : (h.on f).rd = h.rd := rfl
@[simp] theorem Hub.off_rd (h : Hub) (f : Field) : (h.off f).rd = h.rd := rfl
@[simp] theorem Hub.draw_rd (h : Hub) : h.draw.rd = h.rd := rfl
@[simp] theorem Hub.on_snaps (h : Hub) (f : Field) : (h.on f).snaps = h.snaps := rfl
@[simp] theorem Hub.off_snaps (h : Hub) (f : Field) : (h.off f).snaps = h.snaps := rfl
@[simp] theorem Hub.draw_snaps (h : Hub) : h.draw.snaps = h.snaps := rfl
@[simp] theorem Hub.on_free (h : Hub) (f : Field) : (h.on f).free = h.free := rfl
@[simp] theorem Hub.off_free (h : Hub) (f : Field) : (h.off f).free = h.free := rfl
@[simp] theorem Hub.draw_free (h : Hub) : h.draw.free = h.free + 1 := rfl

@[simp] theorem Hub.setTime_regs (h : Hub) (x : TimeSt) : (h.setTime x).regs = h.regs := rfl
@[simp] theorem Hub.setTime_pwr (h : Hub) (x : TimeSt) : (h.setTime x).pwr = h.pwr := rfl
@[simp] theorem Hub.setTime_time (h : Hub) (x : TimeSt) : (h.setTime x).time = x := rfl
@[simp] theorem Hub.setTime_exc (h : Hub) (x : TimeSt) : (h.setTime x).exc = h.exc := rfl
@[simp] theorem Hub.setTime_chans (h : Hub) (x : TimeSt) : (h.setTime x).chans = h.chans := rfl
@[simp] theorem Hub.setTime_hk (h : Hub) (x : TimeSt) : (h.setTime x).hk = h.hk := rfl
@[simp] theorem Hub.setTime_upd (h : Hub) (x : TimeSt) : (h.setTime x).upd = h.upd := rfl
@[simp] theorem Hub.setTime_lin (h : Hub) (x : TimeSt) : (h.setTime x).lin = h.lin := rfl
@[simp] theorem Hub.setTime_arm (h : Hub) (x : TimeSt) : (h.setTime x).arm = h.arm := rfl
@[simp] theorem Hub.setTime_mm (h : Hub) (x : TimeSt) : (h.setTime x).mm = h.mm := rfl
@[simp] theorem Hub.setTime_acq (h : Hub) (x : TimeSt) : (h.setTime x).acq = h.acq := rfl
@[simp] theorem Hub.setTime_cmp (h : Hub) (x : TimeSt) : (h.setTime x).cmp = h.cmp := rfl
@[simp] theorem Hub.setTime_lk (h : Hub) (x : TimeSt) : (h.setTime x).lk = h.lk := rfl
@[simp] theorem Hub.setTime_lanes (h : Hub) (x : TimeSt) : (h.setTime x).lanes = h.lanes := rfl
@[simp] theorem Hub.setTime_pair (h : Hub) (x : TimeSt) : (h.setTime x).pair = h.pair := rfl
@[simp] theorem Hub.setTime_carve (h : Hub) (x : TimeSt) : (h.setTime x).carve = h.carve := rfl
@[simp] theorem Hub.setTime_dma (h : Hub) (x : TimeSt) : (h.setTime x).dma = h.dma := rfl
@[simp] theorem Hub.setTime_arb (h : Hub) (x : TimeSt) : (h.setTime x).arb = h.arb := rfl
@[simp] theorem Hub.setTime_spi (h : Hub) (x : TimeSt) : (h.setTime x).spi = h.spi := rfl
@[simp] theorem Hub.setTime_rd (h : Hub) (x : TimeSt) : (h.setTime x).rd = h.rd := rfl
@[simp] theorem Hub.setTime_snaps (h : Hub) (x : TimeSt) : (h.setTime x).snaps = h.snaps := rfl
@[simp] theorem Hub.setTime_free (h : Hub) (x : TimeSt) : (h.setTime x).free = h.free := rfl

@[simp] theorem Hub.setPwr_regs (h : Hub) (x : Pwr) : (h.setPwr x).regs = h.regs := rfl
@[simp] theorem Hub.setPwr_pwr (h : Hub) (x : Pwr) : (h.setPwr x).pwr = x := rfl
@[simp] theorem Hub.setPwr_time (h : Hub) (x : Pwr) : (h.setPwr x).time = h.time := rfl
@[simp] theorem Hub.setPwr_exc (h : Hub) (x : Pwr) : (h.setPwr x).exc = h.exc := rfl
@[simp] theorem Hub.setPwr_chans (h : Hub) (x : Pwr) : (h.setPwr x).chans = h.chans := rfl
@[simp] theorem Hub.setPwr_hk (h : Hub) (x : Pwr) : (h.setPwr x).hk = h.hk := rfl
@[simp] theorem Hub.setPwr_upd (h : Hub) (x : Pwr) : (h.setPwr x).upd = h.upd := rfl
@[simp] theorem Hub.setPwr_lin (h : Hub) (x : Pwr) : (h.setPwr x).lin = h.lin := rfl
@[simp] theorem Hub.setPwr_arm (h : Hub) (x : Pwr) : (h.setPwr x).arm = h.arm := rfl
@[simp] theorem Hub.setPwr_mm (h : Hub) (x : Pwr) : (h.setPwr x).mm = h.mm := rfl
@[simp] theorem Hub.setPwr_acq (h : Hub) (x : Pwr) : (h.setPwr x).acq = h.acq := rfl
@[simp] theorem Hub.setPwr_cmp (h : Hub) (x : Pwr) : (h.setPwr x).cmp = h.cmp := rfl
@[simp] theorem Hub.setPwr_lk (h : Hub) (x : Pwr) : (h.setPwr x).lk = h.lk := rfl
@[simp] theorem Hub.setPwr_lanes (h : Hub) (x : Pwr) : (h.setPwr x).lanes = h.lanes := rfl
@[simp] theorem Hub.setPwr_pair (h : Hub) (x : Pwr) : (h.setPwr x).pair = h.pair := rfl
@[simp] theorem Hub.setPwr_carve (h : Hub) (x : Pwr) : (h.setPwr x).carve = h.carve := rfl
@[simp] theorem Hub.setPwr_dma (h : Hub) (x : Pwr) : (h.setPwr x).dma = h.dma := rfl
@[simp] theorem Hub.setPwr_arb (h : Hub) (x : Pwr) : (h.setPwr x).arb = h.arb := rfl
@[simp] theorem Hub.setPwr_spi (h : Hub) (x : Pwr) : (h.setPwr x).spi = h.spi := rfl
@[simp] theorem Hub.setPwr_rd (h : Hub) (x : Pwr) : (h.setPwr x).rd = h.rd := rfl
@[simp] theorem Hub.setPwr_snaps (h : Hub) (x : Pwr) : (h.setPwr x).snaps = h.snaps := rfl
@[simp] theorem Hub.setPwr_free (h : Hub) (x : Pwr) : (h.setPwr x).free = h.free := rfl

@[simp] theorem Hub.setHk_regs (h : Hub) (x : Hk) : (h.setHk x).regs = h.regs := rfl
@[simp] theorem Hub.setHk_pwr (h : Hub) (x : Hk) : (h.setHk x).pwr = h.pwr := rfl
@[simp] theorem Hub.setHk_time (h : Hub) (x : Hk) : (h.setHk x).time = h.time := rfl
@[simp] theorem Hub.setHk_exc (h : Hub) (x : Hk) : (h.setHk x).exc = h.exc := rfl
@[simp] theorem Hub.setHk_chans (h : Hub) (x : Hk) : (h.setHk x).chans = h.chans := rfl
@[simp] theorem Hub.setHk_hk (h : Hub) (x : Hk) : (h.setHk x).hk = x := rfl
@[simp] theorem Hub.setHk_upd (h : Hub) (x : Hk) : (h.setHk x).upd = h.upd := rfl
@[simp] theorem Hub.setHk_lin (h : Hub) (x : Hk) : (h.setHk x).lin = h.lin := rfl
@[simp] theorem Hub.setHk_arm (h : Hub) (x : Hk) : (h.setHk x).arm = h.arm := rfl
@[simp] theorem Hub.setHk_mm (h : Hub) (x : Hk) : (h.setHk x).mm = h.mm := rfl
@[simp] theorem Hub.setHk_acq (h : Hub) (x : Hk) : (h.setHk x).acq = h.acq := rfl
@[simp] theorem Hub.setHk_cmp (h : Hub) (x : Hk) : (h.setHk x).cmp = h.cmp := rfl
@[simp] theorem Hub.setHk_lk (h : Hub) (x : Hk) : (h.setHk x).lk = h.lk := rfl
@[simp] theorem Hub.setHk_lanes (h : Hub) (x : Hk) : (h.setHk x).lanes = h.lanes := rfl
@[simp] theorem Hub.setHk_pair (h : Hub) (x : Hk) : (h.setHk x).pair = h.pair := rfl
@[simp] theorem Hub.setHk_carve (h : Hub) (x : Hk) : (h.setHk x).carve = h.carve := rfl
@[simp] theorem Hub.setHk_dma (h : Hub) (x : Hk) : (h.setHk x).dma = h.dma := rfl
@[simp] theorem Hub.setHk_arb (h : Hub) (x : Hk) : (h.setHk x).arb = h.arb := rfl
@[simp] theorem Hub.setHk_spi (h : Hub) (x : Hk) : (h.setHk x).spi = h.spi := rfl
@[simp] theorem Hub.setHk_rd (h : Hub) (x : Hk) : (h.setHk x).rd = h.rd := rfl
@[simp] theorem Hub.setHk_snaps (h : Hub) (x : Hk) : (h.setHk x).snaps = h.snaps := rfl
@[simp] theorem Hub.setHk_free (h : Hub) (x : Hk) : (h.setHk x).free = h.free := rfl

@[simp] theorem Hub.setExc_regs (h : Hub) (x : Exc) : (h.setExc x).regs = h.regs := rfl
@[simp] theorem Hub.setExc_pwr (h : Hub) (x : Exc) : (h.setExc x).pwr = h.pwr := rfl
@[simp] theorem Hub.setExc_time (h : Hub) (x : Exc) : (h.setExc x).time = h.time := rfl
@[simp] theorem Hub.setExc_exc (h : Hub) (x : Exc) : (h.setExc x).exc = x := rfl
@[simp] theorem Hub.setExc_chans (h : Hub) (x : Exc) : (h.setExc x).chans = h.chans := rfl
@[simp] theorem Hub.setExc_hk (h : Hub) (x : Exc) : (h.setExc x).hk = h.hk := rfl
@[simp] theorem Hub.setExc_upd (h : Hub) (x : Exc) : (h.setExc x).upd = h.upd := rfl
@[simp] theorem Hub.setExc_lin (h : Hub) (x : Exc) : (h.setExc x).lin = h.lin := rfl
@[simp] theorem Hub.setExc_arm (h : Hub) (x : Exc) : (h.setExc x).arm = h.arm := rfl
@[simp] theorem Hub.setExc_mm (h : Hub) (x : Exc) : (h.setExc x).mm = h.mm := rfl
@[simp] theorem Hub.setExc_acq (h : Hub) (x : Exc) : (h.setExc x).acq = h.acq := rfl
@[simp] theorem Hub.setExc_cmp (h : Hub) (x : Exc) : (h.setExc x).cmp = h.cmp := rfl
@[simp] theorem Hub.setExc_lk (h : Hub) (x : Exc) : (h.setExc x).lk = h.lk := rfl
@[simp] theorem Hub.setExc_lanes (h : Hub) (x : Exc) : (h.setExc x).lanes = h.lanes := rfl
@[simp] theorem Hub.setExc_pair (h : Hub) (x : Exc) : (h.setExc x).pair = h.pair := rfl
@[simp] theorem Hub.setExc_carve (h : Hub) (x : Exc) : (h.setExc x).carve = h.carve := rfl
@[simp] theorem Hub.setExc_dma (h : Hub) (x : Exc) : (h.setExc x).dma = h.dma := rfl
@[simp] theorem Hub.setExc_arb (h : Hub) (x : Exc) : (h.setExc x).arb = h.arb := rfl
@[simp] theorem Hub.setExc_spi (h : Hub) (x : Exc) : (h.setExc x).spi = h.spi := rfl
@[simp] theorem Hub.setExc_rd (h : Hub) (x : Exc) : (h.setExc x).rd = h.rd := rfl
@[simp] theorem Hub.setExc_snaps (h : Hub) (x : Exc) : (h.setExc x).snaps = h.snaps := rfl
@[simp] theorem Hub.setExc_free (h : Hub) (x : Exc) : (h.setExc x).free = h.free := rfl

@[simp] theorem Hub.setLin_regs (h : Hub) (x : Lin) : (h.setLin x).regs = h.regs := rfl
@[simp] theorem Hub.setLin_pwr (h : Hub) (x : Lin) : (h.setLin x).pwr = h.pwr := rfl
@[simp] theorem Hub.setLin_time (h : Hub) (x : Lin) : (h.setLin x).time = h.time := rfl
@[simp] theorem Hub.setLin_exc (h : Hub) (x : Lin) : (h.setLin x).exc = h.exc := rfl
@[simp] theorem Hub.setLin_chans (h : Hub) (x : Lin) : (h.setLin x).chans = h.chans := rfl
@[simp] theorem Hub.setLin_hk (h : Hub) (x : Lin) : (h.setLin x).hk = h.hk := rfl
@[simp] theorem Hub.setLin_upd (h : Hub) (x : Lin) : (h.setLin x).upd = h.upd := rfl
@[simp] theorem Hub.setLin_lin (h : Hub) (x : Lin) : (h.setLin x).lin = x := rfl
@[simp] theorem Hub.setLin_arm (h : Hub) (x : Lin) : (h.setLin x).arm = h.arm := rfl
@[simp] theorem Hub.setLin_mm (h : Hub) (x : Lin) : (h.setLin x).mm = h.mm := rfl
@[simp] theorem Hub.setLin_acq (h : Hub) (x : Lin) : (h.setLin x).acq = h.acq := rfl
@[simp] theorem Hub.setLin_cmp (h : Hub) (x : Lin) : (h.setLin x).cmp = h.cmp := rfl
@[simp] theorem Hub.setLin_lk (h : Hub) (x : Lin) : (h.setLin x).lk = h.lk := rfl
@[simp] theorem Hub.setLin_lanes (h : Hub) (x : Lin) : (h.setLin x).lanes = h.lanes := rfl
@[simp] theorem Hub.setLin_pair (h : Hub) (x : Lin) : (h.setLin x).pair = h.pair := rfl
@[simp] theorem Hub.setLin_carve (h : Hub) (x : Lin) : (h.setLin x).carve = h.carve := rfl
@[simp] theorem Hub.setLin_dma (h : Hub) (x : Lin) : (h.setLin x).dma = h.dma := rfl
@[simp] theorem Hub.setLin_arb (h : Hub) (x : Lin) : (h.setLin x).arb = h.arb := rfl
@[simp] theorem Hub.setLin_spi (h : Hub) (x : Lin) : (h.setLin x).spi = h.spi := rfl
@[simp] theorem Hub.setLin_rd (h : Hub) (x : Lin) : (h.setLin x).rd = h.rd := rfl
@[simp] theorem Hub.setLin_snaps (h : Hub) (x : Lin) : (h.setLin x).snaps = h.snaps := rfl
@[simp] theorem Hub.setLin_free (h : Hub) (x : Lin) : (h.setLin x).free = h.free := rfl

@[simp] theorem Hub.setArm_regs (h : Hub) (x : ArmSt) : (h.setArm x).regs = h.regs := rfl
@[simp] theorem Hub.setArm_pwr (h : Hub) (x : ArmSt) : (h.setArm x).pwr = h.pwr := rfl
@[simp] theorem Hub.setArm_time (h : Hub) (x : ArmSt) : (h.setArm x).time = h.time := rfl
@[simp] theorem Hub.setArm_exc (h : Hub) (x : ArmSt) : (h.setArm x).exc = h.exc := rfl
@[simp] theorem Hub.setArm_chans (h : Hub) (x : ArmSt) : (h.setArm x).chans = h.chans := rfl
@[simp] theorem Hub.setArm_hk (h : Hub) (x : ArmSt) : (h.setArm x).hk = h.hk := rfl
@[simp] theorem Hub.setArm_upd (h : Hub) (x : ArmSt) : (h.setArm x).upd = h.upd := rfl
@[simp] theorem Hub.setArm_lin (h : Hub) (x : ArmSt) : (h.setArm x).lin = h.lin := rfl
@[simp] theorem Hub.setArm_arm (h : Hub) (x : ArmSt) : (h.setArm x).arm = x := rfl
@[simp] theorem Hub.setArm_mm (h : Hub) (x : ArmSt) : (h.setArm x).mm = h.mm := rfl
@[simp] theorem Hub.setArm_acq (h : Hub) (x : ArmSt) : (h.setArm x).acq = h.acq := rfl
@[simp] theorem Hub.setArm_cmp (h : Hub) (x : ArmSt) : (h.setArm x).cmp = h.cmp := rfl
@[simp] theorem Hub.setArm_lk (h : Hub) (x : ArmSt) : (h.setArm x).lk = h.lk := rfl
@[simp] theorem Hub.setArm_lanes (h : Hub) (x : ArmSt) : (h.setArm x).lanes = h.lanes := rfl
@[simp] theorem Hub.setArm_pair (h : Hub) (x : ArmSt) : (h.setArm x).pair = h.pair := rfl
@[simp] theorem Hub.setArm_carve (h : Hub) (x : ArmSt) : (h.setArm x).carve = h.carve := rfl
@[simp] theorem Hub.setArm_dma (h : Hub) (x : ArmSt) : (h.setArm x).dma = h.dma := rfl
@[simp] theorem Hub.setArm_arb (h : Hub) (x : ArmSt) : (h.setArm x).arb = h.arb := rfl
@[simp] theorem Hub.setArm_spi (h : Hub) (x : ArmSt) : (h.setArm x).spi = h.spi := rfl
@[simp] theorem Hub.setArm_rd (h : Hub) (x : ArmSt) : (h.setArm x).rd = h.rd := rfl
@[simp] theorem Hub.setArm_snaps (h : Hub) (x : ArmSt) : (h.setArm x).snaps = h.snaps := rfl
@[simp] theorem Hub.setArm_free (h : Hub) (x : ArmSt) : (h.setArm x).free = h.free := rfl

@[simp] theorem Hub.setMm_regs (h : Hub) (x : MemSt) : (h.setMm x).regs = h.regs := rfl
@[simp] theorem Hub.setMm_pwr (h : Hub) (x : MemSt) : (h.setMm x).pwr = h.pwr := rfl
@[simp] theorem Hub.setMm_time (h : Hub) (x : MemSt) : (h.setMm x).time = h.time := rfl
@[simp] theorem Hub.setMm_exc (h : Hub) (x : MemSt) : (h.setMm x).exc = h.exc := rfl
@[simp] theorem Hub.setMm_chans (h : Hub) (x : MemSt) : (h.setMm x).chans = h.chans := rfl
@[simp] theorem Hub.setMm_hk (h : Hub) (x : MemSt) : (h.setMm x).hk = h.hk := rfl
@[simp] theorem Hub.setMm_upd (h : Hub) (x : MemSt) : (h.setMm x).upd = h.upd := rfl
@[simp] theorem Hub.setMm_lin (h : Hub) (x : MemSt) : (h.setMm x).lin = h.lin := rfl
@[simp] theorem Hub.setMm_arm (h : Hub) (x : MemSt) : (h.setMm x).arm = h.arm := rfl
@[simp] theorem Hub.setMm_mm (h : Hub) (x : MemSt) : (h.setMm x).mm = x := rfl
@[simp] theorem Hub.setMm_acq (h : Hub) (x : MemSt) : (h.setMm x).acq = h.acq := rfl
@[simp] theorem Hub.setMm_cmp (h : Hub) (x : MemSt) : (h.setMm x).cmp = h.cmp := rfl
@[simp] theorem Hub.setMm_lk (h : Hub) (x : MemSt) : (h.setMm x).lk = h.lk := rfl
@[simp] theorem Hub.setMm_lanes (h : Hub) (x : MemSt) : (h.setMm x).lanes = h.lanes := rfl
@[simp] theorem Hub.setMm_pair (h : Hub) (x : MemSt) : (h.setMm x).pair = h.pair := rfl
@[simp] theorem Hub.setMm_carve (h : Hub) (x : MemSt) : (h.setMm x).carve = h.carve := rfl
@[simp] theorem Hub.setMm_dma (h : Hub) (x : MemSt) : (h.setMm x).dma = h.dma := rfl
@[simp] theorem Hub.setMm_arb (h : Hub) (x : MemSt) : (h.setMm x).arb = h.arb := rfl
@[simp] theorem Hub.setMm_spi (h : Hub) (x : MemSt) : (h.setMm x).spi = h.spi := rfl
@[simp] theorem Hub.setMm_rd (h : Hub) (x : MemSt) : (h.setMm x).rd = h.rd := rfl
@[simp] theorem Hub.setMm_snaps (h : Hub) (x : MemSt) : (h.setMm x).snaps = h.snaps := rfl
@[simp] theorem Hub.setMm_free (h : Hub) (x : MemSt) : (h.setMm x).free = h.free := rfl

@[simp] theorem Hub.setAcq_regs (h : Hub) (x : AcqSt) : (h.setAcq x).regs = h.regs := rfl
@[simp] theorem Hub.setAcq_pwr (h : Hub) (x : AcqSt) : (h.setAcq x).pwr = h.pwr := rfl
@[simp] theorem Hub.setAcq_time (h : Hub) (x : AcqSt) : (h.setAcq x).time = h.time := rfl
@[simp] theorem Hub.setAcq_exc (h : Hub) (x : AcqSt) : (h.setAcq x).exc = h.exc := rfl
@[simp] theorem Hub.setAcq_chans (h : Hub) (x : AcqSt) : (h.setAcq x).chans = h.chans := rfl
@[simp] theorem Hub.setAcq_hk (h : Hub) (x : AcqSt) : (h.setAcq x).hk = h.hk := rfl
@[simp] theorem Hub.setAcq_upd (h : Hub) (x : AcqSt) : (h.setAcq x).upd = h.upd := rfl
@[simp] theorem Hub.setAcq_lin (h : Hub) (x : AcqSt) : (h.setAcq x).lin = h.lin := rfl
@[simp] theorem Hub.setAcq_arm (h : Hub) (x : AcqSt) : (h.setAcq x).arm = h.arm := rfl
@[simp] theorem Hub.setAcq_mm (h : Hub) (x : AcqSt) : (h.setAcq x).mm = h.mm := rfl
@[simp] theorem Hub.setAcq_acq (h : Hub) (x : AcqSt) : (h.setAcq x).acq = x := rfl
@[simp] theorem Hub.setAcq_cmp (h : Hub) (x : AcqSt) : (h.setAcq x).cmp = h.cmp := rfl
@[simp] theorem Hub.setAcq_lk (h : Hub) (x : AcqSt) : (h.setAcq x).lk = h.lk := rfl
@[simp] theorem Hub.setAcq_lanes (h : Hub) (x : AcqSt) : (h.setAcq x).lanes = h.lanes := rfl
@[simp] theorem Hub.setAcq_pair (h : Hub) (x : AcqSt) : (h.setAcq x).pair = h.pair := rfl
@[simp] theorem Hub.setAcq_carve (h : Hub) (x : AcqSt) : (h.setAcq x).carve = h.carve := rfl
@[simp] theorem Hub.setAcq_dma (h : Hub) (x : AcqSt) : (h.setAcq x).dma = h.dma := rfl
@[simp] theorem Hub.setAcq_arb (h : Hub) (x : AcqSt) : (h.setAcq x).arb = h.arb := rfl
@[simp] theorem Hub.setAcq_spi (h : Hub) (x : AcqSt) : (h.setAcq x).spi = h.spi := rfl
@[simp] theorem Hub.setAcq_rd (h : Hub) (x : AcqSt) : (h.setAcq x).rd = h.rd := rfl
@[simp] theorem Hub.setAcq_snaps (h : Hub) (x : AcqSt) : (h.setAcq x).snaps = h.snaps := rfl
@[simp] theorem Hub.setAcq_free (h : Hub) (x : AcqSt) : (h.setAcq x).free = h.free := rfl

@[simp] theorem Hub.setLk_regs (h : Hub) (x : Links) : (h.setLk x).regs = h.regs := rfl
@[simp] theorem Hub.setLk_pwr (h : Hub) (x : Links) : (h.setLk x).pwr = h.pwr := rfl
@[simp] theorem Hub.setLk_time (h : Hub) (x : Links) : (h.setLk x).time = h.time := rfl
@[simp] theorem Hub.setLk_exc (h : Hub) (x : Links) : (h.setLk x).exc = h.exc := rfl
@[simp] theorem Hub.setLk_chans (h : Hub) (x : Links) : (h.setLk x).chans = h.chans := rfl
@[simp] theorem Hub.setLk_hk (h : Hub) (x : Links) : (h.setLk x).hk = h.hk := rfl
@[simp] theorem Hub.setLk_upd (h : Hub) (x : Links) : (h.setLk x).upd = h.upd := rfl
@[simp] theorem Hub.setLk_lin (h : Hub) (x : Links) : (h.setLk x).lin = h.lin := rfl
@[simp] theorem Hub.setLk_arm (h : Hub) (x : Links) : (h.setLk x).arm = h.arm := rfl
@[simp] theorem Hub.setLk_mm (h : Hub) (x : Links) : (h.setLk x).mm = h.mm := rfl
@[simp] theorem Hub.setLk_acq (h : Hub) (x : Links) : (h.setLk x).acq = h.acq := rfl
@[simp] theorem Hub.setLk_cmp (h : Hub) (x : Links) : (h.setLk x).cmp = h.cmp := rfl
@[simp] theorem Hub.setLk_lk (h : Hub) (x : Links) : (h.setLk x).lk = x := rfl
@[simp] theorem Hub.setLk_lanes (h : Hub) (x : Links) : (h.setLk x).lanes = h.lanes := rfl
@[simp] theorem Hub.setLk_pair (h : Hub) (x : Links) : (h.setLk x).pair = h.pair := rfl
@[simp] theorem Hub.setLk_carve (h : Hub) (x : Links) : (h.setLk x).carve = h.carve := rfl
@[simp] theorem Hub.setLk_dma (h : Hub) (x : Links) : (h.setLk x).dma = h.dma := rfl
@[simp] theorem Hub.setLk_arb (h : Hub) (x : Links) : (h.setLk x).arb = h.arb := rfl
@[simp] theorem Hub.setLk_spi (h : Hub) (x : Links) : (h.setLk x).spi = h.spi := rfl
@[simp] theorem Hub.setLk_rd (h : Hub) (x : Links) : (h.setLk x).rd = h.rd := rfl
@[simp] theorem Hub.setLk_snaps (h : Hub) (x : Links) : (h.setLk x).snaps = h.snaps := rfl
@[simp] theorem Hub.setLk_free (h : Hub) (x : Links) : (h.setLk x).free = h.free := rfl

@[simp] theorem Hub.setPair_regs (h : Hub) (x : DupSt) : (h.setPair x).regs = h.regs := rfl
@[simp] theorem Hub.setPair_pwr (h : Hub) (x : DupSt) : (h.setPair x).pwr = h.pwr := rfl
@[simp] theorem Hub.setPair_time (h : Hub) (x : DupSt) : (h.setPair x).time = h.time := rfl
@[simp] theorem Hub.setPair_exc (h : Hub) (x : DupSt) : (h.setPair x).exc = h.exc := rfl
@[simp] theorem Hub.setPair_chans (h : Hub) (x : DupSt) : (h.setPair x).chans = h.chans := rfl
@[simp] theorem Hub.setPair_hk (h : Hub) (x : DupSt) : (h.setPair x).hk = h.hk := rfl
@[simp] theorem Hub.setPair_upd (h : Hub) (x : DupSt) : (h.setPair x).upd = h.upd := rfl
@[simp] theorem Hub.setPair_lin (h : Hub) (x : DupSt) : (h.setPair x).lin = h.lin := rfl
@[simp] theorem Hub.setPair_arm (h : Hub) (x : DupSt) : (h.setPair x).arm = h.arm := rfl
@[simp] theorem Hub.setPair_mm (h : Hub) (x : DupSt) : (h.setPair x).mm = h.mm := rfl
@[simp] theorem Hub.setPair_acq (h : Hub) (x : DupSt) : (h.setPair x).acq = h.acq := rfl
@[simp] theorem Hub.setPair_cmp (h : Hub) (x : DupSt) : (h.setPair x).cmp = h.cmp := rfl
@[simp] theorem Hub.setPair_lk (h : Hub) (x : DupSt) : (h.setPair x).lk = h.lk := rfl
@[simp] theorem Hub.setPair_lanes (h : Hub) (x : DupSt) : (h.setPair x).lanes = h.lanes := rfl
@[simp] theorem Hub.setPair_pair (h : Hub) (x : DupSt) : (h.setPair x).pair = x := rfl
@[simp] theorem Hub.setPair_carve (h : Hub) (x : DupSt) : (h.setPair x).carve = h.carve := rfl
@[simp] theorem Hub.setPair_dma (h : Hub) (x : DupSt) : (h.setPair x).dma = h.dma := rfl
@[simp] theorem Hub.setPair_arb (h : Hub) (x : DupSt) : (h.setPair x).arb = h.arb := rfl
@[simp] theorem Hub.setPair_spi (h : Hub) (x : DupSt) : (h.setPair x).spi = h.spi := rfl
@[simp] theorem Hub.setPair_rd (h : Hub) (x : DupSt) : (h.setPair x).rd = h.rd := rfl
@[simp] theorem Hub.setPair_snaps (h : Hub) (x : DupSt) : (h.setPair x).snaps = h.snaps := rfl
@[simp] theorem Hub.setPair_free (h : Hub) (x : DupSt) : (h.setPair x).free = h.free := rfl

@[simp] theorem Hub.setCarve_regs (h : Hub) (x : CarveSt) : (h.setCarve x).regs = h.regs := rfl
@[simp] theorem Hub.setCarve_pwr (h : Hub) (x : CarveSt) : (h.setCarve x).pwr = h.pwr := rfl
@[simp] theorem Hub.setCarve_time (h : Hub) (x : CarveSt) : (h.setCarve x).time = h.time := rfl
@[simp] theorem Hub.setCarve_exc (h : Hub) (x : CarveSt) : (h.setCarve x).exc = h.exc := rfl
@[simp] theorem Hub.setCarve_chans (h : Hub) (x : CarveSt) : (h.setCarve x).chans = h.chans := rfl
@[simp] theorem Hub.setCarve_hk (h : Hub) (x : CarveSt) : (h.setCarve x).hk = h.hk := rfl
@[simp] theorem Hub.setCarve_upd (h : Hub) (x : CarveSt) : (h.setCarve x).upd = h.upd := rfl
@[simp] theorem Hub.setCarve_lin (h : Hub) (x : CarveSt) : (h.setCarve x).lin = h.lin := rfl
@[simp] theorem Hub.setCarve_arm (h : Hub) (x : CarveSt) : (h.setCarve x).arm = h.arm := rfl
@[simp] theorem Hub.setCarve_mm (h : Hub) (x : CarveSt) : (h.setCarve x).mm = h.mm := rfl
@[simp] theorem Hub.setCarve_acq (h : Hub) (x : CarveSt) : (h.setCarve x).acq = h.acq := rfl
@[simp] theorem Hub.setCarve_cmp (h : Hub) (x : CarveSt) : (h.setCarve x).cmp = h.cmp := rfl
@[simp] theorem Hub.setCarve_lk (h : Hub) (x : CarveSt) : (h.setCarve x).lk = h.lk := rfl
@[simp] theorem Hub.setCarve_lanes (h : Hub) (x : CarveSt) : (h.setCarve x).lanes = h.lanes := rfl
@[simp] theorem Hub.setCarve_pair (h : Hub) (x : CarveSt) : (h.setCarve x).pair = h.pair := rfl
@[simp] theorem Hub.setCarve_carve (h : Hub) (x : CarveSt) : (h.setCarve x).carve = x := rfl
@[simp] theorem Hub.setCarve_dma (h : Hub) (x : CarveSt) : (h.setCarve x).dma = h.dma := rfl
@[simp] theorem Hub.setCarve_arb (h : Hub) (x : CarveSt) : (h.setCarve x).arb = h.arb := rfl
@[simp] theorem Hub.setCarve_spi (h : Hub) (x : CarveSt) : (h.setCarve x).spi = h.spi := rfl
@[simp] theorem Hub.setCarve_rd (h : Hub) (x : CarveSt) : (h.setCarve x).rd = h.rd := rfl
@[simp] theorem Hub.setCarve_snaps (h : Hub) (x : CarveSt) : (h.setCarve x).snaps = h.snaps := rfl
@[simp] theorem Hub.setCarve_free (h : Hub) (x : CarveSt) : (h.setCarve x).free = h.free := rfl

@[simp] theorem Hub.setArb_regs (h : Hub) (x : ArbSt) : (h.setArb x).regs = h.regs := rfl
@[simp] theorem Hub.setArb_pwr (h : Hub) (x : ArbSt) : (h.setArb x).pwr = h.pwr := rfl
@[simp] theorem Hub.setArb_time (h : Hub) (x : ArbSt) : (h.setArb x).time = h.time := rfl
@[simp] theorem Hub.setArb_exc (h : Hub) (x : ArbSt) : (h.setArb x).exc = h.exc := rfl
@[simp] theorem Hub.setArb_chans (h : Hub) (x : ArbSt) : (h.setArb x).chans = h.chans := rfl
@[simp] theorem Hub.setArb_hk (h : Hub) (x : ArbSt) : (h.setArb x).hk = h.hk := rfl
@[simp] theorem Hub.setArb_upd (h : Hub) (x : ArbSt) : (h.setArb x).upd = h.upd := rfl
@[simp] theorem Hub.setArb_lin (h : Hub) (x : ArbSt) : (h.setArb x).lin = h.lin := rfl
@[simp] theorem Hub.setArb_arm (h : Hub) (x : ArbSt) : (h.setArb x).arm = h.arm := rfl
@[simp] theorem Hub.setArb_mm (h : Hub) (x : ArbSt) : (h.setArb x).mm = h.mm := rfl
@[simp] theorem Hub.setArb_acq (h : Hub) (x : ArbSt) : (h.setArb x).acq = h.acq := rfl
@[simp] theorem Hub.setArb_cmp (h : Hub) (x : ArbSt) : (h.setArb x).cmp = h.cmp := rfl
@[simp] theorem Hub.setArb_lk (h : Hub) (x : ArbSt) : (h.setArb x).lk = h.lk := rfl
@[simp] theorem Hub.setArb_lanes (h : Hub) (x : ArbSt) : (h.setArb x).lanes = h.lanes := rfl
@[simp] theorem Hub.setArb_pair (h : Hub) (x : ArbSt) : (h.setArb x).pair = h.pair := rfl
@[simp] theorem Hub.setArb_carve (h : Hub) (x : ArbSt) : (h.setArb x).carve = h.carve := rfl
@[simp] theorem Hub.setArb_dma (h : Hub) (x : ArbSt) : (h.setArb x).dma = h.dma := rfl
@[simp] theorem Hub.setArb_arb (h : Hub) (x : ArbSt) : (h.setArb x).arb = x := rfl
@[simp] theorem Hub.setArb_spi (h : Hub) (x : ArbSt) : (h.setArb x).spi = h.spi := rfl
@[simp] theorem Hub.setArb_rd (h : Hub) (x : ArbSt) : (h.setArb x).rd = h.rd := rfl
@[simp] theorem Hub.setArb_snaps (h : Hub) (x : ArbSt) : (h.setArb x).snaps = h.snaps := rfl
@[simp] theorem Hub.setArb_free (h : Hub) (x : ArbSt) : (h.setArb x).free = h.free := rfl

@[simp] theorem Hub.setSpi_regs (h : Hub) (x : Spi) : (h.setSpi x).regs = h.regs := rfl
@[simp] theorem Hub.setSpi_pwr (h : Hub) (x : Spi) : (h.setSpi x).pwr = h.pwr := rfl
@[simp] theorem Hub.setSpi_time (h : Hub) (x : Spi) : (h.setSpi x).time = h.time := rfl
@[simp] theorem Hub.setSpi_exc (h : Hub) (x : Spi) : (h.setSpi x).exc = h.exc := rfl
@[simp] theorem Hub.setSpi_chans (h : Hub) (x : Spi) : (h.setSpi x).chans = h.chans := rfl
@[simp] theorem Hub.setSpi_hk (h : Hub) (x : Spi) : (h.setSpi x).hk = h.hk := rfl
@[simp] theorem Hub.setSpi_upd (h : Hub) (x : Spi) : (h.setSpi x).upd = h.upd := rfl
@[simp] theorem Hub.setSpi_lin (h : Hub) (x : Spi) : (h.setSpi x).lin = h.lin := rfl
@[simp] theorem Hub.setSpi_arm (h : Hub) (x : Spi) : (h.setSpi x).arm = h.arm := rfl
@[simp] theorem Hub.setSpi_mm (h : Hub) (x : Spi) : (h.setSpi x).mm = h.mm := rfl
@[simp] theorem Hub.setSpi_acq (h : Hub) (x : Spi) : (h.setSpi x).acq = h.acq := rfl
@[simp] theorem Hub.setSpi_cmp (h : Hub) (x : Spi) : (h.setSpi x).cmp = h.cmp := rfl
@[simp] theorem Hub.setSpi_lk (h : Hub) (x : Spi) : (h.setSpi x).lk = h.lk := rfl
@[simp] theorem Hub.setSpi_lanes (h : Hub) (x : Spi) : (h.setSpi x).lanes = h.lanes := rfl
@[simp] theorem Hub.setSpi_pair (h : Hub) (x : Spi) : (h.setSpi x).pair = h.pair := rfl
@[simp] theorem Hub.setSpi_carve (h : Hub) (x : Spi) : (h.setSpi x).carve = h.carve := rfl
@[simp] theorem Hub.setSpi_dma (h : Hub) (x : Spi) : (h.setSpi x).dma = h.dma := rfl
@[simp] theorem Hub.setSpi_arb (h : Hub) (x : Spi) : (h.setSpi x).arb = h.arb := rfl
@[simp] theorem Hub.setSpi_spi (h : Hub) (x : Spi) : (h.setSpi x).spi = x := rfl
@[simp] theorem Hub.setSpi_rd (h : Hub) (x : Spi) : (h.setSpi x).rd = h.rd := rfl
@[simp] theorem Hub.setSpi_snaps (h : Hub) (x : Spi) : (h.setSpi x).snaps = h.snaps := rfl
@[simp] theorem Hub.setSpi_free (h : Hub) (x : Spi) : (h.setSpi x).free = h.free := rfl

@[simp] theorem Hub.setCmp_regs (h : Hub) (x : CmpSt) : (h.setCmp x).regs = h.regs := rfl
@[simp] theorem Hub.setCmp_pwr (h : Hub) (x : CmpSt) : (h.setCmp x).pwr = h.pwr := rfl
@[simp] theorem Hub.setCmp_time (h : Hub) (x : CmpSt) : (h.setCmp x).time = h.time := rfl
@[simp] theorem Hub.setCmp_exc (h : Hub) (x : CmpSt) : (h.setCmp x).exc = h.exc := rfl
@[simp] theorem Hub.setCmp_chans (h : Hub) (x : CmpSt) : (h.setCmp x).chans = h.chans := rfl
@[simp] theorem Hub.setCmp_hk (h : Hub) (x : CmpSt) : (h.setCmp x).hk = h.hk := rfl
@[simp] theorem Hub.setCmp_upd (h : Hub) (x : CmpSt) : (h.setCmp x).upd = h.upd := rfl
@[simp] theorem Hub.setCmp_lin (h : Hub) (x : CmpSt) : (h.setCmp x).lin = h.lin := rfl
@[simp] theorem Hub.setCmp_arm (h : Hub) (x : CmpSt) : (h.setCmp x).arm = h.arm := rfl
@[simp] theorem Hub.setCmp_mm (h : Hub) (x : CmpSt) : (h.setCmp x).mm = h.mm := rfl
@[simp] theorem Hub.setCmp_acq (h : Hub) (x : CmpSt) : (h.setCmp x).acq = h.acq := rfl
@[simp] theorem Hub.setCmp_cmp (h : Hub) (x : CmpSt) : (h.setCmp x).cmp = x := rfl
@[simp] theorem Hub.setCmp_lk (h : Hub) (x : CmpSt) : (h.setCmp x).lk = h.lk := rfl
@[simp] theorem Hub.setCmp_lanes (h : Hub) (x : CmpSt) : (h.setCmp x).lanes = h.lanes := rfl
@[simp] theorem Hub.setCmp_pair (h : Hub) (x : CmpSt) : (h.setCmp x).pair = h.pair := rfl
@[simp] theorem Hub.setCmp_carve (h : Hub) (x : CmpSt) : (h.setCmp x).carve = h.carve := rfl
@[simp] theorem Hub.setCmp_dma (h : Hub) (x : CmpSt) : (h.setCmp x).dma = h.dma := rfl
@[simp] theorem Hub.setCmp_arb (h : Hub) (x : CmpSt) : (h.setCmp x).arb = h.arb := rfl
@[simp] theorem Hub.setCmp_spi (h : Hub) (x : CmpSt) : (h.setCmp x).spi = h.spi := rfl
@[simp] theorem Hub.setCmp_rd (h : Hub) (x : CmpSt) : (h.setCmp x).rd = h.rd := rfl
@[simp] theorem Hub.setCmp_snaps (h : Hub) (x : CmpSt) : (h.setCmp x).snaps = h.snaps := rfl
@[simp] theorem Hub.setCmp_free (h : Hub) (x : CmpSt) : (h.setCmp x).free = h.free := rfl

@[simp] theorem Hub.setUpd_regs (h : Hub) (x : Upd) : (h.setUpd x).regs = h.regs := rfl
@[simp] theorem Hub.setUpd_pwr (h : Hub) (x : Upd) : (h.setUpd x).pwr = h.pwr := rfl
@[simp] theorem Hub.setUpd_time (h : Hub) (x : Upd) : (h.setUpd x).time = h.time := rfl
@[simp] theorem Hub.setUpd_exc (h : Hub) (x : Upd) : (h.setUpd x).exc = h.exc := rfl
@[simp] theorem Hub.setUpd_chans (h : Hub) (x : Upd) : (h.setUpd x).chans = h.chans := rfl
@[simp] theorem Hub.setUpd_hk (h : Hub) (x : Upd) : (h.setUpd x).hk = h.hk := rfl
@[simp] theorem Hub.setUpd_upd (h : Hub) (x : Upd) : (h.setUpd x).upd = x := rfl
@[simp] theorem Hub.setUpd_lin (h : Hub) (x : Upd) : (h.setUpd x).lin = h.lin := rfl
@[simp] theorem Hub.setUpd_arm (h : Hub) (x : Upd) : (h.setUpd x).arm = h.arm := rfl
@[simp] theorem Hub.setUpd_mm (h : Hub) (x : Upd) : (h.setUpd x).mm = h.mm := rfl
@[simp] theorem Hub.setUpd_acq (h : Hub) (x : Upd) : (h.setUpd x).acq = h.acq := rfl
@[simp] theorem Hub.setUpd_cmp (h : Hub) (x : Upd) : (h.setUpd x).cmp = h.cmp := rfl
@[simp] theorem Hub.setUpd_lk (h : Hub) (x : Upd) : (h.setUpd x).lk = h.lk := rfl
@[simp] theorem Hub.setUpd_lanes (h : Hub) (x : Upd) : (h.setUpd x).lanes = h.lanes := rfl
@[simp] theorem Hub.setUpd_pair (h : Hub) (x : Upd) : (h.setUpd x).pair = h.pair := rfl
@[simp] theorem Hub.setUpd_carve (h : Hub) (x : Upd) : (h.setUpd x).carve = h.carve := rfl
@[simp] theorem Hub.setUpd_dma (h : Hub) (x : Upd) : (h.setUpd x).dma = h.dma := rfl
@[simp] theorem Hub.setUpd_arb (h : Hub) (x : Upd) : (h.setUpd x).arb = h.arb := rfl
@[simp] theorem Hub.setUpd_spi (h : Hub) (x : Upd) : (h.setUpd x).spi = h.spi := rfl
@[simp] theorem Hub.setUpd_rd (h : Hub) (x : Upd) : (h.setUpd x).rd = h.rd := rfl
@[simp] theorem Hub.setUpd_snaps (h : Hub) (x : Upd) : (h.setUpd x).snaps = h.snaps := rfl
@[simp] theorem Hub.setUpd_free (h : Hub) (x : Upd) : (h.setUpd x).free = h.free := rfl

@[simp] theorem Hub.setChan_regs (h : Hub) (n : Nat) (c : Chan) : (h.setChan n c).regs = h.regs := rfl
@[simp] theorem Hub.setChan_pwr (h : Hub) (n : Nat) (c : Chan) : (h.setChan n c).pwr = h.pwr := rfl
@[simp] theorem Hub.setChan_time (h : Hub) (n : Nat) (c : Chan) : (h.setChan n c).time = h.time := rfl
@[simp] theorem Hub.setChan_exc (h : Hub) (n : Nat) (c : Chan) : (h.setChan n c).exc = h.exc := rfl
@[simp] theorem Hub.setChan_chans (h : Hub) (n : Nat) (c : Chan) : (h.setChan n c).chans = aInsert h.chans n c := rfl
@[simp] theorem Hub.setChan_hk (h : Hub) (n : Nat) (c : Chan) : (h.setChan n c).hk = h.hk := rfl
@[simp] theorem Hub.setChan_upd (h : Hub) (n : Nat) (c : Chan) : (h.setChan n c).upd = h.upd := rfl
@[simp] theorem Hub.setChan_lin (h : Hub) (n : Nat) (c : Chan) : (h.setChan n c).lin = h.lin := rfl
@[simp] theorem Hub.setChan_arm (h : Hub) (n : Nat) (c : Chan) : (h.setChan n c).arm = h.arm := rfl
@[simp] theorem Hub.setChan_mm (h : Hub) (n : Nat) (c : Chan) : (h.setChan n c).mm = h.mm := rfl
@[simp] theorem Hub.setChan_acq (h : Hub) (n : Nat) (c : Chan) : (h.setChan n c).acq = h.acq := rfl
@[simp] theorem Hub.setChan_cmp (h : Hub) (n : Nat) (c : Chan) : (h.setChan n c).cmp = h.cmp := rfl
@[simp] theorem Hub.setChan_lk (h : Hub) (n : Nat) (c : Chan) : (h.setChan n c).lk = h.lk := rfl
@[simp] theorem Hub.setChan_lanes (h : Hub) (n : Nat) (c : Chan) : (h.setChan n c).lanes = h.lanes := rfl
@[simp] theorem Hub.setChan_pair (h : Hub) (n : Nat) (c : Chan) : (h.setChan n c).pair = h.pair := rfl
@[simp] theorem Hub.setChan_carve (h : Hub) (n : Nat) (c : Chan) : (h.setChan n c).carve = h.carve := rfl
@[simp] theorem Hub.setChan_dma (h : Hub) (n : Nat) (c : Chan) : (h.setChan n c).dma = h.dma := rfl
@[simp] theorem Hub.setChan_arb (h : Hub) (n : Nat) (c : Chan) : (h.setChan n c).arb = h.arb := rfl
@[simp] theorem Hub.setChan_spi (h : Hub) (n : Nat) (c : Chan) : (h.setChan n c).spi = h.spi := rfl
@[simp] theorem Hub.setChan_rd (h : Hub) (n : Nat) (c : Chan) : (h.setChan n c).rd = h.rd := rfl
@[simp] theorem Hub.setChan_snaps (h : Hub) (n : Nat) (c : Chan) : (h.setChan n c).snaps = h.snaps := rfl
@[simp] theorem Hub.setChan_free (h : Hub) (n : Nat) (c : Chan) : (h.setChan n c).free = h.free := rfl

end Sys2Proof.Machine
end

