-- ==== Sys2Proof/Laws/Registers.lean ====
section
/-! SUPPORT. The laws of the register file: what is written is read back, and every other field keeps its value, in every
register file, canonical or not. -/

namespace Sys2Proof.Machine

section maps

variable {α : Type}

theorem aFind_aInsert_same (m : AMap α) (k : Nat) (v : α) : aFind (aInsert m k v) k = some v := by
  induction m with
  | nil => simp [aInsert, aFind]
  | cons e t ih =>
    obtain ⟨k', v'⟩ := e
    by_cases h : k' = k
    · simp [aInsert, aFind, h]
    · by_cases h' : k < k'
      · simp [aInsert, aFind, h, h']
      · simp [aInsert, aFind, h, h', ih]

theorem aFind_aInsert_ne (m : AMap α) (k j : Nat) (v : α) (hj : j ≠ k) : aFind (aInsert m k v) j = aFind m j := by
  induction m with
  | nil => simp [aInsert, aFind, hj.symm]
  | cons e t ih =>
    obtain ⟨k', v'⟩ := e
    by_cases h : k' = k
    · subst h; simp [aInsert, aFind, hj.symm]
    · by_cases h' : k < k'
      · simp [aInsert, aFind, h, h', hj.symm]
      · simp [aInsert, aFind, h, h', ih]

theorem aFind_aErase_same (m : AMap α) (k : Nat) : aFind (aErase m k) k = none := by
  induction m with
  | nil => rfl
  | cons e t ih =>
    obtain ⟨k', v'⟩ := e
    by_cases h : k' = k <;> simp [aErase, aFind, h, ih]

theorem aFind_aErase_ne (m : AMap α) (k j : Nat) (hj : j ≠ k) : aFind (aErase m k) j = aFind m j := by
  induction m with
  | nil => rfl
  | cons e t ih =>
    obtain ⟨k', v'⟩ := e
    by_cases h : k' = k
    · subst h; simp [aErase, aFind, hj.symm, ih]
    · simp [aErase, aFind, h, ih]

@[simp] theorem aGet_aInsert_same (m : AMap α) (k : Nat) (v d : α) : aGet (aInsert m k v) k d = v := by
  simp [aGet, aFind_aInsert_same]

@[simp] theorem aGet_aInsert_ne (m : AMap α) (k j : Nat) (v d : α) (hj : j ≠ k) : aGet (aInsert m k v) j d = aGet m j d := by
  simp [aGet, aFind_aInsert_ne m k j v hj]

theorem aGet_aErase_ne (m : AMap α) (k j : Nat) (d : α) (hj : j ≠ k) : aGet (aErase m k) j d = aGet m j d := by
  simp [aGet, aFind_aErase_ne m k j hj]

end maps

/-- A field reads back the low bits of what was written. -/
theorem rGet_rSet_same (r : RegFile) (f : Field) (v : Nat) : rGet (rSet r f v) f = v % 2 ^ f.width := by
  by_cases h : v % 2 ^ f.width = f.reset
  · simp [rGet, rSet, h, aGet, aFind_aErase_same]
  · simp [rGet, rSet, h]

/-- A field of another key keeps its value. -/
theorem rGet_rSet_ne (r : RegFile) (f g : Field) (v : Nat) (hk : g.key ≠ f.key) : rGet (rSet r f v) g = rGet r g := by
  by_cases h : v % 2 ^ f.width = f.reset
  · simp [rGet, rSet, h, aGet_aErase_ne _ _ _ _ hk]
  · simp [rGet, rSet, h, aGet_aInsert_ne _ _ _ _ _ hk]

/-- Keeping some keys: those fields stay, and every other field is at its Reset column. -/
theorem rGet_rKeep (r : RegFile) (keep : Nat → Bool) (f : Field) :
    rGet (rKeep r keep) f = if keep f.key then rGet r f else f.reset := by
  induction r with
  | nil => simp [rKeep, rGet, aGet, aFind]
  | cons e t ih =>
    obtain ⟨k, v⟩ := e
    simp only [rKeep, rGet, aGet] at ih
    by_cases hk : k = f.key
    · subst hk
      by_cases c : keep f.key = true
      · simp [rKeep, rGet, aGet, aFind, c]
      · simp only [rKeep, rGet, aGet, List.filter, c]
        simpa [c] using ih
    · by_cases c : keep k = true
      · simp only [rKeep, rGet, aGet, List.filter, c, aFind, hk, if_false]
        exact ih
      · simp only [rKeep, rGet, aGet, List.filter, c, aFind, hk, if_false]
        exact ih

/-- An empty register file holds the Reset column. -/
@[simp] theorem rGet_nil (f : Field) : rGet [] f = f.reset := rfl

namespace Hub

@[simp] theorem get_set_same (h : Hub) (f : Field) (v : Nat) : (h.set f v).get f = v % 2 ^ f.width := rGet_rSet_same h.regs f v

theorem get_set_ne (h : Hub) (f g : Field) (v : Nat) (hk : g.key ≠ f.key) : (h.set f v).get g = h.get g := rGet_rSet_ne h.regs f g v hk

@[simp] theorem get_on_same (h : Hub) (f : Field) (hw : 0 < f.width) : (h.on f).get f = 1 := by
  have : 1 < 2 ^ f.width := Nat.one_lt_two_pow (by omega)
  simp [Hub.on, Nat.mod_eq_of_lt this]

@[simp] theorem get_off_same (h : Hub) (f : Field) : (h.off f).get f = 0 := by simp [Hub.off]

theorem get_on_ne (h : Hub) (f g : Field) (hk : g.key ≠ f.key) : (h.on f).get g = h.get g := get_set_ne h f g 1 hk

theorem get_off_ne (h : Hub) (f g : Field) (hk : g.key ≠ f.key) : (h.off f).get g = h.get g := get_set_ne h f g 0 hk

@[simp] theorem get_setTime (h : Hub) (x : TimeSt) (f : Field) : (h.setTime x).get f = h.get f := rfl
@[simp] theorem get_setPwr (h : Hub) (x : Pwr) (f : Field) : (h.setPwr x).get f = h.get f := rfl
@[simp] theorem get_setHk (h : Hub) (x : Hk) (f : Field) : (h.setHk x).get f = h.get f := rfl
@[simp] theorem get_setExc (h : Hub) (x : Exc) (f : Field) : (h.setExc x).get f = h.get f := rfl
@[simp] theorem get_setLin (h : Hub) (x : Lin) (f : Field) : (h.setLin x).get f = h.get f := rfl
@[simp] theorem get_setArm (h : Hub) (x : ArmSt) (f : Field) : (h.setArm x).get f = h.get f := rfl
@[simp] theorem get_setMm (h : Hub) (x : MemSt) (f : Field) : (h.setMm x).get f = h.get f := rfl
@[simp] theorem get_setAcq (h : Hub) (x : AcqSt) (f : Field) : (h.setAcq x).get f = h.get f := rfl
@[simp] theorem get_setLk (h : Hub) (x : Links) (f : Field) : (h.setLk x).get f = h.get f := rfl
@[simp] theorem get_setPair (h : Hub) (x : DupSt) (f : Field) : (h.setPair x).get f = h.get f := rfl
@[simp] theorem get_setCarve (h : Hub) (x : CarveSt) (f : Field) : (h.setCarve x).get f = h.get f := rfl
@[simp] theorem get_setArb (h : Hub) (x : ArbSt) (f : Field) : (h.setArb x).get f = h.get f := rfl
@[simp] theorem get_setSpi (h : Hub) (x : Spi) (f : Field) : (h.setSpi x).get f = h.get f := rfl
@[simp] theorem get_setCmp (h : Hub) (x : CmpSt) (f : Field) : (h.setCmp x).get f = h.get f := rfl
@[simp] theorem get_setUpd (h : Hub) (x : Upd) (f : Field) : (h.setUpd x).get f = h.get f := rfl
@[simp] theorem get_setChan (h : Hub) (n : Nat) (c : Chan) (f : Field) : (h.setChan n c).get f = h.get f := rfl
@[simp] theorem get_draw (h : Hub) (f : Field) : h.draw.get f = h.get f := rfl
@[simp] theorem get_setRd (h : Hub) (p v : Nat) (f : Field) : (h.setRd p v).get f = h.get f := rfl

theorem bit_eq (h : Hub) (f : Field) : h.bit f = (h.get f == 1) := rfl

theorem get_of_regs (h h' : Hub) (e : h.regs = h'.regs) (f : Field) : h.get f = h'.get f := by simp [Hub.get, e]

end Hub

end Sys2Proof.Machine
end

