-- ==== Sys2Proof/Laws/Gate.lean ====
section
/-! SUPPORT. When a host write or an event acts: the lemmas that say once what the gates let through. -/

namespace Sys2Proof.Machine

namespace Hub

/-- In service every address is answered. -/
theorem served_of_inService {h : Hub} (u : h.inService = true) (addr : Nat) : h.served addr = true := by
  cases hp : h.pwr.phase <;> simp_all [Hub.inService, Hub.served]

/-- A host write of a register that is not mirrored acts. -/
theorem hostWr_plain {h : Hub} {addr val : Nat} {f : Hub → Hub} (u : h.served addr = true) (m : mirroredAddr addr = false) :
    h.hostWr addr val f = f h := by
  simp [Hub.hostWr, u, m]

/-- A host write of an address that is not served does nothing. -/
theorem hostWr_unserved {h : Hub} {addr val : Nat} {f : Hub → Hub} (u : h.served addr = false) : h.hostWr addr val f = h := by
  simp [Hub.hostWr, u]

/-- Outside a duplex section a host write of a mirrored register acts alone. -/
theorem hostWr_single {h : Hub} {addr val : Nat} {f : Hub → Hub} (u : h.served addr = true) (s : h.dupStandby = false)
    (a : h.dupActive = false) : h.hostWr addr val f = f h := by
  cases m : mirroredAddr addr <;> simp [Hub.hostWr, u, s, a, m]

theorem hostCh_alone {s : State} (a : s.alone) (n off sc : Nat) (f : Hub → Hub) : s.hw.hub.hostCh n off sc f = f s.hw.hub :=
  hostWr_single (served_of_inService a.1 _) a.2.1 a.2.2

theorem hostWr_alone {s : State} (a : s.alone) (addr val : Nat) (f : Hub → Hub) : s.hw.hub.hostWr addr val f = f s.hw.hub :=
  hostWr_single (served_of_inService a.1 _) a.2.1 a.2.2

theorem whenUp_up {h : Hub} {f : Hub → Hub} (u : h.inService = true) : h.whenUp f = f h := by simp [Hub.whenUp, u]

theorem whenLanes_up {h : Hub} {f : Hub → Hub} (u : h.inService = true) : h.whenLanes f = f h := by simp [Hub.whenLanes, u]

theorem whenUp_down {h : Hub} {f : Hub → Hub} (u : h.inService = false) : h.whenUp f = h := by simp [Hub.whenUp, u]

end Hub

/-- A command that acts on the hub alone completes. -/
theorem leads_onHub {c : Instr} {s : State} {f : Hub → Hub} {P : Hub → Prop} (e : exec c s = .next (s.onHub f))
    (p : P (f s.hw.hub)) : Leads c s P := ⟨f s.hw.hub, e, p⟩

theorem gives_onHub {c : Instr} {s : State} {f : Hub → Hub} {h : Hub} (e : exec c s = .next (s.onHub f))
    (p : f s.hw.hub = h) : Gives c s h := by
  subst p; exact e

/-- A command that acts on hub, memory and flash completes. -/
theorem leads_onHw {c : Instr} {s : State} {f : Hw → Hw} {P : Hw → Prop} (e : exec c s = .next (s.onHw f))
    (p : P (f s.hw)) : LeadsHw c s P := ⟨f s.hw, e, p⟩

theorem givesHw_onHw {c : Instr} {s : State} {f : Hw → Hw} {w : Hw} (e : exec c s = .next (s.onHw f)) (p : f s.hw = w) :
    GivesHw c s w := by
  subst p; exact e

theorem givesHw_onHub {c : Instr} {s : State} {f : Hub → Hub} {w : Hw} (e : exec c s = .next (s.onHub f))
    (p : s.hw.onHub f = w) : GivesHw c s w := by
  subst p; exact e

end Sys2Proof.Machine
end

