-- ==== Sys2Proof/Laws/Images.lean ====
section
/-! SUPPORT. Little-endian values and images of bytes: what is put is what is read; the CRC that seals one. -/

namespace Sys2Proof.Machine

theorem leBytes_length (n v : Nat) : (leBytes n v).length = n := by
  induction n generalizing v with
  | zero => rfl
  | succ n ih => rw [leBytes, List.length_cons, ih]

/-- The value of the `n` low bytes of a number. -/
theorem ofLe_leBytes (n v : Nat) : ofLe (leBytes n v) = v % 256 ^ n := by
  induction n generalizing v with
  | zero => rw [pow_zero, Nat.mod_one]; rfl
  | succ n ih =>
    rw [leBytes, ofLe, ih, BitVec.toNat_ofNat, pow_succ' 256, Nat.mod_mul (x := v)]

/-- A byte of an image after bytes were put into it. -/
theorem imgPut_get (m : AMap Nat) (off j : Nat) (b : List (BitVec 8)) :
    aGet (imgPut m off b) j 0 = if off ≤ j ∧ j < off + b.length then (b.getD (j - off) 0).toNat else aGet m j 0 := by
  induction b generalizing m off with
  | nil => rw [imgPut, if_neg (by rw [List.length_nil]; omega)]
  | cons x t ih =>
    rw [imgPut, ih, List.length_cons]
    by_cases e : j = off
    · subst e
      rw [if_neg (by omega : ¬ (j + 1 ≤ j ∧ _)), if_pos (by omega : j ≤ j ∧ j < j + (t.length + 1)), Nat.sub_self, List.getD_cons_zero]
      by_cases z : x.toNat = 0
      · rw [if_pos z, z, aGet, aFind_aErase_same]; rfl
      · rw [if_neg z, aGet_aInsert_same]
    · have k : aGet (if x.toNat = 0 then aErase m off else aInsert m off x.toNat) j 0 = aGet m j 0 := by
        split
        · rw [aGet, aFind_aErase_ne _ _ _ e]; rfl
        · exact aGet_aInsert_ne _ _ _ _ _ e
      rw [k]
      by_cases l : off ≤ j ∧ j < off + (t.length + 1)
      · rw [if_pos l, if_pos (by omega), show j - off = (j - (off + 1)) + 1 by omega, List.getD_cons_succ]
      · rw [if_neg l, if_neg (by omega)]

theorem imgBytes_length (m : AMap Nat) (off n : Nat) : (imgBytes m off n).length = n := by
  induction n generalizing off with
  | zero => rfl
  | succ n ih => rw [imgBytes, List.length_cons, ih]

/-- Bytes that a write leaves out read as before. -/
theorem imgBytes_of_eq (m m' : AMap Nat) (off n : Nat) (e : ∀ j, off ≤ j → j < off + n → aGet m' j 0 = aGet m j 0) :
    imgBytes m' off n = imgBytes m off n := by
  induction n generalizing off with
  | zero => rfl
  | succ n ih =>
    rw [imgBytes, imgBytes, ih _ fun j a b => e j (by omega) (by omega), e off (by omega) (by omega)]

theorem imgBytes_imgPut_of_disjoint (m : AMap Nat) (a off n : Nat) (b : List (BitVec 8)) (d : off + n ≤ a ∨ a + b.length ≤ off) :
    imgBytes (imgPut m a b) off n = imgBytes m off n :=
  imgBytes_of_eq _ _ _ _ fun j k l => by rw [imgPut_get, if_neg (by omega)]

/-- The bytes put into an image are the bytes read there. -/
theorem imgBytes_imgPut (m : AMap Nat) (a : Nat) (b : List (BitVec 8)) : imgBytes (imgPut m a b) a b.length = b := by
  induction b generalizing m a with
  | nil => rfl
  | cons x t ih =>
    rw [List.length_cons, imgBytes, imgPut_get, if_pos (by rw [List.length_cons]; omega), Nat.sub_self, List.getD_cons_zero]
    rw [imgPut, ih, BitVec.ofNat_toNat, BitVec.setWidth_eq]

/-- A little-endian value that is put into an image is the one read there. -/
theorem imgVal_imgPut (m : AMap Nat) (a n v : Nat) : imgVal (imgPut m a (leBytes n v)) a n = v % 256 ^ n := by
  have e := imgBytes_imgPut m a (leBytes n v)
  rw [leBytes_length] at e
  rw [imgVal, e, ofLe_leBytes]

theorem crcBit_lt {c : Nat} (h : c < 2 ^ 32) : crcBit c < 2 ^ 32 := by
  rw [crcBit]
  split
  · exact Nat.xor_lt_two_pow (by omega) (by decide)
  · omega

theorem crcByte_lt {c : Nat} (b : BitVec 8) (h : c < 2 ^ 32) : crcByte c b < 2 ^ 32 :=
  crcBit_lt (crcBit_lt (crcBit_lt (crcBit_lt (crcBit_lt (crcBit_lt (crcBit_lt (crcBit_lt
    (Nat.xor_lt_two_pow h (Nat.lt_of_lt_of_le b.isLt (by decide))))))))))

/-- A CRC-32C has 32 bits. -/
theorem crc32c_lt (l : List (BitVec 8)) : crc32c l < 2 ^ 32 :=
  Nat.xor_lt_two_pow (List.foldlRecOn (motive := fun c => c < 2 ^ 32) l crcByte (by decide) fun _ h b _ => crcByte_lt b h) (by decide)

/-- A patina store with the header of R125 passes its check once it is sealed. -/
theorem patOk_patSeal (m : AMap Nat) (a : imgVal m 0 4 = 0x414E5450) (b : imgVal m 6 2 = Config.hwType) (c : imgVal m 8 4 = patLen) :
    patOk (patSeal m) = true := by
  have e : ∀ off n, off + n ≤ patCrcAt → imgBytes (patSeal m) off n = imgBytes m off n := fun off n h =>
    imgBytes_imgPut_of_disjoint _ _ _ _ _ (.inl h)
  have v : ∀ off n, off + n ≤ patCrcAt → imgVal (patSeal m) off n = imgVal m off n := fun off n h => congrArg ofLe (e off n h)
  have w : imgVal (patSeal m) patCrcAt 4 = crc32c (imgBytes m 0 patCrcAt) :=
    (imgVal_imgPut _ _ _ _).trans (Nat.mod_eq_of_lt (crc32c_lt _))
  simp only [patOk, v 0 4 (by decide), v 6 2 (by decide), v 8 4 (by decide), w, e 0 patCrcAt (by decide), a, b, c, beq_self_eq_true, Bool.and_true]
end Sys2Proof.Machine
end

