-- ==== Sys2Proof/Laws/Keeps.lean ====
section
/-! SUPPORT. What counters, bits and log entries keep: everything of the hub but the registers, and the log for an entry. -/

namespace Sys2Proof.Machine

@[simp] theorem Hub.offs_pwr (h : Hub) (l : List Field) : (h.offs l).pwr = h.pwr := by
  unfold Hub.offs
  induction l generalizing h with
  | nil => rfl
  | cons x t ih => rw [List.foldl_cons, ih]; rfl
@[simp] theorem Hub.bumpBy_pwr (h : Hub) (c s : Field) (k : Nat) : (h.bumpBy c s k).pwr = h.pwr := by
  unfold Hub.bumpBy; dsimp only; split <;> rfl
@[simp] theorem Hub.bump_pwr (h : Hub) (c s : Field) : (h.bump c s).pwr = h.pwr := Hub.bumpBy_pwr h c s 1
@[simp] theorem Hub.setBit_pwr (h : Hub) (g : Field) (i : Nat) : (h.setBit g i).pwr = h.pwr := by unfold Hub.setBit; split <;> rfl
@[simp] theorem Hub.clrBit_pwr (h : Hub) (g : Field) (i : Nat) : (h.clrBit g i).pwr = h.pwr := by unfold Hub.clrBit; split <;> rfl
@[simp] theorem Hub.offs_time (h : Hub) (l : List Field) : (h.offs l).time = h.time := by
  unfold Hub.offs
  induction l generalizing h with
  | nil => rfl
  | cons x t ih => rw [List.foldl_cons, ih]; rfl
@[simp] theorem Hub.bumpBy_time (h : Hub) (c s : Field) (k : Nat) : (h.bumpBy c s k).time = h.time := by
  unfold Hub.bumpBy; dsimp only; split <;> rfl
@[simp] theorem Hub.bump_time (h : Hub) (c s : Field) : (h.bump c s).time = h.time := Hub.bumpBy_time h c s 1
@[simp] theorem Hub.setBit_time (h : Hub) (g : Field) (i : Nat) : (h.setBit g i).time = h.time := by unfold Hub.setBit; split <;> rfl
@[simp] theorem Hub.clrBit_time (h : Hub) (g : Field) (i : Nat) : (h.clrBit g i).time = h.time := by unfold Hub.clrBit; split <;> rfl
@[simp] theorem Hub.log_time (h : Hub) (c : LogCode) (a b d : Nat) : (h.log c a b d).time = h.time := by
  unfold Hub.log; dsimp only; split <;> split <;> simp
@[simp] theorem Hub.logFirst_time (h : Hub) (c : LogCode) (s a b d : Nat) : (h.logFirst c s a b d).time = h.time := by
  unfold Hub.logFirst; extract_lets k sec; split
  · rfl
  · exact Hub.log_time _ _ _ _ _
@[simp] theorem Hub.offs_exc (h : Hub) (l : List Field) : (h.offs l).exc = h.exc := by
  unfold Hub.offs
  induction l generalizing h with
  | nil => rfl
  | cons x t ih => rw [List.foldl_cons, ih]; rfl
@[simp] theorem Hub.bumpBy_exc (h : Hub) (c s : Field) (k : Nat) : (h.bumpBy c s k).exc = h.exc := by
  unfold Hub.bumpBy; dsimp only; split <;> rfl
@[simp] theorem Hub.bump_exc (h : Hub) (c s : Field) : (h.bump c s).exc = h.exc := Hub.bumpBy_exc h c s 1
@[simp] theorem Hub.setBit_exc (h : Hub) (g : Field) (i : Nat) : (h.setBit g i).exc = h.exc := by unfold Hub.setBit; split <;> rfl
@[simp] theorem Hub.clrBit_exc (h : Hub) (g : Field) (i : Nat) : (h.clrBit g i).exc = h.exc := by unfold Hub.clrBit; split <;> rfl
@[simp] theorem Hub.log_exc (h : Hub) (c : LogCode) (a b d : Nat) : (h.log c a b d).exc = h.exc := by
  unfold Hub.log; dsimp only; split <;> split <;> simp
@[simp] theorem Hub.logFirst_exc (h : Hub) (c : LogCode) (s a b d : Nat) : (h.logFirst c s a b d).exc = h.exc := by
  unfold Hub.logFirst; extract_lets k sec; split
  · rfl
  · exact Hub.log_exc _ _ _ _ _
@[simp] theorem Hub.offs_chans (h : Hub) (l : List Field) : (h.offs l).chans = h.chans := by
  unfold Hub.offs
  induction l generalizing h with
  | nil => rfl
  | cons x t ih => rw [List.foldl_cons, ih]; rfl
@[simp] theorem Hub.bumpBy_chans (h : Hub) (c s : Field) (k : Nat) : (h.bumpBy c s k).chans = h.chans := by
  unfold Hub.bumpBy; dsimp only; split <;> rfl
@[simp] theorem Hub.bump_chans (h : Hub) (c s : Field) : (h.bump c s).chans = h.chans := Hub.bumpBy_chans h c s 1
@[simp] theorem Hub.setBit_chans (h : Hub) (g : Field) (i : Nat) : (h.setBit g i).chans = h.chans := by unfold Hub.setBit; split <;> rfl
@[simp] theorem Hub.clrBit_chans (h : Hub) (g : Field) (i : Nat) : (h.clrBit g i).chans = h.chans := by unfold Hub.clrBit; split <;> rfl
@[simp] theorem Hub.log_chans (h : Hub) (c : LogCode) (a b d : Nat) : (h.log c a b d).chans = h.chans := by
  unfold Hub.log; dsimp only; split <;> split <;> simp
@[simp] theorem Hub.logFirst_chans (h : Hub) (c : LogCode) (s a b d : Nat) : (h.logFirst c s a b d).chans = h.chans := by
  unfold Hub.logFirst; extract_lets k sec; split
  · rfl
  · exact Hub.log_chans _ _ _ _ _
@[simp] theorem Hub.offs_hk (h : Hub) (l : List Field) : (h.offs l).hk = h.hk := by
  unfold Hub.offs
  induction l generalizing h with
  | nil => rfl
  | cons x t ih => rw [List.foldl_cons, ih]; rfl
@[simp] theorem Hub.bumpBy_hk (h : Hub) (c s : Field) (k : Nat) : (h.bumpBy c s k).hk = h.hk := by
  unfold Hub.bumpBy; dsimp only; split <;> rfl
@[simp] theorem Hub.bump_hk (h : Hub) (c s : Field) : (h.bump c s).hk = h.hk := Hub.bumpBy_hk h c s 1
@[simp] theorem Hub.setBit_hk (h : Hub) (g : Field) (i : Nat) : (h.setBit g i).hk = h.hk := by unfold Hub.setBit; split <;> rfl
@[simp] theorem Hub.clrBit_hk (h : Hub) (g : Field) (i : Nat) : (h.clrBit g i).hk = h.hk := by unfold Hub.clrBit; split <;> rfl
@[simp] theorem Hub.log_hk (h : Hub) (c : LogCode) (a b d : Nat) : (h.log c a b d).hk = h.hk := by
  unfold Hub.log; dsimp only; split <;> split <;> simp
@[simp] theorem Hub.logFirst_hk (h : Hub) (c : LogCode) (s a b d : Nat) : (h.logFirst c s a b d).hk = h.hk := by
  unfold Hub.logFirst; extract_lets k sec; split
  · rfl
  · exact Hub.log_hk _ _ _ _ _
@[simp] theorem Hub.offs_upd (h : Hub) (l : List Field) : (h.offs l).upd = h.upd := by
  unfold Hub.offs
  induction l generalizing h with
  | nil => rfl
  | cons x t ih => rw [List.foldl_cons, ih]; rfl
@[simp] theorem Hub.bumpBy_upd (h : Hub) (c s : Field) (k : Nat) : (h.bumpBy c s k).upd = h.upd := by
  unfold Hub.bumpBy; dsimp only; split <;> rfl
@[simp] theorem Hub.bump_upd (h : Hub) (c s : Field) : (h.bump c s).upd = h.upd := Hub.bumpBy_upd h c s 1
@[simp] theorem Hub.setBit_upd (h : Hub) (g : Field) (i : Nat) : (h.setBit g i).upd = h.upd := by unfold Hub.setBit; split <;> rfl
@[simp] theorem Hub.clrBit_upd (h : Hub) (g : Field) (i : Nat) : (h.clrBit g i).upd = h.upd := by unfold Hub.clrBit; split <;> rfl
@[simp] theorem Hub.log_upd (h : Hub) (c : LogCode) (a b d : Nat) : (h.log c a b d).upd = h.upd := by
  unfold Hub.log; dsimp only; split <;> split <;> simp
@[simp] theorem Hub.logFirst_upd (h : Hub) (c : LogCode) (s a b d : Nat) : (h.logFirst c s a b d).upd = h.upd := by
  unfold Hub.logFirst; extract_lets k sec; split
  · rfl
  · exact Hub.log_upd _ _ _ _ _
@[simp] theorem Hub.offs_lin (h : Hub) (l : List Field) : (h.offs l).lin = h.lin := by
  unfold Hub.offs
  induction l generalizing h with
  | nil => rfl
  | cons x t ih => rw [List.foldl_cons, ih]; rfl
@[simp] theorem Hub.bumpBy_lin (h : Hub) (c s : Field) (k : Nat) : (h.bumpBy c s k).lin = h.lin := by
  unfold Hub.bumpBy; dsimp only; split <;> rfl
@[simp] theorem Hub.bump_lin (h : Hub) (c s : Field) : (h.bump c s).lin = h.lin := Hub.bumpBy_lin h c s 1
@[simp] theorem Hub.setBit_lin (h : Hub) (g : Field) (i : Nat) : (h.setBit g i).lin = h.lin := by unfold Hub.setBit; split <;> rfl
@[simp] theorem Hub.clrBit_lin (h : Hub) (g : Field) (i : Nat) : (h.clrBit g i).lin = h.lin := by unfold Hub.clrBit; split <;> rfl
@[simp] theorem Hub.log_lin (h : Hub) (c : LogCode) (a b d : Nat) : (h.log c a b d).lin = h.lin := by
  unfold Hub.log; dsimp only; split <;> split <;> simp
@[simp] theorem Hub.logFirst_lin (h : Hub) (c : LogCode) (s a b d : Nat) : (h.logFirst c s a b d).lin = h.lin := by
  unfold Hub.logFirst; extract_lets k sec; split
  · rfl
  · exact Hub.log_lin _ _ _ _ _
@[simp] theorem Hub.offs_arm (h : Hub) (l : List Field) : (h.offs l).arm = h.arm := by
  unfold Hub.offs
  induction l generalizing h with
  | nil => rfl
  | cons x t ih => rw [List.foldl_cons, ih]; rfl
@[simp] theorem Hub.bumpBy_arm (h : Hub) (c s : Field) (k : Nat) : (h.bumpBy c s k).arm = h.arm := by
  unfold Hub.bumpBy; dsimp only; split <;> rfl
@[simp] theorem Hub.bump_arm (h : Hub) (c s : Field) : (h.bump c s).arm = h.arm := Hub.bumpBy_arm h c s 1
@[simp] theorem Hub.setBit_arm (h : Hub) (g : Field) (i : Nat) : (h.setBit g i).arm = h.arm := by unfold Hub.setBit; split <;> rfl
@[simp] theorem Hub.clrBit_arm (h : Hub) (g : Field) (i : Nat) : (h.clrBit g i).arm = h.arm := by unfold Hub.clrBit; split <;> rfl
@[simp] theorem Hub.log_arm (h : Hub) (c : LogCode) (a b d : Nat) : (h.log c a b d).arm = h.arm := by
  unfold Hub.log; dsimp only; split <;> split <;> simp
@[simp] theorem Hub.logFirst_arm (h : Hub) (c : LogCode) (s a b d : Nat) : (h.logFirst c s a b d).arm = h.arm := by
  unfold Hub.logFirst; extract_lets k sec; split
  · rfl
  · exact Hub.log_arm _ _ _ _ _
@[simp] theorem Hub.offs_mm (h : Hub) (l : List Field) : (h.offs l).mm = h.mm := by
  unfold Hub.offs
  induction l generalizing h with
  | nil => rfl
  | cons x t ih => rw [List.foldl_cons, ih]; rfl
@[simp] theorem Hub.bumpBy_mm (h : Hub) (c s : Field) (k : Nat) : (h.bumpBy c s k).mm = h.mm := by
  unfold Hub.bumpBy; dsimp only; split <;> rfl
@[simp] theorem Hub.bump_mm (h : Hub) (c s : Field) : (h.bump c s).mm = h.mm := Hub.bumpBy_mm h c s 1
@[simp] theorem Hub.setBit_mm (h : Hub) (g : Field) (i : Nat) : (h.setBit g i).mm = h.mm := by unfold Hub.setBit; split <;> rfl
@[simp] theorem Hub.clrBit_mm (h : Hub) (g : Field) (i : Nat) : (h.clrBit g i).mm = h.mm := by unfold Hub.clrBit; split <;> rfl
@[simp] theorem Hub.log_mm (h : Hub) (c : LogCode) (a b d : Nat) : (h.log c a b d).mm = h.mm := by
  unfold Hub.log; dsimp only; split <;> split <;> simp
@[simp] theorem Hub.logFirst_mm (h : Hub) (c : LogCode) (s a b d : Nat) : (h.logFirst c s a b d).mm = h.mm := by
  unfold Hub.logFirst; extract_lets k sec; split
  · rfl
  · exact Hub.log_mm _ _ _ _ _
@[simp] theorem Hub.offs_acq (h : Hub) (l : List Field) : (h.offs l).acq = h.acq := by
  unfold Hub.offs
  induction l generalizing h with
  | nil => rfl
  | cons x t ih => rw [List.foldl_cons, ih]; rfl
@[simp] theorem Hub.bumpBy_acq (h : Hub) (c s : Field) (k : Nat) : (h.bumpBy c s k).acq = h.acq := by
  unfold Hub.bumpBy; dsimp only; split <;> rfl
@[simp] theorem Hub.bump_acq (h : Hub) (c s : Field) : (h.bump c s).acq = h.acq := Hub.bumpBy_acq h c s 1
@[simp] theorem Hub.setBit_acq (h : Hub) (g : Field) (i : Nat) : (h.setBit g i).acq = h.acq := by unfold Hub.setBit; split <;> rfl
@[simp] theorem Hub.clrBit_acq (h : Hub) (g : Field) (i : Nat) : (h.clrBit g i).acq = h.acq := by unfold Hub.clrBit; split <;> rfl
@[simp] theorem Hub.log_acq (h : Hub) (c : LogCode) (a b d : Nat) : (h.log c a b d).acq = h.acq := by
  unfold Hub.log; dsimp only; split <;> split <;> simp
@[simp] theorem Hub.logFirst_acq (h : Hub) (c : LogCode) (s a b d : Nat) : (h.logFirst c s a b d).acq = h.acq := by
  unfold Hub.logFirst; extract_lets k sec; split
  · rfl
  · exact Hub.log_acq _ _ _ _ _
@[simp] theorem Hub.offs_cmp (h : Hub) (l : List Field) : (h.offs l).cmp = h.cmp := by
  unfold Hub.offs
  induction l generalizing h with
  | nil => rfl
  | cons x t ih => rw [List.foldl_cons, ih]; rfl
@[simp] theorem Hub.bumpBy_cmp (h : Hub) (c s : Field) (k : Nat) : (h.bumpBy c s k).cmp = h.cmp := by
  unfold Hub.bumpBy; dsimp only; split <;> rfl
@[simp] theorem Hub.bump_cmp (h : Hub) (c s : Field) : (h.bump c s).cmp = h.cmp := Hub.bumpBy_cmp h c s 1
@[simp] theorem Hub.setBit_cmp (h : Hub) (g : Field) (i : Nat) : (h.setBit g i).cmp = h.cmp := by unfold Hub.setBit; split <;> rfl
@[simp] theorem Hub.clrBit_cmp (h : Hub) (g : Field) (i : Nat) : (h.clrBit g i).cmp = h.cmp := by unfold Hub.clrBit; split <;> rfl
@[simp] theorem Hub.log_cmp (h : Hub) (c : LogCode) (a b d : Nat) : (h.log c a b d).cmp = h.cmp := by
  unfold Hub.log; dsimp only; split <;> split <;> simp
@[simp] theorem Hub.logFirst_cmp (h : Hub) (c : LogCode) (s a b d : Nat) : (h.logFirst c s a b d).cmp = h.cmp := by
  unfold Hub.logFirst; extract_lets k sec; split
  · rfl
  · exact Hub.log_cmp _ _ _ _ _
@[simp] theorem Hub.offs_lk (h : Hub) (l : List Field) : (h.offs l).lk = h.lk := by
  unfold Hub.offs
  induction l generalizing h with
  | nil => rfl
  | cons x t ih => rw [List.foldl_cons, ih]; rfl
@[simp] theorem Hub.bumpBy_lk (h : Hub) (c s : Field) (k : Nat) : (h.bumpBy c s k).lk = h.lk := by
  unfold Hub.bumpBy; dsimp only; split <;> rfl
@[simp] theorem Hub.bump_lk (h : Hub) (c s : Field) : (h.bump c s).lk = h.lk := Hub.bumpBy_lk h c s 1
@[simp] theorem Hub.setBit_lk (h : Hub) (g : Field) (i : Nat) : (h.setBit g i).lk = h.lk := by unfold Hub.setBit; split <;> rfl
@[simp] theorem Hub.clrBit_lk (h : Hub) (g : Field) (i : Nat) : (h.clrBit g i).lk = h.lk := by unfold Hub.clrBit; split <;> rfl
@[simp] theorem Hub.log_lk (h : Hub) (c : LogCode) (a b d : Nat) : (h.log c a b d).lk = h.lk := by
  unfold Hub.log; dsimp only; split <;> split <;> simp
@[simp] theorem Hub.logFirst_lk (h : Hub) (c : LogCode) (s a b d : Nat) : (h.logFirst c s a b d).lk = h.lk := by
  unfold Hub.logFirst; extract_lets k sec; split
  · rfl
  · exact Hub.log_lk _ _ _ _ _
@[simp] theorem Hub.offs_lanes (h : Hub) (l : List Field) : (h.offs l).lanes = h.lanes := by
  unfold Hub.offs
  induction l generalizing h with
  | nil => rfl
  | cons x t ih => rw [List.foldl_cons, ih]; rfl
@[simp] theorem Hub.bumpBy_lanes (h : Hub) (c s : Field) (k : Nat) : (h.bumpBy c s k).lanes = h.lanes := by
  unfold Hub.bumpBy; dsimp only; split <;> rfl
@[simp] theorem Hub.bump_lanes (h : Hub) (c s : Field) : (h.bump c s).lanes = h.lanes := Hub.bumpBy_lanes h c s 1
@[simp] theorem Hub.setBit_lanes (h : Hub) (g : Field) (i : Nat) : (h.setBit g i).lanes = h.lanes := by unfold Hub.setBit; split <;> rfl
@[simp] theorem Hub.clrBit_lanes (h : Hub) (g : Field) (i : Nat) : (h.clrBit g i).lanes = h.lanes := by unfold Hub.clrBit; split <;> rfl
@[simp] theorem Hub.log_lanes (h : Hub) (c : LogCode) (a b d : Nat) : (h.log c a b d).lanes = h.lanes := by
  unfold Hub.log; dsimp only; split <;> split <;> simp
@[simp] theorem Hub.logFirst_lanes (h : Hub) (c : LogCode) (s a b d : Nat) : (h.logFirst c s a b d).lanes = h.lanes := by
  unfold Hub.logFirst; extract_lets k sec; split
  · rfl
  · exact Hub.log_lanes _ _ _ _ _
@[simp] theorem Hub.offs_pair (h : Hub) (l : List Field) : (h.offs l).pair = h.pair := by
  unfold Hub.offs
  induction l generalizing h with
  | nil => rfl
  | cons x t ih => rw [List.foldl_cons, ih]; rfl
@[simp] theorem Hub.bumpBy_pair (h : Hub) (c s : Field) (k : Nat) : (h.bumpBy c s k).pair = h.pair := by
  unfold Hub.bumpBy; dsimp only; split <;> rfl
@[simp] theorem Hub.bump_pair (h : Hub) (c s : Field) : (h.bump c s).pair = h.pair := Hub.bumpBy_pair h c s 1
@[simp] theorem Hub.setBit_pair (h : Hub) (g : Field) (i : Nat) : (h.setBit g i).pair = h.pair := by unfold Hub.setBit; split <;> rfl
@[simp] theorem Hub.clrBit_pair (h : Hub) (g : Field) (i : Nat) : (h.clrBit g i).pair = h.pair := by unfold Hub.clrBit; split <;> rfl
@[simp] theorem Hub.log_pair (h : Hub) (c : LogCode) (a b d : Nat) : (h.log c a b d).pair = h.pair := by
  unfold Hub.log; dsimp only; split <;> split <;> simp
@[simp] theorem Hub.logFirst_pair (h : Hub) (c : LogCode) (s a b d : Nat) : (h.logFirst c s a b d).pair = h.pair := by
  unfold Hub.logFirst; extract_lets k sec; split
  · rfl
  · exact Hub.log_pair _ _ _ _ _
@[simp] theorem Hub.offs_carve (h : Hub) (l : List Field) : (h.offs l).carve = h.carve := by
  unfold Hub.offs
  induction l generalizing h with
  | nil => rfl
  | cons x t ih => rw [List.foldl_cons, ih]; rfl
@[simp] theorem Hub.bumpBy_carve (h : Hub) (c s : Field) (k : Nat) : (h.bumpBy c s k).carve = h.carve := by
  unfold Hub.bumpBy; dsimp only; split <;> rfl
@[simp] theorem Hub.bump_carve (h : Hub) (c s : Field) : (h.bump c s).carve = h.carve := Hub.bumpBy_carve h c s 1
@[simp] theorem Hub.setBit_carve (h : Hub) (g : Field) (i : Nat) : (h.setBit g i).carve = h.carve := by unfold Hub.setBit; split <;> rfl
@[simp] theorem Hub.clrBit_carve (h : Hub) (g : Field) (i : Nat) : (h.clrBit g i).carve = h.carve := by unfold Hub.clrBit; split <;> rfl
@[simp] theorem Hub.log_carve (h : Hub) (c : LogCode) (a b d : Nat) : (h.log c a b d).carve = h.carve := by
  unfold Hub.log; dsimp only; split <;> split <;> simp
@[simp] theorem Hub.logFirst_carve (h : Hub) (c : LogCode) (s a b d : Nat) : (h.logFirst c s a b d).carve = h.carve := by
  unfold Hub.logFirst; extract_lets k sec; split
  · rfl
  · exact Hub.log_carve _ _ _ _ _
@[simp] theorem Hub.offs_dma (h : Hub) (l : List Field) : (h.offs l).dma = h.dma := by
  unfold Hub.offs
  induction l generalizing h with
  | nil => rfl
  | cons x t ih => rw [List.foldl_cons, ih]; rfl
@[simp] theorem Hub.bumpBy_dma (h : Hub) (c s : Field) (k : Nat) : (h.bumpBy c s k).dma = h.dma := by
  unfold Hub.bumpBy; dsimp only; split <;> rfl
@[simp] theorem Hub.bump_dma (h : Hub) (c s : Field) : (h.bump c s).dma = h.dma := Hub.bumpBy_dma h c s 1
@[simp] theorem Hub.setBit_dma (h : Hub) (g : Field) (i : Nat) : (h.setBit g i).dma = h.dma := by unfold Hub.setBit; split <;> rfl
@[simp] theorem Hub.clrBit_dma (h : Hub) (g : Field) (i : Nat) : (h.clrBit g i).dma = h.dma := by unfold Hub.clrBit; split <;> rfl
@[simp] theorem Hub.log_dma (h : Hub) (c : LogCode) (a b d : Nat) : (h.log c a b d).dma = h.dma := by
  unfold Hub.log; dsimp only; split <;> split <;> simp
@[simp] theorem Hub.logFirst_dma (h : Hub) (c : LogCode) (s a b d : Nat) : (h.logFirst c s a b d).dma = h.dma := by
  unfold Hub.logFirst; extract_lets k sec; split
  · rfl
  · exact Hub.log_dma _ _ _ _ _
@[simp] theorem Hub.offs_arb (h : Hub) (l : List Field) : (h.offs l).arb = h.arb := by
  unfold Hub.offs
  induction l generalizing h with
  | nil => rfl
  | cons x t ih => rw [List.foldl_cons, ih]; rfl
@[simp] theorem Hub.bumpBy_arb (h : Hub) (c s : Field) (k : Nat) : (h.bumpBy c s k).arb = h.arb := by
  unfold Hub.bumpBy; dsimp only; split <;> rfl
@[simp] theorem Hub.bump_arb (h : Hub) (c s : Field) : (h.bump c s).arb = h.arb := Hub.bumpBy_arb h c s 1
@[simp] theorem Hub.setBit_arb (h : Hub) (g : Field) (i : Nat) : (h.setBit g i).arb = h.arb := by unfold Hub.setBit; split <;> rfl
@[simp] theorem Hub.clrBit_arb (h : Hub) (g : Field) (i : Nat) : (h.clrBit g i).arb = h.arb := by unfold Hub.clrBit; split <;> rfl
@[simp] theorem Hub.log_arb (h : Hub) (c : LogCode) (a b d : Nat) : (h.log c a b d).arb = h.arb := by
  unfold Hub.log; dsimp only; split <;> split <;> simp
@[simp] theorem Hub.logFirst_arb (h : Hub) (c : LogCode) (s a b d : Nat) : (h.logFirst c s a b d).arb = h.arb := by
  unfold Hub.logFirst; extract_lets k sec; split
  · rfl
  · exact Hub.log_arb _ _ _ _ _
@[simp] theorem Hub.offs_spi (h : Hub) (l : List Field) : (h.offs l).spi = h.spi := by
  unfold Hub.offs
  induction l generalizing h with
  | nil => rfl
  | cons x t ih => rw [List.foldl_cons, ih]; rfl
@[simp] theorem Hub.bumpBy_spi (h : Hub) (c s : Field) (k : Nat) : (h.bumpBy c s k).spi = h.spi := by
  unfold Hub.bumpBy; dsimp only; split <;> rfl
@[simp] theorem Hub.bump_spi (h : Hub) (c s : Field) : (h.bump c s).spi = h.spi := Hub.bumpBy_spi h c s 1
@[simp] theorem Hub.setBit_spi (h : Hub) (g : Field) (i : Nat) : (h.setBit g i).spi = h.spi := by unfold Hub.setBit; split <;> rfl
@[simp] theorem Hub.clrBit_spi (h : Hub) (g : Field) (i : Nat) : (h.clrBit g i).spi = h.spi := by unfold Hub.clrBit; split <;> rfl
@[simp] theorem Hub.log_spi (h : Hub) (c : LogCode) (a b d : Nat) : (h.log c a b d).spi = h.spi := by
  unfold Hub.log; dsimp only; split <;> split <;> simp
@[simp] theorem Hub.logFirst_spi (h : Hub) (c : LogCode) (s a b d : Nat) : (h.logFirst c s a b d).spi = h.spi := by
  unfold Hub.logFirst; extract_lets k sec; split
  · rfl
  · exact Hub.log_spi _ _ _ _ _
@[simp] theorem Hub.offs_rd (h : Hub) (l : List Field) : (h.offs l).rd = h.rd := by
  unfold Hub.offs
  induction l generalizing h with
  | nil => rfl
  | cons x t ih => rw [List.foldl_cons, ih]; rfl
@[simp] theorem Hub.bumpBy_rd (h : Hub) (c s : Field) (k : Nat) : (h.bumpBy c s k).rd = h.rd := by
  unfold Hub.bumpBy; dsimp only; split <;> rfl
@[simp] theorem Hub.bump_rd (h : Hub) (c s : Field) : (h.bump c s).rd = h.rd := Hub.bumpBy_rd h c s 1
@[simp] theorem Hub.setBit_rd (h : Hub) (g : Field) (i : Nat) : (h.setBit g i).rd = h.rd := by unfold Hub.setBit; split <;> rfl
@[simp] theorem Hub.clrBit_rd (h : Hub) (g : Field) (i : Nat) : (h.clrBit g i).rd = h.rd := by unfold Hub.clrBit; split <;> rfl
@[simp] theorem Hub.log_rd (h : Hub) (c : LogCode) (a b d : Nat) : (h.log c a b d).rd = h.rd := by
  unfold Hub.log; dsimp only; split <;> split <;> simp
@[simp] theorem Hub.logFirst_rd (h : Hub) (c : LogCode) (s a b d : Nat) : (h.logFirst c s a b d).rd = h.rd := by
  unfold Hub.logFirst; extract_lets k sec; split
  · rfl
  · exact Hub.log_rd _ _ _ _ _
@[simp] theorem Hub.offs_snaps (h : Hub) (l : List Field) : (h.offs l).snaps = h.snaps := by
  unfold Hub.offs
  induction l generalizing h with
  | nil => rfl
  | cons x t ih => rw [List.foldl_cons, ih]; rfl
@[simp] theorem Hub.bumpBy_snaps (h : Hub) (c s : Field) (k : Nat) : (h.bumpBy c s k).snaps = h.snaps := by
  unfold Hub.bumpBy; dsimp only; split <;> rfl
@[simp] theorem Hub.bump_snaps (h : Hub) (c s : Field) : (h.bump c s).snaps = h.snaps := Hub.bumpBy_snaps h c s 1
@[simp] theorem Hub.setBit_snaps (h : Hub) (g : Field) (i : Nat) : (h.setBit g i).snaps = h.snaps := by unfold Hub.setBit; split <;> rfl
@[simp] theorem Hub.clrBit_snaps (h : Hub) (g : Field) (i : Nat) : (h.clrBit g i).snaps = h.snaps := by unfold Hub.clrBit; split <;> rfl
@[simp] theorem Hub.log_snaps (h : Hub) (c : LogCode) (a b d : Nat) : (h.log c a b d).snaps = h.snaps := by
  unfold Hub.log; dsimp only; split <;> split <;> simp
@[simp] theorem Hub.logFirst_snaps (h : Hub) (c : LogCode) (s a b d : Nat) : (h.logFirst c s a b d).snaps = h.snaps := by
  unfold Hub.logFirst; extract_lets k sec; split
  · rfl
  · exact Hub.log_snaps _ _ _ _ _
@[simp] theorem Hub.offs_free (h : Hub) (l : List Field) : (h.offs l).free = h.free := by
  unfold Hub.offs
  induction l generalizing h with
  | nil => rfl
  | cons x t ih => rw [List.foldl_cons, ih]; rfl
@[simp] theorem Hub.bumpBy_free (h : Hub) (c s : Field) (k : Nat) : (h.bumpBy c s k).free = h.free := by
  unfold Hub.bumpBy; dsimp only; split <;> rfl
@[simp] theorem Hub.bump_free (h : Hub) (c s : Field) : (h.bump c s).free = h.free := Hub.bumpBy_free h c s 1
@[simp] theorem Hub.setBit_free (h : Hub) (g : Field) (i : Nat) : (h.setBit g i).free = h.free := by unfold Hub.setBit; split <;> rfl
@[simp] theorem Hub.clrBit_free (h : Hub) (g : Field) (i : Nat) : (h.clrBit g i).free = h.free := by unfold Hub.clrBit; split <;> rfl
@[simp] theorem Hub.log_free (h : Hub) (c : LogCode) (a b d : Nat) : (h.log c a b d).free = h.free := by
  unfold Hub.log; dsimp only; split <;> split <;> simp
@[simp] theorem Hub.logFirst_free (h : Hub) (c : LogCode) (s a b d : Nat) : (h.logFirst c s a b d).free = h.free := by
  unfold Hub.logFirst; extract_lets k sec; split
  · rfl
  · exact Hub.log_free _ _ _ _ _
/-- An entry changes of the plinth the log and its next SEQ alone. -/
theorem Hub.log_pwr (h : Hub) (c : LogCode) (a b d : Nat) :
    (h.log c a b d).pwr = { h.pwr with log := (h.logEntry c a b d :: h.pwr.log).take logRing, logSeq := (h.pwr.logSeq + 1) % 2 ^ 32 } := by
  unfold Hub.log; dsimp only; split <;> split <;> simp

@[simp] theorem Hub.log_phase (h : Hub) (c : LogCode) (a b d : Nat) : (h.log c a b d).pwr.phase = h.pwr.phase := by rw [Hub.log_pwr]

@[simp] theorem Hub.log_coarse (h : Hub) (c : LogCode) (a b d : Nat) : (h.log c a b d).pwr.coarse = h.pwr.coarse := by rw [Hub.log_pwr]

end Sys2Proof.Machine
end

