-- ==== Sys2Proof/Laws/Memory.lean ====
section
/-! SUPPORT. Buffer memory: every write keeps the canonical form, and reads give what was written. -/

namespace Sys2Proof.Machine

/-- The canonical form by its head: a byte that is not zero, below every later address. -/
theorem memoryWf_cons (a : Nat) (b : BitVec 8) (t : List Host.Cell) :
    memoryWf ((a, b) :: t) = true ↔ b ≠ 0 ∧ (∀ e ∈ t, a < e.1) ∧ memoryWf t = true := by
  induction t generalizing a b with
  | nil => simp [memoryWf]
  | cons e t ih =>
    obtain ⟨a', b'⟩ := e
    have s : memoryWf ((a, b) :: (a', b') :: t) = true ↔ b ≠ 0 ∧ a < a' ∧ memoryWf ((a', b') :: t) = true := by
      simp [memoryWf, and_assoc]
    rw [s]
    constructor
    · rintro ⟨x, y, z⟩
      refine ⟨x, fun e m => ?_, z⟩
      rcases List.mem_cons.1 m with rfl | m
      · exact y
      · exact lt_trans y (((ih a' b').1 z).2.1 e m)
    · rintro ⟨x, y, z⟩
      exact ⟨x, y _ List.mem_cons_self, z⟩

/-- A write adds no address but its own. -/
theorem memWrite_mem {m : List Host.Cell} {a : Nat} {b : BitVec 8} {e : Host.Cell} (h : e ∈ memWrite m a b) : e.1 = a ∨ e ∈ m := by
  induction m with
  | nil => unfold memWrite at h; split at h <;> simp_all
  | cons c t ih =>
    obtain ⟨a', b'⟩ := c
    unfold memWrite at h
    split at h
    · split at h
      · exact Or.inr h
      · rcases List.mem_cons.1 h with rfl | h
        · exact Or.inl rfl
        · exact Or.inr h
    · split at h
      · split at h
        · exact Or.inr (List.mem_cons_of_mem _ h)
        · rcases List.mem_cons.1 h with rfl | h
          · exact Or.inl rfl
          · exact Or.inr (List.mem_cons_of_mem _ h)
      · rcases List.mem_cons.1 h with rfl | h
        · exact Or.inr List.mem_cons_self
        · rcases ih h with h | h
          · exact Or.inl h
          · exact Or.inr (List.mem_cons_of_mem _ h)

/-- A write of one byte keeps the canonical form. -/
theorem memWrite_wf {m : List Host.Cell} (w : memoryWf m = true) (a : Nat) (b : BitVec 8) : memoryWf (memWrite m a b) = true := by
  induction m with
  | nil => unfold memWrite; split <;> simp_all [memoryWf]
  | cons c t ih =>
    obtain ⟨a', b'⟩ := c
    have k := (memoryWf_cons a' b' t).1 w
    unfold memWrite
    split
    · rename_i l
      split
      · exact w
      · rename_i z
        refine (memoryWf_cons _ _ _).2 ⟨z, fun e m => ?_, w⟩
        rcases List.mem_cons.1 m with rfl | m
        · exact l
        · exact lt_trans l (k.2.1 e m)
    · split
      · rename_i e
        subst e
        split
        · exact k.2.2
        · rename_i z
          exact (memoryWf_cons _ _ _).2 ⟨z, k.2.1, k.2.2⟩
      · refine (memoryWf_cons _ _ _).2 ⟨k.1, fun e m => ?_, ih k.2.2⟩
        rcases memWrite_mem m with h | h
        · rw [h]; omega
        · exact k.2.1 e h

/-- An address below every listed one reads as zero. -/
theorem memRead_below {m : List Host.Cell} {x : Nat} (l : ∀ e ∈ m, x < e.1) : memRead m x = 0 := by
  induction m with
  | nil => rfl
  | cons c t ih =>
    obtain ⟨a, b⟩ := c
    have := l _ List.mem_cons_self
    unfold memRead
    rw [if_neg (by simp at this; omega)]
    exact ih fun e m => l e (List.mem_cons_of_mem _ m)

/-- A byte read after a write of one byte. -/
theorem memRead_memWrite {m : List Host.Cell} (w : memoryWf m = true) (a : Nat) (b : BitVec 8) (x : Nat) :
    memRead (memWrite m a b) x = if x = a then b else memRead m x := by
  induction m with
  | nil =>
    unfold memWrite
    split
    · rename_i z; subst z; split <;> rfl
    · unfold memRead
      by_cases h : a = x
      · simp [h]
      · rw [if_neg h, if_neg (Ne.symm h)]; rfl
  | cons c t ih =>
    obtain ⟨a', b'⟩ := c
    have k := (memoryWf_cons a' b' t).1 w
    unfold memWrite
    split
    · rename_i l
      split
      · rename_i z
        split
        · rename_i e
          subst e; subst z
          refine memRead_below fun e m => ?_
          rcases List.mem_cons.1 m with rfl | m
          · exact l
          · exact lt_trans l (k.2.1 e m)
        · rfl
      · by_cases h : a = x
        · simp [memRead, h]
        · rw [memRead, if_neg h, if_neg (Ne.symm h)]
    · split
      · rename_i e
        subst e
        split
        · rename_i z
          subst z
          by_cases h : x = a'
          · subst h; rw [if_pos rfl]; exact memRead_below k.2.1
          · rw [if_neg h, memRead, if_neg (Ne.symm h)]
        · by_cases h : x = a'
          · subst h; simp [memRead]
          · rw [if_neg h, memRead, if_neg (Ne.symm h), memRead, if_neg (Ne.symm h)]
      · rename_i l e
        rw [memRead, ih k.2.2, memRead]
        by_cases h : a' = x
        · subst h; rw [if_pos rfl, if_pos rfl, if_neg e]
        · rw [if_neg h, if_neg h]

/-- A write of several bytes keeps the canonical form. -/
theorem memPut_wf {m : List Host.Cell} (w : memoryWf m = true) (a : Nat) (l : List (BitVec 8)) : memoryWf (memPut m a l) = true := by
  induction l generalizing m a with
  | nil => exact w
  | cons b t ih => exact ih (memWrite_wf w a b) (a + 1)

/-- A byte read after a write of several. -/
theorem memRead_memPut {m : List Host.Cell} (w : memoryWf m = true) (a : Nat) (l : List (BitVec 8)) (x : Nat) :
    memRead (memPut m a l) x = if a ≤ x ∧ x < a + l.length then l.getD (x - a) 0 else memRead m x := by
  induction l generalizing m a with
  | nil => rw [if_neg (by simp)]; rfl
  | cons b t ih =>
    rw [memPut, ih (memWrite_wf w a b), memRead_memWrite w]
    by_cases h : x = a
    · subst h
      rw [if_neg (by omega), if_pos rfl, if_pos (by simp), Nat.sub_self]
      rfl
    · by_cases i : a + 1 ≤ x ∧ x < a + 1 + t.length
      · rw [if_pos i, if_pos (by simp only [List.length_cons]; omega)]
        obtain ⟨d, e⟩ : ∃ d, x - a = d + 1 := ⟨x - a - 1, by omega⟩
        rw [e, show x - (a + 1) = d by omega]; rfl
      · rw [if_neg i, if_neg h, if_neg (by simp only [List.length_cons]; omega)]

/-- Every write to memory keeps its canonical form. -/
theorem Mem.put_wf {m : Mem} (w : memoryWf m.cells = true) (a : Nat) (l : List (BitVec 8)) : memoryWf (m.put a l).cells = true := memPut_wf w a l
theorem Mem.put64_wf {m : Mem} (w : memoryWf m.cells = true) (a : Nat) (l : List (BitVec 8)) : memoryWf (m.put64 a l).cells = true := memPut_wf w a l
theorem Mem.spoil_wf {m : Mem} (w : memoryWf m.cells = true) (a : Nat) : memoryWf (m.spoil a).cells = true := w

end Sys2Proof.Machine
end

