-- ==== Sys2Proof/Laws/Ops.lean ====
section
/-! SUPPORT. What the shared operations of the hub change and keep. -/

namespace Sys2Proof.Machine

/-! ## The register frame -/

theorem onlyRegs_refl (l : List Field) (h : Hub) : OnlyRegs l h h := fun _ _ => rfl

theorem onlyRegs_set {l : List Field} {h h' : Hub} {f : Field} (v : Nat) (hf : f.key ∈ l.map Field.key) (k : OnlyRegs l h h') :
    OnlyRegs l h (h'.set f v) := by
  intro g hg
  rw [Hub.get_set_ne h' f g v fun e => hg (e ▸ hf)]
  exact k g hg

theorem onlyRegs_on {l : List Field} {h h' : Hub} {f : Field} (hf : f.key ∈ l.map Field.key) (k : OnlyRegs l h h') :
    OnlyRegs l h (h'.on f) := onlyRegs_set 1 hf k

theorem onlyRegs_off {l : List Field} {h h' : Hub} {f : Field} (hf : f.key ∈ l.map Field.key) (k : OnlyRegs l h h') :
    OnlyRegs l h (h'.off f) := onlyRegs_set 0 hf k

theorem onlyRegs_of_regs {l : List Field} {h h' h'' : Hub} (e : h''.regs = h'.regs) (k : OnlyRegs l h h') : OnlyRegs l h h'' :=
  fun g hg => (Hub.get_of_regs h'' h' e g).trans (k g hg)

theorem onlyRegs_trans {l : List Field} {h h' h'' : Hub} (a : OnlyRegs l h h') (b : OnlyRegs l h' h'') : OnlyRegs l h h'' :=
  fun g hg => (b g hg).trans (a g hg)

theorem onlyRegs_mono {l l' : List Field} {h h' : Hub} (i : ∀ k ∈ l.map Field.key, k ∈ l'.map Field.key) (a : OnlyRegs l h h') :
    OnlyRegs l' h h' := fun g hg => a g fun m => hg (i _ m)

/-! ## Folds -/

/-- What every step of a fold keeps, the fold keeps. -/
theorem Hub.each_keeps {α : Type} (p : Hub → α) (f : Hub → Nat → Hub) (l : List Nat) (h : Hub)
    (k : ∀ h, ∀ n ∈ l, p (f h n) = p h) : p (h.each l f) = p h := by
  unfold Hub.each
  induction l generalizing h with
  | nil => rfl
  | cons x t ih =>
    rw [List.foldl_cons, ih _ fun h n m => k h n (List.mem_cons_of_mem x m)]
    exact k h x List.mem_cons_self

/-! ## Time -/

@[simp] theorem Hub.upTo_get (h : Hub) (t : Nat) (f : Field) : (h.upTo t).get f = h.get f := rfl

theorem Hub.upTo_now (h : Hub) (t : Nat) : (h.upTo t).time.now = max h.time.now t := rfl

theorem Hub.upTo_regs (h : Hub) (t : Nat) : (h.upTo t).regs = h.regs := rfl

/-! ## Counters -/

/-- A counter rises by what is added and stays at its top. -/
theorem Hub.bumpBy_get (h : Hub) (cnt sat : Field) (k : Nat) (d : cnt.key ≠ sat.key) :
    (h.bumpBy cnt sat k).get cnt = min (h.get cnt + k) cnt.top := by
  have t : min (h.get cnt + k) cnt.top < 2 ^ cnt.width := by
    have := Nat.two_pow_pos cnt.width
    unfold Field.top; omega
  unfold Hub.bumpBy; dsimp only
  split
  · rw [Hub.get_on_ne _ _ _ d, Hub.get_set_same, Nat.mod_eq_of_lt t]
  · rw [Hub.get_set_same, Nat.mod_eq_of_lt t]

theorem Hub.bumpBy_get_ne (h : Hub) (cnt sat f : Field) (k : Nat) (d : f.key ≠ cnt.key) (e : f.key ≠ sat.key) :
    (h.bumpBy cnt sat k).get f = h.get f := by
  unfold Hub.bumpBy; dsimp only
  split
  · rw [Hub.get_on_ne _ _ _ e, Hub.get_set_ne _ _ _ _ d]
  · rw [Hub.get_set_ne _ _ _ _ d]

theorem Hub.bump_get (h : Hub) (cnt sat : Field) (d : cnt.key ≠ sat.key) :
    (h.bump cnt sat).get cnt = min (h.get cnt + 1) cnt.top := h.bumpBy_get cnt sat 1 d

theorem Hub.bump_get_ne (h : Hub) (cnt sat f : Field) (d : f.key ≠ cnt.key) (e : f.key ≠ sat.key) :
    (h.bump cnt sat).get f = h.get f := h.bumpBy_get_ne cnt sat f 1 d e

/-! ## The trouble log (R424, R427) -/

/-- An entry changes no register but the log's counter, its flags and the log interrupt. -/
theorem Hub.log_get_ne (h : Hub) (c : LogCode) (a b d : Nat) (f : Field)
    (k : f.key ∉ [LOG_OVERWRITES, LOG_SAT, LOG_NEW, DEV_IRQ_LOG].map Field.key) : (h.log c a b d).get f = h.get f := by
  simp only [List.map_cons, List.map_nil, List.mem_cons, List.not_mem_nil, or_false, not_or] at k
  obtain ⟨k1, k2, k3, k4⟩ := k
  unfold Hub.log; dsimp only
  split <;> split <;> simp (disch := assumption) only [Hub.get_on_ne, Hub.bump_get_ne, Hub.get_setPwr]

/-- The newest entry of the log is the one the event writes, with the next SEQ. -/
theorem Hub.log_head (h : Hub) (c : LogCode) (a b d : Nat) : (h.log c a b d).pwr.log.head? = some (h.logEntry c a b d) := by
  unfold Hub.log Hub.bump Hub.bumpBy; dsimp only
  split <;> split <;> (try split) <;> simp [logRing, Hub.on]

end Sys2Proof.Machine
end

