-- ==== Sys2Proof/Laws/Records.lean ====
section
/-! SUPPORT. The records a hub keeps by number (channels, lanes, links, queues, carvers …): what is stored is read back, the other records and
every other field of the hub keep their values. -/

namespace Sys2Proof.Machine

variable (h : Hub)

@[simp] theorem Hub.setChan_chan_same (n : Nat) (x : Chan) : (h.setChan n x).chan n = x := aGet_aInsert_same _ _ _ _
@[simp] theorem Hub.setChan_chan_ne (n m : Nat) (x : Chan) (e : m ≠ n) : (h.setChan n x).chan m = h.chan m := aGet_aInsert_ne _ _ _ _ _ e
@[simp] theorem Hub.setChan_get (n : Nat) (x : Chan) (f : Field) : (h.setChan n x).get f = h.get f := rfl

@[simp] theorem Hub.setLane_lane_same (n : Nat) (x : LaneSt) : (h.setLane n x).lane n = x := aGet_aInsert_same _ _ _ _
@[simp] theorem Hub.setLane_lane_ne (n m : Nat) (x : LaneSt) (e : m ≠ n) : (h.setLane n x).lane m = h.lane m := aGet_aInsert_ne _ _ _ _ _ e
@[simp] theorem Hub.setLane_get (n : Nat) (x : LaneSt) (f : Field) : (h.setLane n x).get f = h.get f := rfl
@[simp] theorem Hub.setLane_regs (n : Nat) (x : LaneSt) : (h.setLane n x).regs = h.regs := rfl
@[simp] theorem Hub.setLane_pwr (n : Nat) (x : LaneSt) : (h.setLane n x).pwr = h.pwr := rfl
@[simp] theorem Hub.setLane_time (n : Nat) (x : LaneSt) : (h.setLane n x).time = h.time := rfl
@[simp] theorem Hub.setLane_exc (n : Nat) (x : LaneSt) : (h.setLane n x).exc = h.exc := rfl
@[simp] theorem Hub.setLane_chans (n : Nat) (x : LaneSt) : (h.setLane n x).chans = h.chans := rfl
@[simp] theorem Hub.setLane_hk (n : Nat) (x : LaneSt) : (h.setLane n x).hk = h.hk := rfl
@[simp] theorem Hub.setLane_upd (n : Nat) (x : LaneSt) : (h.setLane n x).upd = h.upd := rfl
@[simp] theorem Hub.setLane_lin (n : Nat) (x : LaneSt) : (h.setLane n x).lin = h.lin := rfl
@[simp] theorem Hub.setLane_arm (n : Nat) (x : LaneSt) : (h.setLane n x).arm = h.arm := rfl
@[simp] theorem Hub.setLane_mm (n : Nat) (x : LaneSt) : (h.setLane n x).mm = h.mm := rfl
@[simp] theorem Hub.setLane_acq (n : Nat) (x : LaneSt) : (h.setLane n x).acq = h.acq := rfl
@[simp] theorem Hub.setLane_cmp (n : Nat) (x : LaneSt) : (h.setLane n x).cmp = h.cmp := rfl
@[simp] theorem Hub.setLane_lk (n : Nat) (x : LaneSt) : (h.setLane n x).lk = h.lk := rfl
@[simp] theorem Hub.setLane_pair (n : Nat) (x : LaneSt) : (h.setLane n x).pair = h.pair := rfl
@[simp] theorem Hub.setLane_carve (n : Nat) (x : LaneSt) : (h.setLane n x).carve = h.carve := rfl
@[simp] theorem Hub.setLane_dma (n : Nat) (x : LaneSt) : (h.setLane n x).dma = h.dma := rfl
@[simp] theorem Hub.setLane_arb (n : Nat) (x : LaneSt) : (h.setLane n x).arb = h.arb := rfl
@[simp] theorem Hub.setLane_spi (n : Nat) (x : LaneSt) : (h.setLane n x).spi = h.spi := rfl
@[simp] theorem Hub.setLane_rd (n : Nat) (x : LaneSt) : (h.setLane n x).rd = h.rd := rfl
@[simp] theorem Hub.setLane_snaps (n : Nat) (x : LaneSt) : (h.setLane n x).snaps = h.snaps := rfl
@[simp] theorem Hub.setLane_free (n : Nat) (x : LaneSt) : (h.setLane n x).free = h.free := rfl

@[simp] theorem Hub.setDma_dmaSt_same (n : Nat) (x : DmaSt) : (h.setDma n x).dmaSt n = x := aGet_aInsert_same _ _ _ _
@[simp] theorem Hub.setDma_dmaSt_ne (n m : Nat) (x : DmaSt) (e : m ≠ n) : (h.setDma n x).dmaSt m = h.dmaSt m := aGet_aInsert_ne _ _ _ _ _ e
@[simp] theorem Hub.setDma_get (n : Nat) (x : DmaSt) (f : Field) : (h.setDma n x).get f = h.get f := rfl
@[simp] theorem Hub.setDma_regs (n : Nat) (x : DmaSt) : (h.setDma n x).regs = h.regs := rfl
@[simp] theorem Hub.setDma_pwr (n : Nat) (x : DmaSt) : (h.setDma n x).pwr = h.pwr := rfl
@[simp] theorem Hub.setDma_time (n : Nat) (x : DmaSt) : (h.setDma n x).time = h.time := rfl
@[simp] theorem Hub.setDma_exc (n : Nat) (x : DmaSt) : (h.setDma n x).exc = h.exc := rfl
@[simp] theorem Hub.setDma_chans (n : Nat) (x : DmaSt) : (h.setDma n x).chans = h.chans := rfl
@[simp] theorem Hub.setDma_hk (n : Nat) (x : DmaSt) : (h.setDma n x).hk = h.hk := rfl
@[simp] theorem Hub.setDma_upd (n : Nat) (x : DmaSt) : (h.setDma n x).upd = h.upd := rfl
@[simp] theorem Hub.setDma_lin (n : Nat) (x : DmaSt) : (h.setDma n x).lin = h.lin := rfl
@[simp] theorem Hub.setDma_arm (n : Nat) (x : DmaSt) : (h.setDma n x).arm = h.arm := rfl
@[simp] theorem Hub.setDma_mm (n : Nat) (x : DmaSt) : (h.setDma n x).mm = h.mm := rfl
@[simp] theorem Hub.setDma_acq (n : Nat) (x : DmaSt) : (h.setDma n x).acq = h.acq := rfl
@[simp] theorem Hub.setDma_cmp (n : Nat) (x : DmaSt) : (h.setDma n x).cmp = h.cmp := rfl
@[simp] theorem Hub.setDma_lk (n : Nat) (x : DmaSt) : (h.setDma n x).lk = h.lk := rfl
@[simp] theorem Hub.setDma_lanes (n : Nat) (x : DmaSt) : (h.setDma n x).lanes = h.lanes := rfl
@[simp] theorem Hub.setDma_pair (n : Nat) (x : DmaSt) : (h.setDma n x).pair = h.pair := rfl
@[simp] theorem Hub.setDma_carve (n : Nat) (x : DmaSt) : (h.setDma n x).carve = h.carve := rfl
@[simp] theorem Hub.setDma_arb (n : Nat) (x : DmaSt) : (h.setDma n x).arb = h.arb := rfl
@[simp] theorem Hub.setDma_spi (n : Nat) (x : DmaSt) : (h.setDma n x).spi = h.spi := rfl
@[simp] theorem Hub.setDma_rd (n : Nat) (x : DmaSt) : (h.setDma n x).rd = h.rd := rfl
@[simp] theorem Hub.setDma_snaps (n : Nat) (x : DmaSt) : (h.setDma n x).snaps = h.snaps := rfl
@[simp] theorem Hub.setDma_free (n : Nat) (x : DmaSt) : (h.setDma n x).free = h.free := rfl

@[simp] theorem Hub.setLink_link_same (n : Nat) (x : LinkSt) : (h.setLink n x).link n = x := aGet_aInsert_same _ _ _ _
@[simp] theorem Hub.setLink_link_ne (n m : Nat) (x : LinkSt) (e : m ≠ n) : (h.setLink n x).link m = h.link m := aGet_aInsert_ne _ _ _ _ _ e
@[simp] theorem Hub.setLink_get (n : Nat) (x : LinkSt) (f : Field) : (h.setLink n x).get f = h.get f := rfl
@[simp] theorem Hub.setLink_regs (n : Nat) (x : LinkSt) : (h.setLink n x).regs = h.regs := rfl
@[simp] theorem Hub.setLink_pwr (n : Nat) (x : LinkSt) : (h.setLink n x).pwr = h.pwr := rfl
@[simp] theorem Hub.setLink_time (n : Nat) (x : LinkSt) : (h.setLink n x).time = h.time := rfl
@[simp] theorem Hub.setLink_exc (n : Nat) (x : LinkSt) : (h.setLink n x).exc = h.exc := rfl
@[simp] theorem Hub.setLink_chans (n : Nat) (x : LinkSt) : (h.setLink n x).chans = h.chans := rfl
@[simp] theorem Hub.setLink_hk (n : Nat) (x : LinkSt) : (h.setLink n x).hk = h.hk := rfl
@[simp] theorem Hub.setLink_upd (n : Nat) (x : LinkSt) : (h.setLink n x).upd = h.upd := rfl
@[simp] theorem Hub.setLink_lin (n : Nat) (x : LinkSt) : (h.setLink n x).lin = h.lin := rfl
@[simp] theorem Hub.setLink_arm (n : Nat) (x : LinkSt) : (h.setLink n x).arm = h.arm := rfl
@[simp] theorem Hub.setLink_mm (n : Nat) (x : LinkSt) : (h.setLink n x).mm = h.mm := rfl
@[simp] theorem Hub.setLink_acq (n : Nat) (x : LinkSt) : (h.setLink n x).acq = h.acq := rfl
@[simp] theorem Hub.setLink_cmp (n : Nat) (x : LinkSt) : (h.setLink n x).cmp = h.cmp := rfl
@[simp] theorem Hub.setLink_lanes (n : Nat) (x : LinkSt) : (h.setLink n x).lanes = h.lanes := rfl
@[simp] theorem Hub.setLink_pair (n : Nat) (x : LinkSt) : (h.setLink n x).pair = h.pair := rfl
@[simp] theorem Hub.setLink_carve (n : Nat) (x : LinkSt) : (h.setLink n x).carve = h.carve := rfl
@[simp] theorem Hub.setLink_dma (n : Nat) (x : LinkSt) : (h.setLink n x).dma = h.dma := rfl
@[simp] theorem Hub.setLink_arb (n : Nat) (x : LinkSt) : (h.setLink n x).arb = h.arb := rfl
@[simp] theorem Hub.setLink_spi (n : Nat) (x : LinkSt) : (h.setLink n x).spi = h.spi := rfl
@[simp] theorem Hub.setLink_rd (n : Nat) (x : LinkSt) : (h.setLink n x).rd = h.rd := rfl
@[simp] theorem Hub.setLink_snaps (n : Nat) (x : LinkSt) : (h.setLink n x).snaps = h.snaps := rfl
@[simp] theorem Hub.setLink_free (n : Nat) (x : LinkSt) : (h.setLink n x).free = h.free := rfl

@[simp] theorem Hub.setQ_q_same (n : Nat) (x : QSt) : (h.setQ n x).q n = x := aGet_aInsert_same _ _ _ _
@[simp] theorem Hub.setQ_q_ne (n m : Nat) (x : QSt) (e : m ≠ n) : (h.setQ n x).q m = h.q m := aGet_aInsert_ne _ _ _ _ _ e
@[simp] theorem Hub.setQ_get (n : Nat) (x : QSt) (f : Field) : (h.setQ n x).get f = h.get f := rfl
@[simp] theorem Hub.setQ_regs (n : Nat) (x : QSt) : (h.setQ n x).regs = h.regs := rfl
@[simp] theorem Hub.setQ_pwr (n : Nat) (x : QSt) : (h.setQ n x).pwr = h.pwr := rfl
@[simp] theorem Hub.setQ_time (n : Nat) (x : QSt) : (h.setQ n x).time = h.time := rfl
@[simp] theorem Hub.setQ_exc (n : Nat) (x : QSt) : (h.setQ n x).exc = h.exc := rfl
@[simp] theorem Hub.setQ_chans (n : Nat) (x : QSt) : (h.setQ n x).chans = h.chans := rfl
@[simp] theorem Hub.setQ_hk (n : Nat) (x : QSt) : (h.setQ n x).hk = h.hk := rfl
@[simp] theorem Hub.setQ_upd (n : Nat) (x : QSt) : (h.setQ n x).upd = h.upd := rfl
@[simp] theorem Hub.setQ_lin (n : Nat) (x : QSt) : (h.setQ n x).lin = h.lin := rfl
@[simp] theorem Hub.setQ_arm (n : Nat) (x : QSt) : (h.setQ n x).arm = h.arm := rfl
@[simp] theorem Hub.setQ_acq (n : Nat) (x : QSt) : (h.setQ n x).acq = h.acq := rfl
@[simp] theorem Hub.setQ_cmp (n : Nat) (x : QSt) : (h.setQ n x).cmp = h.cmp := rfl
@[simp] theorem Hub.setQ_lk (n : Nat) (x : QSt) : (h.setQ n x).lk = h.lk := rfl
@[simp] theorem Hub.setQ_lanes (n : Nat) (x : QSt) : (h.setQ n x).lanes = h.lanes := rfl
@[simp] theorem Hub.setQ_pair (n : Nat) (x : QSt) : (h.setQ n x).pair = h.pair := rfl
@[simp] theorem Hub.setQ_carve (n : Nat) (x : QSt) : (h.setQ n x).carve = h.carve := rfl
@[simp] theorem Hub.setQ_dma (n : Nat) (x : QSt) : (h.setQ n x).dma = h.dma := rfl
@[simp] theorem Hub.setQ_arb (n : Nat) (x : QSt) : (h.setQ n x).arb = h.arb := rfl
@[simp] theorem Hub.setQ_spi (n : Nat) (x : QSt) : (h.setQ n x).spi = h.spi := rfl
@[simp] theorem Hub.setQ_rd (n : Nat) (x : QSt) : (h.setQ n x).rd = h.rd := rfl
@[simp] theorem Hub.setQ_snaps (n : Nat) (x : QSt) : (h.setQ n x).snaps = h.snaps := rfl
@[simp] theorem Hub.setQ_free (n : Nat) (x : QSt) : (h.setQ n x).free = h.free := rfl

@[simp] theorem Hub.setEng_eng_same (n : Nat) (x : Eng) : (h.setEng n x).eng n = x := aGet_aInsert_same _ _ _ _
@[simp] theorem Hub.setEng_eng_ne (n m : Nat) (x : Eng) (e : m ≠ n) : (h.setEng n x).eng m = h.eng m := aGet_aInsert_ne _ _ _ _ _ e
@[simp] theorem Hub.setEng_get (n : Nat) (x : Eng) (f : Field) : (h.setEng n x).get f = h.get f := rfl
@[simp] theorem Hub.setEng_regs (n : Nat) (x : Eng) : (h.setEng n x).regs = h.regs := rfl
@[simp] theorem Hub.setEng_pwr (n : Nat) (x : Eng) : (h.setEng n x).pwr = h.pwr := rfl
@[simp] theorem Hub.setEng_time (n : Nat) (x : Eng) : (h.setEng n x).time = h.time := rfl
@[simp] theorem Hub.setEng_exc (n : Nat) (x : Eng) : (h.setEng n x).exc = h.exc := rfl
@[simp] theorem Hub.setEng_chans (n : Nat) (x : Eng) : (h.setEng n x).chans = h.chans := rfl
@[simp] theorem Hub.setEng_hk (n : Nat) (x : Eng) : (h.setEng n x).hk = h.hk := rfl
@[simp] theorem Hub.setEng_upd (n : Nat) (x : Eng) : (h.setEng n x).upd = h.upd := rfl
@[simp] theorem Hub.setEng_lin (n : Nat) (x : Eng) : (h.setEng n x).lin = h.lin := rfl
@[simp] theorem Hub.setEng_arm (n : Nat) (x : Eng) : (h.setEng n x).arm = h.arm := rfl
@[simp] theorem Hub.setEng_mm (n : Nat) (x : Eng) : (h.setEng n x).mm = h.mm := rfl
@[simp] theorem Hub.setEng_acq (n : Nat) (x : Eng) : (h.setEng n x).acq = h.acq := rfl
@[simp] theorem Hub.setEng_cmp (n : Nat) (x : Eng) : (h.setEng n x).cmp = h.cmp := rfl
@[simp] theorem Hub.setEng_lk (n : Nat) (x : Eng) : (h.setEng n x).lk = h.lk := rfl
@[simp] theorem Hub.setEng_lanes (n : Nat) (x : Eng) : (h.setEng n x).lanes = h.lanes := rfl
@[simp] theorem Hub.setEng_pair (n : Nat) (x : Eng) : (h.setEng n x).pair = h.pair := rfl
@[simp] theorem Hub.setEng_dma (n : Nat) (x : Eng) : (h.setEng n x).dma = h.dma := rfl
@[simp] theorem Hub.setEng_arb (n : Nat) (x : Eng) : (h.setEng n x).arb = h.arb := rfl
@[simp] theorem Hub.setEng_spi (n : Nat) (x : Eng) : (h.setEng n x).spi = h.spi := rfl
@[simp] theorem Hub.setEng_rd (n : Nat) (x : Eng) : (h.setEng n x).rd = h.rd := rfl
@[simp] theorem Hub.setEng_snaps (n : Nat) (x : Eng) : (h.setEng n x).snaps = h.snaps := rfl
@[simp] theorem Hub.setEng_free (n : Nat) (x : Eng) : (h.setEng n x).free = h.free := rfl

@[simp] theorem Hub.setUnit_unit_same (n : Nat) (x : TUnit) : (h.setUnit n x).unit n = x := aGet_aInsert_same _ _ _ _
@[simp] theorem Hub.setUnit_unit_ne (n m : Nat) (x : TUnit) (e : m ≠ n) : (h.setUnit n x).unit m = h.unit m := aGet_aInsert_ne _ _ _ _ _ e
@[simp] theorem Hub.setUnit_get (n : Nat) (x : TUnit) (f : Field) : (h.setUnit n x).get f = h.get f := rfl
@[simp] theorem Hub.setUnit_regs (n : Nat) (x : TUnit) : (h.setUnit n x).regs = h.regs := rfl
@[simp] theorem Hub.setUnit_pwr (n : Nat) (x : TUnit) : (h.setUnit n x).pwr = h.pwr := rfl
@[simp] theorem Hub.setUnit_time (n : Nat) (x : TUnit) : (h.setUnit n x).time = h.time := rfl
@[simp] theorem Hub.setUnit_exc (n : Nat) (x : TUnit) : (h.setUnit n x).exc = h.exc := rfl
@[simp] theorem Hub.setUnit_chans (n : Nat) (x : TUnit) : (h.setUnit n x).chans = h.chans := rfl
@[simp] theorem Hub.setUnit_hk (n : Nat) (x : TUnit) : (h.setUnit n x).hk = h.hk := rfl
@[simp] theorem Hub.setUnit_upd (n : Nat) (x : TUnit) : (h.setUnit n x).upd = h.upd := rfl
@[simp] theorem Hub.setUnit_lin (n : Nat) (x : TUnit) : (h.setUnit n x).lin = h.lin := rfl
@[simp] theorem Hub.setUnit_arm (n : Nat) (x : TUnit) : (h.setUnit n x).arm = h.arm := rfl
@[simp] theorem Hub.setUnit_mm (n : Nat) (x : TUnit) : (h.setUnit n x).mm = h.mm := rfl
@[simp] theorem Hub.setUnit_cmp (n : Nat) (x : TUnit) : (h.setUnit n x).cmp = h.cmp := rfl
@[simp] theorem Hub.setUnit_lk (n : Nat) (x : TUnit) : (h.setUnit n x).lk = h.lk := rfl
@[simp] theorem Hub.setUnit_lanes (n : Nat) (x : TUnit) : (h.setUnit n x).lanes = h.lanes := rfl
@[simp] theorem Hub.setUnit_pair (n : Nat) (x : TUnit) : (h.setUnit n x).pair = h.pair := rfl
@[simp] theorem Hub.setUnit_carve (n : Nat) (x : TUnit) : (h.setUnit n x).carve = h.carve := rfl
@[simp] theorem Hub.setUnit_dma (n : Nat) (x : TUnit) : (h.setUnit n x).dma = h.dma := rfl
@[simp] theorem Hub.setUnit_arb (n : Nat) (x : TUnit) : (h.setUnit n x).arb = h.arb := rfl
@[simp] theorem Hub.setUnit_spi (n : Nat) (x : TUnit) : (h.setUnit n x).spi = h.spi := rfl
@[simp] theorem Hub.setUnit_rd (n : Nat) (x : TUnit) : (h.setUnit n x).rd = h.rd := rfl
@[simp] theorem Hub.setUnit_snaps (n : Nat) (x : TUnit) : (h.setUnit n x).snaps = h.snaps := rfl
@[simp] theorem Hub.setUnit_free (n : Nat) (x : TUnit) : (h.setUnit n x).free = h.free := rfl

@[simp] theorem Hub.setRes_arbRes_same (n : Nat) (x : ResSt) : (h.setRes n x).arbRes n = x := aGet_aInsert_same _ _ _ _
@[simp] theorem Hub.setRes_arbRes_ne (n m : Nat) (x : ResSt) (e : m ≠ n) : (h.setRes n x).arbRes m = h.arbRes m := aGet_aInsert_ne _ _ _ _ _ e
@[simp] theorem Hub.setRes_get (n : Nat) (x : ResSt) (f : Field) : (h.setRes n x).get f = h.get f := rfl
@[simp] theorem Hub.setRes_regs (n : Nat) (x : ResSt) : (h.setRes n x).regs = h.regs := rfl
@[simp] theorem Hub.setRes_pwr (n : Nat) (x : ResSt) : (h.setRes n x).pwr = h.pwr := rfl
@[simp] theorem Hub.setRes_time (n : Nat) (x : ResSt) : (h.setRes n x).time = h.time := rfl
@[simp] theorem Hub.setRes_exc (n : Nat) (x : ResSt) : (h.setRes n x).exc = h.exc := rfl
@[simp] theorem Hub.setRes_chans (n : Nat) (x : ResSt) : (h.setRes n x).chans = h.chans := rfl
@[simp] theorem Hub.setRes_hk (n : Nat) (x : ResSt) : (h.setRes n x).hk = h.hk := rfl
@[simp] theorem Hub.setRes_upd (n : Nat) (x : ResSt) : (h.setRes n x).upd = h.upd := rfl
@[simp] theorem Hub.setRes_lin (n : Nat) (x : ResSt) : (h.setRes n x).lin = h.lin := rfl
@[simp] theorem Hub.setRes_arm (n : Nat) (x : ResSt) : (h.setRes n x).arm = h.arm := rfl
@[simp] theorem Hub.setRes_mm (n : Nat) (x : ResSt) : (h.setRes n x).mm = h.mm := rfl
@[simp] theorem Hub.setRes_acq (n : Nat) (x : ResSt) : (h.setRes n x).acq = h.acq := rfl
@[simp] theorem Hub.setRes_cmp (n : Nat) (x : ResSt) : (h.setRes n x).cmp = h.cmp := rfl
@[simp] theorem Hub.setRes_lk (n : Nat) (x : ResSt) : (h.setRes n x).lk = h.lk := rfl
@[simp] theorem Hub.setRes_lanes (n : Nat) (x : ResSt) : (h.setRes n x).lanes = h.lanes := rfl
@[simp] theorem Hub.setRes_pair (n : Nat) (x : ResSt) : (h.setRes n x).pair = h.pair := rfl
@[simp] theorem Hub.setRes_carve (n : Nat) (x : ResSt) : (h.setRes n x).carve = h.carve := rfl
@[simp] theorem Hub.setRes_dma (n : Nat) (x : ResSt) : (h.setRes n x).dma = h.dma := rfl
@[simp] theorem Hub.setRes_spi (n : Nat) (x : ResSt) : (h.setRes n x).spi = h.spi := rfl
@[simp] theorem Hub.setRes_rd (n : Nat) (x : ResSt) : (h.setRes n x).rd = h.rd := rfl
@[simp] theorem Hub.setRes_snaps (n : Nat) (x : ResSt) : (h.setRes n x).snaps = h.snaps := rfl
@[simp] theorem Hub.setRes_free (n : Nat) (x : ResSt) : (h.setRes n x).free = h.free := rfl

@[simp] theorem Hub.setDom_dom_same (n : Nat) (x : DomState) : (h.setDom n x).dom n = x := aGet_aInsert_same _ _ _ _
@[simp] theorem Hub.setDom_dom_ne (n m : Nat) (x : DomState) (e : m ≠ n) : (h.setDom n x).dom m = h.dom m := aGet_aInsert_ne _ _ _ _ _ e
@[simp] theorem Hub.setDom_get (n : Nat) (x : DomState) (f : Field) : (h.setDom n x).get f = h.get f := rfl
@[simp] theorem Hub.setDom_regs (n : Nat) (x : DomState) : (h.setDom n x).regs = h.regs := rfl
@[simp] theorem Hub.setDom_pwr (n : Nat) (x : DomState) : (h.setDom n x).pwr = h.pwr := rfl
@[simp] theorem Hub.setDom_exc (n : Nat) (x : DomState) : (h.setDom n x).exc = h.exc := rfl
@[simp] theorem Hub.setDom_chans (n : Nat) (x : DomState) : (h.setDom n x).chans = h.chans := rfl
@[simp] theorem Hub.setDom_hk (n : Nat) (x : DomState) : (h.setDom n x).hk = h.hk := rfl
@[simp] theorem Hub.setDom_upd (n : Nat) (x : DomState) : (h.setDom n x).upd = h.upd := rfl
@[simp] theorem Hub.setDom_lin (n : Nat) (x : DomState) : (h.setDom n x).lin = h.lin := rfl
@[simp] theorem Hub.setDom_arm (n : Nat) (x : DomState) : (h.setDom n x).arm = h.arm := rfl
@[simp] theorem Hub.setDom_mm (n : Nat) (x : DomState) : (h.setDom n x).mm = h.mm := rfl
@[simp] theorem Hub.setDom_acq (n : Nat) (x : DomState) : (h.setDom n x).acq = h.acq := rfl
@[simp] theorem Hub.setDom_cmp (n : Nat) (x : DomState) : (h.setDom n x).cmp = h.cmp := rfl
@[simp] theorem Hub.setDom_lk (n : Nat) (x : DomState) : (h.setDom n x).lk = h.lk := rfl
@[simp] theorem Hub.setDom_lanes (n : Nat) (x : DomState) : (h.setDom n x).lanes = h.lanes := rfl
@[simp] theorem Hub.setDom_pair (n : Nat) (x : DomState) : (h.setDom n x).pair = h.pair := rfl
@[simp] theorem Hub.setDom_carve (n : Nat) (x : DomState) : (h.setDom n x).carve = h.carve := rfl
@[simp] theorem Hub.setDom_dma (n : Nat) (x : DomState) : (h.setDom n x).dma = h.dma := rfl
@[simp] theorem Hub.setDom_arb (n : Nat) (x : DomState) : (h.setDom n x).arb = h.arb := rfl
@[simp] theorem Hub.setDom_spi (n : Nat) (x : DomState) : (h.setDom n x).spi = h.spi := rfl
@[simp] theorem Hub.setDom_rd (n : Nat) (x : DomState) : (h.setDom n x).rd = h.rd := rfl
@[simp] theorem Hub.setDom_snaps (n : Nat) (x : DomState) : (h.setDom n x).snaps = h.snaps := rfl
@[simp] theorem Hub.setDom_free (n : Nat) (x : DomState) : (h.setDom n x).free = h.free := rfl

@[simp] theorem Hub.setPin_pin_same (n : Nat) (x : PinIn) : (h.setPin n x).pin n = x := aGet_aInsert_same _ _ _ _
@[simp] theorem Hub.setPin_pin_ne (n m : Nat) (x : PinIn) (e : m ≠ n) : (h.setPin n x).pin m = h.pin m := aGet_aInsert_ne _ _ _ _ _ e
@[simp] theorem Hub.setPin_get (n : Nat) (x : PinIn) (f : Field) : (h.setPin n x).get f = h.get f := rfl
@[simp] theorem Hub.setPin_regs (n : Nat) (x : PinIn) : (h.setPin n x).regs = h.regs := rfl
@[simp] theorem Hub.setPin_pwr (n : Nat) (x : PinIn) : (h.setPin n x).pwr = h.pwr := rfl
@[simp] theorem Hub.setPin_exc (n : Nat) (x : PinIn) : (h.setPin n x).exc = h.exc := rfl
@[simp] theorem Hub.setPin_chans (n : Nat) (x : PinIn) : (h.setPin n x).chans = h.chans := rfl
@[simp] theorem Hub.setPin_hk (n : Nat) (x : PinIn) : (h.setPin n x).hk = h.hk := rfl
@[simp] theorem Hub.setPin_upd (n : Nat) (x : PinIn) : (h.setPin n x).upd = h.upd := rfl
@[simp] theorem Hub.setPin_lin (n : Nat) (x : PinIn) : (h.setPin n x).lin = h.lin := rfl
@[simp] theorem Hub.setPin_arm (n : Nat) (x : PinIn) : (h.setPin n x).arm = h.arm := rfl
@[simp] theorem Hub.setPin_mm (n : Nat) (x : PinIn) : (h.setPin n x).mm = h.mm := rfl
@[simp] theorem Hub.setPin_acq (n : Nat) (x : PinIn) : (h.setPin n x).acq = h.acq := rfl
@[simp] theorem Hub.setPin_cmp (n : Nat) (x : PinIn) : (h.setPin n x).cmp = h.cmp := rfl
@[simp] theorem Hub.setPin_lk (n : Nat) (x : PinIn) : (h.setPin n x).lk = h.lk := rfl
@[simp] theorem Hub.setPin_lanes (n : Nat) (x : PinIn) : (h.setPin n x).lanes = h.lanes := rfl
@[simp] theorem Hub.setPin_pair (n : Nat) (x : PinIn) : (h.setPin n x).pair = h.pair := rfl
@[simp] theorem Hub.setPin_carve (n : Nat) (x : PinIn) : (h.setPin n x).carve = h.carve := rfl
@[simp] theorem Hub.setPin_dma (n : Nat) (x : PinIn) : (h.setPin n x).dma = h.dma := rfl
@[simp] theorem Hub.setPin_arb (n : Nat) (x : PinIn) : (h.setPin n x).arb = h.arb := rfl
@[simp] theorem Hub.setPin_spi (n : Nat) (x : PinIn) : (h.setPin n x).spi = h.spi := rfl
@[simp] theorem Hub.setPin_rd (n : Nat) (x : PinIn) : (h.setPin n x).rd = h.rd := rfl
@[simp] theorem Hub.setPin_snaps (n : Nat) (x : PinIn) : (h.setPin n x).snaps = h.snaps := rfl
@[simp] theorem Hub.setPin_free (n : Nat) (x : PinIn) : (h.setPin n x).free = h.free := rfl

@[simp] theorem Hub.setOut_out_same (n : Nat) (x : PinOut) : (h.setOut n x).out n = x := aGet_aInsert_same _ _ _ _
@[simp] theorem Hub.setOut_out_ne (n m : Nat) (x : PinOut) (e : m ≠ n) : (h.setOut n x).out m = h.out m := aGet_aInsert_ne _ _ _ _ _ e
@[simp] theorem Hub.setOut_get (n : Nat) (x : PinOut) (f : Field) : (h.setOut n x).get f = h.get f := rfl
@[simp] theorem Hub.setOut_regs (n : Nat) (x : PinOut) : (h.setOut n x).regs = h.regs := rfl
@[simp] theorem Hub.setOut_pwr (n : Nat) (x : PinOut) : (h.setOut n x).pwr = h.pwr := rfl
@[simp] theorem Hub.setOut_exc (n : Nat) (x : PinOut) : (h.setOut n x).exc = h.exc := rfl
@[simp] theorem Hub.setOut_chans (n : Nat) (x : PinOut) : (h.setOut n x).chans = h.chans := rfl
@[simp] theorem Hub.setOut_hk (n : Nat) (x : PinOut) : (h.setOut n x).hk = h.hk := rfl
@[simp] theorem Hub.setOut_upd (n : Nat) (x : PinOut) : (h.setOut n x).upd = h.upd := rfl
@[simp] theorem Hub.setOut_lin (n : Nat) (x : PinOut) : (h.setOut n x).lin = h.lin := rfl
@[simp] theorem Hub.setOut_arm (n : Nat) (x : PinOut) : (h.setOut n x).arm = h.arm := rfl
@[simp] theorem Hub.setOut_mm (n : Nat) (x : PinOut) : (h.setOut n x).mm = h.mm := rfl
@[simp] theorem Hub.setOut_acq (n : Nat) (x : PinOut) : (h.setOut n x).acq = h.acq := rfl
@[simp] theorem Hub.setOut_cmp (n : Nat) (x : PinOut) : (h.setOut n x).cmp = h.cmp := rfl
@[simp] theorem Hub.setOut_lk (n : Nat) (x : PinOut) : (h.setOut n x).lk = h.lk := rfl
@[simp] theorem Hub.setOut_lanes (n : Nat) (x : PinOut) : (h.setOut n x).lanes = h.lanes := rfl
@[simp] theorem Hub.setOut_pair (n : Nat) (x : PinOut) : (h.setOut n x).pair = h.pair := rfl
@[simp] theorem Hub.setOut_carve (n : Nat) (x : PinOut) : (h.setOut n x).carve = h.carve := rfl
@[simp] theorem Hub.setOut_dma (n : Nat) (x : PinOut) : (h.setOut n x).dma = h.dma := rfl
@[simp] theorem Hub.setOut_arb (n : Nat) (x : PinOut) : (h.setOut n x).arb = h.arb := rfl
@[simp] theorem Hub.setOut_spi (n : Nat) (x : PinOut) : (h.setOut n x).spi = h.spi := rfl
@[simp] theorem Hub.setOut_rd (n : Nat) (x : PinOut) : (h.setOut n x).rd = h.rd := rfl
@[simp] theorem Hub.setOut_snaps (n : Nat) (x : PinOut) : (h.setOut n x).snaps = h.snaps := rfl
@[simp] theorem Hub.setOut_free (n : Nat) (x : PinOut) : (h.setOut n x).free = h.free := rfl

@[simp] theorem Hub.modLane_lane_same (n : Nat) (f : LaneSt → LaneSt) : (h.modLane n f).lane n = f (h.lane n) := h.setLane_lane_same n _
@[simp] theorem Hub.modLane_get (n : Nat) (f : LaneSt → LaneSt) (k : Field) : (h.modLane n f).get k = h.get k := rfl
@[simp] theorem Hub.modLink_link_same (n : Nat) (f : LinkSt → LinkSt) : (h.modLink n f).link n = f (h.link n) := h.setLink_link_same n _
@[simp] theorem Hub.modLink_get (n : Nat) (f : LinkSt → LinkSt) (k : Field) : (h.modLink n f).get k = h.get k := rfl

end Sys2Proof.Machine
end

