-- ==== Sys2Proof/Laws/Stores.lean ====
section
/-! SUPPORT. Which operations of the hub leave buffer memory alone, and that the others keep its canonical form. -/

namespace Sys2Proof.Machine

theorem Hw.sc_mem (w : Hw) (v i : Nat) (f : Hw → Hw) (e : ∀ w, (f w).mem = w.mem) : (w.sc v i f).mem = w.mem := by
  unfold Hw.sc; split
  · exact e w
  · rfl

@[simp] theorem Hw.writeBoot_mem (w : Hw) (f : BootRec → BootRec) : (w.writeBoot f).mem = w.mem := by
  unfold Hw.writeBoot; (try dsimp only); (repeat' split) <;> simp

@[simp] theorem Hw.showCasts_mem (w : Hw)  : (w.showCasts ).mem = w.mem := by
  unfold Hw.showCasts; (try dsimp only); (repeat' split) <;> simp

@[simp] theorem Hw.updStart_mem (w : Hw)  : (w.updStart ).mem = w.mem := by
  unfold Hw.updStart; (try dsimp only); (repeat' split) <;> simp

@[simp] theorem Hw.eraseSlot_mem (w : Hw)  : (w.eraseSlot ).mem = w.mem := by
  unfold Hw.eraseSlot; (try dsimp only); (repeat' split) <;> simp

@[simp] theorem Hw.updAccept_mem (w : Hw) (c : Cast) (n : Nat) : (w.updAccept c n).mem = w.mem := by
  unfold Hw.updAccept; (try dsimp only); (repeat' split) <;> simp

@[simp] theorem Hw.blockIn_mem (w : Hw) (all : List (BitVec 8)) (copy : Bool) : (w.blockIn all copy).mem = w.mem := by
  unfold Hw.blockIn; (try dsimp only); (repeat' split) <;> simp

@[simp] theorem Hw.updWord_mem (w : Hw) (v : Nat) (copy : Bool) : (w.updWord v copy).mem = w.mem := by
  unfold Hw.updWord; (try dsimp only); (repeat' split) <;> simp

@[simp] theorem Hw.updData_mem (w : Hw) (v : Nat) : (w.updData v).mem = w.mem := by
  unfold Hw.updData; (try dsimp only); (repeat' split) <;> simp

theorem foldl_mem {α : Type} (f : Hw → α → Hw) (e : ∀ w x, (f w x).mem = w.mem) : ∀ (l : List α) (w : Hw), (l.foldl f w).mem = w.mem
  | [], _ => rfl
  | x :: t, w => (foldl_mem f e t (f w x)).trans (e w x)

theorem Hw.scs_mem (v : Nat) : ∀ (l : List (Nat × (Hw → Hw))) (w : Hw), (∀ e ∈ l, ∀ w, (e.2 w).mem = w.mem) → (w.scs v l).mem = w.mem
  | [], _, _ => rfl
  | x :: t, w, e => (Hw.scs_mem v t (w.sc v x.1 x.2) fun y m => e y (List.mem_cons_of_mem _ m)).trans
      (Hw.sc_mem w v x.1 x.2 (e x List.mem_cons_self))

@[simp] theorem Hw.updFeed_mem (w : Hw) (a n : Nat) : (w.updFeed a n).mem = w.mem := by
  unfold Hw.updFeed; split
  · exact foldl_mem _ (fun w x => Hw.updWord_mem w x true) _ _
  · rfl

@[simp] theorem Hw.updCopy_mem (w : Hw)  : (w.updCopy ).mem = w.mem := by
  unfold Hw.updCopy; (try dsimp only); (repeat' split) <;> simp

@[simp] theorem Hw.castCheckDone_mem (w : Hw) (x : Fin 3) : (w.castCheckDone x).mem = w.mem := by
  unfold Hw.castCheckDone; (try dsimp only); (repeat' split) <;> simp

@[simp] theorem Hw.writeStable_mem (w : Hw)  : (w.writeStable ).mem = w.mem := by
  unfold Hw.writeStable; (try dsimp only); (repeat' split) <;> simp

@[simp] theorem Hw.updSchedule_mem (w : Hw)  : (w.updSchedule ).mem = w.mem := by
  unfold Hw.updSchedule; (try dsimp only); (repeat' split) <;> simp

@[simp] theorem Hw.updUnschedule_mem (w : Hw)  : (w.updUnschedule ).mem = w.mem := by
  unfold Hw.updUnschedule; (try dsimp only); (repeat' split) <;> simp

@[simp] theorem Hw.activate_mem (w : Hw)  : (w.activate ).mem = w.mem := by
  unfold Hw.activate; (try dsimp only); (repeat' split) <;> simp

@[simp] theorem Hw.confirm_mem (w : Hw)  : (w.confirm ).mem = w.mem := by
  unfold Hw.confirm; (try dsimp only); (repeat' split) <;> simp

@[simp] theorem Hw.stagePrev_mem (w : Hw)  : (w.stagePrev ).mem = w.mem := by
  unfold Hw.stagePrev; (try dsimp only); (repeat' split) <;> simp

@[simp] theorem Hw.setBegin_mem (w : Hw) (m : AMap Nat) : (w.setBegin m).mem = w.mem := by
  unfold Hw.setBegin; (try dsimp only); (repeat' split) <;> simp

@[simp] theorem Hw.settingsWrite_mem (w : Hw)  : (w.settingsWrite ).mem = w.mem := by
  unfold Hw.settingsWrite; (try dsimp only); (repeat' split) <;> simp

@[simp] theorem Hw.save_mem (w : Hw)  : (w.save ).mem = w.mem := by
  unfold Hw.save; (try dsimp only); (repeat' split) <;> simp

@[simp] theorem Hw.putSettings_mem (w : Hw) (s : Nat) (m : AMap Nat) : (w.putSettings s m).mem = w.mem := by
  unfold Hw.putSettings; (try dsimp only); (repeat' split) <;> simp

@[simp] theorem Hw.settingsDone_mem (w : Hw)  : (w.settingsDone ).mem = w.mem := by
  unfold Hw.settingsDone; (try dsimp only); (repeat' split) <;> simp

@[simp] theorem Hw.settingsLoad_mem (w : Hw)  : (w.settingsLoad ).mem = w.mem := by
  unfold Hw.settingsLoad; (try dsimp only); (repeat' split) <;> simp

@[simp] theorem Hw.lcFlash_mem (w : Hw) (t : Nat) : (w.lcFlash t).mem = w.mem := by
  unfold Hw.lcFlash; (try dsimp only); (repeat' split) <;> simp

@[simp] theorem Hw.lcGo_mem (w : Hw)  : (w.lcGo ).mem = w.mem := by
  unfold Hw.lcGo; (try dsimp only); (repeat' split) <;> simp

@[simp] theorem Hw.factoryWrite_mem (w : Hw)  : (w.factoryWrite ).mem = w.mem := by
  unfold Hw.factoryWrite; (try dsimp only); (repeat' split) <;> simp

@[simp] theorem Hw.patCheck_mem (w : Hw)  : (w.patCheck ).mem = w.mem := by
  unfold Hw.patCheck; (try dsimp only); (repeat' split) <;> simp

@[simp] theorem Hw.patReload_mem (w : Hw)  : (w.patReload ).mem = w.mem := by
  unfold Hw.patReload; (try dsimp only); (repeat' split) <;> simp

@[simp] theorem Hw.armCopy_mem (w : Hw)  : (w.armCopy ).mem = w.mem := by
  unfold Hw.armCopy; (try dsimp only); (repeat' split) <;> simp

@[simp] theorem Hw.runCast_mem (w : Hw) (s : Nat) : (w.runCast s).mem = w.mem := by
  unfold Hw.runCast; (try dsimp only); (repeat' split) <;> simp

@[simp] theorem Hw.runNone_mem (w : Hw)  : (w.runNone ).mem = w.mem := by
  unfold Hw.runNone; (try dsimp only); (repeat' split) <;> simp

@[simp] theorem Hw.noCast_mem (w : Hw) : w.noCast.mem = w.mem := by
  unfold Hw.noCast; (try dsimp only); (repeat' split) <;> simp

@[simp] theorem Hw.castLoaded_mem (w : Hw)  : (w.castLoaded ).mem = w.mem := by
  unfold Hw.castLoaded; (try dsimp only); (repeat' split) <;> simp

@[simp] theorem Hw.unreadable_mem (w : Hw) (s : Option Nat) : (w.unreadable s).mem = w.mem := by
  unfold Hw.unreadable; (try dsimp only); (repeat' split) <;> simp

@[simp] theorem Hw.migrate_mem (w : Hw) (c : Cast) : (w.migrate c).mem = w.mem := by
  unfold Hw.migrate; (try dsimp only); (repeat' split) <;> simp

@[simp] theorem Hw.takeSettings_mem (w : Hw) : w.takeSettings.2.mem = w.mem := by
  unfold Hw.takeSettings; (try dsimp only); (repeat' split) <;> simp

@[simp] theorem Hw.selectCast_mem (w : Hw) : w.selectCast.2.mem = w.mem := by
  unfold Hw.selectCast; (try dsimp only); (repeat' split) <;> simp

@[simp] theorem Hw.settingsLoaded_mem (w : Hw)  : (w.settingsLoaded ).mem = w.mem := by
  unfold Hw.settingsLoaded; (try dsimp only); (repeat' split) <;> simp

@[simp] theorem Hw.startUpDone_mem (w : Hw)  : (w.startUpDone ).mem = w.mem := by
  unfold Hw.startUpDone; (try dsimp only); (repeat' split) <;> simp

@[simp] theorem Hw.leaveMaint_mem (w : Hw)  : (w.leaveMaint ).mem = w.mem := by
  unfold Hw.leaveMaint; (try dsimp only); (repeat' split) <;> simp

@[simp] theorem Hw.modeGo_mem (w : Hw)  : (w.modeGo ).mem = w.mem := by
  unfold Hw.modeGo; (try dsimp only); (repeat' split) <;> simp

@[simp] theorem Hw.modeCmd_mem (w : Hw) (c : Nat) : (w.modeCmd c).mem = w.mem := by
  unfold Hw.modeCmd; (try dsimp only); (repeat' split) <;> simp

@[simp] theorem Hw.schedCancel_mem (w : Hw) (s : Nat) : (w.schedCancel s).mem = w.mem := by
  unfold Hw.schedCancel; (try dsimp only); (repeat' split) <;> simp

@[simp] theorem Hw.devWrite_mem (w : Hw) (a v : Nat) : (w.devWrite a v).mem = w.mem := by
  unfold Hw.devWrite; dsimp only; split
  · exact Hw.sc_mem _ _ _ _ Hw.modeGo_mem
  · split <;> rfl

@[simp] theorem Hw.timeWrite_mem (w : Hw) (a v : Nat) : (w.timeWrite a v).mem = w.mem := by
  unfold Hw.timeWrite; split
  · split
    · exact Hw.sc_mem _ _ _ _ fun w => Hw.schedCancel_mem w _
    · rfl
  · rfl

@[simp] theorem Hw.hkWrite_mem (w : Hw) (a v : Nat) : (w.hkWrite a v).mem = w.mem := by
  unfold Hw.hkWrite; split
  · rfl
  · dsimp only; split
    · rfl
    · split
      · rfl
      · split
        · rfl
        · split
          · rfl
          · split
            · exact Hw.sc_mem _ _ _ _ Hw.save_mem
            · split
              · refine Hw.scs_mem _ _ _ fun e m => ?_
                simp only [List.mem_cons, List.not_mem_nil, or_false] at m
                rcases m with rfl | rfl
                · exact Hw.patCheck_mem
                · exact Hw.patReload_mem
              · rfl

@[simp] theorem Hw.armWrite_mem (w : Hw) (a v : Nat) : (w.armWrite a v).mem = w.mem := by
  unfold Hw.armWrite; split
  · rfl
  · dsimp only; split
    · exact Hw.sc_mem _ _ _ _ Hw.armCopy_mem
    · rfl

@[simp] theorem Hw.updWrite_mem (w : Hw) (a v : Nat) : (w.updWrite a v).mem = w.mem := by
  unfold Hw.updWrite; split
  · exact Hw.updData_mem _ _
  · split
    · rfl
    · split
      · rfl
      · split
        · rfl
        · dsimp only; split
          · refine Hw.scs_mem _ _ _ fun e m => ?_
            simp only [List.mem_cons, List.not_mem_nil, or_false] at m
            rcases m with rfl | rfl | rfl | rfl | rfl | rfl | rfl | rfl | rfl <;> intro w <;> simp
          · split
            · rfl
            · split
              · refine Hw.scs_mem _ _ _ fun e m => ?_
                simp only [List.mem_cons, List.not_mem_nil, or_false] at m
                rcases m with rfl | rfl <;> intro w <;> simp
              · split
                · exact Hw.sc_mem _ _ _ _ Hw.lcGo_mem
                · split
                  · exact Hw.sc_mem _ _ _ _ Hw.factoryWrite_mem
                  · rfl

@[simp] theorem Hw.laneWrite_mem (w : Hw) (n o v : Nat) : (w.laneWrite n o v).mem = w.mem := by
  unfold Hw.laneWrite; (try dsimp only); (repeat' split) <;> simp

@[simp] theorem Hw.windowRead_mem (w : Hw) (o : Nat) : (w.windowRead o).2.mem = w.mem := by
  have k : ∀ (b : Bool) (a : Nat), (if b then w.onHub (fun h => h.ueAt a) else w : Hw).mem = w.mem := by intro b a; cases b <;> rfl
  unfold Hw.windowRead; generalize w.hub.windowAt o = a; extract_lets a
  generalize w.hub.hostPage (a / 4096) = b; generalize w.mem.isBad a = c
  refine iteInduction (motive := fun p : Nat × Hw => p.2.mem = w.mem) (fun _ => rfl) fun _ => ?_
  cases b
  · exact (Hw.onHub_mem _ _).trans (k _ _)
  · exact k _ _

@[simp] theorem Hw.readWord_mem (w : Hw) (p a : Nat) : (w.readWord p a).2.mem = w.mem := by
  unfold Hw.readWord; (try dsimp only); (repeat' split) <;> simp

@[simp] theorem Hw.read32_mem (w : Hw) (p a : Nat) : (w.read32 p a).mem = w.mem := by
  unfold Hw.read32; (try dsimp only); (repeat' split) <;> simp

@[simp] theorem Hw.read64_mem (w : Hw) (p a : Nat) : (w.read64 p a).mem = w.mem := by
  unfold Hw.read64; (try dsimp only); (repeat' split) <;> simp

@[simp] theorem Hw.resetRx_mem (w : Hw) (k l d a : Nat) : (w.resetRx k l d a).mem = w.mem := by
  unfold Hw.resetRx; (try dsimp only); (repeat' split) <;> simp

/-! ## What writes memory keeps its canonical form -/

/-- Memory is in its canonical form. -/
def Hw.wf (w : Hw) : Prop := memoryWf w.mem.cells = true

theorem Hw.wf_of_mem {w w' : Hw} (u : w.wf) (e : w'.mem = w.mem) : w'.wf := by unfold Hw.wf; rw [e]; exact u
theorem Hw.put_wf {w : Hw} (u : w.wf) (a : Nat) (l : List (BitVec 8)) : (w.setMem (w.mem.put a l)).wf := Mem.put_wf u a l
theorem Hw.spoil_wf {w : Hw} (u : w.wf) (a : Nat) : (w.setMem (w.mem.spoil a)).wf := u

theorem Hw.wf_setHub {w : Hw} (u : w.wf) (h : Hub) : (w.setHub h).wf := u
theorem Hw.wf_onHub {w : Hw} (u : w.wf) (f : Hub → Hub) : (w.onHub f).wf := u

theorem Hw.hostWr_wf {w : Hw} (u : w.wf) (a v : Nat) (f : Hw → Hw) (k : ∀ w : Hw, w.wf → (f w).wf) : (w.hostWr a v f).wf := by
  unfold Hw.hostWr; split
  · exact u
  · split
    · split
      · split <;> exact u
      · split
        · exact k w u
        · exact k w u
    · exact k w u

theorem Hw.whenUp_wf {w : Hw} (u : w.wf) (f : Hw → Hw) (k : ∀ w : Hw, w.wf → (f w).wf) : (w.whenUp f).wf := by
  unfold Hw.whenUp; split
  · exact k w u
  · exact u

theorem Hw.sc_wf {w : Hw} (u : w.wf) (v i : Nat) (f : Hw → Hw) (k : ∀ w : Hw, w.wf → (f w).wf) : (w.sc v i f).wf := by
  unfold Hw.sc; split
  · exact k w u
  · exact u

theorem Hw.scs_wf (v : Nat) : ∀ (l : List (Nat × (Hw → Hw))) (w : Hw), w.wf → (∀ e ∈ l, ∀ w : Hw, w.wf → (e.2 w).wf) → (w.scs v l).wf
  | [], _, u, _ => u
  | x :: t, w, u, e => Hw.scs_wf v t (w.sc v x.1 x.2) (Hw.sc_wf u _ _ _ (e x List.mem_cons_self)) fun y m => e y (List.mem_cons_of_mem _ m)

theorem spoils_wf (l : List (Fin (2 ^ 28))) : ∀ m : Mem, memoryWf m.cells = true → memoryWf (l.foldl (fun m a => m.spoil a.val) m).cells = true := by
  induction l with
  | nil => exact fun _ u => u
  | cons x t ih => exact fun m u => ih (m.spoil x.val) u

theorem Hw.scrubPass_wf {w : Hw} (u : w.wf) (ce : Nat) (l : List (Fin (2 ^ 28))) : (w.scrubPass ce l).wf := by
  unfold Hw.scrubPass; split
  · exact spoils_wf l w.mem u
  · exact u

theorem Hw.windowMerge_wf {w : Hw} (u : w.wf) (a v : Nat) : (w.windowMerge a v).wf := by
  unfold Hw.windowMerge; split
  · exact u
  · split
    · exact u
    · exact Hw.put_wf u _ _

theorem Hw.windowWrite_wf {w : Hw} (u : w.wf) (o v : Nat) (x : Option Nat) : (w.windowWrite o v x).wf := by
  unfold Hw.windowWrite; dsimp only; split
  · exact Hw.windowMerge_wf u _ _
  · split
    · split
      · exact Mem.put64_wf u _ _
      · exact u
    · split
      · exact Hw.windowMerge_wf (Hw.windowMerge_wf u _ _) _ _
      · exact Hw.windowMerge_wf u _ _

theorem Hw.windowAccess_wf {w : Hw} (u : w.wf) (p o : Nat) (x : Option (Word × Option Word)) (e : Fin 3) : (w.windowAccess p o x e).wf := by
  have k : ∀ w : Hw, w.wf → (match x with
      | some (v, v2) => w.windowWrite o v.toNat (Option.map (fun y : Word => y.toNat) v2)
      | none => (w.windowRead o).2.onHub fun h => h.setRd p (w.windowRead o).1).wf := by
    intro w u; cases x with
    | none => exact Hw.wf_of_mem u ((Hw.onHub_mem _ _).trans (Hw.windowRead_mem _ _))
    | some y => exact Hw.windowWrite_wf u _ _ _
  unfold Hw.windowAccess
  refine iteInduction (motive := Hw.wf) (fun _ => u) fun _ => k _ ?_
  exact iteInduction (motive := Hw.wf) (fun _ => u) fun _ => iteInduction (motive := Hw.wf) (fun _ => Hw.spoil_wf u _) fun _ => u

theorem Hw.jobPut_wf {w : Hw} (u : w.wf) (a : Nat) (l : List (BitVec 8)) : (w.jobPut a l).wf := by
  unfold Hw.jobPut; split
  · exact Hw.put_wf u _ _
  · exact u

theorem Hw.dcmpDone_wf {w : Hw} (u : w.wf) : w.dcmpDone.wf := by
  unfold Hw.dcmpDone; split
  · exact u
  · dsimp only; exact Hw.jobPut_wf u _ _

theorem Hw.dcmpAbort_wf {w : Hw} (u : w.wf) (n : Nat) : (w.dcmpAbort n).wf := by
  unfold Hw.dcmpAbort; split
  · exact u
  · dsimp only; exact Hw.jobPut_wf u _ _

/-! ## DMA -/

theorem Hw.dmaWriteBack_wf {w : Hw} (u : w.wf) (c x : Nat) (a b : Bool) (l t : Nat) : (w.dmaWriteBack c x a b l t).wf := by
  unfold Hw.dmaWriteBack; dsimp only; split
  · exact Hw.put_wf u _ _
  · exact u

theorem Hw.dmaHalt_wf {w : Hw} (u : w.wf) (c : Nat) (f : Halt) : (w.dmaHalt c f).wf := by
  unfold Hw.dmaHalt; dsimp only; exact Hw.dmaWriteBack_wf u _ _ _ _ _ _

theorem Hw.dmaWord_wf {w : Hw} (u : w.wf) (c : Nat) (d : Desc) (v : Nat) : (w.dmaWord c d v).1.wf := by
  unfold Hw.dmaWord; dsimp only; split
  · exact u
  · split
    · exact u
    · split
      · split
        · exact Hw.put_wf u _ _
        · exact u
      · exact u

theorem Hw.dmaWords_wf (c : Nat) (d : Desc) (l : Nat) : ∀ (n : Nat) (x : List Nat) (w : Hw), w.wf → (Hw.dmaWords n c d x l w).1.wf
  | 0, _, _, u => u
  | n + 1, x, w, u => by
    have k := Hw.dmaWord_wf u c d (x.headD 0)
    unfold Hw.dmaWords; split
    · exact u
    · split
      · rename_i e; rw [e] at k; exact k
      · rename_i e; rw [e] at k; exact Hw.dmaWords_wf c d l n _ _ k

theorem Hw.dmaPktWords_wf (c : Nat) (d : Desc) (bs : List (BitVec 8)) (l : Nat) : ∀ (n : Nat) (w : Hw), w.wf → (Hw.dmaPktWords n c d bs l w).1.wf
  | 0, _, u => u
  | n + 1, w, u => by
    unfold Hw.dmaPktWords; dsimp only; split
    · exact u
    · split
      · exact Hw.dmaPktWords_wf c d bs l n _ (Hw.put_wf u _ _)
      · exact u

theorem Hw.dmaPkts_wf (c : Nat) (d : Desc) (l : Nat) : ∀ (n : Nat) (w : Hw), w.wf → (Hw.dmaPkts n c d l w).1.wf
  | 0, _, u => u
  | n + 1, w, u => by
    unfold Hw.dmaPkts; dsimp only; split
    · exact u
    · rename_i p0 _
      generalize (if p0.moving then (p0, w.hub) else w.hub.readPkt (d.src % 256) p0) = r
      have u' : (w.setHub r.2).wf := u
      generalize w.setHub r.2 = w1 at u' ⊢
      split
      · exact u'
      · have k := Hw.dmaPktWords_wf c d r.1.stored l r.1.stored.length
          (w1.onHub fun h => h.modPkt (d.src % 256) r.1.qseq fun k => { k with moving := true }) u'
        split
        · rename_i e; rw [e] at k; exact k
        · rename_i e; rw [e] at k; split
          · exact k
          · exact Hw.dmaPkts_wf c d l n _ k

theorem Hw.dmaAdvance_wf {w : Hw} (u : w.wf) (c : Nat) (d : Desc) (x : List Nat) (l : Nat) : (w.dmaAdvance c d x l).1.wf := by
  unfold Hw.dmaAdvance; split
  · exact u
  · split
    · exact Hw.dmaPkts_wf _ _ _ _ _ u
    · exact Hw.dmaWords_wf _ _ _ _ _ _ u

theorem Hw.memReq_wf {w : Hw} (u : w.wf) (m : RaccMsg) : (w.memReq m).2.wf := by
  unfold Hw.memReq; dsimp only; split
  · exact u
  · split
    · split
      · exact u
      · exact Hw.put_wf u _ _
    · exact u

theorem Hw.dmaResp_wf {w : Hw} (u : w.wf) (c : Nat) (d : Desc) (m : RaccMsg) : (w.dmaResp c d m).wf := by
  unfold Hw.dmaResp; split
  · exact u
  · dsimp only; split
    · exact Hw.dmaHalt_wf u _ _
    · split
      · exact Hw.dmaHalt_wf u _ _
      · split
        · exact Hw.dmaHalt_wf u _ _
        · split
          · exact Hw.dmaHalt_wf u _ _
          · split
            · exact Hw.dmaHalt_wf u _ _
            · split
              · exact Hw.put_wf u _ _
              · exact u

theorem Hw.dmaSend_wf {w : Hw} (u : w.wf) (c : Nat) (d : Desc) (m : RaccMsg) : (w.dmaSend c d m).wf := by
  unfold Hw.dmaSend; split
  · exact u
  · exact Hw.dmaResp_wf (Hw.memReq_wf u m) _ _ _
  · exact Hw.dmaHalt_wf u _ _

theorem Hw.dmaAsk_wf (c : Nat) (d : Desc) : ∀ (n : Nat) (w : Hw), w.wf → (Hw.dmaAsk n c d w).wf
  | 0, _, u => u
  | n + 1, w, u => by
    unfold Hw.dmaAsk; dsimp only
    refine iteInduction (motive := Hw.wf) (fun _ => u) fun _ => ?_
    refine iteInduction (motive := Hw.wf) (fun _ => Hw.dmaHalt_wf u _ _) fun _ => ?_
    refine iteInduction (motive := Hw.wf) (fun _ => ?_) fun _ => ?_
    · exact iteInduction (motive := Hw.wf) (fun _ => Hw.dmaHalt_wf (Hw.wf_onHub u _) _ _) fun _ => Hw.dmaHalt_wf u _ _
    · exact Hw.dmaAsk_wf c d n _ (Hw.dmaSend_wf (Hw.wf_onHub u _) _ _ _)

theorem Hw.dmaBegin_wf {w : Hw} (u : w.wf) (c : Nat) (d : Desc) : (w.dmaBegin c d).wf := by
  unfold Hw.dmaBegin; dsimp only; split
  · exact Hw.dmaHalt_wf u _ _
  · split
    · exact Hw.dmaHalt_wf u _ _
    · split
      · exact Hw.dmaAsk_wf _ _ _ _ u
      · exact u

theorem Hw.dmaLock_wf {w : Hw} (u : w.wf) (c : Nat) (d : Desc) (b : Bool) : (w.dmaLock c d b).wf := by
  unfold Hw.dmaLock; split
  · exact Hw.dmaBegin_wf u _ _
  · dsimp only
    generalize hw : (if b = true then _ else _ : Hw) = v
    have u' : v.wf := by rw [← hw]; split <;> exact u
    generalize v.hub.lockTry d.lockNum (ownDma c) = r
    split
    · exact Hw.dmaBegin_wf (Hw.wf_setHub u' _) _ _
    · split
      · exact Hw.dmaHalt_wf (Hw.wf_setHub u' _) _ _
      · split
        · exact Hw.dmaHalt_wf (Hw.wf_setHub u' _) _ _
        · exact Hw.wf_onHub (Hw.wf_setHub u' _) _

theorem Hw.dmaFetch_wf {w : Hw} (u : w.wf) (c : Nat) : (w.dmaFetch c).wf := by
  unfold Hw.dmaFetch; dsimp only
  split
  · exact Hw.dmaHalt_wf (w := w.onHub _) u _ _
  · split
    · exact Hw.dmaHalt_wf (w := (w.onHub _).onHub _) u _ _
    · split
      · exact Hw.dmaHalt_wf (w := w.onHub _) u _ _
      · exact Hw.dmaLock_wf (w := (w.onHub _).onHub _) u _ _ _

theorem Hw.dmaGo_wf {w : Hw} (u : w.wf) (c : Nat) : (w.dmaGo c).wf := by
  unfold Hw.dmaGo; split
  · exact Hw.dmaFetch_wf (w := w.onHub _) u _
  · exact u

theorem Hw.dmaRetry_wf {w : Hw} (u : w.wf) (c : Nat) : (w.dmaRetry c).wf := by
  unfold Hw.dmaRetry; split
  · split
    · exact Hw.dmaLock_wf (w := w.onHub _) u _ _ _
    · exact u
  · exact u

theorem Hw.dmaResume_wf {w : Hw} (u : w.wf) (c : Nat) : (w.dmaResume c).wf := by
  unfold Hw.dmaResume; split
  · exact u
  · dsimp only; split
    · exact Hw.dmaFetch_wf u _
    · split
      · exact Hw.dmaLock_wf (w := w.onHub _) u _ _ _
      · exact Hw.dmaBegin_wf (w := w.onHub _) u _ _

theorem Hw.dmaDone_wf {w : Hw} (u : w.wf) (c t : Nat) (b : Bool) (x : List Word) : (w.dmaDone c t b x).wf := by
  unfold Hw.dmaDone; split
  · exact u
  · rename_i d _
    dsimp only; split
    · exact u
    · split
      · exact u
      · have k := Hw.dmaAdvance_wf u c d (x.map (·.toNat)) d.len
        generalize hv : Hw.dmaWriteBack _ _ _ _ _ _ _ = v
        have kv : v.wf := by rw [← hv]; exact Hw.dmaWriteBack_wf (w := (w.dmaAdvance c d _ d.len).1.onHub _) k _ _ _ _ _ _
        split
        · exact Hw.dmaFetch_wf (w := (v.onHub _).onHub _) kv _
        · exact kv

theorem Hw.dmaFault_wf {w : Hw} (u : w.wf) (c : Nat) (z : DmaCause) (o : Nat) (x : List Word) : (w.dmaFault c z o x).wf := by
  unfold Hw.dmaFault; split
  · exact u
  · rename_i d _
    split
    · exact u
    · dsimp only
      have k := fun l => Hw.dmaAdvance_wf u c d (x.map (·.toNat)) l
      split
      · exact Hw.dmaHalt_wf (k _) _ _
      · cases z <;> dsimp only
        · exact u
        · exact iteInduction (motive := Hw.wf) (fun _ => Hw.dmaHalt_wf (Hw.wf_onHub (Hw.spoil_wf (k _) _) _) _ _) fun _ => u
        · exact iteInduction (motive := Hw.wf) (fun _ => Hw.dmaHalt_wf (k _) _ _) fun _ => u
        · exact iteInduction (motive := Hw.wf) (fun _ => Hw.dmaHalt_wf (k _) _ _) fun _ => u

theorem Hw.raccDeliver_wf {w : Hw} (u : w.wf) (m : RaccMsg) : (w.raccDeliver m).wf := by
  unfold Hw.raccDeliver; split
  · split
    · exact Hw.dmaAsk_wf _ _ _ _ (Hw.dmaResp_wf u _ _ _)
    · exact u
  · split
    · exact u
    · exact u

theorem Hw.dmaTimeout_wf {w : Hw} (u : w.wf) (c : Nat) : (w.dmaTimeout c).wf := by
  unfold Hw.dmaTimeout; split
  · exact u
  · split
    · exact u
    · exact Hw.dmaHalt_wf u _ _

/-! ## Writes by address, remote access -/

theorem Hw.dmaWrite_wf {w : Hw} (u : w.wf) (c o v : Nat) : (w.dmaWrite c o v).wf := by
  unfold Hw.dmaWrite; dsimp only; split
  · refine Hw.scs_wf _ _ _ u fun e m => ?_
    simp only [List.mem_cons, List.not_mem_nil, or_false] at m
    rcases m with rfl | rfl | rfl
    · exact fun w u => Hw.dmaGo_wf u _
    · exact fun w u => Hw.dmaResume_wf u _
    · exact fun w u => u
  · split <;> exact u

theorem Hw.memWrite_wf {w : Hw} (u : w.wf) (a v : Nat) : (w.memWrite a v).wf := by
  unfold Hw.memWrite; split
  · exact Hw.dmaWrite_wf u _ _ _
  · exact u

theorem Hw.cmpWrite_wf {w : Hw} (u : w.wf) (a v : Nat) : (w.cmpWrite a v).wf := by
  unfold Hw.cmpWrite; split
  · exact u
  · dsimp only; split
    · exact u
    · split
      · exact Hw.sc_wf (w := (w.onHub _).onHub _) u _ _ _ fun w u => Hw.dcmpAbort_wf u _
      · split <;> exact u

theorem Hw.writeRest_wf (go : Nat → Hw → Hw) (g : ∀ n w, Hw.wf w → (go n w).wf) {w : Hw} (u : w.wf) (n o v : Nat) :
    ((fun w => if o = 0x1A4 ∧ w.hub.bit (LANE_LINK_LEAD n) then w.sc v 17 (go n) else w) (w.laneWrite n o v)).wf := by
  have k : (w.laneWrite n o v).wf := Hw.wf_of_mem u (Hw.laneWrite_mem _ _ _ _)
  dsimp only; split
  · exact Hw.sc_wf k _ _ _ (g n)
  · exact k

theorem Hw.writeReg_wf (go : Nat → Hw → Hw) (g : ∀ n w, Hw.wf w → (go n w).wf) {w : Hw} (u : w.wf) (a v : Nat) : (w.writeReg go a v).wf := by
  unfold Hw.writeReg
  refine iteInduction (motive := Hw.wf) (fun _ => Hw.wf_of_mem u (Hw.devWrite_mem _ _ _)) fun _ => ?_
  refine iteInduction (motive := Hw.wf) (fun _ => Hw.wf_of_mem u (Hw.timeWrite_mem _ _ _)) fun _ => ?_
  refine iteInduction (motive := Hw.wf) (fun _ => Hw.wf_of_mem u (Hw.hkWrite_mem _ _ _)) fun _ => ?_
  refine iteInduction (motive := Hw.wf) (fun _ => u) fun _ => ?_
  refine iteInduction (motive := Hw.wf) (fun _ => u) fun _ => ?_
  refine iteInduction (motive := Hw.wf) (fun _ => Hw.cmpWrite_wf u _ _) fun _ => ?_
  refine iteInduction (motive := Hw.wf) (fun _ => Hw.memWrite_wf u _ _) fun _ => ?_
  refine iteInduction (motive := Hw.wf) (fun _ => Hw.wf_of_mem u (Hw.armWrite_mem _ _ _)) fun _ => ?_
  refine iteInduction (motive := Hw.wf) (fun _ => Hw.wf_of_mem u (Hw.updWrite_mem _ _ _)) fun _ => ?_
  refine iteInduction (motive := Hw.wf) (fun _ => u) fun _ => ?_
  refine iteInduction (motive := Hw.wf) (fun _ => u) fun _ => ?_
  refine iteInduction (motive := Hw.wf) (fun _ => u) fun _ => ?_
  refine iteInduction (motive := Hw.wf) (fun _ => u) fun _ => ?_
  refine iteInduction (motive := Hw.wf) (fun _ => u) fun _ => ?_
  refine iteInduction (motive := Hw.wf) (fun _ => Hw.windowWrite_wf u _ _ _) fun _ => ?_
  cases blockAt 0x10000 0x100 192 a with
  | some e => exact u
  | none =>
    cases blockAt 0x20000 0x400 64 a with
    | some e => exact Hw.writeRest_wf go g u e.1 e.2 v
    | none =>
      cases blockAt 0x30000 0x1000 16 a with
      | some e => exact u
      | none =>
        cases blockAt 0x40000 0x40 256 a with
        | some e => exact u
        | none =>
          cases blockAt 0x50000 0x80 32 a with
          | some e => exact u
          | none => exact u

theorem Hw.writeVia_wf (go : Nat → Hw → Hw) (g : ∀ n w, Hw.wf w → (go n w).wf) {w : Hw} (u : w.wf) (a v : Nat) : (w.writeVia go a v).wf := by
  unfold Hw.writeVia; exact Hw.hostWr_wf u _ _ _ fun w u => Hw.writeReg_wf go g u _ _

theorem Hw.regReq_wf (go : Nat → Hw → Hw) (g : ∀ n w, Hw.wf w → (go n w).wf) {w : Hw} (u : w.wf) (m : RaccMsg) (b : Bool) : (w.regReq go m b).2.wf := by
  unfold Hw.regReq; dsimp only; split
  · split
    · exact u
    · exact Hw.wf_of_mem u (by simp)
  · split
    · split
      · exact u
      · exact Hw.writeVia_wf go g u _ _
    · split
      · split
        · exact u
        · exact Hw.memReq_wf u _
      · exact u

theorem Hw.raccGoN_wf : ∀ (n k : Nat) (w : Hw), w.wf → (Hw.raccGoN n k w).wf
  | 0, _, _, u => u
  | n + 1, k, w, u => by
    unfold Hw.raccGoN; dsimp only; split
    · exact u
    · split
      · exact Hw.raccDeliver_wf (Hw.regReq_wf (Hw.raccGoN n) (Hw.raccGoN_wf n) (w := w.onHub _) u _ _) _
      · exact u
      · exact u

theorem Hw.raccGo_wf {w : Hw} (u : w.wf) (k : Nat) : (w.raccGo k).wf := by
  unfold Hw.raccGo; split
  · exact Hw.raccGoN_wf _ _ _ u
  · exact u

theorem Hw.writeAt_wf {w : Hw} (u : w.wf) (a v : Nat) : (w.writeAt a v).wf := Hw.writeVia_wf _ (Hw.raccGoN_wf 65) u a v

theorem Hw.write64At_wf {w : Hw} (u : w.wf) (a v x : Nat) : (w.write64At a v x).wf := by
  unfold Hw.write64At; dsimp only; split
  · exact Hw.hostWr_wf u _ _ _ fun w u => Hw.windowWrite_wf u _ _ _
  · exact Hw.writeAt_wf (Hw.writeAt_wf u _ _) _ _

theorem Hw.respond_wf {w : Hw} (u : w.wf) (k : Nat) (m : RaccMsg) : (w.respond k m).wf := by
  unfold Hw.respond; split
  · exact Hw.raccDeliver_wf u _
  · split <;> exact u

theorem Hw.raccReqRx_wf {w : Hw} (u : w.wf) (k l : Nat) (m : RaccMsg) (b : Bool) : (w.raccReqRx k l m b).wf := by
  unfold Hw.raccReqRx; split
  · dsimp only; split
    · split
      · exact Hw.respond_wf (w := (w.onHub _).onHub _) u _ _
      · exact Hw.respond_wf (w := w.onHub _) u _ _
    · split
      · exact Hw.respond_wf (Hw.regReq_wf _ (Hw.raccGoN_wf 65) (w := w.onHub _) u _ _) _ _
      · exact u
      · exact Hw.respond_wf (w := w.onHub _) u _ _
  · exact u

theorem Hw.raccRespRx_wf {w : Hw} (u : w.wf) (k l : Nat) (m : RaccMsg) : (w.raccRespRx k l m).wf := by
  unfold Hw.raccRespRx; split
  · dsimp only; split
    · exact Hw.raccDeliver_wf (w := w.onHub _) u _
    · split <;> exact u
  · exact u

theorem Hw.raccTimeout_wf {w : Hw} (u : w.wf) (x : RaccWho) : (w.raccTimeout x).wf := by
  cases x <;> unfold Hw.raccTimeout <;> dsimp only
  all_goals first
    | exact Hw.dmaTimeout_wf u _
    | (split <;> exact u)

theorem Hw.regWriteEvent_wf {w : Hw} (u : w.wf) (k l e a v : Nat) : (w.regWriteEvent k l e a v).wf := by
  unfold Hw.regWriteEvent; dsimp only; split
  · exact Hw.writeReg_wf _ (fun _ _ u => u) (w := (w.onHub _).onHub _) u _ _
  · exact u

theorem Hw.applyHead_wf {w : Hw} (u : w.wf) : w.applyHead.wf := by
  unfold Hw.applyHead; split
  · exact u
  · dsimp only; split
    · exact Hw.writeAt_wf (w := w.onHub _) u _ _
    · exact Hw.write64At_wf (w := w.onHub _) u _ _ _

theorem Hw.drain_wf : ∀ (n : Nat) (w : Hw), w.wf → (Hw.drain n w).wf
  | 0, _, u => u
  | n + 1, w, u => by
    unfold Hw.drain; split
    · exact u
    · exact Hw.drain_wf n _ (Hw.applyHead_wf u)

theorem Hw.spiRead32_wf {w : Hw} (u : w.wf) (a : Nat) : (w.spiRead32 a).wf := by
  unfold Hw.spiRead32; exact Hw.wf_of_mem (Hw.drain_wf _ _ u) (Hw.read32_mem _ _ _)

theorem Hw.spiRead64_wf {w : Hw} (u : w.wf) (a : Nat) : (w.spiRead64 a).wf := by
  unfold Hw.spiRead64; exact Hw.wf_of_mem (Hw.drain_wf _ _ u) (Hw.read64_mem _ _ _)

theorem Hw.csRise_wf {w : Hw} (u : w.wf) (c : SpiCut) : (w.csRise c).wf := by
  unfold Hw.csRise; split
  · exact u
  · split
    · split <;> exact u
    · split
      · exact Hw.spiRead64_wf u _
      · exact Hw.spiRead32_wf u _
    · exact u
    · exact u

theorem Hw.rsHalf_wf {w : Hw} (u : w.wf) (p a : Nat) (b : Bool) : (w.rsHalf p a b).wf := by
  unfold Hw.rsHalf; split
  · split
    · exact Hw.wf_of_mem u (by simp)
    · exact u
  · exact u

theorem Hw.refusedOverload_wf {w : Hw} (u : w.wf) (r x o : Nat) (l : List Word) : (w.refusedOverload r x o l).wf := by
  unfold Hw.refusedOverload; split
  · exact u
  · dsimp only; split
    · exact Hw.dmaFault_wf (w := w.onHub _) u _ _ _ _
    · split
      · split <;> exact u
      · split
        · exact u
        · split <;> exact u

theorem Hw.gessoDone_wf {w : Hw} (u : w.wf) : w.gessoDone.wf := by
  unfold Hw.gessoDone; split
  · exact u
  · have k : ((w.setMem {}).onHub fun h => h.setPhase .casting).wf := by show memoryWf [] = true; decide
    dsimp only
    refine Hw.wf_of_mem k ?_
    rw [Hw.onHub_mem]; split
    · rfl
    · exact Hw.selectCast_mem _

theorem Hw.dormantDone_wf {w : Hw} (u : w.wf) : w.dormantDone.wf := by
  unfold Hw.dormantDone; split
  · exact u
  · show memoryWf [] = true; decide

theorem Hw.wakeReady_wf {w : Hw} (u : w.wf) : w.wakeReady.wf := by
  unfold Hw.wakeReady; split
  · exact u
  · show memoryWf [] = true; decide

end Sys2Proof.Machine
end

