-- ==== Sys2Proof/Laws/Time.lean ====
section
/-! SUPPORT. What the operations of the time unit change and keep. -/

namespace Sys2Proof.Machine

namespace Hub

theorem setQuality_get_ne (h : Hub) (q : Nat) (f : Field) (k : f.key ≠ TIME_STAT_QUALITY.key) :
    (h.setQuality q).get f = h.get f := by
  unfold Hub.setQuality; split
  · rfl
  · dsimp only; rw [Hub.get_setTime, Hub.get_set_ne _ _ _ _ k]

@[simp] theorem setQuality_get (h : Hub) (q : Nat) (b : q < 8) : (h.setQuality q).get TIME_STAT_QUALITY = q := by
  unfold Hub.setQuality; split
  · assumption
  · dsimp only; rw [Hub.get_setTime, Hub.get_set_same]; exact Nat.mod_eq_of_lt b

@[simp] theorem setQuality_slew (h : Hub) (q : Nat) : (h.setQuality q).time.slew = h.time.slew := by
  unfold Hub.setQuality; split <;> rfl

@[simp] theorem setQuality_now (h : Hub) (q : Nat) : (h.setQuality q).time.now = h.time.now := by
  unfold Hub.setQuality; split <;> rfl

@[simp] theorem lockedTo_get (h : Hub) (f : Field) : h.lockedTo.get f = h.get f := rfl

@[simp] theorem lockedTo_slew (h : Hub) : h.lockedTo.time.slew = h.time.slew := rfl

@[simp] theorem lockedTo_now (h : Hub) : h.lockedTo.time.now = h.time.now := rfl

/-- Fixing the measured edges changes nothing but their record. -/
@[simp] theorem edgeFix_get (h : Hub) (f : Field) : h.edgeFix.get f = h.get f := by
  unfold Hub.edgeFix; dsimp only; split <;> rfl

@[simp] theorem edgeFix_now (h : Hub) : h.edgeFix.time.now = h.time.now := by unfold Hub.edgeFix; dsimp only; split <;> rfl

@[simp] theorem leaveSlew_slew (h : Hub) : h.leaveSlew.time.slew = h.time.slew := by
  unfold Hub.leaveSlew; (repeat' split) <;> simp

@[simp] theorem leaveSlew_now (h : Hub) : h.leaveSlew.time.now = h.time.now := by
  unfold Hub.leaveSlew; (repeat' split) <;> simp

theorem leaveSlew_get_ne (h : Hub) (f : Field) (k : f.key ≠ TIME_STAT_QUALITY.key) : h.leaveSlew.get f = h.get f := by
  unfold Hub.leaveSlew; (repeat' split) <;> first
    | rfl
    | exact setQuality_get_ne _ _ _ k
    | rw [lockedTo_get, setQuality_get_ne _ _ _ k]

@[simp] theorem putSlew_slew (h : Hub) (v : Int) : (h.putSlew v).time.slew = v := by
  unfold Hub.putSlew; dsimp only; split
  · simp
  · split <;> simp

@[simp] theorem putSlew_now (h : Hub) (v : Int) : (h.putSlew v).time.now = h.time.now := by
  unfold Hub.putSlew; dsimp only; (repeat' split) <;> simp

theorem putSlew_get_ne (h : Hub) (v : Int) (f : Field) (k : f.key ≠ TIME_STAT_QUALITY.key) : (h.putSlew v).get f = h.get f := by
  unfold Hub.putSlew; dsimp only; (repeat' split)
  · rw [setQuality_get_ne _ _ _ k, Hub.get_setTime, edgeFix_get]
  · rw [leaveSlew_get_ne _ _ k, Hub.get_setTime, edgeFix_get]
  · rw [Hub.get_setTime, edgeFix_get]

/-- A slew that is outstanding makes QUALITY SLEWING (R41). -/
theorem putSlew_quality (h : Hub) (v : Int) (nz : v ≠ 0) : (h.putSlew v).get TIME_STAT_QUALITY = 3 := by
  unfold Hub.putSlew; simp [nz, qSlewing]

/-- A slew that ends under HOLDOVER_FORCE leaves QUALITY in HOLDOVER (R41). -/
theorem putSlew_end (h : Hub) (nz : h.time.slew ≠ 0) (q : h.get TIME_STAT_QUALITY = 3) (g : h.get TIME_CTL_HOLDOVER_FORCE = 1) :
    (h.putSlew 0).get TIME_STAT_QUALITY = 4 := by
  have b : ∀ t : TimeSt, (h.edgeFix.setTime t).leaveSlew.get TIME_STAT_QUALITY = 4 := by
    intro t
    have e1 : (h.edgeFix.setTime t).quality = qSlewing := (edgeFix_get h _).trans q
    have e2 : (h.edgeFix.setTime t).forced = true := by
      simp [Hub.forced, Hub.bit_eq, g]
    rw [Hub.leaveSlew, if_pos e1, if_pos (Or.inl e2)]
    exact setQuality_get _ 4 (by decide)
  unfold Hub.putSlew; simp [nz, b]

theorem putSlew_only (h : Hub) (v : Int) : OnlyRegs [TIME_STAT_QUALITY] h (h.putSlew v) := fun f k =>
  putSlew_get_ne h v f (by simpa using k)

end Hub

/-- The signed value of a 32-bit register. -/
theorem toSigned_word (v : Word) : toSigned 32 v.toNat = v.toInt := by
  simp only [toSigned, BitVec.toInt]; split <;> split <;> omega

end Sys2Proof.Machine
end

