-- ==== Sys2Proof/Tests/Slice0.lean ====
section
/-! SUPPORT. The model's own tests: the smoke test of WellFormed, the spec's worked examples, one step of single commands, and for every
statement with hypotheses states that meet them. -/

namespace Sys2Proof.Tests

open Sys2Proof Sys2Proof.Machine

set_option Elab.async false

/-! ## The smoke test of WellFormed: one ill-formed term for each check, which it refuses -/

/-- A PTP message whose fields are in range, and one whose sequence number is not. -/
def tMsg : PtpMsg := { domain := 0, sdo := 0, seq := 7, twoStep := false, corr := 0, ts := 0, steps := 0 }
def tBad : PtpMsg := { tMsg with seq := 65536 }

theorem wf_ptp_fields : (Instr.followUpRx 0 tMsg 0).wf = true ∧ (Instr.followUpRx 0 tBad 0).wf = false
    ∧ (Instr.delayRespRx 0 { tMsg with domain := 256 }).wf = false ∧ (Instr.announceRx 0 { tMsg with sdo := 4096 }).wf = false
    ∧ (Instr.pdelayRespFollowUpRx 0 { tMsg with corr := 2 ^ 63 }).wf = false
    ∧ (Instr.signalingManagementRx 0 { tMsg with ts := timeWrap }).wf = false ∧ (Instr.announceRx 0 { tMsg with steps := 65536 }).wf = false
    ∧ (Instr.announceRx 0 { tMsg with utc := 32768 }).wf = false ∧ (Instr.announceRx 0 { tMsg with clockId := 2 ^ 64 }).wf = false
    ∧ (Instr.announceRx 0 { tMsg with port := 65536 }).wf = false ∧ (Instr.announceRx 0 { tMsg with cls := 256 }).wf = false
    ∧ (Instr.announceRx 0 { tMsg with prio1 := 256 }).wf = false := by decide

theorem wf_ptp_stamps : (Instr.syncRx 0 tMsg timeWrap []).wf = false ∧ (Instr.syncRx 0 tMsg 0 [(64, 0)]).wf = false
    ∧ (Instr.delayReqRx 0 tMsg 0 [(1, timeWrap)]).wf = false ∧ (Instr.pdelayReqRx 0 tBad 0 []).wf = false
    ∧ (Instr.pdelayRespRx 0 tMsg (timeWrap, [])).wf = false ∧ (Instr.timeRx 0 .sync tMsg timeWrap [] 0).wf = false
    ∧ (Instr.syncSend (0, 0) timeWrap).wf = false ∧ (Instr.txTimestampReturn 0 65536 0).wf = false
    ∧ (Instr.txTimestampReturn 0 0 timeWrap).wf = false ∧ (Instr.pdelayReqSend 0 timeWrap).wf = false
    ∧ (Instr.delayReqSend 0 timeWrap).wf = false ∧ (Instr.followUpRx 0 tMsg timeWrap).wf = false ∧ (Instr.timeRx 0 .sync tMsg 0 [] timeWrap).wf = false := by decide

theorem wf_instants : (Instr.ppsInEdge (true, timeWrap)).wf = false ∧ (Instr.trigInEdge 0 true timeWrap).wf = false
    ∧ (Instr.openDeclared 0 (.compliance, timeWrap)).wf = false ∧ (Instr.openEnded (0, timeWrap)).wf = false
    ∧ (Instr.codesOverdue timeWrap).wf = false ∧ (Instr.duplexSyncPulse timeWrap 0).wf = false
    ∧ (Instr.duplexSyncPulse 0 1023).wf = false ∧ (Instr.arbitrationRound 0 timeWrap false [] []).wf = false := by decide

theorem wf_measured : (Instr.governorWindowEnd [(3, 1), (3, 2)]).wf = false ∧ (Instr.governorWindowEnd [(192, 1)]).wf = false
    ∧ (Instr.fastTrip [(0, 2 ^ 32)]).wf = false ∧ (Instr.calHkSelfDone (256 * 2 ^ 15 + 1)).wf = false
    ∧ (Instr.calRefCheckDone (64 * 2 ^ 16)).wf = false ∧ (Instr.calAverageDone [(1, 0), (0, 0)]).wf = false := by decide

theorem wf_memory : (Instr.dcmpAbort (2 ^ 28)).wf = false ∧ (Instr.scrubPass 0 [2, 1]).wf = false
    ∧ (Instr.dmaDescriptorDone 0 (2 ^ 32) false []).wf = false ∧ (Instr.arbitrationRound 0 0 false [2, 2] []).wf = false
    ∧ (Instr.arbitrationRound 0 0 false [] [{ who := 0, words := 0, cls := .a }]).wf = false := by decide

theorem wf_lanes : (Instr.slipWrite 0 0 65).wf = false ∧ (Instr.adaptationDone 0 0 (List.replicate 15 0)).wf = false
    ∧ (Instr.markerRx 0 65536).wf = false ∧ (Instr.hiBerWindowEnd 0 (2 ^ 32)).wf = false ∧ (Instr.syncLost 0 1 2).wf = false := by decide

theorem wf_frames : (Instr.dataRx 0 0 0 0 (false, false) []).wf = false
    ∧ (Instr.erroredFrameRx 0 true ⟨none, false, some { lseq := 2 ^ 32, vc := 0, len := 1, head := [] }, false⟩).wf = false
    ∧ (Instr.erroredFrameRx 0 true ⟨none, false, some { lseq := 0, vc := 4, len := 1, head := [] }, false⟩).wf = false
    ∧ (Instr.erroredFrameRx 0 true ⟨none, false, some { lseq := 0, vc := 0, len := 16441, head := [] }, false⟩).wf = false
    ∧ (Instr.erroredFrameRx 0 true ⟨none, false, some { lseq := 0, vc := 0, len := 0, head := [0] }, false⟩).wf = false
    ∧ (Instr.custodyAckRx 0 [0, 0, 0]).wf = false ∧ (Instr.commitNoteRx 0 0 0 0 [256]).wf = false := by decide

/-- Messages whose fields are in range; each check below changes one field. -/
def tCredit : CreditMsg := { pkts := [0, 0, 0, 0], words := [0, 0, 0, 0], limP := [0, 0, 0, 0], limW := [0, 0, 0, 0], freed := 0 }
def tHello : HelloMsg := { route := 0, depth := 0, hw := 0, rev := 0, role := 0, lead := 0, width := 1, enumOk := true }
def tRacc : RaccMsg := { dest := 0, src := 0, tag := 0, op := 0, status := 0, addr := 0, len := 4, data := [] }

theorem wf_messages : (Instr.creditRx 0 tCredit).wf = true ∧ (Instr.creditRx 0 { tCredit with pkts := [] }).wf = false
    ∧ (Instr.creditRx 0 { tCredit with freed := 2 ^ 32 }).wf = false ∧ (Instr.helloRx 0 0 tHello).wf = true
    ∧ (Instr.helloRx 0 0 { tHello with width := 3 }).wf = false ∧ (Instr.helloRx 0 0 { tHello with depth := 9 }).wf = false
    ∧ (Instr.helloRx 0 0 { tHello with role := 4 }).wf = false ∧ (Instr.raccReqRx 0 0 tRacc false).wf = true
    ∧ (Instr.raccReqRx 0 0 { tRacc with dest := 2 ^ 48 } false).wf = false
    ∧ (Instr.raccRespRx 0 0 { tRacc with data := List.replicate 1025 0 }).wf = false := by decide +kernel

theorem wf_duplex : (Instr.samplesRx 0 ⟨0, 0, []⟩).wf = false ∧ (Instr.samplesRx 0 ⟨0, 2 ^ 64, List.replicate 4 (List.replicate 192 0)⟩).wf = false
    ∧ (Instr.samplesRx 0 ⟨0, 0, List.replicate 4 (List.replicate 192 64)⟩).wf = false ∧ (Instr.timemapRx 0 0 1 (0, 0)).wf = false
    ∧ (Instr.timemapRx 0 0 0 (timeWrap, 0)).wf = false ∧ (Instr.digestRx 0 0 0 []).wf = false ∧ (Instr.digestReady 0 0 ((List.finRange 64).map (fun i => (1, i)) ++ ((List.finRange 13).map fun i => (0, i.castLE (by decide))).drop 1) 0).wf = false
    ∧ (Instr.digestReady 0 1 [(0, 1)] 0).wf = false ∧ (Instr.samplesSend 2).wf = false := by decide +kernel

/-! ## Small states, and what one command leaves in a register -/

/-- A hub in service with these register fields, and everything else as reset leaves it. -/
def tHub (l : List (Machine.Field × Nat)) : Hub := l.foldl (fun h e => h.set e.1 e.2) { pwr := { phase := .run } }

/-- The state with that hub, buffer memory empty, nothing waiting. -/
def tOf (h : Hub) : State := { hw := { hub := h, mem := {}, nv := Nv.initial }, pending := [] }

def tS (l : List (Machine.Field × Nat)) : State := tOf (tHub l)

/-- What a register field reads after a command. -/
def tGot (c : Instr) (s : State) (f : Machine.Field) : Option Nat :=
  match exec c s with
  | .next t => some (t.hw.hub.get f)
  | _ => none

/-! ## The spec's worked examples -/

/-- R62's example: P/Q = 1024/3 from 1,800,000,000 s, n = 5,000,001, and the same grid stated as 2048/6. -/
theorem test_grid_instant : gridInstant 1800000000 1024 3 5000001 = mkTime 1800014648 440429687 0x80000000
    ∧ gridInstant 1800000000 2048 6 5000001 = mkTime 1800014648 440429687 0x80000000
    ∧ (wireStamp (gridInstant 1800000000 1024 3 5000001)).drop 10 = [0x00, 0x80] := by decide

/-- R121's example: RATIO 1.000 25, m_zero 0.000 120, m_ref 0.640 890. -/
theorem test_cal_entry : calEntry 1074010259 (120 / 1000000) (640890 / 1000000) = (0x0003EEA2, 0x3FF0671B, 3)
    ∧ patEntryAt 37 2 = 0x13A0 := by decide +kernel

/-- R338's example: hops 0, 12 and 10 give 0x00C2_BFFF_FFFF, depth 3, on the wire FF FF FF BF C2 00. -/
theorem test_route : setHop (setHop (setHop noRoute 1 0) 2 12) 3 10 = 0x00C2BFFFFFFF ∧ routeDepth 0x00C2BFFFFFFF = 3
    ∧ leBytes 6 0x00C2BFFFFFFF = [0xFF, 0xFF, 0xFF, 0xBF, 0xC2, 0x00] := by decide

/-- Chapter 09's example: three indices of two channels under DELTA and SHUFFLE. -/
theorem test_transform : transform 3 2 [0x00100002, 0xFFF80002, 0x00100302, 0xFFF80102, 0x000FFE02, 0xFFF7FF02]
    = [0x02, 0x02, 0, 0, 0, 0, 0, 0, 0x03, 0x01, 0xFB, 0xFE, 0x10, 0xF8, 0, 0, 0xFF, 0xFF, 0, 0xFF, 0, 0, 0xFF, 0xFF] := by decide

/-- R156: the word of VALUE 0x001000 on the ±1 V range (RANGE 2) without flags, as the same example gives it. -/
theorem test_sample_word : sampleWord 0x1000 false false false false false 2 = 0x00100002
    ∧ sampleWord (-0x800) false false false false false 2 = 0xFFF80002 := by decide

/-! ## States that meet the hypotheses of the statements, clause by clause -/

/-- A hub in service with these fields, changed further. -/
def tW (l : List (Machine.Field × Nat)) (f : Hub → Hub) : State := tOf (f (tHub l))

/-- A hub in another phase of power and start-up. -/
def tPh (p : Phase) (l : List (Machine.Field × Nat)) : State := tW l fun h => h.setPwr { h.pwr with phase := p }

/-- The member of a pair that sends its events: PSTATE JOINING, ROLE active, in STREAM; and the one that follows. -/
def tActive : List (Machine.Field × Nat) := [(DUP_PSTATE, 1), (DEV_MODE_MODE, 4)]
def tStandby : List (Machine.Field × Nat) := [(DUP_PSTATE, 1), (DUP_ROLE, 1), (DEV_MODE_MODE, 6)]

theorem witness_EmptyQueueIdles : State.reset.pending = [] ∧ State.reset.hw.hub.time.running = false ∧ State.reset.hw.hub.pwr.phase ≠ .dead
    ∧ (tW [] fun h => h.setTime { h.time with running := true }).hw.hub.time.running = true
    ∧ (tPh .dead []).hw.hub.time.running = false ∧ (tPh .dead []).hw.hub.pwr.phase = .dead := by decide +kernel

theorem witness_HostWrites : State.reset.hw.hub.served 0x1000 = false
    ∧ (tHub []).served 0x1000 = true ∧ mirroredAddr 0x1000 = false ∧ mirroredAddr 0x2200 = true
    ∧ (tHub tStandby).served 0xD000 = true ∧ mirroredAddr 0xDFFF = true ∧ (tHub tStandby).get DEV_MODE_MODE = 6
    ∧ (tHub []).get DEV_MODE_MODE ≠ 6 ∧ (tHub []).dupActive = false ∧ (tHub tActive).dupActive = true
    ∧ ((tHub tActive).off (mirrorWerr 0x2200)).get (mirrorWerr 0x2200) = 0
    ∧ (((tHub tActive).off (mirrorWerr 0x2200)).on (mirrorWerr 0x2200)).get (mirrorWerr 0x2200) ≠ 0
    ∧ (∀ p ∈ [Phase.gesso, .casting, .loading, .loaded, .dormant, .waking, .wakingMem, .retired, .held, .released, .dead, .entering],
        (tPh p []).hw.hub.pwr.phase = p) ∧ (tS tStandby).up ∧ (tS tStandby).hw.hub.get DEV_MODE_MODE = 6 := by
  delta State.up; decide +kernel

theorem witness_MemoryStaysCanonical : State.reset.inv ∧ step State.reset = .next (State.reset.withHub (State.reset.hw.hub.setPwr
    { State.reset.hw.hub.pwr with coarse := (State.reset.hw.hub.pwr.coarse + 1) % 2 ^ 63 })) := ⟨rfl, rfl⟩

theorem witness_RstNPulse : State.reset.hw.hub.pwr.phase ≠ .dead ∧ 1000 ≤ 1000 ∧ 199 < 200 ∧ 200 ≤ 200 ∧ 999 < 1000 := by decide

/-- Entries of the trouble log. -/
def tLog (s : Nat) : LogEntry := { code := 1, sev := 0, tq := 0, seq := s, time := 0, p0 := 0, p1 := 0, p2 := 0 }

theorem witness_LogEntryRead : (tW [] fun h => h.setPwr { h.pwr with log := [tLog 4, tLog 3] }).hw.hub.served 0x9314 = true
    ∧ [tLog 4, tLog 3].find? (fun e => e.seq == 3) = some (tLog 3) ∧ [tLog 4, tLog 3].find? (fun e => e.seq == 2) = none
    ∧ [tLog 4, tLog 3] = tLog 4 :: ([] ++ [tLog 3]) := by decide +kernel

theorem witness_ResetSources : (tW [] fun h => h.setPwr { h.pwr with pwrGood := true }).hw.hub.pwr.phase ≠ .dead
    ∧ (tW [] fun h => h.setPwr { h.pwr with pwrGood := true }).hw.hub.pwr.pwrGood = true ∧ (tS [(RST_WDT_EN, 1)]).up
    ∧ (tS [(RST_WDT_EN, 1)]).hw.hub.get RST_WDT_EN = 1 ∧ (tS []).hw.hub.served 0x9200 = true ∧ (tS []).hw.hub.pwr.rstArmed = false
    ∧ (tW [] fun h => h.setPwr { h.pwr with rstArmed := true }).hw.hub.pwr.rstArmed = true := by
  delta State.up; decide +kernel

/-- Flash whose boot record has this STATE, with a valid cast in slot 0, or none at all. -/
def tBoot (st : Nat) : Nv := { Nv.initial with boot := { Nv.initial.boot with state := st } }
def tNoCast : Nv := { Nv.initial with castA := none, castB := none }

theorem witness_StartUp : (tPh .held []).hw.hub.pwr.phase = .held ∧ (tPh .released []).hw.hub.pwr.phase = .released
    ∧ (tPh .gesso []).hw.hub.pwr.phase = .gesso ∧ (tBoot 1).governing.state = 1 ∧ (tBoot 2).governing.state = 2 ∧ (tBoot 2).lcFuse ≠ 4
    ∧ ((tHub []).setPwr { (tHub []).pwr with actGo := true }).pwr.actGo = true ∧ (tBoot 3).governing.state = 3
    ∧ (tPh .casting []).hw.hub.pwr.phase = .casting ∧ (tPh .casting []).hw.loaderOnly = false ∧ Nv.initial.boots 0 = true
    ∧ tNoCast.boots 0 = false ∧ tNoCast.boots 1 = false ∧ (tPh .casting []).hw.lcState ≠ 0
    ∧ ({ (tPh .casting []).hw with nv := { tNoCast with lcFuse := 0 } } : Hw).lcState = 0
    ∧ (tPh .loading []).hw.hub.pwr.phase = .loading ∧ (tPh .loading []).hw.hub.upd.running = none
    ∧ (tPh .loaded []).hw.hub.pwr.phase = .loaded := by decide +kernel

/-- The loader finds a readable settings image in the slot its boot record names. -/
def tLoading : Hw where
  hub := ((tHub []).setPwr { (tHub []).pwr with phase := .loading }).setUpd { (tHub []).upd with running := some castFirst }
  mem := {}
  nv := { Nv.initial with boot := { Nv.initial.boot with setA := 0 }, settings := [(0, { img := settingsBlank, seq := 1, ok := true })] }

theorem witness_StartUp_settings : tLoading.hub.get UPD_STAT_STATE ≠ 5 ∧ tLoading.hub.get UPD_STAT_SETTINGS_UNREADABLE = 0
    ∧ tLoading.boundSlot = some 0 ∧ (tLoading.readable castFirst 0).isSome = true := by decide +kernel

theorem witness_WatchdogAndKeys : (tS []).hw.hub.served 0x9204 = true ∧ (tW [] fun h => h.setPwr { h.pwr with rstArmed := true }).hw.hub.pwr.rstArmed = true
    ∧ (tS []).hw.hub.pwr.rstArmed = false ∧ (tS []).up ∧ (0#32 : Word) ≠ 0x4B49434B#32 ∧ (tS [(RST_WDT_EN, 1)]).hw.hub.get RST_WDT_EN = 1
    ∧ (tS [(RST_WDT_EN, 1)]).hw.hub.pwr.wdtWarned = false := by
  delta State.up; decide +kernel

/-- An armed hub whose pair link stands, with the partner's address and a reset code known. -/
theorem witness_WatchdogAndKeys_partner : let h := ((tHub (tActive ++ [(DUP_LINK, 3), (LINK_UP 3, 1), (DUP_PARTNER_LO, 5)])).setPwr
      { (tHub []).pwr with rstArmed := true }).setUpd { (tHub []).upd with inUse := imgPut [] 0x18 [1, 2, 3, 4] }
    h.duplexLink = some 3 ∧ h.pwr.rstArmed = true ∧ h.partnerRoute ≠ noRoute ∧ h.resetCode ≠ 0 := by decide +kernel

theorem witness_ClocksAndTestPins : (tS [(CLK_XTAL_OK, 1)]).hw.hub.pwr.phase ≠ .dead ∧ (tS [(CLK_XTAL_OK, 1)]).hw.hub.get CLK_XTAL_OK = 1
    ∧ (tS []).hw.hub.pwr.phase = .run ∧ (tS []).hw.hub.pwr.pllFailLogged = false
    ∧ (tW [] fun h => h.setPwr { h.pwr with modRunning := true }).hw.hub.pwr.modRunning = true ∧ 2 ≤ (17 : Fin 18).val
    ∧ (tS [(CLK_MOD_LOCK, 1)]).hw.hub.get CLK_MOD_LOCK = 1
    ∧ (tW [] fun h => h.setPwr { h.pwr with modRunning := true, modFailed := true }).hw.hub.modLocked = false ∧ (tS []).up
    ∧ (tS []).hw.hub.served 0x9314 = true := by
  delta State.up; decide +kernel

theorem witness_ModesAndDormant : (tS [(DEV_MODE_IN_TRANSITION, 1)]).up ∧ (tS [(DEV_MODE_IN_TRANSITION, 1)]).hw.hub.get DEV_MODE_IN_TRANSITION = 1
    ∧ (tS [(DEV_MODE_MODE, 1)]).hw.hub.mode = 1 ∧ (tS [(DEV_MODE_MODE, 1)]).hw.hub.get DEV_MODE_IN_TRANSITION = 0
    ∧ (tS [(DEV_MODE_MODE, 1)]).hw.hub.holdsPackets = false ∧ ((tHub [(DEV_MODE_MODE, 1)]).setQ 0 { pkts := [{}] }).holdsPackets = true
    ∧ ((List.range 8).any (tS [(DEV_MODE_MODE, 1)]).hw.hub.schedPending) = false
    ∧ ((List.range 8).any (tS [(SCHED_STATE 7, 1)]).hw.hub.schedPending) = true ∧ (tS [(UPD_SETC_BUSY, 1)]).hw.hub.get UPD_SETC_BUSY = 1
    ∧ (tS [(DEV_MODE_MODE, 7)]).hw.hub.mode = 7 ∧ (tS [(DEV_MODE_MODE, 7)]).hw.staysMaint = false ∧ (tS [(DEV_MODE_MODE, 7)]).hw.hub.upState = 0
    ∧ ({ (tS []).hw with nv := { Nv.initial with lcFuse := 0 } } : Hw).staysMaint = true
    ∧ (tS [(DEV_MODE_MODE, 4)]).hw.hub.acquiring = true ∧ (tS [(DEV_MODE_MODE, 4)]).hw.hub.get ARM_STAT_WITHDRAW_PENDING = 0
    ∧ (tS [(DEV_MODE_MODE, 4)]).hw.hub.get ARM_STAT_DRAINING = 0
    ∧ (tS [(DEV_MODE_MODE, 4), (ARM_STAT_DRAINING, 1)]).hw.hub.get ARM_STAT_DRAINING = 1 ∧ (tS [(DEV_MODE_MODE, mStaging)]).hw.hub.mode = mStaging := by
  delta State.up; decide +kernel

theorem witness_ModesAndDormant_wake : (tPh .entering []).hw.hub.pwr.phase = .entering
    ∧ (tPh .dormant [(PWR_WAKE_TIMER_EN, 1)]).hw.hub.get PWR_WAKE_TIMER_EN = 1
    ∧ ((tPh .dormant [(PWR_WAKE_PIN_EN, 8), (PWR_WAKE_PIN_EDGE, 0xC0)]).hw.hub.get PWR_WAKE_PIN_EN).testBit 3 = true
    ∧ bitsAt ((tPh .dormant [(PWR_WAKE_PIN_EDGE, 0xC0)]).hw.hub.get PWR_WAKE_PIN_EDGE) 6 2 = 3
    ∧ ((tPh .dormant [(PWR_WAKE_LANES_HI, 2 ^ 31)]).hw.hub.get PWR_WAKE_LANES_LO + 2 ^ 32 * (tPh .dormant [(PWR_WAKE_LANES_HI, 2 ^ 31)]).hw.hub.get
        PWR_WAKE_LANES_HI).testBit 63 = true ∧ (tPh .dormant [(PWR_WAKE_HOST_EN, 1)]).hw.hub.get PWR_WAKE_HOST_EN = 1
    ∧ (tPh .entering [(PWR_WAKE_TIMER_EN, 1), (PWR_WAKE_AT_TICK, 1)]).hw.hub.coarse < (tPh .entering [(PWR_WAKE_AT_TICK, 1)]).hw.hub.wakeAt
    ∧ (tPh .wakingMem []).hw.hub.pwr.phase = .wakingMem ∧ (tPh .waking []).hw.hub.pwr.phase = .waking
    ∧ (tPh .dormant []).hw.hub.served 0x9000 = true := by decide +kernel

theorem witness_TimeSteering : (tS []).up ∧ -8589934 ≤ (BitVec.ofInt 32 (-8589934)).toInt ∧ (8589934#32 : Word).toInt ≤ 8589934
    ∧ 8589934 < (8589935#32 : Word).toInt ∧ (tS [(TIME_ADJ_NS, 999999999)]).hw.hub.get TIME_ADJ_NS ≤ 999999999
    ∧ 999999999 < (tS [(TIME_ADJ_NS, 1000000000)]).hw.hub.get TIME_ADJ_NS
    ∧ (tS [(TIME_ADJ_SEC_LO, 2), (TIME_ADJ_NS, 147483648)]).hw.hub.get TIME_ADJ_SEC_LO * 10 ^ 9 + 147483648 = 2 ^ 31
    ∧ (tW [(TIME_STAT_QUALITY, 3), (TIME_CTL_HOLDOVER_FORCE, 1)] fun h => h.setTime { h.time with slew := 1 }).hw.hub.time.slew ≠ 0 := by
  delta State.up; decide +kernel

theorem witness_TimeStepAndSource : (tS []).up ∧ (tS []).hw.hub.get TIME_ADJ_NS ≤ 999999999 ∧ (∀ g, g < 8 → (tS []).hw.hub.get (GRID_STATE g) = 0)
    ∧ 7 < 8 ∧ (tS [(GRID_STATE 7, 3)]).hw.hub.get (GRID_STATE 7) ≠ 0 ∧ (2 : Fin 4).val ≠ 3
    ∧ ¬((tS []).hw.hub.get TIME_CTL_SRC = 2 ∧ (tS []).hw.hub.get TIME_STAT_SRC_ACTIVE = 2)
    ∧ 2 ^ 63 ≤ (0 : Int) - (((tHub []).setDom 0 { lastOff := -(2 ^ 47) }).dom 0).lastOff * 2 ^ 16
    ∧ ¬((tS [(TIME_CTL_SRC, 0)]).hw.hub.get TIME_CTL_SRC = 3 ∧ (tS [(TIME_CTL_SRC, 0)]).hw.hub.get TIME_STAT_SRC_ACTIVE = 3) := by
  delta State.up; decide +kernel

/-- Settings in use whose port roles make lanes 0 and 1 the ports of a transparent clock, lane 2 a boundary clock's, lane 3 a master's. -/
def tRoles : Hub → Hub := fun h => h.setUpd { h.upd with inUse := imgPut (imgPut [] 0x138 [3, 3, 1, 2]) 0xA0 [7] }

/-- Those ports on ACTIVE links, lanes 0 and 1 on Ethernet, slot 0 tracking domain 0 on lane 2 as its slave. -/
def tPtp : List (Machine.Field × Nat) :=
  [(LANE_MODE 0, 2), (LANE_MODE 1, 2), (LANE_STATE 1, 5), (LANE_STATE 2, 5), (LANE_STATE 3, 5), (DOM_ENABLE 0, 1), (DOM_SLAVE_LANE 0, 2),
   (DOM_PORT_STATE 0, 9)]

theorem witness_PtpMessages_relays : (tW tPtp tRoles).up ∧ (tW tPtp tRoles).hw.hub.portTc 0 = true ∧ tMsg.twoStep = false
    ∧ { tMsg with twoStep := true }.twoStep = true ∧ 1 ∈ (tW tPtp tRoles).hw.hub.tcPorts 0 ∧ (tW tPtp tRoles).hw.hub.ptpMaySend 1 = true
    ∧ ([(1, 5)].find? fun e : Nat × Nat => e.1 == 1) = some (1, 5) ∧ (tW tPtp tRoles).hw.hub.tcPeer tMsg = false
    ∧ (tW (tPtp ++ [(DOM_DELAY_MECH 0, 1)]) tRoles).hw.hub.tcPeer tMsg = true := by
  delta State.up; decide +kernel

theorem witness_PtpMessages_received : (tW tPtp tRoles).hw.hub.portTc 2 = false ∧ (tW tPtp tRoles).hw.hub.ptpMaster 3 = true
    ∧ (tW tPtp tRoles).hw.hub.ptpMaster 0 = false ∧ (tW tPtp tRoles).hw.hub.ptpMaySend 2 = true ∧ (tW tPtp tRoles).hw.hub.ptpMaySend 4 = false
    ∧ (tW tPtp tRoles).hw.hub.portTc 4 = false ∧ (tW tPtp tRoles).hw.hub.slotOf 2 tMsg = some 0
    ∧ (tW tPtp tRoles).hw.hub.get (DOM_PORT_STATE 0) = 9 ∧ (((tHub tPtp).setDom 0 { syncPending := true, syncSeq := 7 }).dom 0).syncPending = true
    ∧ (((tHub tPtp).setDom 0 { syncPending := true, syncSeq := 7 }).dom 0).syncSeq = tMsg.seq
    ∧ (((tHub tPtp).setDom 0 { reqPending := true, reqSeq := 7 }).dom 0).reqSeq = tMsg.seq ∧ (tHub tPtp).get (DOM_DELAY_MECH 0) = 0
    ∧ (((tHub tPtp).setDom 0 { respPending := true, reqSeq := 7 }).dom 0).respPending = true ∧ (tHub tPtp).get (DOM_ENABLE (0 : Fin 2).val) = 1 := by
  decide +kernel

theorem witness_PtpMessages_sent : (tW tPtp tRoles).hw.hub.ptpMaster 3 = true ∧ (tW tPtp tRoles).hw.hub.oneStep = false
    ∧ ((tHub []).setUpd { (tHub []).upd with inUse := imgPut [] 0x17B [1] }).oneStep = true
    ∧ (((tHub []).setDom 1 { everLocked := true }).dom 1).everLocked = true ∧ (tW tPtp tRoles).hw.hub.ptpMaster 4 = false
    ∧ ([(3, 0, 9)].find? fun e : Nat × Nat × Nat => e.1 == 3 && e.2.2 == 9) = some (3, 0, 9)
    ∧ (tW tPtp tRoles).hw.hub.ptpMaySend ((tW tPtp tRoles).hw.hub.get (DOM_SLAVE_LANE 0)) = true
    ∧ (tW (tPtp ++ [(DOM_DELAY_MECH 0, 1)]) tRoles).hw.hub.get (DOM_DELAY_MECH 0) = 1 := by decide +kernel

theorem witness_TimePins : (tS [(TIME_PPS_CFG_PPS_IN_EN, 1)]).up ∧ (tS [(TIME_PPS_CFG_PPS_IN_EN, 1)]).hw.hub.get TIME_PPS_CFG_PPS_IN_EN = 1
    ∧ (true = true ↔ (tS [(TIME_PPS_CFG_PPS_IN_EN, 1)]).hw.hub.get TIME_PPS_CFG_PPS_IN_EDGE ≠ 1)
    ∧ (false = true ↔ (tS [(TIME_PPS_CFG_PPS_IN_EDGE, 1)]).hw.hub.get TIME_PPS_CFG_PPS_IN_EDGE ≠ 1)
    ∧ (tW [] fun h => h.setTime { h.time with todArmed := true, running := true, ppsOut := true }).hw.hub.time.todArmed = true
    ∧ (∀ k, k < 8 → (tS []).hw.hub.get (GRID_STATE k) = 0) ∧ (tS []).hw.hub.get TIME_STAT_SRC_ACTIVE ≠ 2
    ∧ (tS [(TIME_STAT_SRC_ACTIVE, 2)]).hw.hub.get TIME_STAT_SRC_ACTIVE = 2 ∧ (tS [(TIME_PPS_CFG_PPS_OUT_EN, 1)]).hw.hub.get TIME_PPS_CFG_PPS_OUT_EN = 1
    ∧ (tS [(DEV_MODE_MODE, 6)]).hw.hub.get DEV_MODE_MODE = 6 ∧ (tS []).hw.hub.get DEV_MODE_MODE ≠ 6 := by
  delta State.up; decide +kernel

theorem witness_TimePins_outputs : (tS [(TOUT_MODE 3, 1), (TOUT_START_NS 3, 1000)]).hw.hub.get (TOUT_MODE 3) = 1
    ∧ (tHub []).time.now + usU ≤ (tHub [(TOUT_START_NS 3, 1000)]).outStart 3 ∧ (tHub [(TOUT_START_NS 3, 999)]).outStart 3 < (tHub []).time.now + usU
    ∧ (tHub [(TOUT_MODE 3, 2)]).get (TOUT_MODE 3) = 2 ∧ (tHub [(TOUT_PERIOD_NS 3, 100)]).outWidth 3 < (tHub [(TOUT_PERIOD_NS 3, 100)]).outPeriod 3
    ∧ 100 * nsU ≤ (tHub [(TOUT_PERIOD_NS 3, 100)]).outPeriod 3 ∧ (tHub [(TOUT_PERIOD_SEC 3, 65535)]).outPeriod 3 ≤ 65535 * secU
    ∧ (tHub [(TOUT_PERIOD_NS 3, 99)]).outPeriod 3 < 100 * nsU
    ∧ 65535 * secU < (tHub [(TOUT_PERIOD_SEC 3, 65535), (TOUT_PERIOD_FRAC 3, 1)]).outPeriod 3
    ∧ (tHub [(TOUT_PERIOD_NS 3, 4)]).outPeriod 3 ≤ (tHub []).outWidth 3 ∧ (tHub [(TOUT_MODE 3, 3)]).get (TOUT_MODE 3) = 3
    ∧ (tHub [(TOUT_ARMED 3, 1)]).get (TOUT_ARMED 3) = 1 ∧ (tHub []).get (TOUT_ARMED 3) ≠ 1
    ∧ (((tHub []).setOut 3 { pulse := true }).out 3).pulse = true := by decide +kernel

/-- An edge in the glitch filter of pin 2, and its store full or not. -/
def tEdge (r : Bool) : NotedEdge := { time := 5, rising := r, due := 9 }
def tPin (x : PinIn) : Hub := ((tHub [(EVT_EDGE 2, 1)]).setTime { (tHub []).time with running := true }).setPin 2 x

theorem witness_Captures : (tOf (tPin {})).up ∧ (tPin {}).time.running = true ∧ (tPin {}).get (EVT_EDGE 2) ≠ 0 ∧ (tHub []).time.running = false
    ∧ ((tPin { noted := [tEdge true] }).pin 2).noted.getLast? = some (tEdge true) ∧ (tEdge true).due ≤ 9 ∧ 8 < (tEdge true).due
    ∧ ((tPin { noted := [tEdge true] }).pin 2).noted = tEdge true :: [] ∧ (if (tEdge true).rising then (tPin {}).get (EVT_EDGE 2) % 2 = 1 else
        2 ≤ (tPin {}).get (EVT_EDGE 2)) ∧ (if (tEdge false).rising then (tPin {}).get (EVT_EDGE 2) % 2 = 0 else (tPin {}).get (EVT_EDGE 2) < 2)
    ∧ ((tPin {}).pin 2).fifo.length < 8 ∧ 8 ≤ ((tPin { fifo := List.replicate 8 ⟨5, true, false⟩ }).pin 2).fifo.length
    ∧ ((tPin {}).pin 2).fifo = [] ∧ ((tPin { fifo := [⟨5, true, false⟩] }).pin 2).fifo = ⟨5, true, false⟩ :: [] := by
  delta State.up; decide +kernel

theorem witness_GridsAndPlinth : (tS [(GRID_STATE 7, 1)]).up ∧ (tS [(GRID_STATE 7, 1)]).hw.hub.get (GRID_STATE 7) = 1
    ∧ (tS [(GRID_STATE 7, 2)]).hw.hub.get (GRID_STATE 7) = 2 ∧ (tS [(GRID_STATE 7, 3)]).hw.hub.get (GRID_STATE 7) = 3
    ∧ (tW [] fun h => h.setTime { h.time with running := true }).hw.hub.time.running = true := by
  delta State.up; decide +kernel

/-- A channel of the committed armature. -/
def tCh (n : Nat) (l : List (Machine.Field × Nat)) (c : Chan) : Hub := (tHub l).setChan n { c with live := true }

theorem witness_InputCellsAndChains : (tS [(CH_CFG_KIND 191, 1)]).alone ∧ (tS [(CH_CFG_KIND 191, 1)]).hw.hub.kind 191 = 1
    ∧ ((3 : Fin 4).val = 3 → (tHub []).kind 191 ≠ 1) ∧ (tHub []).get (CH_CFG_MUX 191) = 0 ∧ (tHub []).get (CH_CFG_MUX 191) ≠ 3
    ∧ (tHub [(CH_CFG_AUTORANGE 191, 1)]).get (CH_CFG_AUTORANGE 191) = 1 ∧ maxCode ((tHub []).kind 191) < 4 ∧ 3 ≤ maxCode ((tHub []).kind 191)
    ∧ (tHub []).get (CH_CFG_AUTORANGE 191) = 0 ∧ (tHub [(CH_RANGE_RANGE_NOW 191, 3)]).rangeNow 191 = 3 ∧ (tHub []).rangeNow 191 ≠ 3
    ∧ ((tCh 191 [] {}).chan 191).live = true ∧ (tHub []).rangeNow 191 < ((tHub [(CH_CFG_RANGE_MIN 191, 1)]).rangeSpan 191).1
    ∧ ((tHub [(CH_CFG_RANGE_MAX 191, 2)]).rangeSpan 191).2 < (tHub [(CH_RANGE_RANGE_NOW 191, 3)]).rangeNow 191
    ∧ ((tHub []).chan 191).live = false := by
  delta State.alone State.up; decide +kernel

/-- A run of a chain at 1 kS/s from index 0. -/
def tRun : Run := { epoch := 0, p := 1000, q := 1, resume := 0, first := 0, next := 0 }

theorem witness_InputCellsAndChains_dc : ((tCh 191 [] { runs := [tRun] }).chan 191).run = some tRun ∧ ((3 : Fin 32).val ≠ 0 ∧ (3 : Fin 32).val < 4)
    ∧ 24 < (25 : Fin 32).val ∧ 4 ≤ (4 : Fin 32).val ∧ (24 : Fin 32).val ≤ 24 ∧ (tHub [(CH_CHAIN_DCB_K 191, 4)]).get (CH_CHAIN_DCB_K 191) ≠ 0
    ∧ (tHub []).get (CH_CHAIN_DCB_K 191) = 0 := by decide +kernel

/-- A live channel under autorange, in STREAM. -/
def tAuto (l : List (Machine.Field × Nat)) (c : Chan) : Hub := tCh 5 ([(CH_CFG_AUTORANGE 5, 1), (DEV_MODE_MODE, 4), (CH_CFG_RANGE_MAX 5, 3)] ++ l) c

theorem witness_AutorangeAndOpen : (tOf (tAuto [] {})).up ∧ (tAuto [] {}).autoActs 5 = true ∧ (tAuto [] {}).dupActive = false
    ∧ (tAuto [] {}).time.now < ((tAuto [] { holdEnd := 1 }).chan 5).holdEnd ∧ ((tAuto [] {}).chan 5).holdEnd ≤ (tAuto [] {}).time.now
    ∧ (tAuto [] {}).rangeNow 5 < ((tAuto [] {}).rangeSpan 5).2 ∧ ((tHub []).chan 5).live = false
    ∧ ((tAuto [(CH_RANGE_RANGE_NOW 5, 1)] {}).rangeSpan 5).1 < (tAuto [(CH_RANGE_RANGE_NOW 5, 1)] {}).rangeNow 5
    ∧ (tAuto [(CH_RANGE_RANGE_NOW 5, 1)] {}).rangeNow 5 ≤ 8 ∧ ((tAuto [] { upWait := true }).chan 5).upWait = true
    ∧ (tAuto [(CH_CFG_OPEN_I 5, 1)] {}).openApplies 5 .testCurrent = true ∧ (tAuto [] {}).openApplies 5 .testCurrent = false
    ∧ (tAuto [] { driving := true, exMode := 2 }).openApplies 5 .compliance = true
    ∧ (tHub [(CH_EXCS_OPEN 5, 1)]).get (CH_EXCS_OPEN 5) = 1 ∧ (tHub []).get (CH_EXCS_OPEN 5) ≠ 1
    ∧ ((tAuto [] { recoverEnd := some 7 }).chan 5).recoverEnd = some 7 := by
  delta State.up; decide +kernel

/-- A live channel whose APPLY asks for 5 V DC into 1 kΩ within a budget of 100 mW. -/
def tExc (l : List (Machine.Field × Nat)) (c : Chan) : Hub :=
  tCh 5 ([(CH_EXC_MODE 5, 1), (CH_EXC_LEVEL 5, 50000), (CH_EXC_LOAD_OHM 5, 1000), (EXC_BUDGET_MW, 100)] ++ l) c

theorem witness_ExcitationByHost : (tOf (tExc [] {})).alone ∧ (tHub []).applyRefused 5 = true ∧ (tExc [] {}).applyRefused 5 = false
    ∧ (tExc [(CH_EXC_LEVEL 5, 50001)] {}).applyRefused 5 = true ∧ ((tExc [] { shed := true }).chan 5).shed = true
    ∧ ((tExc [] { exMode := 1, exLevel := 50000 }).chan 5).exMode = (tExc [] {}).get (CH_EXC_MODE 5)
    ∧ ((tExc [] { exMode := 1, exLevel := 50000 }).chan 5).exLevel = (tExc [] {}).get (CH_EXC_LEVEL 5) ∧ (tExc [] {}).carrierChanged 5 = false
    ∧ ((tExc [] {}).chan 5).exMode ≠ (tExc [] {}).get (CH_EXC_MODE 5) ∧ ((tExc [] {}).chan 5).shed = false
    ∧ (tHub [(EXC_BUDGET_MW, 1)]).get EXC_BUDGET_MW * 1000 < (tHub [(EXC_MEAS_UW, 1001)]).get EXC_MEAS_UW + (tHub []).get (CH_EXC_STATIC_UW 5)
    ∧ (tHub [(EXC_MEAS_UW, 1000)]).get EXC_MEAS_UW + (tHub []).get (CH_EXC_STATIC_UW 5) ≤ (tHub [(EXC_BUDGET_MW, 1)]).get EXC_BUDGET_MW * 1000 := by
  delta State.alone State.up; decide +kernel

/-- A channel under a sine carrier whose rate the demodulator does not follow yet: a change of its carrier. -/
def tCarrier : Chan :=
  { live := true, exMode := 3, carP := 2000, carQ := 1, demMode := 3, demP := 1000, demQ := 1, driving := true }

theorem witness_ExcitationByHost_carrier : ((tHub [(CH_CHAIN_DEMOD 5, 1), (CH_EXC_MODE 5, 3), (CH_CFG_WIRING 5, 3)]).setChan 5 tCarrier).carrierChanged 5
    = true := by decide +kernel

theorem witness_GovernorAndSupply : (tS [(DEV_MODE_MODE, 4)]).up ∧ (tS []).hw.hub.governs = false ∧ (tS [(DEV_MODE_MODE, 4)]).hw.hub.governs = true
    ∧ ((tHub [(EXC_BUDGET_MW, 1)]).record [(0, 1000)]).get EXC_MEAS_UW ≤ (tHub [(EXC_BUDGET_MW, 1)]).get EXC_BUDGET_MW * 1000
    ∧ (tHub [(EXC_BUDGET_MW, 1)]).get EXC_BUDGET_MW * 1000 < ((tHub []).record [(0, 1001)]).get EXC_MEAS_UW
    ∧ 4 * 1250 ≤ 5 * 1000 ∧ 5 * 1000 < 4 * 1251 ∧ ((tHub []).setExc { (tHub []).exc with fastRun := 3 }).exc.fastRun < 4
    ∧ ((tCh 9 [] { driving := true }).candidates) = 9 :: [] ∧ (tHub [(EXC_CTL_AUTO_RESTORE, 1)]).get EXC_CTL_AUTO_RESTORE = 1
    ∧ (((tCh 9 [] { shed := true }).setExc { (tHub []).exc with headroom := [(0, 10 ^ 9)] }).shedList.find? fun n =>
        ((tCh 9 [] { shed := true }).setExc { (tHub []).exc with headroom := [(0, 10 ^ 9)] }).headroomFor n) = some 9 := by
  delta State.up; decide +kernel

theorem witness_GovernorAndSupply_cells : ((tCh 9 [] { driving := true }).chan 9).driving = true ∧ ((tCh 9 [] {}).chan 9).retryEnd = none
    ∧ (tCh 9 [] {}).get (CH_EXCS_FOLDED 9) = 0 ∧ (tCh 9 [(CH_EXCS_FOLDED 9, 1)] {}).get (CH_EXCS_FOLDED 9) = 1
    ∧ ((tCh 9 [] { retryEnd := some 3 }).chan 9).retryEnd = some 3 ∧ (tCh 9 [] {}).time.now ≤ 3 ∧ (tCh 9 [] {}).pwr.vexcOk = true
    ∧ ((tCh 9 [] { exMode := 1 }).chan 9).exMode ≠ 0 ∧ ((tHub []).setExc { (tHub []).exc with groups := [(5, [9])] }).exc.groups = (5, [9]) :: [] := by
  decide +kernel

/-- A hub whose converter and calibration stand so. -/
def tHk (l : List (Machine.Field × Nat)) (k : Hk) : Hub := (tHub l).setHk k

theorem witness_Housekeeping : (tS []).up ∧ (tHub [(HK_STAT_SCAN_BUSY, 1)]).get HK_STAT_SCAN_BUSY = 1 ∧ (tHub [(HK_CAL_STATE, 6)]).get HK_CAL_STATE ≠ 0
    ∧ (tHub [(HK_CTL_SCAN_MODE, 1)]).get HK_CTL_SCAN_MODE = 1 ∧ (tHub [(HK_CTL_SCAN_MODE, 2)]).get HK_CTL_SCAN_MODE = 2
    ∧ (tHk [] { timerAt := some 9 }).hk.timerAt = some 9 ∧ (tHub []).get HK_STAT_SCAN_BUSY = 0 ∧ (tHub []).get HK_CAL_STATE = 0 ∧ (tHub []).hk.conv = .idle
    ∧ (tHub []).get HK_CTL_SCAN_MODE ≠ 1 ∧ (tHk [] { conv := .regular 47 }).hk.conv = .regular 47 ∧ 31 < 47 ∧ 19 < 20
    ∧ (tHk [] { conv := .settle 3 }).hk.conv = .settle 3 ∧ (tHub []).get HK_CTL_WAIT_READ = 0
    ∧ unreadRes (some { code := 0, input := 0, seq := 0, time := 0 }) = true ∧ unreadRes none = false
    ∧ (2 : Fin 4).val ≠ 3 ∧ (tHub [(INJ_ENABLE 2, 1)]).get (INJ_SRC 2) = 0 ∧ (tHub [(INJ_ENABLE 2, 1)]).get (INJ_ENABLE 2) = 1
    ∧ (tHub [(INJ_PENDING 2, 1)]).get (INJ_PENDING 2) = 1 ∧ (tHub []).get (INJ_PENDING 2) = 0 ∧ (tHub []).get (INJ_HELD 2) = 0
    ∧ (tHub [(HK_CAL_STATE, 1)]).calState ≠ 0 ∧ (tHub []).calState = 0 := by
  delta State.up; decide +kernel

theorem witness_Housekeeping_modulator : let h := (tHub [(CLK_BANK_ON, 2 ^ 11)]).setPwr { (tHub []).pwr with modRunning := true }
    h.get CLK_BANK_ON / 2 ^ (11 : Fin 12).val % 2 = 1 ∧ h.pwr.modValid.contains (11 : Fin 12).val = false ∧ h.modLocked = true := by decide +kernel

theorem witness_Calibration : (tS [(DEV_MODE_MODE, 3)]).alone ∧ (tHub [(DEV_MODE_MODE, 3)]).mode ≠ 4 ∧ (tHub [(DEV_MODE_MODE, 3)]).mode ≠ 5
    ∧ (tHub [(DEV_MODE_MODE, 3)]).mode ≠ 6 ∧ (tS [(DEV_MODE_MODE, 5)]).alone ∧ (tHub [(DEV_MODE_MODE, 5)]).mode = 5
    ∧ (tHub [(DEV_MODE_MODE, 5), (DEV_MODE_IN_TRANSITION, 1)]).get DEV_MODE_IN_TRANSITION = 1 ∧ (tHub []).get DEV_MODE_IN_TRANSITION = 0
    ∧ (tHub [(HK_CAL_STATE, 1)]).calState = 1 ∧ (tHub [(HK_CAL_STATE, 1)]).hk.conv = .idle ∧ (tHub [(HK_CAL_STATE, 2)]).calState = 2
    ∧ (tHub [(HK_CAL_STATE, 3)]).calState = 3 ∧ (tHub []).hk.calIdx = []
    ∧ 200 * (imgVal (tHk [] { inForce := imgPut [] 0x28 (leBytes 4 10000) }).hk.inForce 0x28 4 : Int)
        < 1000000 * |4 * (2501 : Int) - imgVal (tHk [] { inForce := imgPut [] 0x28 (leBytes 4 10000) }).hk.inForce 0x28 4|
    ∧ (tHub [(HK_CAL_STATE, 4)]).calState = 4 ∧ (tHub []).hk.calAveraging = false ∧ (tHk [] { calAveraging := true }).hk.calAveraging = true
    ∧ (tHub [(HK_CAL_STATE, 6)]).calState = 6 ∧ (∀ j < 4, (tHub [(HK_CAL_STATE, 6)]).get (INJ_HELD j) = 0)
    ∧ (tHub [(HK_CAL_STATE, 5)]).calState ≠ 6 := by
  delta State.alone State.up; decide +kernel

theorem witness_PatinaStore : (tS [(DEV_MODE_MODE, 1)]).alone ∧ (tHub [(DEV_MODE_MODE, 1)]).mode = 1 ∧ (tHub [(HK_PAT_ADDR, patCrcAt - 1)]).get HK_PAT_ADDR / 4 * 4 < patCrcAt
    ∧ (tHub [(DEV_MODE_MODE, 2)]).mode ≠ 1 ∧ (tHub [(DEV_MODE_MODE, 2)]).mode ≠ 7 ∧ (tHub [(HK_PAT_ADDR, patCrcAt)]).get HK_PAT_ADDR / 4 * 4 ≤ patCrcAt
    ∧ patOk [] = false ∧ (tHub [(HK_CAL_STATE, 1)]).get HK_CAL_STATE ≠ 0 ∧ (tHub []).get UPD_STAT_SETTINGS_UNREADABLE = 0
    ∧ ({ (tS []).hw with nv := { Nv.initial with boot := { Nv.initial.boot with setA := 0 } } } : Hw).setRefused = false
    ∧ ((tCh 7 [] { stGain := some 1, stOffset := some 2 }).chan 7).stGain = some 1
    ∧ ((tCh 7 [] { stGain := some 1, stOffset := some 2 }).chan 7).stOffset = some 2 := by
  delta State.alone State.up; decide +kernel

/-- A patina store with the header of R125, which passes its check once it is sealed. -/
def tPat : AMap Nat := imgPut [] 0 (leBytes 4 0x414E5450 ++ leBytes 2 1 ++ leBytes 2 0x3192 ++ leBytes 4 patLen)

theorem witness_PatinaStore_ok : patOk (patSeal tPat) = true :=
  patOk_patSeal tPat (by decide +kernel) (by decide +kernel) (by decide +kernel)

/-- A trigger unit in a state, its run with one row in the ring, and a trigger at that row. -/
def tTrg (st : Nat) (l : List (Machine.Field × Nat)) (u : TUnit) : Hub := (tHub ([(TRG_STATE 31, st), (TRG_MODE 31, 3)] ++ l)).setUnit 31 u
def tStream : StreamRun :=
  { stream := 0, record := true, fmt := 0, cmp := 0, xform := 0, k := 1, queue := 0, chans := [0], grid := 0, epoch := 0, p := 1000, q := 1
    resume := 0, first := 0, next := 6, ring := [(5, [1])] }

theorem witness_TriggerUnits : (tOf (tTrg 0 [] {})).alone ∧ (tHub []).get (TRG_MODE 31) = 0 ∧ (tTrg 0 [] {}).get (TRG_MODE 31) ≠ 0
    ∧ (tTrg 0 [] {}).uState 31 = 0 ∧ (tTrg 1 [] {}).uState 31 = 1 ∧ (tTrg 2 [] {}).uState 31 = 2 ∧ (tTrg 3 [] {}).uState 31 = 3
    ∧ (tTrg 4 [] {}).uState 31 = 4 ∧ ((tTrg 2 [] { autoAt := some 3 }).unit 31).autoAt = some 3 ∧ (tTrg 2 [] {}).get (TRG_MODE 31) = 3
    ∧ ((tTrg 4 [] { disarm := true }).unit 31).disarm = true ∧ (tTrg 4 [(TRG_MODE 31, 1)] {}).get (TRG_MODE 31) = 1
    ∧ aFind ((tHub []).setAcq { (tHub []).acq with pulses := [(3, 8)] }).acq.pulses 3 = some 8
    ∧ ((tTrg 2 [] {}).setRuns 0 [tStream]).unitRun 31 = some tStream ∧ firstIndexAt 0 1000 1 (gridInstant 0 1000 1 4) = 4
    ∧ 4 < max tStream.first 5 ∧ 5 ≤ 5 ∧ 5 < 5 + (tTrg 2 [(TRG_PRE 31, 1)] {}).get (TRG_PRE 31)
    ∧ (tTrg 2 [(TRG_PRE_STRICT 31, 1)] {}).get (TRG_PRE_STRICT 31) = 1 ∧ (tTrg 2 [] {}).get (TRG_PRE_STRICT 31) = 0
    ∧ 5 + (tTrg 2 [] {}).get (TRG_PRE 31) ≤ 5 ∧ (tTrg 3 [(TRG_MISS_HELD 31, 1)] {}).get (TRG_MISS_HELD 31) = 1
    ∧ (tTrg 3 [] {}).get (TRG_MISS_HELD 31) = 0 := by
  delta State.alone State.up; decide +kernel

/-- A carver with one MODAL task of one input at address 0x10000, guarded by lock 5, and one DETECT task. -/
def tTasks : List Task := [{ op := 1, lock := some 5, inputs := [⟨0, false, false⟩] }, { op := 4 }]
def tEng (st : Nat) (l : List (Machine.Field × Nat)) (x : Eng) : Hub :=
  (tHub ([(ENG_STATE 15, st), (TASK_DATA_BASE 15 0, 0x10000)] ++ l)).setEng 15 { x with tasks := tTasks }

theorem witness_Mailbox : (tOf (tEng 1 [] {})).alone ∧ (tHub [(ENG_MB_BUSY 15, 1)]).get (ENG_MB_BUSY 15) = 1 ∧ (tEng 0 [] {}).get (ENG_MB_BUSY 15) = 0
    ∧ (tEng 0 [] {}).eState 15 ≠ 1 ∧ (tEng 0 [] {}).eState 15 ≠ 2 ∧ (tEng 1 [] {}).eState 15 = 1 ∧ ((tEng 1 [] {}).eng 15).tasks[2]? = none
    ∧ ((tEng 1 [] {}).eng 15).tasks[0]? = some (tTasks.getD 0 { op := 0 }) ∧ (tTasks.getD 0 { op := 0 }).op = 1 ∧ (tTasks.getD 1 { op := 0 }).op = 4
    ∧ fFinite 0x7F800000 = false ∧ fVal 0xBF800000 < 0 ∧ fVal 0x3F800000 < fVal 0x40000000 ∧ fFinite 0x3F800000 = true ∧ 0 ≤ fVal 0
    ∧ fVal 0x3F800000 ≤ fVal 0x3F800000 := by
  delta State.alone State.up; decide +kernel

theorem witness_LocksAndSwaps : (tS []).alone ∧ (tHub []).get (LOCK_STAT_HELD 63) = 0
    ∧ (tHub [(LOCK_STAT_HELD 63, 1), (LOCK_STAT_OWNER 63, 17)]).get (LOCK_STAT_HELD 63) = 1
    ∧ (tHub [(LOCK_STAT_HELD 63, 1), (LOCK_STAT_OWNER 63, 17)]).get (LOCK_STAT_OWNER 63) = 17 ∧ (tHub []).get (LOCK_STAT_OWNER 63) ≠ 17
    ∧ (tEng 3 [(LOCK_STAT_OWNER 63, 15)] {}).get (LOCK_STAT_OWNER 63) < 16 ∧ (tEng 3 [] {}).eState 15 = 3
    ∧ 16 ≤ (tHub [(LOCK_STAT_OWNER 63, 32)]).get (LOCK_STAT_OWNER 63) ∧ (tEng 1 [(LOCK_STAT_OWNER 63, 15)] {}).eState 15 ≠ 3
    ∧ ((tEng 1 [] { swap := some ⟨0, 9, 7, 63⟩ }).eng 15).swap = some ⟨0, 9, 7, 63⟩ ∧ 8 < 9 ∧ 9 ≤ 9
    ∧ (tEng 1 [(LOCK_STAT_HELD 5, 1), (LOCK_STAT_OWNER 5, 17)] {}).get (LOCK_STAT_OWNER 5) ≠ 15
    ∧ (tEng 1 [(LOCK_STAT_BROKEN 5, 1)] {}).get (LOCK_STAT_BROKEN 5) = 1
    ∧ (crc32c ((tEng 1 [] {}).shadow 15 0 ((tEng 1 [] {}).eng 15) (tTasks.getD 0 { op := 0 })) ≠ 7) := by
  delta State.alone State.up; decide +kernel

theorem witness_CarverWindow : (tOf (tEng 1 [] {})).alone ∧ (tEng 1 [] {}).bankAt 15 0x10004 = some (0, true) ∧ (tEng 1 [] {}).bankAt 15 0x10000 = some (0, false)
    ∧ (tEng 1 [] {}).bankAt 15 0x10008 = none ∧ (tEng 1 [(LOCK_STAT_HELD 5, 1), (LOCK_STAT_OWNER 5, 17)] {}).get (LOCK_STAT_OWNER 5) = 17
    ∧ (tEng 1 [] {}).get (LOCK_STAT_HELD 5) = 0 ∧ (tHub [(ENG_WIN_ADDR 15, 0xFFFF)]).get (ENG_WIN_ADDR 15) / 4 * 4 < 65536
    ∧ 65536 ≤ (tHub [(ENG_WIN_ADDR 15, 0x10000)]).get (ENG_WIN_ADDR 15) / 4 * 4 := by
  delta State.alone State.up; decide +kernel

/-- A carver whose frame of one index has its input, its carver able to take it. -/
def tFed (st : Nat) (x : Eng) : Hub := (tHub [(ENG_STATE 15, st)]).setEng 15
  { x with tasks := [{ op := 1, inputs := [⟨0, false, false⟩] }], cells := [⟨0, 0, false, [1]⟩] }

theorem witness_Frames : (tOf (tFed 1 {})).up ∧ ((tFed 1 {}).engSwitch 15).eState 15 = 1 ∧ ((((tFed 1 {}).engSwitch 15).eng 15).advance).complete = true
    ∧ ((tFed 0 {}).engSwitch 15).eState 15 = 0 ∧ ((tFed 2 {}).engSwitch 15).eState 15 = 2 ∧ ((tFed 3 {}).engSwitch 15).eState 15 = 3
    ∧ ((((tFed 2 {}).engSwitch 15).eng 15).advance).held = none ∧ ((((tFed 2 { held := some ⟨0, 1, []⟩ }).engSwitch 15).eng 15).advance).held = some ⟨0, 1, []⟩
    ∧ ((tFed 2 { running := some ⟨0, 1, []⟩ }).eng 15).running = some ⟨0, 1, []⟩ ∧ (((tHub []).eng 15).advance).complete = false := by
  delta State.up; decide +kernel

theorem witness_CarverFaults : (tOf (tEng 1 [] {})).alone ∧ (tEng 1 [] {}).eState 15 = 1 ∧ (tEng 2 [] {}).eState 15 = 2 ∧ (tEng 3 [] {}).eState 15 = 3
    ∧ (tEng 4 [] {}).eState 15 = 4 ∧ (tEng 5 [] {}).eState 15 = 5 ∧ (tEng 0 [] {}).eState 15 = 0
    ∧ (tHub [(LOCK_STAT_HELD 63, 1), (LOCK_STAT_OWNER 63, 15)]).get (LOCK_STAT_OWNER 63) = 15
    ∧ (tHub [(LOCK_STAT_HELD 63, 1), (LOCK_STAT_OWNER 63, 14)]).get (LOCK_STAT_OWNER 63) ≠ 15 := by
  delta State.alone State.up; decide +kernel

/-- A relief slot of one element that expects ports 0 and 1, which are a pair. -/
def tSlot (next openMax : Nat) (opens : List RFrame) (past : List (Nat × List Nat × Bool)) : Slot :=
  { id := 4, grid := 0, epoch := 0, p := 1, q := 1, combine := 0, len := 1, elems := 1, scale := 0, openMax := openMax, hasLocal := false, queue := 0
    expect := 2, waitUs := 0, ports := [0, 1], pairs := [(0, 1)], first := 2, next := next, opens := opens, past := past }

/-- A relief contribution of frame `i`, from port 0, that reads as it was stored. -/
def tRlf (i elems : Nat) : Pkt :=
  { relief := true, stream := 4, poison := true, port := some 0, len := 72
    words := [0x10, 0, i, 0, 0, elems * 65536, 0, 0, 0, 0, 0, 0, 0, 0, 0, 0, 1, 0] }

def tRlfHub (x : Slot) (p : Pkt) : Hub := ((tHub []).setSlots 3 [x]).setQ 200 { pkts := [p] }

theorem witness_Relief : let x := tSlot 3 4 [] []
    (tOf (tRlfHub x (tRlf 1 1))).up ∧ (tRlfHub x (tRlf 1 1)).rlfHead 200 = some (tRlf 1 1, 3)
      ∧ (tRlfHub x (tRlf 1 1)).readPkt 200 (tRlf 1 1) = (tRlf 1 1, tRlfHub x (tRlf 1 1)) ∧ (tRlfHub x (tRlf 5 1)).slotFor 3 5 = some x
      ∧ (contribOf 0 none (tRlf 1 1).out).index = 1 ∧ 1 < (((tRlfHub x (tRlf 1 1)).slots 3).headD x).first
      ∧ 2 ≤ (contribOf 0 none (tRlf 2 1).out).index ∧ x.mismatch 0 (tRlf 5 2).words = true ∧ x.mismatch 0 (tRlf 5 1).words = false
      ∧ x.isOut 2 = true ∧ x.isOut 3 = false ∧ (∀ e ∈ x.past, e.1 = 2 → x.twice 0 e.2.1 = false) := by
  delta State.up; decide +kernel

theorem witness_Relief_open : (tSlot 3 4 [] [(2, [1], true)]).twice 0 [1] = true ∧ (tSlot 3 4 [] [(2, [1], true)]).isOut 2 = true
    ∧ (∃ o ∈ (tSlot 3 1 [{ index := 5, elems := [0], ports := [1] }] []).opens, o.index = 5 ∧ (tSlot 3 1 [] []).twice 0 o.ports = true)
    ∧ (∀ o ∈ (tSlot 3 1 [{ index := 5, elems := [0], ports := [7] }] []).opens, o.index = 5 → (tSlot 3 1 [] []).twice 0 o.ports = false)
    ∧ (tSlot 3 1 [] []).canOpen 5 = true ∧ (tSlot 3 0 [] []).canOpen 5 = false ∧ (tSlot 3 4 [] []).over = false
    ∧ (tRlfHub (tSlot 3 4 [] []) {}).slots 3 = [tSlot 3 4 [] []] ∧ (tS []).alone
    ∧ ((tSlot 3 4 [{ index := 3, elems := [0] }] []).opens.find? fun o => o.index == 3) = some { index := 3, elems := [0] } := by
  delta State.alone State.up; decide +kernel

theorem witness_ElementsAndOperators : (elemOf 0 (1 / 2)).2 = false ∧ (elemOf 0 (2 ^ 60)).2 = true ∧ fIsNaN 0x7FC00000 = true
    ∧ (∀ v ∈ [-(2 ^ 63), 2 ^ 63 - 1, (0 : Int)], -(2 ^ 63) ≤ v ∧ v < 2 ^ 63) ∧ 0 < 1 ∧ ({ op := 4 } : Task).mode = 0 ∧ ({ op := 4, mode := 1 } : Task).mode = 1
    ∧ fFinite 0x7F800000 = false ∧ ({ op := 4, skip := true } : Task).skip = true ∧ (({ op := 4 } : Task).detect 0x3F800000).2 = true
    ∧ (({ op := 4, gap := 1 } : Task).detect 0x3F800000).2 = false := by decide +kernel

/-! ### The data path -/

def tCtl : CmpCtl := ⟨1, false, 3, 1⟩

/-- Eight zero bytes: a literal and one match of seven, shorter in a fixed block than any dynamic one. -/
theorem test_deflate_zeros : deflate tCtl (List.replicate 8 0) = packBits (fixedBlock [.lit 0, .copy 7 1]) := by
  have t : tokens tCtl (List.replicate 8 0) = [.lit 0, .copy 7 1] := by decide +kernel
  have f : (fixedBlock [.lit 0, .copy 7 1]).length = 30 := by decide +kernel
  rw [deflate, t]
  cases e : dynamicBlock [.lit 0, .copy 7 1] with
  | none => rfl
  | some d =>
    have g := dynamicBlock_length e (by decide +kernel) (by decide +kernel)
    exact congrArg packBits (if_neg (by omega))

theorem test_inflate_zeros : cmpVerified (packBits (fixedBlock [.lit 0, .copy 7 1])) (List.replicate 8 0) = true := by decide +kernel

/-- A job of a packet whose body is eight zero bytes, under those settings; and one with no body at all. -/
def tJob : CmpJob := { queue := 200, tag := 0, stream := 0, xform := 0, skip := 0, row := 1, pkt := { words := List.replicate 16 0, len := 64 } }
def tNoBody : CmpJob := { tJob with pkt := { words := List.replicate 14 0, len := 56 } }
def tCmp (l : List (Machine.Field × Nat)) (j : CmpJob) : Hub := (tHub l).setCmp { list := [j], ctl := some tCtl, stallAt := none }

theorem tJob_out : deflate (tCmp [] tJob).cmpRun tJob.area = packBits (fixedBlock [.lit 0, .copy 7 1]) := by
  have a : tJob.area = List.replicate 8 0 := by decide +kernel
  have b : (tCmp [] tJob).cmpRun = tCtl := by decide +kernel
  rw [a, b, test_deflate_zeros]

theorem witness_CompressionJobs : (tOf (tCmp [] tJob)).alone ∧ (tHub []).cmpHead = none ∧ (tCmp [] tJob).cmpHead = some tJob
    ∧ (tHub [(CMP_STAT_STALLED, 1)]).get CMP_STAT_STALLED = 1 ∧ (tCmp [] tJob).get CMP_STAT_STALLED = 0 ∧ tNoBody.pkt.len - 56 ≤ 0
    ∧ ((tHub []).setCmp { list := [tJob], stallAt := some 5 }).cmp.stallAt = some 5 ∧ (tCmp [] tJob).cmp.stallAt = none := by
  delta State.alone State.up; decide +kernel

theorem witness_CompressionJobs_ok : (deflate (tCmp [] tJob).cmpRun tJob.area).length < tJob.pkt.len - 56
    ∧ cmpVerified (deflate (tCmp [] tJob).cmpRun tJob.area) tJob.area = true
    ∧ cmpVerified (deflate (tCmp [] tJob).cmpRun tJob.area) (List.replicate 8 1) = false := by
  rw [tJob_out]; decide +kernel

/-- Its output takes one page: the pool of its partition has none without an armature, and one with it. -/
theorem witness_CompressionJobs_page : tJob.outPages (tCmp [] tJob).cmpRun = 1 ∧ (tCmp [] tJob).cmp.out.2 = 0 ∧ (tCmp [] tJob).cmpMasked = false
    ∧ ¬ 1 ≤ (tCmp [] tJob).poolFree ((tCmp [] tJob).get (Q_PARTITION 200))
    ∧ 1 ≤ ((tCmp [] tJob).setMm { parts := [(0, ⟨256, 8, 1, 0⟩)] }).poolFree ((tCmp [] tJob).get (Q_PARTITION 200)) := by
  rw [CmpJob.outPages, tJob_out]; decide +kernel

theorem witness_CompressionJobs_host : (tS [(DCMP_SRC_LEN, 8), (DCMP_DST_MAX, 8), (DCMP_DST_ADDR, 8)]).alone ∧ (tHub []).get DCMP_BUSY = 0 ∧ 0 + 8 ≤ 8
    ∧ 2 ^ 28 - 8 + 8 ≤ 2 ^ 28 ∧ 2 ^ 28 < 2 ^ 28 - 7 + 8 ∧ (tHub [(DCMP_BUSY, 1)]).get DCMP_BUSY = 1 ∧ (tHub []).get DCMP_SRC_LEN = 0
    ∧ ((tHub []).setCmp { job := some (0, 8, 8, 8, 0, false) }).cmp.job = some (0, 8, 8, 8, 0, false) ∧ (List.replicate 3 (0 : BitVec 8)).length < 2 ^ 16 := by
  delta State.alone State.up; decide +kernel

theorem witness_TransformsInvert : 1 ≤ 2 ∧ (∀ v ∈ [0x00100002, 2 ^ 32 - 1], v < 2 ^ 32) ∧ 2 ≤ 2 ∧ 2 < 3 := by decide

theorem witness_WindowAndScrub : (tS []).alone ∧ (tHub []).hostPage (0 / 4096) = false ∧ (tHub []).hostPage 65535 = true ∧ (tHub []).hostPage 256 = true
    ∧ ({} : Mem).isBad 0x100000 = false ∧ (({} : Mem).spoil 0x100000).isBad 0x100004 = true ∧ 0x100008 % 8 = 0 ∧ 2 ^ 20 - 1 < 2 ^ 20
    ∧ (tHub [(MEM_SCRUB_EN, 1)]).get MEM_SCRUB_EN = 1 ∧ (tHub []).pwr.phase = .run ∧ (tHub [(MEM_SCRUB_EN, 0)]).get MEM_SCRUB_EN = 0 := by
  delta State.alone State.up; decide +kernel

/-- Queue 255 with the HOST producer in its mask, in a partition whose pool has room. -/
def tQ (l : List (Machine.Field × Nat)) (x : QSt) : Hub :=
  ((tHub ([(Q_PRODUCERS 255, 16), (Q_STATE 255, 1), (Q_CONSUMER 255, 1)] ++ l)).setMm { parts := [(0, ⟨256, 16, 1, 0⟩)] }).setQ 255 x

theorem witness_QueuePorts : (tOf (tQ [] {})).alone ∧ (tHub []).qMask 255 4 = false ∧ (tQ [] {}).qMask 255 4 = true ∧ (tQ [] {}).qFull 255 = false
    ∧ (tQ [(Q_MAX_PAGES 255, 4)] {}).qFull 255 = true ∧ ((tQ [] {}).q 255).push = none ∧ 4110 < (4111 : Fin (2 ^ 13)).val
    ∧ (4110 : Fin (2 ^ 13)).val ≤ 4110 ∧ ((tQ [] { push := some (2, [7]) }).q 255).push = some (2, [7]) ∧ 0 + 1 < 2 ∧ 2 ≤ [7].length + 1
    ∧ (tQ [] {}).get (Q_FLUSH_BUSY 255) = 0 ∧ (tHub []).get (Q_CONSUMER 255) = 0 ∧ (tQ [] {}).get (Q_CONSUMER 255) = 1
    ∧ (∀ k ∈ ((tQ [] { pkts := [{ sent := true, qseq := 3 }] }).q 255).pkts, k.sent = true)
    ∧ ((tQ [] { pkts := [{ poison := true, words := [1], len := 4 }] }).q 255).front = some { poison := true, words := [1], len := 4 }
    ∧ (tQ [] {}).readPkt 255 { poison := true, words := [1], len := 4 } = ({ poison := true, words := [1], len := 4 }, tQ [] {})
    ∧ (∃ k ∈ [({ sent := true, qseq := 3 } : Pkt)], k.sent = true ∧ k.qseq = 3) ∧ (∃ k ∈ [({ qseq := 3 } : Pkt)], k.qseq = 3)
    ∧ (∀ k ∈ [({ qseq := 3 } : Pkt)], k.qseq ≠ 2) ∧ serialLe 2 ((tQ [(Q_ACKED_QSEQ 255, 2)] {}).get (Q_ACKED_QSEQ 255)) = true := by
  delta State.alone State.up; decide +kernel

theorem witness_FlushesAndDiscards : (tHub []).qState 255 = 0 ∧ (tHub [(Q_FLUSH_BUSY 255, 1)]).get (Q_FLUSH_BUSY 255) = 1 ∧ (tQ [] {}).qState 255 = 1
    ∧ (tQ [(Q_STATE 255, 3)] {}).qState 255 = 3 ∧ (tQ [(Q_STATE 255, 2)] {}).qState 255 = 2
    ∧ (∃ p ∈ ((tQ [] { prods := [{ prod := 0, tag := 0, need := 1, old := true }] }).q 255).prods, p.old = true)
    ∧ (∀ p ∈ ((tQ [] { prods := [{ prod := 0, tag := 0, need := 1 }] }).q 255).prods, p.old = false)
    ∧ (([{ prod := 1, tag := 0, need := 1, granted := false, pkt := { count := 1 } }] : List Prod).find? fun p => !p.granted && decide (p.prod ≤ 1)).isSome = true
    ∧ ((tHub []).q 255).waiting = [] ∧ ((tHub [(Q_PRODUCERS 255, 1)]).setQ 255 { pkts := [{}] }).candidate 255 = some {}
    ∧ (((tHub [(Q_PRODUCERS 255, 1), (Q_STATE 255, 1)]).setMm { parts := [(0, ⟨256, 16, 1, 0⟩)] }).setQ 255 { pkts := [{}] }).victim 0 = some 255 := by
  decide +kernel

/-! ### DMA, the fabric, lanes -/

/-- A descriptor of one word from 0x100 to 0x200, and memory that holds it at 0x40. -/
def tDesc : Desc :=
  { addr := 0x40, srcKind := 0, dstKind := 0, chain := false, irq := false, lockAcq := false, lockRel := false, lockNum := 0, lockWait := 0, len := 4
    src := 0x100, dst := 0x200, route := 0, next := 0 }
def tDescMem : Mem := ({} : Mem).put 0x40 (leBytes 4 0 ++ leBytes 4 4 ++ leBytes 8 0x100 ++ leBytes 8 0x200)

/-- Channel 31 with the whole buffer memory as its pages, and the host window open to it. -/
def tDma (l : List (Machine.Field × Nat)) (x : DmaSt) : Hub :=
  (tHub ([(DMA_PAGE_LAST 31, 65535), (DMA_DESC 31, 0x40)] ++ l)).setDma 31 x
def tDmaHw (l : List (Machine.Field × Nat)) (x : DmaSt) : Hw := { hub := tDma l x, mem := tDescMem, nv := Nv.initial }

theorem witness_DmaTransfers : (tOf (tDma [] {})).alone ∧ (tDma [(DMA_STATE 31, 1)] {}).get (DMA_STATE 31) ≠ 0 ∧ (tDma [] {}).get (DMA_STATE 31) = 0
    ∧ (tDma [] {}).get (DMA_DESC 31) < 2 ^ 28 ∧ (tHub []).dmaPage 31 0x40 = false ∧ parseDesc 0x40 (memBytes tDescMem.cells 0x40 64) = tDesc
    ∧ (∀ i < 8, tDescMem.isBad (0x40 + 8 * i) = false) ∧ 0x40 % 64 = 0 ∧ tDesc.ok = true ∧ { tDesc with len := 3 }.ok = false ∧ 0x44 % 64 ≠ 0
    ∧ tDesc.lockAcq = false ∧ (tDma [(DMA_STATE 31, 3)] {}).get (DMA_STATE 31) = 3 ∧ ((tDma [] {}).dmaSt 31).desc = none
    ∧ ((tDma [] { desc := some tDesc }).dmaSt 31).desc = some tDesc ∧ (tDma [(DMA_FAULT 31, 5)] {}).get (DMA_FAULT 31) = 5
    ∧ (tDma [] {}).get (DMA_FAULT 31) ≠ 5 ∧ tDesc.srcKind ≠ 1 ∧ ((tDma [] {}).dmaSt 31).producing = false
    ∧ (tDma [(DMA_STATE 31, 2)] {}).get (DMA_STATE 31) = 2 ∧ { tDesc with srcKind := 3 }.srcKind = 3 ∧ 5 < 16 ∧ 2 ^ 32 - 1 < 2 ^ 32 := by
  delta State.alone State.up; decide +kernel

/-- Page 256, address 0x100000, is a page of the host: a channel may touch it. -/
theorem witness_DmaTransfers_pages : (tDma [] {}).dmaPage 31 0x10000000 = false ∧ (tDma [(DMA_PAGE_FIRST 31, 256)] {}).dmaPage 31 0x100000 = true
    ∧ (tDma [(DMA_PAGE_FIRST 31, 257)] {}).dmaPage 31 0x100000 = false ∧ ({} : Mem).isBad 0x100000 = false := by decide +kernel

/-- The transfer's one word moves and nothing is left of it. -/
theorem witness_DmaTransfers_done :
    let d := { tDesc with src := 0x100000, dst := 0x100200 }
    let w : Hw := { hub := tDma [(DMA_STATE 31, 1)] { desc := some d, moving := true }, mem := {}, nv := Nv.initial }
    (w.dmaAdvance 31 d [] d.len).2 = none ∧ (w.dmaAdvance 31 d [] d.len).1.hub.dmaOver 31 d = true
      ∧ (w.hub.dmaSt 31).moving = true ∧ w.hub.get (DMA_STATE 31) = 1 := by decide +kernel

/-- Requests on a resource: class A of requester 5, class B of 24, class C of 17, 23 and 32. -/
def tReq (who : Nat) (cls : Cls) : Req := { who := who, cls := cls, words := 1, since := 0, deadline := 1 }
def tArb (r : Nat) (l : List Req) : Hub := (tHub []).setRes r { waiting := l }

theorem witness_Arbitration : (tOf (tArb 19 [])).alone ∧ (tHub []).arb.running = false ∧ ((tHub []).setArb { running := true }).arb.running = true
    ∧ (∀ q ∈ ((tArb 19 []).arbRes 19).waiting, q.who = 24 → q.cls = .b → q.starved = true)
    ∧ ((tArb 19 [tReq 24 .b]).arbRes 19).waiting.find? (fun q => q.who == 24 && q.cls == .b && !q.starved) = some (tReq 24 .b)
    ∧ (tHub []).get ARB_STARVE_WHO_VALID = 0 ∧ (tHub [(ARB_STARVE_WHO_VALID, 1)]).get ARB_STARVE_WHO_VALID = 1
    ∧ (tArb 19 []).overdue 19 17 = none ∧ (tArb 19 [tReq 17 .c]).overdue 19 17 = some (tReq 17 .c) ∧ 4 ≤ 19
    ∧ (tArb 0 [tReq 23 .c]).overdue 0 23 = some (tReq 23 .c) ∧ (tArb 0 [tReq 32 .c]).overdue 0 32 = some (tReq 32 .c)
    ∧ (tHub []).get ARB_RSEL < 20 ∧ (tHub [(ARB_QSEL, 16)]).classB 0 16 = true ∧ (tHub [(ARB_RSEL, 20)]).get ARB_RSEL = 20
    ∧ (tHub []).classB 0 0 = false := by
  delta State.alone State.up; decide +kernel

theorem witness_Arbitration_rounds : (∃ q, q ∈ [tReq 5 .a] ∧ q.cls = .a ∧ ((tHub []).setArb { quota := [(5, 1)] }).hasQuota 0 { waiting := [tReq 5 .a] } q.who = true)
    ∧ (∀ q ∈ [tReq 24 .b], q.cls ≠ .a) ∧ (∃ q ∈ [tReq 24 .b], q.cls = .b) ∧ (∀ q ∈ [tReq 17 .c], q.cls ≠ .a ∧ q.cls ≠ .b) ∧ (∃ q ∈ [tReq 17 .c], q.cls = .c)
    ∧ (∀ q ∈ ([] : List Req), q.cls ≠ .c) := by decide +kernel

/-- Lane 60 in a state, as the lead of its own link in MODE 1. -/
def tLane (st : Nat) (l : List (Machine.Field × Nat)) (x : LaneSt) : Hub :=
  (tHub ([(LANE_STATE 60, st), (LANE_LINK_LEAD 60, 1), (LANE_MODE 60, 1)] ++ l)).setLane 60 x

theorem witness_LaneTraining : (tOf (tLane 1 [] {})).alone ∧ (∀ st ∈ List.range 10, (tLane st [] {}).laneState 60 = st)
    ∧ (∀ n ∈ (tLane 1 [] {}).linkLanes 60, (tLane 1 [] {}).get (LANE_MODE n) = (tLane 1 [] {}).get (LANE_MODE 60) ∧ (tLane 1 [] {}).get (LANE_MODE n) ≠ 0)
    ∧ ¬ (∀ n ∈ (tHub [(LANE_MODE 60, 0)]).linkLanes 60, (tHub [(LANE_MODE 60, 0)]).get (LANE_MODE n) ≠ 0) ∧ ((tLane 1 [] {}).lane 60).pllLost = false ∧ (tLane 1 [] {}).get (LANE_LINK_LEAD 60) = 1
    ∧ ((tLane 8 [] { quietAt := some 4 }).lane 60).quietAt = some 4 ∧ (tHub [(LANE_LINK_LEAD 61, 0)]).get (LANE_LINK_LEAD 61) = 0 ∧ (tHub [(LANE_MODE 60, 0)]).get (LANE_MODE 60) = 0
    ∧ (tLane 1 [] {}).get (LANE_MODE 60) ≠ 7 ∧ (tHub [(DEV_MODE_MODE, 2)]).mode ≠ 1 ∧ (tHub []).mode ≠ 7 ∧ (tHub [(DEV_MODE_MODE, 1)]).mode = 1 ∧ 61 % 4 ≠ 0 ∧ 60 % 4 = 0
    ∧ (tHub []).get (LANE_QCFG_RATE 60) ≠ 1 ∧ (quadLanes (60 / 4)).any (tLane 1 [] {}).isEth = false ∧ (tLane 1 [] {}).get (LANE_LINK_WIDTH 60) ≠ 3
    ∧ ((tLane 1 [] { probe := true }).lane 60).probe = true ∧ min 255 (0 + 1) < max 1 ((tLane 1 [(LANE_TRAIN_RETRIES 60, 2)] {}).get (LANE_TRAIN_RETRIES 60))
    ∧ max 1 ((tLane 1 [(LANE_TRAIN_RETRIES 60, 0)] {}).get (LANE_TRAIN_RETRIES 60)) ≤ min 255 (0 + 1) ∧ 9 < 16 := by
  delta State.alone State.up; decide +kernel

theorem witness_LaneTraining_steps : ((tLane 1 [] {}).lane 60).rxWake = none ∧ (tLane 2 [(LANE_CDR_LOCK 60, 1)] {}).get (LANE_CDR_LOCK 60) = 1
    ∧ (tLane 2 [] {}).get (LANE_BLOCK_LOCK 60) = 0 ∧ (tLane 2 [(DEV_MODE_MODE, 7), (LANE_MANUAL_ALIGN 60, 1)] {}).mode = 7
    ∧ (tLane 2 [(LANE_MANUAL_ALIGN 60, 1)] {}).get (LANE_MANUAL_ALIGN 60) = 1 ∧ 65 ≤ 65 ∧ 63 < 64 ∧ 64 ≤ 64 ∧ 65 < 66
    ∧ (tLane 2 [(LANE_AUTO_POL 60, 1)] {}).get (LANE_AUTO_POL 60) = 1 ∧ (tLane 2 [(LANE_BLOCK_LOCK 60, 1)] {}).get (LANE_BLOCK_LOCK 60) = 1
    ∧ (tLane 2 [(LANE_AUTO_POL 60, 0)] {}).get (LANE_AUTO_POL 60) = 0 ∧ (tLane 3 [(LANE_CTLE_MANUAL 60, 1)] {}).get (LANE_CTLE_MANUAL 60) = 1
    ∧ (tLane 3 [(LANE_CTLE_MANUAL 60, 0)] {}).get (LANE_CTLE_MANUAL 60) = 0
    ∧ (tLane 3 [(LANE_EYE_EYE_MIN 60, 12)] {}).get (LANE_EYE_EYE_MIN 60) ≤ widest [3, 12] ∧ widest [3, 11] < (tLane 3 [(LANE_EYE_EYE_MIN 60, 12)] {}).get (LANE_EYE_EYE_MIN 60)
    ∧ (0 = (tLane 3 [(LANE_QCFG_RATE 60, 0)] {}).get (LANE_QCFG_RATE (60 / 4 * 4)) ∧ 0 = (tLane 3 [(LANE_LINK_WIDTH 60, 0)] {}).get (LANE_LINK_WIDTH 60) ∧ 0 = 60 - 60)
    ∧ ((tLane 3 [] {}).modLane 60 fun l => { l with trains := 0 }).trained 60 = false
    ∧ (tLane 3 [] { adapted := true, trains := 16, readySets := 16 }).trained 60 = true ∧ (tLane 3 [(LANE_LINK_WIDTH 60, 1)] {}).get (LANE_LINK_WIDTH 60) ≠ 0
    ∧ 32 ≤ 32 ∧ 32 < 33 ∧ (tLane 4 [] {}).get (LANE_MODE 60) ≠ 2 ∧ (tLane 4 [(LANE_MODE 60, 2)] {}).get (LANE_MODE 60) = 2 := by decide +kernel

theorem witness_LaneLosses : (tOf (tLane 5 [] {})).alone ∧ (tLane 5 [(LANE_RX_LP 60, 1)] {}).get (LANE_RX_LP 60) = 1 ∧ (tLane 5 [] {}).get (LANE_RX_LP 60) = 0
    ∧ (tLane 5 [(LANE_LOS 60, 0)] {}).get (LANE_LOS 60) = 0 ∧ (tLane 5 [(LANE_LOS 60, 1)] {}).get (LANE_LOS 60) = 1 ∧ 15 < 16 ∧ 16 ≤ 16
    ∧ (tLane 5 [(LANE_MODE 60, 2)] {}).get (LANE_MODE 60) = 2 ∧ (tLane 5 [(LANE_HI_BER 60, 1)] {}).get (LANE_HI_BER 60) = 1 ∧ (tLane 5 [] {}).get (LANE_HI_BER 60) = 0
    ∧ (tLane 5 [(LINK_PEER_MAC_LO 60, 1)] {}).peerMac 60 ≠ 0 ∧ ((tLane 5 [] { hiBerAt := some 3 }).lane 60).hiBerAt = some 3
    ∧ (tLane 5 [(LANE_LP_LP_EN 60, 1)] {}).get (LANE_LP_LP_EN 60) = 1 ∧ (tLane 5 [(LANE_LP_LP_EN 60, 0)] {}).get (LANE_LP_LP_EN 60) = 0
    ∧ (tLane 5 [] {}).hasFrame 60 = false ∧ (tLane 5 [(LINK_UP 60, 1)] {}).linkUp 60 = true ∧ ((tLane 6 [] { txLp := true }).lane 60).txLp = true
    ∧ ((tLane 6 [] { wakeEnd := some 3 }).lane 60).wakeEnd = some 3 ∧ ((tLane 6 [] {}).lane 60).wakeEnd = none ∧ ((tLane 5 [] { rxWake := some 3 }).lane 60).rxWake = some 3
    ∧ ((tLane 6 [] {}).lane 60).txLp = false ∧ (tHub [(DEV_MODE_MODE, 7)]).mode = 7 ∧ (tHub []).mode ≠ 7
    ∧ (tLane 9 [(LANE_PRBS_CHK_EN 60, 1)] {}).get (LANE_PRBS_CHK_EN 60) = 1 ∧ (tLane 9 [(LANE_PRBS_PATTERN 60, 1)] {}).get (LANE_PRBS_PATTERN 60) ≠ 0
    ∧ (tLane 9 [] {}).get (LANE_PRBS_SYNC 60) = 0 ∧ (tLane 9 [(LANE_PRBS_SYNC 60, 1)] {}).get (LANE_PRBS_SYNC 60) = 1 := by
  delta State.alone State.up; decide +kernel

/-! ### Links -/

/-- Link 60, ACTIVE, with this role and these fields, and its hidden record. -/
def tLink (role : Nat) (l : List (Machine.Field × Nat)) (x : LinkSt) : Hub :=
  (tHub ([(LANE_STATE 60, 5), (LANE_LINK_LEAD 60, 1), (LINK_UP 60, 1), (LINK_ROLE 60, role)] ++ l)).setLink 60 x

/-- A packet of one word, sent as the sender's queue holds it; and the same queue on link 60's VC 0 with credit for it. -/
def tPkt : Pkt := { poison := true, words := [1], len := 4 }
def tSends (l : List (Machine.Field × Nat)) (x : LinkSt) : Hub :=
  ((tLink 1 ([(Q_STATE 200, 1), (Q_LINK 200, 60)] ++ l) x).setQ 200 { pkts := [tPkt] }).setVc 60 0 { grantP := 1, grantW := 100 }

theorem witness_LinkSequence : (tOf (tLink 2 [] {})).up ∧ (tHub []).linkUp 60 = false ∧ (tLink 2 [] {}).linkUp 60 = true ∧ serialLe (2 ^ 32 - 1) 0 = true
    ∧ serialLe 1 0 = false ∧ (1 : Word).toNat ≠ (tLink 2 [] {}).get (LINK_RX_LSEQ 60) ∧ serialLe 0 ((tLink 2 [] {}).get (LINK_TX_LSEQ 60)) = true
    ∧ ((tLink 2 [] { unacked := [{ lseq := 0, resends := 7 }] }).link 60).unacked = [{ lseq := 0, resends := 7 }] ∧ ((tLink 2 [] {}).link 60).unacked = []
    ∧ 0 < ((tLink 2 [] { sinceAck := 1 }).link 60).sinceAck ∧ ((tLink 2 [] {}).link 60).sinceAck = 0 ∧ 7 < 8 ∧ 8 ≤ 8
    ∧ ((tLink 2 [] { nakAt := some (0, 5) }).link 60).nakAt = some ((tLink 2 [] {}).get (LINK_RX_LSEQ 60), 5) ∧ ((tLink 2 [] {}).link 60).nakAt = none
    ∧ (tLink 2 [] {}).time.now < 5 + max 1 ((tLink 2 [] {}).get (LINK_REPLAY_US 60)) * usU
    ∧ ((tLink 2 [] { nakAt := some (9, 5) }).link 60).nakAt = some (9, 5) ∧ 9 ≠ (tLink 2 [] {}).get (LINK_RX_LSEQ 60) := by
  delta State.up; decide +kernel

/-- Link 60 receives on VC 0 into queue 200, which its LINK producer may fill and link 4, an UP link with credit, empties. -/
def tTakes (l : List (Machine.Field × Nat)) : Hub :=
  (((tLink 2 ([(VC_RXQ_VALID 60 0, 1), (VC_RXQ 60 0, 200), (Q_STATE 200, 1), (Q_LINK 200, 4), (LINK_ROLE 4, 1), (LINK_UP 4, 1)] ++ l) {}).setQ 200
    { creds := [(prodLink, ⟨16440, 1, 5000, 0, 0, 0, 0, 0, 0⟩)] }).setVc 4 0 { grantP := 1, grantW := 5000 })
def tStart : FrameStart := { lseq := 0, vc := 0, len := 64, head := List.replicate 64 0 }

theorem witness_LinkSequence_data : (tLink 2 [] {}).dataQueue 60 0 64 = none ∧ (tTakes []).dataQueue 60 0 64 = some 200
    ∧ (tTakes []).cutLink 60 tStart = some (4, 0, 200) ∧ tStart.lseq = (tTakes []).get (LINK_RX_LSEQ 60) := by decide +kernel

theorem witness_LinkTransmitter : (tOf (tLink 1 [] {})).up ∧ ((tLink 1 [] {}).lane 60).txLp = false ∧ (((tLink 1 [] {}).setLane 60 { txLp := true }).lane 60).txLp = true
    ∧ (tLink 1 [] {}).get (LANE_MODE 60) ≠ 2
    ∧ (((tLink 1 [] { dueNak := true }).raiseGrants 60).link 60).dueNak = true ∧ (((tLink 1 [] { dueAck := true }).raiseGrants 60).link 60).dueNak = false
    ∧ (((tLink 1 [] { dueAck := true }).raiseGrants 60).link 60).dueAck = true ∧ (((tLink 1 [] { dueCustody := true }).raiseGrants 60).link 60).dueCustody = true
    ∧ (((tLink 1 [] { dueCredit := true }).raiseGrants 60).link 60).dueCredit = true ∧ (((tLink 1 [] {}).raiseGrants 60).link 60).dueCredit = false
    ∧ (((tLink 1 [] { resend := [3] }).raiseGrants 60).link 60).resend = [3] ∧ (((tLink 1 [] {}).raiseGrants 60).link 60).resend = []
    ∧ (((tLink 1 [] { ready := [.reset 0 0] }).raiseGrants 60).link 60).ready = [.reset 0 0] ∧ (((tLink 1 [] {}).raiseGrants 60).link 60).ready = []
    ∧ (((tLink 1 [] {}).raiseGrants 60).link 60).times = [] ∧ (((tLink 1 [] {}).raiseGrants 60).link 60).ctrlOut < 16
    ∧ 16 ≤ (((tLink 1 [] { ctrlSent := 16 }).raiseGrants 60).link 60).ctrlOut := by
  delta State.up; decide +kernel

theorem witness_LinkTransmitter_data : (tSends [] { hello := some { tHello with role := 1 } }).rolesOk 60 = false ∧ (tSends [] {}).rolesOk 60 = true
    ∧ (tSends [] {}).vcNext 60 0 = some 200 ∧ (∀ v < 4, (tLink 1 [] {}).vcNext 60 v = none) ∧ ((tSends [] {}).q 200).front = some tPkt := by decide +kernel

/-- A packet of stream 4 from hub 0, whose entry of the deduplication table, and whose pair, has seen its index. -/
def tBody : List (BitVec 8) := leBytes 1 1 ++ leBytes 1 0 ++ leBytes 1 4 ++ leBytes 1 0 ++ List.replicate 60 0

theorem witness_DataAndCredit : (tOf (tTakes [])).up ∧ (tTakes []).linkUp 60 = true ∧ (tTakes []).get (LINK_RX_LSEQ 60) < 2 ^ 32
    ∧ (tLink 1 [] {}).role 60 ≠ roleDown ∧ (tTakes [(VC_RXQ_VALID 60 0, 0)]).get (VC_RXQ_VALID 60 0) = 0 ∧ (tTakes []).dataQueue 60 0 tBody.length = some 200
    ∧ ((tTakes []).setLk { (tTakes []).lk with dedup := [⟨false, 0, 4, 0, 0, 0⟩] }).isDup (parsePkt tBody).1 (parsePkt tBody).2 = true
    ∧ (tTakes []).isDup (parsePkt tBody).1 (parsePkt tBody).2 = false ∧ (parsePkt tBody).2.type ≠ 0x20
    ∧ ((tTakes []).setLk { (tTakes []).lk with pairs := [(0, 1)], pairSt := [(4, { armId := 0, passedMax := some 0 })] }).pairDrops (parsePkt tBody).1 (parsePkt tBody).2 = true
    ∧ (tTakes []).pairDrops (parsePkt tBody).1 (parsePkt tBody).2 = false ∧ (parsePkt (0x20 :: tBody)).2.type = 0x20
    ∧ (((tSends [] {}).q 200).pkts.findRev? fun p => p.gap.isNone && !p.sent) = some tPkt
    ∧ (((tTakes []).q 200).pkts.findRev? fun p => p.gap.isNone && !p.sent) = none := by
  delta State.up; decide +kernel

theorem witness_DataAndCredit_credit : (tLink 2 [] {}).time.now ≤ ((tLink 2 [] {}).link 60).changedAt + msU
    ∧ ((tLink 2 [] {}).link 60).changedAt + msU < ((tLink 2 [] {}).setTime { (tLink 2 [] {}).time with now := msU + 1 }).time.now
    ∧ (1 ≠ ((tLink 2 [] {}).vc 60 0).grantP ∧ serialLe ((tLink 2 [] {}).vc 60 0).grantP 1 = true) ∧ 0 < (1 + 2 ^ 32 - ((tLink 2 [] {}).vc 60 0).usedP) % 2 ^ 32
    ∧ ¬ 1 < (1 + 2 ^ 32 - ((tLink 2 [] {}).vc 60 0).usedP) % 2 ^ 32 ∧ serialLe 1 ((tLink 2 [] {}).get (VC_TX_CSEQ 60 0)) = false
    ∧ serialLe 0 ((tLink 2 [] {}).get (VC_TX_CSEQ 60 0)) = true := by decide +kernel

/-- A hub that holds a route address, as the top hub or below another. -/
def tRoute (r : Nat) (top : Bool) (h : Hub) : Hub := h.setLk { h.lk with held := r, routeSet := top }
def tTop : Nat := setHop noRoute 1 0

theorem witness_Enumeration : (tOf (tLink 1 [] {})).up ∧ tHello.route ≠ noRoute ∧ { tHello with route := noRoute }.route = noRoute
    ∧ assignOk tTop 2 = false ∧ assignOk tTop 1 = true ∧ (tLink 1 [] {}).role 60 = roleUp ∧ (tLink 2 [] {}).role 60 ≠ roleUp
    ∧ (tLink 1 [] {}).route = noRoute ∧ (tRoute tTop true (tLink 1 [] {})).route ≠ noRoute ∧ tTop = (tRoute tTop true (tLink 1 [] {})).route
    ∧ (tRoute tTop true (tLink 1 [] {})).lk.routeSet = true ∧ ((tLink 1 [] { gaveRoute := true }).link 60).gaveRoute = true
    ∧ ((tLink 1 [] {}).link 60).gaveRoute = false ∧ (tLink 1 [] {}).lk.routeSet = false ∧ 1 ≤ routeDepth tTop ∧ routeDepth tTop ≤ 7
    ∧ (tLink 2 [] {}).role 60 = roleDown ∧ (tLink 2 [] {}).get (LINK_UP 60) = 1
    ∧ (tHub [(DEV_ROUTE_LO, tTop % 2 ^ 32), (DEV_ROUTE_ROUTE_HI, tTop / 2 ^ 32)]).get DEV_ROUTE_LO
        + 2 ^ 32 * (tHub [(DEV_ROUTE_LO, tTop % 2 ^ 32), (DEV_ROUTE_ROUTE_HI, tTop / 2 ^ 32)]).get DEV_ROUTE_ROUTE_HI = tTop := by
  delta State.up; decide +kernel

theorem witness_RemoteAccess : (tRoute tTop false (tLink 2 [] {})).routeTo tTop = some none
    ∧ (tRoute tTop false (tLink 2 [] {})).routeTo (setHop tTop 2 60) = some (some 60) ∧ (tRoute tTop false (tLink 2 [] {})).routeTo (setHop tTop 2 4) = none
    ∧ (tRoute tTop false (tLink 1 [] {})).routeTo noRoute = some (some 60) ∧ tRacc.dest ≠ noRoute ∧ (tRoute tTop true (tLink 1 [] {})).lk.routeSet = true
    ∧ { tRacc with dest := noRoute }.dest = noRoute ∧ { tRacc with op := 1 }.op = 1 ∧ (1 : Word).toNat ≠ 0
    ∧ (1 : Word).toNat = ((tHub []).setUpd { (tHub []).upd with inUse := imgPut [] 0x18 (leBytes 4 1) }).resetCode
    ∧ (tRoute tTop true (tLink 1 [] {})).raccMine noRoute = true ∧ (tRoute tTop false (tLink 1 [] {})).raccMine noRoute = false
    ∧ { tRacc with len := 8 }.len ≠ 4 ∧ tRacc.len = 4 ∧ 4 ≤ 4 ∧ 1024 < 1028 ∧ 1024 ≤ 1024 ∧ (tHub []).hostRange 0xFFFFFFC 4 = true
    ∧ (tHub []).hostRange 0 4 = false ∧ 0xFFFFFFC + 4 ≤ 2 ^ 28 ∧ (tLink 1 [(LINK_RACC_BUSY 60, 1)] {}).get (LINK_RACC_BUSY 60) = 1
    ∧ (tLink 1 [] {}).get (LINK_RACC_BUSY 60) = 0 ∧ (tHub [(LANE_LINK_LEAD 61, 0)]).get (LANE_LINK_LEAD 61) = 0
    ∧ ((tLink 1 [] { racc := some 3 }).link 60).racc = some 3 ∧ ((tLink 1 [] {}).link 60).racc = none
    ∧ 3 ∈ ((tHub []).setPair { (tHub []).pair with reports := [3] }).pair.reports ∧ 3 ∉ (tHub []).pair.reports := by decide +kernel

theorem witness_LinkFrames : stampOf (BitVec.ofNat 96 (1000000000 * 2 ^ 48)) = none ∧ stampOf (BitVec.ofNat 96 (999999999 * 2 ^ 48)) = some (mkTime 0 999999999 0)
    ∧ ((tLink 1 [] {}).remember 7 tTop 0).known 7 tTop 0 = true ∧ (tLink 1 [] {}).known 7 tTop 0 = false
    ∧ (tLink 1 [(LANE_MODE 60, 2)] {}).get (LANE_MODE 60) = 2 ∧ (tLink 1 [] {}).get (LANE_MODE 60) ≠ 2 ∧ (1 : BitVec 48).toNat ≠ (tLink 1 [] {}).peerMac 60
    ∧ (0 : BitVec 48).toNat = (tLink 1 [] {}).peerMac 60 ∧ ((tLink 1 [] {}).link 60).asm = none
    ∧ ((tLink 1 [] { asm := some (9, 1, 12) }).link 60).asm = some ((9 : Word).toNat, 1, (12 : Fin 256).val) ∧ 12 < (13 : Fin 256).val ∧ (12 : Fin 256).val ≤ 12
    ∧ (1 : Fin 256).val + 1 = (2 : Fin 256).val := by decide +kernel

/-! ### Pairs, armatures, casts, the register map -/

/-- A member of a pair over link 60: its ROLE and PSTATE. -/
def tPair (role pstate : Nat) (l : List (Machine.Field × Nat)) (d : DupSt) : Hub :=
  (tLink 3 ([(DUP_ROLE, role), (DUP_PSTATE, pstate), (DUP_LINK, 60)] ++ l) {}).setPair d

theorem witness_DuplexLink : (tOf (tPair 1 1 [] {})).up ∧ (tPair 1 1 [] {}).linkUp 60 = true ∧ (tPair 1 1 [] {}).get (LINK_RX_LSEQ 60) < 2 ^ 32
    ∧ (tPair 1 1 [] {}).dupFrom 60 = true ∧ (tLink 3 [] {}).dupFrom 60 = false ∧ (tPair 1 1 [] {}).standby = true ∧ (tPair 0 1 [] {}).standby = false
    ∧ (tPair 1 psMismatch [] {}).pstate = psMismatch ∧ (tPair 1 psDegraded [] {}).pstate = psDegraded ∧ (tPair 1 psLockstep [] {}).pstate = psLockstep
    ∧ (tPair 1 psJoining [] {}).pstate = psJoining ∧ (tLink 3 [] {}).pstate = psNone ∧ ((tPair 1 1 [] {}).chan 191).shed = false
    ∧ (((tPair 1 1 [] {}).setChan 191 { shed := true }).chan 191).shed = true ∧ mirroredAddr ((0x2200 : Word).toNat / 4 * 4) = true
    ∧ stampOf 0 = some (mkTime 0 0 0) ∧ (7 : Fin 256).val = 7 ∧ (0 : BitVec 8).toNat.testBit 3 = false ∧ (tPair 1 1 [] {}).role 60 = roleDuplex
    ∧ (tPair 0 1 [] {}).get DUP_ROLE = 0 ∧ (tPair 1 1 [] {}).get DUP_ROLE = 1 ∧ (tPair 1 1 [] {}).get DUP_SWAP_PENDING = 0
    ∧ (tPair 1 1 [(DUP_SWAP_PENDING, 1)] {}).get DUP_SWAP_PENDING = 1 ∧ (tPair 1 1 [] { swapAt := 9 }).time.now < (tPair 1 1 [] { swapAt := 9 }).pair.swapAt
    ∧ 5 < (6 : BitVec 8).toNat ∧ 1 ≠ (tPair 1 1 [] {}).pair.armCrc ∧ 0 = (tPair 1 1 [] {}).pair.armCrc := by
  delta State.up; decide +kernel

theorem witness_DuplexLink_sent : (tPair 1 1 [] {}).activeOf roleDuplex = [60] ∧ (tPair 0 1 [(DEV_MODE_MODE, 4)] {}).dupDriving = true ∧ (tPair 1 1 [] {}).dupDriving = false
    ∧ (tPair 1 1 [] { srcs := [⟨0, false, 0⟩] }).shadowing = true ∧ (tPair 1 1 [] {}).shadowing = false
    ∧ ([((0 : Fin 2), (0 : Fin 64))].filterMap fun g => (tPair 1 1 [] {}).digestOf 5 (g.1.val, g.2.val)) = []
    ∧ ([((0 : Fin 2), (0 : Fin 64))].filterMap fun g => (tPair 1 1 [] { parts := [(5, 0, 0, 0, [7])] }).digestOf 5 (g.1.val, g.2.val)) ≠ []
    ∧ (tPair 1 1 [] { maps := [(1024, 3, 4)] }).pair.maps.find? (fun m => m.1 == 1024) = some (1024, 3, 4) ∧ (tPair 1 1 [] {}).pair.maps.find? (fun m => m.1 == 1024) = none
    ∧ (1000 : Int).natAbs ≤ 1 * 1000 ∧ 1 * 1000 < (1001 : Int).natAbs ∧ (tPair 1 1 [] { tdiffRun := 14 }).pair.tdiffRun ≠ 15
    ∧ (tPair 1 2 [] {}).comparable 0 0 5 = true := by decide +kernel

theorem witness_TakeoverAndSwap : (tOf (tPair 1 1 [] {})).up ∧ (tPair 1 1 [(DUP_SUSPECT, 1), (DUP_POLICY, 1)] {}).get DUP_SUSPECT = 1
    ∧ (tPair 1 1 [(DUP_SUSPECT, 1), (DUP_POLICY, 1)] {}).get DUP_POLICY = 1 ∧ (tPair 1 1 [] {}).get DUP_SUSPECT = 0 ∧ (tPair 1 1 [] {}).pair.driverAt = none
    ∧ (tPair 1 1 [] { driverAt := some 3 }).pair.driverAt = some 3 ∧ (tPair 0 2 [(DUP_PARTNER_SUSPECT, 1)] {}).get DUP_PARTNER_SUSPECT = 1
    ∧ (tPair 0 2 [(DUP_SWAP_NS, 9999999)] {}).swapInstant < (tPair 0 2 [] {}).time.now + 10 * msU
    ∧ (tPair 0 2 [] {}).time.now + 10 * msU ≤ (tPair 0 2 [(DUP_SWAP_NS, 10000000)] {}).swapInstant
    ∧ (tPair 0 2 [] { partner := some (0, 1) }).pair.partner = some (0, 1) ∧ (1).testBit 0 = true ∧ (8).testBit 3 = true ∧ (0).testBit 0 = false ∧ (0).testBit 3 = false
    ∧ (tPair 0 psLockstep [] {}).pstate = psLockstep ∧ (tPair 0 2 [] {}).get DUP_PARTNER_SUSPECT = 0 ∧ (tPair 0 2 [] {}).time.now + msU ≤ (tPair 0 2 [] { swapAt := msU }).pair.swapAt
    ∧ (tPair 0 2 [] { swapAt := msU - 1 }).pair.swapAt < (tPair 0 2 [] {}).time.now + msU := by
  delta State.up; decide +kernel

theorem witness_StagingMaquette : (tS [(DEV_MODE_MODE, 2)]).up ∧ (tHub [(DEV_MODE_MODE, 2)]).get DEV_MODE_MODE = 2 ∧ (tHub []).get DEV_MODE_IN_TRANSITION ≠ 1
    ∧ (∀ st < 5, (tHub [(ARM_STAT_STATE, st)]).get ARM_STAT_STATE = st) ∧ (tHub []).get ARM_STAT_COMMIT_PENDING ≠ 1
    ∧ (tHub [(ARM_STAT_COMMIT_PENDING, 1)]).get ARM_STAT_COMMIT_PENDING = 1 ∧ (tHub [(ARM_SRC_ADDR, 2)]).get ARM_SRC_ADDR % 4 ≠ 0
    ∧ (tHub []).loadBegin.hostRange 0 64 = false ∧ (tHub []).loadBegin.hostRange 0x100000 64 = true
    ∧ ((tHub []).loadBegin.loadBytes (List.replicate 64 0)).get ARM_STAT_STATE ≠ 1 ∧ (List.replicate 60 (0 : BitVec 8)).length < 64
    ∧ formatErr noRoute [] false (List.replicate 60 0) = none ∧ formatErr noRoute [] false (List.replicate 64 0) ≠ none
    ∧ (tHub [(SCHED_STATE 7, 1), (SCHED_OWNER 7, 1)]).schedOf 1 = some 7 ∧ (tHub []).arm.prestarted = false := by
  delta State.up; decide +kernel

/-- The scheduler with its slots pending, but for one. -/
def tFull (n : Nat) : List (Machine.Field × Nat) := (List.range n).map fun k => (SCHED_STATE k, 1)

theorem witness_CommitAndWithdrawal : (tS []).up ∧ (tHub [(UPD_STAT_SETTINGS_UNREADABLE, 1)]).get UPD_STAT_SETTINGS_UNREADABLE = 1
    ∧ (tHub []).get UPD_STAT_SETTINGS_UNREADABLE = 0 ∧ (tHub []).get ARM_COMMIT_AT_EN = 0 ∧ (tHub [(ARM_COMMIT_AT_EN, 1)]).get ARM_COMMIT_AT_EN = 1
    ∧ (∀ j < 8, (tHub (tFull 8)).get (SCHED_STATE j) = 1) ∧ ((tHub (tFull 7)).get (SCHED_STATE 7) ≠ 1 ∧ ∀ j < 7, (tHub (tFull 7)).get (SCHED_STATE j) = 1)
    ∧ mkTime ((tHub [(ARM_COMMIT_NS, 999999)]).get ARM_COMMIT_SEC_LO) ((tHub [(ARM_COMMIT_NS, 999999)]).get ARM_COMMIT_NS) 0 < (tHub []).time.now + msU
    ∧ (tHub []).time.now + msU ≤ mkTime ((tHub [(ARM_COMMIT_NS, 1000000)]).get ARM_COMMIT_SEC_LO) ((tHub [(ARM_COMMIT_NS, 1000000)]).get ARM_COMMIT_NS) 0
    ∧ (∀ o < 4, (tHub [(SCHED_OWNER 7, o)]).get (SCHED_OWNER 7) = o) ∧ (tHub []).schedOf 1 = none ∧ (tHub []).arm.committed = false
    ∧ ((tHub []).setArm { (tHub []).arm with committed := true, prestarted := true }).arm.committed = true
    ∧ ((tHub []).setArm { (tHub []).arm with committed := true, prestarted := true }).arm.prestarted = true
    ∧ (tHub []).get ARM_STAT_WITHDRAW_PENDING = 0 ∧ (tHub [(ARM_STAT_DRAINING, 1)]).get ARM_STAT_DRAINING = 1 ∧ (tHub []).get ARM_STAT_DRAINING = 0
    ∧ (∀ st < 4, (tHub [(GRID_STATE 7, st)]).gridState 7 = st) := by
  delta State.up; decide +kernel

/-- A DUPLEX section of each role. -/
def tDup (role : Nat) : Sect := { type := 15, inst := 0, off := 0, body := [BitVec.ofNat 8 role] }

theorem witness_CommitAndWithdrawal_refused : (tHub []).memBusy [] = false ∧ findSect [tDup 1] 15 0 = some (tDup 1) ∧ (tDup 1).b 0 = 1 ∧ (tDup 0).b 0 ≠ 1
    ∧ (tPair 0 1 [] {}).pstate ≠ 0 ∧ (tDup 1).b 0 ≠ (tPair 0 1 [] {}).get DUP_ROLE ∧ findSect [] 15 0 = none ∧ (tHub []).get ARM_ID_COMMITTED = 0
    ∧ (tHub []).refusedAt 0 [] = 0 ∧ (tPair 0 1 [] {}).refusedAt 0 [tDup 1] = 8 ∧ armCalibrate (List.replicate 64 0) = false := by decide +kernel

/-- A channel with one grid output due, at index 0, on a path of its own. -/
def tChRun : Run := { epoch := 0, p := 1000, q := 1, resume := 0, first := 0, next := 0 }
def tOutput : Output := { index := 0, words := [0], quality := 0 }

theorem witness_Outputs : ((tHub []).chan 191).due = none ∧ (((tHub []).setChan 191 { live := true, runs := [tChRun] }).chan 191).due = some tChRun ∧ tChRun.two = false
    ∧ ((tHub []).chan 191).linQ = [] ∧ (((tHub []).setChan 191 { linQ := [(tOutput, tChRun)] }).chan 191).linQ = (tOutput, tChRun) :: []
    ∧ -8388608 ≤ (-8388608 : Int) ∧ (8388607 : Int) ≤ 8388607 ∧ saturate 8388608 = (8388607, true) ∧ saturate (-8388608) = (-8388607, true) := by decide +kernel

/-- The hardware with these fields and this hold-up value; in MAINTENANCE it can be updated. -/
def tUpd (l : List (Machine.Field × Nat)) (holdup : Nat) (u : Upd) : Hw :=
  let h := tHub ([(DEV_MODE_MODE, 7)] ++ l)
  { hub := (h.setPwr { h.pwr with holdup := holdup, supplies := true }).setUpd u, mem := {}, nv := Nv.initial }

theorem witness_CastLoading : (tHub []).get DEV_MODE_MODE ≠ 7 ∧ (tUpd [] 65535 {}).hub.get DEV_MODE_MODE = 7 ∧ (tUpd [] 65535 {}).lcState ≠ 4
    ∧ ({ tUpd [] 65535 {} with nv := { Nv.initial with lcFuse := 4 } } : Hw).lcState = 4 ∧ (tUpd [(UPD_STAT_STATE, 5)] 65535 {}).hub.updBusy = true
    ∧ (tUpd [] 65535 {}).hub.updBusy = false ∧ (tUpd [(UPD_OBS_LOCK, 1)] 65535 {}).hub.get UPD_OBS_LOCK = 1 ∧ (tUpd [] 65535 {}).hub.get UPD_OBS_LOCK ≠ 1
    ∧ (tUpd [] 65535 { inUse := imgPut [] 0x14 [1] }).hub.updLock = true ∧ (tUpd [] 65535 {}).hub.updLock = false
    ∧ (tUpd [(UPD_HOLDUP_MIN, 5)] 4 {}).hub.pwr.holdup < (tUpd [(UPD_HOLDUP_MIN, 5)] 4 {}).hub.get UPD_HOLDUP_MIN
    ∧ (tUpd [(UPD_HOLDUP_MIN, 5)] 5 {}).hub.get UPD_HOLDUP_MIN ≤ (tUpd [(UPD_HOLDUP_MIN, 5)] 5 {}).hub.pwr.holdup ∧ (tUpd [] 5 {}).hub.pwr.supplies = true
    ∧ (tUpd [] 65535 { partnerUpdAt := some 0 }).hub.upd.partnerUpdAt = some 0 ∧ (tUpd [] 65535 {}).hub.upd.partnerUpdAt = none ∧ (tUpd [] 65535 {}).updRefusal true = 0
    ∧ (tUpd [] 65535 { partnerUpdAt := some 0 }).updRefusal true = 7 ∧ 255 < 256 := by decide +kernel

theorem witness_CastLoading_arrives : (tOf (tUpd [(UPD_STAT_STATE, 1)] 65535 {}).hub).up ∧ (tUpd [(UPD_STAT_STATE, 1)] 65535 {}).hub.get UPD_STAT_STATE = 1
    ∧ (tUpd [] 65535 {}).hub.updBegin.hostRange 0 256 = false ∧ (tUpd [] 65535 {}).hub.updBegin.hostRange 0x100000 256 = true
    ∧ (tUpd [(UPD_ROOM, 0)] 65535 {}).hub.get UPD_ROOM = 0 ∧ (tUpd [(UPD_ROOM, 262144)] 65535 {}).hub.get UPD_ROOM ≠ 0
    ∧ ((leBytes 4 0).reverse ++ List.replicate 252 (0 : BitVec 8)).length = 256 ∧ fieldAt (List.replicate 256 0) 0 2 ≠ 0x2096
    ∧ fieldAt ([0x96, 0x20] ++ List.replicate 4094 0) 0 2 = 0x2096 ∧ 4096 % 4096 = 0
    ∧ ((tUpd [] 65535 {}).setHub ((tHub []).setUpd { bytes := List.replicate 256 0 })).nativeErr (List.replicate 256 0) ≠ 0
    ∧ castErr castFirst [] 2 = 0x10 ∧ (tUpd [(UPD_STAT_STATE, 2)] 65535 { cast := some castFirst }).hub.upd.cast = some castFirst := by
  delta State.up; decide +kernel

theorem witness_CastActivation : (tOf (tUpd [(UPD_STAT_STATE, 3)] 65535 {}).hub).up ∧ (∀ st < 6, (tUpd [(UPD_STAT_STATE, st)] 65535 {}).hub.get UPD_STAT_STATE = st)
    ∧ (tUpd [(UPD_STAT_STATE, 3)] 65535 {}).updRefusal false = 0 ∧ ({ tUpd [(UPD_STAT_STATE, 3)] 65535 {} with hub := tHub [(UPD_STAT_STATE, 3)] } : Hw).updRefusal false ≠ 0
    ∧ (tUpd [] 0 {}).hub.time.now + 100 * msU ≤ mkTime 0 ((tUpd [(UPD_ACT_NS, 100000000)] 0 {}).hub.get UPD_ACT_NS) 0
    ∧ mkTime 0 ((tUpd [(UPD_ACT_NS, 99999999)] 0 {}).hub.get UPD_ACT_NS) 0 < (tUpd [] 0 {}).hub.time.now + 100 * msU
    ∧ (tUpd [(SCHED_STATE 7, 1), (SCHED_OWNER 7, 3)] 0 {}).hub.schedOf 3 = some 7 ∧ (tUpd [] 0 {}).hub.schedOf 3 = none
    ∧ (tUpd [] 0 { running := some castFirst }).hub.upd.running = some castFirst ∧ (tUpd [(UPD_STAT_PREV_VALID, 1)] 0 {}).hub.get UPD_STAT_PREV_VALID = 1
    ∧ (tUpd [] 0 {}).hub.get UPD_STAT_PREV_VALID ≠ 1 ∧ (tUpd [] 0 {}).lcState ≠ 3
    ∧ ({ tUpd [] 0 {} with nv := { Nv.initial with recovery := true } } : Hw).lcState = 3 := by
  delta State.up; decide +kernel

theorem witness_SettingsSlots : (tOf (tUpd [] 65535 {}).hub).up ∧ (tUpd [(UPD_SET_ADDR, 0x5D93)] 0 {}).hub.get UPD_SET_ADDR / 4 * 4 ≤ 0x5D90
    ∧ 0x5D90 < (tUpd [(UPD_SET_ADDR, 0x5D94)] 0 {}).hub.get UPD_SET_ADDR / 4 * 4 ∧ (tUpd [] 65535 {}).setTarget = some 0
    ∧ ({ tUpd [] 65535 {} with nv := { Nv.initial with boot := {} } } : Hw).setTarget = none ∧ (tUpd [(UPD_SETC_BUSY, 1)] 0 {}).hub.get UPD_SETC_BUSY = 1
    ∧ (tUpd [] 0 {}).hub.get UPD_SETC_BUSY ≠ 1 ∧ (tUpd [] 0 { setPend := some (0, []) }).hub.upd.setPend = some (0, []) ∧ (tUpd [] 0 {}).hub.upd.setPend = none
    ∧ (aGet Nv.initial.settings 1 {}).ok = false ∧ (aGet Nv.initial.settings 0 {}).ok = true
    ∧ (aGet (aInsert Nv.initial.settings 1 { ok := true, seq := 1 }) 1 {}).ok = true ∧ (1 + 2 ^ 32 - 0) % 2 ^ 32 < 2 ^ 31 := by
  delta State.up; decide +kernel

theorem witness_LifeCycle : (tOf (tUpd [(LC_ARMED, 1)] 65535 {}).hub).up ∧ (tHub [(LC_ARMED, 1)]).get LC_ARMED = 1 ∧ (tHub []).get LC_ARMED ≠ 1
    ∧ (1 : Word) ≠ 0x4C434152 ∧ (tUpd [] 0 {}).lcState = 2 ∧ ({ tUpd [] 0 {} with nv := { Nv.initial with lcFuse := 1 } } : Hw).lcState = 1
    ∧ ({ tUpd [] 0 {} with nv := { Nv.initial with lcFuse := 1 } } : Hw).factoryReady = false ∧ (4 : BitVec 3).toNat = 4 ∧ (7 : BitVec 3).toNat ≠ 4
    ∧ (tUpd [(UPD_STAT_STATE, 1)] 0 {}).hub.updBusy = true ∧ patOk [] = false := by
  delta State.up; decide +kernel

/-- A posted write waits. -/
def tPost (n : Nat) : Hub := (tHub []).setSpi { posted := List.replicate n { addr := 0x1000, value := 1 } }

theorem witness_SpiAccess : (tHub []).spiUp = true ∧ (tPh .held []).hw.hub.spiUp = false ∧ (tPost 31).spi.posted.length < 32 ∧ 32 ≤ (tPost 32).spi.posted.length
    ∧ (tHub []).spi.posted = [] ∧ (tPost 1).spi.posted = { addr := 0x1000, value := 1 } :: [] ∧ 0x0FFFFC < 0x100000 ∧ 0x200000 ≤ 0x1FFFFC + 4 ∧ 0x100000 ≤ 0x100000
    ∧ 0x1FFFF8 + 4 < 0x200000 ∧ (tHub []).served 0x1000 = true ∧ (tPh .held []).hw.hub.served 0x1000 = false ∧ (tHub []).portRead 0 0x1000 = none ∧ rsAt 0x1000 = none
    ∧ (0x04 : BitVec 8) ≠ 0x02 ∧ (0x04 : BitVec 8) ≠ 0x03 ∧ (0x04 : BitVec 8) ≠ 0x12 ∧ (0x04 : BitVec 8) ≠ 0x13 := by decide +kernel

theorem witness_RegisterAccess : (tS []).up ∧ 0xE000 ≤ 0xE000 ∧ 0xFFFC < 0x10000 ∧ TIME_PPS_CFG_PPS_OUT_EN.acc = .rw ∧ ARM_STAT_WERR.acc = .w1c ∧ ARM_STAT_STATE.acc = .ro
    ∧ (rsAt 0x1000).isSome = false ∧ ((rsAt 0xB854).map fun r => (r.word, r.words)) = some (0, 2) ∧ ((rsAt 0xB858).map fun r => r.word) = some 1
    ∧ ((tHub []).aliasAt 0xB854).isSome = true ∧ blockAt 0x1180 0x20 4 0xB854 = none ∧ blockAt 0x40000 0x40 256 0xB854 = none
    ∧ blockAt 0x20000 0x400 64 0xB854 = none := by
  delta State.up; decide +kernel

/-! ## One step of single commands; the expected values are the spec's -/

/-- R378: a commit of an EMPTY maquette is refused with REASON 1, one while a commit is pending with 4. -/
theorem test_commit_empty : tGot .commit (tS []) ARM_STAT_REASON = some 1 ∧ tGot .commit (tS []) ARM_STAT_COMMIT_REFUSED = some 1
    ∧ tGot .commit (tS [(ARM_STAT_COMMIT_PENDING, 1)]) ARM_STAT_REASON = some 4 := by decide +kernel

/-- R383: a withdrawal with no committed armature sets WERR. -/
theorem test_withdraw_uncommitted : tGot .withdraw (tS []) ARM_STAT_WERR = some 1 := by decide +kernel

/-- R393: a load outside MAINTENANCE is refused with REFUSE 1, one in MAINTENANCE begins in RECEIVING. -/
theorem test_updStart : tGot .updStart (tS []) UPD_STAT_REFUSE = some 1
    ∧ tGot .updStart (tOf (tUpd [] 65535 {}).hub) UPD_STAT_STATE = some 1 := by decide +kernel

/-- R407: only the key 4C43_4152H arms a life-cycle change, and a GO that is not armed is refused with REASON 1. -/
theorem test_lcArm : tGot (.lcArm 0x4C434152) (tS []) LC_ARMED = some 1 ∧ tGot (.lcArm 0x4C434153) (tS []) LC_ARMED = some 0
    ∧ tGot (.lcGo 2) (tS []) LC_REASON = some 1 := by decide +kernel

/-- R437: the 33rd posted write is dropped and sets WDROP. -/
theorem test_posted_full : tGot (.write32 0x1000 1) (tOf (tPost 32)) DEV_SPI_WDROP = some 1
    ∧ tGot (.write32 0x1000 1) (tOf (tPost 31)) DEV_SPI_WDROP = some 0 := by decide +kernel

/-- R10: the high half of an RS value read before any low half sets SEQERR; R436's READ64 takes both. -/
theorem test_rs_read : tGot (.rsHighRead 1 0xB858) (tS []) (GRID_SEQERR 1) = some 1 ∧ tGot (.read64 0xB854) (tS []) (GRID_SEQERR 1) = some 0 := by
  decide +kernel

/-- R434: a read-only field keeps its value, and a write of ones clears a sticky one. -/
theorem test_register_write : tGot (.registerWrite 0xE000 0xFFFFFFFF) (tS []) DEV_MODE_MODE = some 1 := by decide +kernel

/-- R308: a failed attempt backs off; the last of TRAIN_RETRIES in a row parks the link. -/
theorem test_train_timeout : tGot (.trainTimeout 60) (tOf (tLane 3 [(LANE_TRAIN_RETRIES 60, 2)] {})) (LANE_STATE 60) = some 7
    ∧ tGot (.trainTimeout 60) (tOf (tLane 3 [(LANE_TRAIN_RETRIES 60, 2), (LANE_TRAIN_ATTEMPTS 60, 1)] {})) (LANE_PARKED 60) = some 1 := by decide +kernel

/-- R304: after offset 65 the search goes on at offset 0. -/
theorem test_slip_wraps : tGot (.slipStep 60 false) (tOf (tLane 2 [(LANE_CDR_LOCK 60, 1)] { searchStart := 64, tried := 2 })) (LANE_RX_SLIP 60) = some 0 := by
  decide +kernel

/-- R320, R321: the LSEQ expected is acted on and counted on, its resend counted as a duplicate. -/
theorem test_link_sequence : tGot (.commitNoteRx 60 0 noRoute 0 []) (tOf (tLink 2 [] {})) (LINK_RX_LSEQ 60) = some 1
    ∧ tGot (.commitNoteRx 60 0xFFFFFFFF noRoute 0 []) (tOf (tLink 2 [] {})) (LINK_RX_DUPS 60) = some 1 := by decide +kernel

/-- R361: the standby takes over as ROLE 0 when its partner is lost; the active only reports it. -/
theorem test_takeover : tGot .heartbeatLoss (tOf (tPair 1 1 [(DEV_MODE_MODE, 6)] {})) DUP_ROLE = some 0
    ∧ tGot .heartbeatLoss (tOf (tPair 0 1 [] {})) DUP_ROLE = some 0 ∧ tGot .heartbeatLoss (tOf (tPair 0 1 [] {})) DEV_IRQ_DUPLEX = some 1 := by
  decide +kernel

/-- R57: a PULSE less than 1 µs ahead is MISSED, one just 1 µs ahead is armed. -/
theorem test_toutArm : tGot (.timeOutArm 3) (tS [(TOUT_MODE 3, 1), (TOUT_START_NS 3, 999)]) (TOUT_MISSED 3) = some 1
    ∧ tGot (.timeOutArm 3) (tS [(TOUT_MODE 3, 1), (TOUT_START_NS 3, 1000)]) (TOUT_ARMED 3) = some 1 := by decide +kernel

end Sys2Proof.Tests
end

section
/-! SUPPORT. Reset by a source and the pulse on RST_N (R418, R419), and the window of the trouble log (R428). -/

namespace Sys2Proof.Machine

/-! ## Single bits of a field -/

/-- A bit that was set reads 1. -/
theorem Hub.setBit_get_bit (h : Hub) (f : Field) (i : Nat) (hi : i < f.width) : (h.setBit f i).get f / 2 ^ i % 2 = 1 := by
  unfold Hub.setBit
  split
  case isTrue set => exact set
  case isFalse clear =>
    have clear : (h.get f).testBit i = false := by simpa [Nat.testBit_eq_decide_div_mod_eq] using clear
    have set : ((h.get f + 2 ^ i) % 2 ^ f.width).testBit i = true := by
      rw [Nat.testBit_mod_two_pow, Nat.add_comm, Nat.testBit_two_pow_add_eq, clear]; simpa using hi
    rw [Hub.get_set_same]
    simpa [Nat.testBit_eq_decide_div_mod_eq] using set

/-- Setting a bit changes no field of another key. -/
theorem Hub.setBit_get_ne (h : Hub) (f g : Field) (i : Nat) (k : g.key ≠ f.key) : (h.setBit f i).get g = h.get g := by
  unfold Hub.setBit
  split
  · rfl
  · exact Hub.get_set_ne h f g _ k

/-! ## Reset (R22, R410, R418) -/

/-- Before the plinth records a reset, a field holds its value where the plinth keeps it through this source, and its Reset column otherwise. -/
theorem Hub.wiped_get (h : Hub) (src : Nat) (f : Field) :
    (h.wiped src).get f = if src ≠ srcPowerOn ∧ plinthKeeps f.key then h.get f else f.reset := by
  by_cases on : src = srcPowerOn
  · simp [Hub.wiped, Hub.get, on]
  · simp [Hub.wiped, Hub.get, on, rGet_rKeep]

/-- The hub after a reset with what the plinth records of it, before the log entry. -/
def Hub.resetNoted (h : Hub) (src : Nat) : Hub :=
  let w := (h.wiped src).set TIME_STAT_QUALITY (if src = srcPowerOn then qUnset else qFree)
  let w := (w.set PWR_PWR_GOOD (b2n w.pwr.pwrGood)).set PWR_HOLDUP_LOW (b2n (decide (w.pwr.holdup < w.get UPD_HOLDUP_MIN)))
  ((w.set RST_LAST src).setBit RST_ALL (src - 1)).bump RST_COUNT RST_SAT

/-- A reset is what the plinth records of it, and then its log entry with the mode before it. -/
theorem Hub.resetBy_eq (h : Hub) (src : Nat) :
    h.resetBy src = (h.resetNoted src).log .reset src h.mode ((h.resetNoted src).get RST_COUNT) := rfl

@[simp] theorem Hub.resetNoted_pwr (h : Hub) (src : Nat) : (h.resetNoted src).pwr = h.plinth src := by
  simp [Hub.resetNoted, Hub.wiped]

/-- What the plinth records of a reset are these fields alone. -/
theorem Hub.resetNoted_get_ne (h : Hub) (src : Nat) (f : Field)
    (k : f.key ∉ [TIME_STAT_QUALITY, PWR_PWR_GOOD, PWR_HOLDUP_LOW, RST_LAST, RST_ALL, RST_COUNT, RST_SAT].map Field.key) :
    (h.resetNoted src).get f = (h.wiped src).get f := by
  simp only [List.map_cons, List.map_nil, List.mem_cons, List.not_mem_nil, or_false, not_or] at k
  obtain ⟨quality, good, holdup, last, all, count, sat⟩ := k
  simp (disch := assumption) only [Hub.resetNoted, Hub.bump_get_ne, Hub.setBit_get_ne, Hub.get_set_ne]

theorem Hub.resetNoted_last (h : Hub) (src : Nat) (hi : src < 16) : (h.resetNoted src).get RST_LAST = src := by
  simp (disch := decide) only [Hub.resetNoted, Hub.bump_get_ne, Hub.setBit_get_ne, Hub.get_set_same]
  exact Nat.mod_eq_of_lt hi

theorem Hub.resetNoted_all (h : Hub) (src : Nat) (hi : src ≤ 10) : (h.resetNoted src).get RST_ALL / 2 ^ (src - 1) % 2 = 1 := by
  simp (disch := decide) only [Hub.resetNoted, Hub.bump_get_ne]
  exact Hub.setBit_get_bit _ RST_ALL (src - 1) (show src - 1 < 10 by omega)

theorem Hub.resetNoted_count (h : Hub) (src : Nat) :
    (h.resetNoted src).get RST_COUNT = min ((h.wiped src).get RST_COUNT + 1) RST_COUNT.top := by
  simp (disch := decide) only [Hub.resetNoted, Hub.bump_get, Hub.setBit_get_ne, Hub.get_set_ne]

/-- The log entry of a reset changes no register but the log's own. -/
theorem Hub.resetBy_get_noted (h : Hub) (src : Nat) (f : Field)
    (k : f.key ∉ [LOG_OVERWRITES, LOG_SAT, LOG_NEW, DEV_IRQ_LOG].map Field.key) : (h.resetBy src).get f = (h.resetNoted src).get f := by
  rw [Hub.resetBy_eq, Hub.log_get_ne _ _ _ _ _ f k]

/-- A reset leaves a field that it neither records in nor logs in as the wipe left it. -/
theorem Hub.resetBy_get_wiped (h : Hub) (src : Nat) (f : Field)
    (k : f.key ∉ [TIME_STAT_QUALITY, PWR_PWR_GOOD, PWR_HOLDUP_LOW, RST_LAST, RST_ALL, RST_COUNT, RST_SAT].map Field.key)
    (l : f.key ∉ [LOG_OVERWRITES, LOG_SAT, LOG_NEW, DEV_IRQ_LOG].map Field.key) : (h.resetBy src).get f = (h.wiped src).get f := by
  rw [Hub.resetBy_get_noted h src f l, Hub.resetNoted_get_ne h src f k]

/-- A reset of any source but POWER_ON leaves what R418 and R410 say. -/
theorem Hub.resetBy_leaves (h : Hub) (src : Nat) (lo : 1 < src) (hi : src ≤ 10) : ResetLeaves src h (h.resetBy src) := by
  have on : src ≠ srcPowerOn := by unfold srcPowerOn; omega
  have kept (f : Field) (k : plinthKeeps f.key) : (h.wiped src).get f = h.get f := by rw [Hub.wiped_get, if_pos ⟨on, k⟩]
  have count : (h.resetBy src).get RST_COUNT = min (h.get RST_COUNT + 1) RST_COUNT.top := by
    rw [Hub.resetBy_get_noted h src _ (by decide), Hub.resetNoted_count, kept _ (by decide)]
  have last : (h.resetBy src).get RST_LAST = src := by
    rw [Hub.resetBy_get_noted h src _ (by decide), Hub.resetNoted_last h src (by omega)]
  have all : (h.resetBy src).get RST_ALL / 2 ^ (src - 1) % 2 = 1 := by
    rw [Hub.resetBy_get_noted h src _ (by decide)]; exact Hub.resetNoted_all h src hi
  have ready : (h.resetBy src).get PWR_READY = 0 := by
    rw [Hub.resetBy_get_wiped h src _ (by decide) (by decide), Hub.wiped_get, if_neg fun k => absurd k.2 (by decide)]; rfl
  have adj : (h.resetBy src).get TIME_INCR_ADJ = h.get TIME_INCR_ADJ := by
    rw [Hub.resetBy_get_wiped h src _ (by decide) (by decide), kept _ (by decide)]
  have wakes : (h.resetBy src).get PWR_WAKES = h.get PWR_WAKES := by
    rw [Hub.resetBy_get_wiped h src _ (by decide) (by decide), kept _ (by decide)]
  have entry : (h.resetBy src).pwr.log.head?.map (fun e => (e.code, e.p0, e.p1)) = some (1, src, h.get DEV_MODE_MODE % 2 ^ 32) := by
    rw [Hub.resetBy_eq, Hub.log_head]
    have small : src % 2 ^ 32 = src := Nat.mod_eq_of_lt (by omega)
    simp only [Option.map_some, Hub.logEntry, logCode, Hub.mode, small]
  have seq : (h.resetBy src).pwr.logSeq = (h.pwr.logSeq + 1) % 2 ^ 32 := by
    rw [Hub.resetBy_eq, Hub.log_pwr, Hub.resetNoted_pwr]; simp [Hub.plinth, on]
  have coarse : (h.resetBy src).pwr.coarse = h.coarse := by simp [Hub.resetBy_eq, Hub.plinth, on]
  have held : (h.resetBy src).pwr.phase = .held := by simp [Hub.resetBy_eq, Hub.plinth, on]
  have units : (h.resetBy src).time.running = false ∧ (h.resetBy src).chans = [] ∧ (h.resetBy src).mm = {} ∧ (h.resetBy src).lk = {}
      ∧ (h.resetBy src).lanes = [] ∧ (h.resetBy src).carve = {} ∧ (h.resetBy src).arm = {} := by
    simp [Hub.resetBy_eq, Hub.resetNoted, Hub.wiped]
  obtain ⟨time, chans, mm, lk, lanes, carve, arm⟩ := units
  exact ⟨held, time, chans, mm, lk, lanes, carve, arm, ready, last, all, fun _ => ⟨count, adj, wakes, seq, coarse⟩,
    fun one => absurd one on, entry⟩

/-! ## The pulse on RST_N (R419) -/

/-- The reset of a pulse on RST_N: the level of the pin is nothing that a reset's outcome speaks of. -/
theorem Hub.rstLow_resetLeaves (h : Hub) : ResetLeaves 3 h ((h.setPwr { h.pwr with rstLow := true }).resetBy srcRstN) :=
  Hub.resetBy_leaves (h.setPwr { h.pwr with rstLow := true }) srcRstN (by decide) (by decide)

theorem Hub.powered_of_phase {h : Hub} (p : h.pwr.phase ≠ .dead) : h.powered = true := by simp [Hub.powered, p]

theorem Hub.rstN_short (h : Hub) {ns : Nat} (short : ns < 200) : h.rstN ns = h := by simp [Hub.rstN, short]

theorem Hub.rstN_long {h : Hub} {ns : Nat} (p : h.powered = true) (long : 1000 ≤ ns) :
    h.rstN ns = (h.setPwr { h.pwr with rstLow := true }).resetBy srcRstN := by
  have not_short : ¬ ns < 200 := by omega
  simp [Hub.rstN, p, long, not_short, Nat.not_lt.mpr long]

/-- Between 200 ns and 1 µs the free value decides. -/
theorem Hub.rstN_mid {h : Hub} {ns : Nat} (p : h.powered = true) (lo : 200 ≤ ns) (hi : ns < 1000) :
    h.rstN ns = if Config.rstnMidPulse h.free then (h.draw.setPwr { h.draw.pwr with rstLow := true }).resetBy srcRstN else h.draw := by
  simp [Hub.rstN, p, Nat.not_lt.mpr lo, hi, Nat.not_le.mpr hi]

/-- Settles O7: each span of widths by the lemma of what `rstN` does in it, the open span by the free value of R419. -/
theorem rstNPulse : Obligations.RstNPulse := by
  intro s ns h phase
  have p : h.powered = true := Hub.powered_of_phase phase
  have runs : exec (.rstN ns) s = .next (s.onHub fun h => h.rstN ns) := rfl
  refine ⟨fun long => ?_, fun short => ?_, fun lo hi => ?_⟩
  · refine leads_onHub runs ?_
    rw [Hub.rstN_long p long]
    exact Hub.rstLow_resetLeaves h
  · exact gives_onHub runs (Hub.rstN_short h short)
  · have mid := Hub.rstN_mid p lo hi
    cases acts : Config.rstnMidPulse h.free
    case true =>
      refine .inl (leads_onHub runs ?_)
      rw [mid, if_pos acts]
      exact Hub.rstLow_resetLeaves h.draw
    case false =>
      refine .inr (gives_onHub runs ?_)
      rw [mid, if_neg (by simp [acts])]

/-! ## The window of the trouble log (R428) -/

/-- In the log's block, an address with no stored field reads the field computed there alone. -/
theorem Hw.peek_logBlock (w : Hw) (a : Nat) (lo : 0x9300 ≤ a) (hi : a < 0x9340) (unstored : fieldsAt a = []) :
    w.peek a = w.hub.plinthView (a - 0x9000) := by
  have outside (base stride count : Nat) (o : a < base) : blockAt base stride count a = none := if_neg fun k => by omega
  have own : w.hub.aliasAt a = some a := by simp [Hub.aliasAt, outside 0x20000 0x400 64 (by omega)]
  have shown : w.hub.shownWord a = 0 := by simp [Hub.shownWord, unstored]
  have nv : w.nvView a = 0 := by
    have keys : a ≠ 0x8070 := by omega
    have life : a ≠ 0x8800 := by omega
    simp [Hw.nvView, keys, life]
  have core : w.hub.coreView a = w.hub.plinthView (a - 0x9000) := by
    simp (disch := omega) only [Hub.coreView, if_neg, if_pos]
  have view : w.hub.viewWord a = w.hub.plinthView (a - 0x9000) := by
    simp [Hub.viewWord, outside 0x10000 0x100 192 (by omega), outside 0x40000 0x40 256 (by omega), outside 0xD040 0x20 4 (by omega), core]
  simp [Hw.peek, own, shown, view, nv]

/-- LOG_DATA[i] reads word `i` of the copy. -/
theorem Hw.peek_logData (w : Hw) (i : Fin 8) : w.peek (0x9320 + 4 * i) = w.hub.pwr.logCopy.getD i 0 := by
  have unstored : ∀ i : Fin 8, fieldsAt (0x9320 + 4 * i) = [] := by decide
  rw [Hw.peek_logBlock w _ (by omega) (by omega) (unstored i)]
  have off : 0x9320 + 4 * (i : Nat) - 0x9000 = 0x320 + 4 * i := by omega
  have word : (0x320 + 4 * (i : Nat) - 0x320) / 4 = i := by omega
  rw [off]
  simp (disch := omega) only [Hub.plinthView, if_neg, if_pos, word]

/-- LOG_OLDEST reads the SEQ of the last entry held. -/
theorem Hw.peek_logOldest (w : Hw) : w.peek 0x9308 = w.hub.pwr.log.getLast?.elim 0 (·.seq) :=
  Hw.peek_logBlock w 0x9308 (by decide) (by decide) (by decide)

/-- LOG_NEWEST reads the SEQ of the first entry held. -/
theorem Hw.peek_logNewest (w : Hw) : w.peek 0x930C = w.hub.pwr.log.head?.elim 0 (·.seq) :=
  Hw.peek_logBlock w 0x930C (by decide) (by decide) (by decide)

/-- LOG_SEQ of a held entry: the entry is copied. -/
theorem Hub.logSeqWrite_held {h : Hub} {v : Nat} {e : LogEntry} (held : h.pwr.log.find? (fun e => e.seq == v) = some e) :
    h.logSeqWrite v = (h.set LOG_SEQ v).setPwr { h.pwr with logCopy := wordsOf 8 e.bytes } := by
  simp [Hub.logSeqWrite, held]

/-- LOG_SEQ of an entry that is not held: the copy is emptied and GONE set. -/
theorem Hub.logSeqWrite_gone {h : Hub} {v : Nat} (gone : h.pwr.log.find? (fun e => e.seq == v) = none) :
    h.logSeqWrite v = ((h.set LOG_SEQ v).setPwr { h.pwr with logCopy := [] }).on LOG_GONE := by
  simp [Hub.logSeqWrite, gone]

theorem Hub.set_logSeq_get (h : Hub) (v : Word) : (h.set LOG_SEQ v.toNat).get LOG_SEQ = v.toNat := by
  rw [Hub.get_set_same]
  exact Nat.mod_eq_of_lt v.isLt

/-- A write of LOG_SEQ that is served acts, and its register is not mirrored. -/
theorem exec_logSeqWrite {s : State} (v : Word) (served : s.hw.hub.served 0x9314 = true) :
    exec (.logSeqWrite v) s = .next (s.onHub fun h => h.logSeqWrite v.toNat) := by
  have acts : s.hw.hub.hostWr 0x9314 v.toNat (fun h => h.logSeqWrite v.toNat) = s.hw.hub.logSeqWrite v.toNat :=
    Hub.hostWr_plain served (by decide)
  exact congrArg (fun h => Host.Outcome.next (s.withHub h)) acts

/-- A command that leaves a known hub completes, and memory and flash stay. -/
theorem leadsHw_onHub {c : Instr} {s : State} {f : Hub → Hub} {h : Hub} {P : Hw → Prop} (e : exec c s = .next (s.onHub f))
    (g : f s.hw.hub = h) (p : P (s.hw.setHub h)) : LeadsHw c s P := by
  subst g; exact ⟨_, e, p⟩

/-- Settles O8: what LOG_SEQ copies by whether an entry is held, and each word of the window by what it reads. -/
theorem logEntryRead : Obligations.LogEntryRead := by
  refine ⟨fun s v served => ⟨fun e held => ?_, fun gone => ?_⟩, fun w c a b d i => ?_, fun w l o n log => ?_, fun w o log => ?_⟩
  · refine leadsHw_onHub (exec_logSeqWrite v served) (Hub.logSeqWrite_held held) ⟨Hw.peek_logData _, ?_, ?_⟩
    · exact Hub.set_logSeq_get s.hw.hub v
    · exact onlyRegs_of_regs rfl (onlyRegs_set v.toNat (by decide) (onlyRegs_refl _ _))
  · refine leadsHw_onHub (exec_logSeqWrite v served) (Hub.logSeqWrite_gone gone) ⟨Hw.peek_logData _, ?_, ?_, ?_⟩
    · exact Hub.get_on_same _ LOG_GONE (by decide)
    · exact (Hub.get_on_ne _ LOG_GONE LOG_SEQ (by decide)).trans (Hub.set_logSeq_get s.hw.hub v)
    · exact onlyRegs_on (by decide) (onlyRegs_of_regs rfl (onlyRegs_set v.toNat (by decide) (onlyRegs_refl _ _)))
  · rw [Hw.peek_logData, Hw.peek_logData, Hw.onHub_hub, Hub.log_pwr]
  · have last : w.hub.pwr.log.getLast? = some o := by rw [log, ← List.cons_append, List.getLast?_concat]
    have first : w.hub.pwr.log.head? = some n := by rw [log, List.head?_cons]
    rw [Hw.peek_logOldest, Hw.peek_logNewest, last, first]
    exact ⟨rfl, rfl⟩
  · rw [Hw.peek_logOldest, Hw.peek_logNewest, log]
    exact ⟨rfl, rfl⟩

end Sys2Proof.Machine
end

section
/-! SUPPORT. What every command keeps: it completes, leaves the queue alone and keeps buffer memory in its canonical form; one step,
and the state after reset. -/

namespace Sys2Proof.Machine

/-! ## Every command is one effect on the hub, its memory and its flash -/

/-- The effect a command has keeps buffer memory in its canonical form. -/
def KeepsForm (c : Instr) (s : State) : Prop := ∃ f : Hw → Hw, exec c s = .next (s.onHw f) ∧ ∀ w : Hw, w.wf → (f w).wf

/-- A command that acts on the hub alone leaves buffer memory as it is. -/
theorem keepsForm_onHub {c : Instr} {s : State} (f : Hub → Hub) (e : exec c s = .next (s.onHub f)) : KeepsForm c s :=
  ⟨fun w => w.onHub f, e, fun _ u => Hw.wf_onHub u f⟩

/-- A host write whose effect keeps the canonical form. -/
theorem keepsForm_hostWr {c : Instr} {s : State} {a : Nat} {v : Hw → Nat} {f : Hw → Hw}
    (e : exec c s = .next (s.onHw fun w => w.hostWr a (v w) f)) (k : ∀ w : Hw, w.wf → (f w).wf) : KeepsForm c s :=
  ⟨_, e, fun _ u => Hw.hostWr_wf u _ _ _ k⟩

/-- A host write whose effect leaves memory alone. -/
theorem keepsForm_hostWr_mem {c : Instr} {s : State} {a : Nat} {v : Hw → Nat} {f : Hw → Hw}
    (e : exec c s = .next (s.onHw fun w => w.hostWr a (v w) f)) (k : ∀ w : Hw, (f w).mem = w.mem) : KeepsForm c s :=
  keepsForm_hostWr e fun w u => Hw.wf_of_mem u (k w)

/-- An event of a unit in service whose effect keeps the canonical form. -/
theorem keepsForm_whenUp {c : Instr} {s : State} {f : Hw → Hw} (e : exec c s = .next (s.onHw fun w => w.whenUp f))
    (k : ∀ w : Hw, w.wf → (f w).wf) : KeepsForm c s :=
  ⟨_, e, fun _ u => Hw.whenUp_wf u _ k⟩

/-- An event of a unit in service whose effect leaves memory alone. -/
theorem keepsForm_whenUp_mem {c : Instr} {s : State} {f : Hw → Hw} (e : exec c s = .next (s.onHw fun w => w.whenUp f))
    (k : ∀ w : Hw, (f w).mem = w.mem) : KeepsForm c s :=
  keepsForm_whenUp e fun w u => Hw.wf_of_mem u (k w)

/-- Whatever the command: those that reach memory or flash by the lemma of their operation, the others act on the hub alone. -/
theorem exec_keepsForm (c : Instr) (s : State) : KeepsForm c s := by
  cases c with
  | read32 a => exact ⟨_, rfl, fun _ u => Hw.spiRead32_wf u _⟩
  | read64 a => exact ⟨_, rfl, fun _ u => Hw.spiRead64_wf u _⟩
  | spiCsRise c => exact ⟨_, rfl, fun _ u => Hw.csRise_wf u c⟩
  | postedWriteApply => exact ⟨_, rfl, fun _ u => Hw.applyHead_wf u⟩
  | registerWrite a v => exact ⟨_, rfl, fun _ u => Hw.writeAt_wf u _ _⟩
  | rsLowRead p a => exact ⟨_, rfl, fun _ u => Hw.rsHalf_wf u _ _ _⟩
  | rsHighRead p a => exact ⟨_, rfl, fun _ u => Hw.rsHalf_wf u _ _ _⟩
  | windowAccess p o x e => exact ⟨_, rfl, fun _ u => Hw.windowAccess_wf u _ _ _ _⟩
  | gessoPassComplete => exact ⟨_, rfl, fun _ u => Hw.gessoDone_wf u⟩
  | dormantEntryComplete => exact ⟨_, rfl, fun _ u => Hw.dormantDone_wf u⟩
  | wakeMemoryReady => exact ⟨_, rfl, fun _ u => Hw.wakeReady_wf u⟩
  | castLoaded => exact ⟨_, rfl, fun w u => Hw.wf_of_mem u w.castLoaded_mem⟩
  | settingsLoaded => exact ⟨_, rfl, fun w u => Hw.wf_of_mem u w.settingsLoaded_mem⟩
  | startUpComplete => exact ⟨_, rfl, fun w u => Hw.wf_of_mem u w.startUpDone_mem⟩
  | dcmpAbort n => exact keepsForm_hostWr rfl fun _ u => Hw.wf_onHub (Hw.dcmpAbort_wf u n) _
  | dmaGo c => exact keepsForm_hostWr rfl fun _ u => Hw.dmaGo_wf u _
  | dmaResume c => exact keepsForm_hostWr rfl fun _ u => Hw.dmaResume_wf u _
  | dmaAbort c => exact keepsForm_hostWr rfl fun _ u => Hw.wf_onHub u _
  | raccGo k => exact keepsForm_hostWr rfl fun _ u => Hw.raccGo_wf u _
  | schedCancel n => exact keepsForm_hostWr_mem rfl fun w => w.schedCancel_mem _
  | armCopy => exact keepsForm_hostWr_mem rfl Hw.armCopy_mem
  | discard => exact keepsForm_hostWr_mem rfl fun w => w.onHub_mem _
  | save => exact keepsForm_hostWr_mem rfl Hw.save_mem
  | check => exact keepsForm_hostWr_mem rfl Hw.patCheck_mem
  | reload => exact keepsForm_hostWr_mem rfl Hw.patReload_mem
  | modeIdle => exact keepsForm_hostWr_mem rfl fun w => w.modeCmd_mem _
  | modeDormant => exact keepsForm_hostWr_mem rfl fun w => w.modeCmd_mem _
  | modeMaintenance => exact keepsForm_hostWr_mem rfl fun w => w.modeCmd_mem _
  | updStart => exact keepsForm_hostWr_mem rfl Hw.updStart_mem
  | updCopy => exact keepsForm_hostWr_mem rfl Hw.updCopy_mem
  | updData v => exact keepsForm_hostWr_mem rfl fun w => w.updData_mem _
  | schedule => exact keepsForm_hostWr_mem rfl Hw.updSchedule_mem
  | updCancel => exact keepsForm_hostWr_mem rfl Hw.updUnschedule_mem
  | confirm => exact keepsForm_hostWr_mem rfl Hw.confirm_mem
  | stagePrev => exact keepsForm_hostWr_mem rfl Hw.stagePrev_mem
  | settingsWrite => exact keepsForm_hostWr_mem rfl Hw.settingsWrite_mem
  | settingsLoad => exact keepsForm_hostWr_mem rfl Hw.settingsLoad_mem
  | lcGo t => exact keepsForm_hostWr_mem rfl fun w => (Hw.lcGo_mem _).trans (w.onHub_mem _)
  | factoryWrite => exact keepsForm_hostWr_mem rfl Hw.factoryWrite_mem
  | dcmpJobDone => exact keepsForm_whenUp rfl fun _ u => Hw.wf_onHub (Hw.dcmpDone_wf u) _
  | scrubPass n l => exact keepsForm_whenUp rfl fun _ u => Hw.scrubPass_wf u _ _
  | dmaDescriptorDone c t b x => exact keepsForm_whenUp rfl fun _ u => Hw.dmaDone_wf u _ _ _ _
  | dmaLockRetry c => exact keepsForm_whenUp rfl fun _ u => Hw.dmaRetry_wf u _
  | dmaFault c z o x => exact keepsForm_whenUp rfl fun _ u => Hw.dmaFault_wf u _ _ _ _
  | refusedOverload r x o l => exact keepsForm_whenUp rfl fun _ u => Hw.refusedOverload_wf u _ _ _ _
  | regWriteEvent k l e w => exact keepsForm_whenUp rfl fun _ u => Hw.regWriteEvent_wf u _ _ _ _ _
  | raccReqRx k l m b => exact keepsForm_whenUp rfl fun _ u => Hw.raccReqRx_wf u _ _ _ _
  | raccRespRx k l m => exact keepsForm_whenUp rfl fun _ u => Hw.raccRespRx_wf u _ _ _
  | raccTimeout x => exact keepsForm_whenUp rfl fun _ u => Hw.raccTimeout_wf u _
  | drainLimitExpired => exact keepsForm_whenUp_mem rfl fun w => w.onHub_mem _
  | resetRx k l d a => exact keepsForm_whenUp_mem rfl fun w => w.resetRx_mem _ _ _ _
  | castCheckDone x => exact keepsForm_whenUp_mem rfl fun w => w.castCheckDone_mem x
  | activationInstant => exact keepsForm_whenUp_mem rfl Hw.activate_mem
  | settingsWriteDone => exact keepsForm_whenUp_mem rfl Hw.settingsDone_mem
  | _ => exact keepsForm_onHub _ rfl

/-- Settles O3: every command is one effect on the hub, its memory and its flash. -/
theorem everyCommandCompletes : Obligations.EveryCommandCompletes := by
  intro c s
  obtain ⟨f, e, -⟩ := exec_keepsForm c s
  exact ⟨_, e, rfl⟩

/-- Every command keeps the canonical form of buffer memory. -/
theorem exec_inv {c : Instr} {s t : State} (u : s.inv) (e : exec c s = .next t) : t.inv := by
  obtain ⟨f, e', k⟩ := exec_keepsForm c s
  rw [e', Host.Outcome.next.injEq] at e
  subst e
  exact k s.hw u

/-! ## One step -/

theorem step_empty {s : State} (p : s.pending = []) : step s = .next (s.withHub s.hw.hub.idle) := by
  rw [step, p]
  rfl

theorem step_front {s : State} {c : Instr} {l : List Instr} (p : s.pending = c :: l) : step s = exec c (s.queue l) := by simp [step, p]

/-- Settles O6: a step on an empty queue leaves memory alone, any other runs a command. -/
theorem memoryStaysCanonical : Obligations.MemoryStaysCanonical := by
  intro s t u e
  cases p : s.pending with
  | nil =>
    rw [step_empty p, Host.Outcome.next.injEq] at e
    subst e
    exact u
  | cons c l => exact exec_inv (s := s.queue l) u ((step_front p).symm.trans e)

/-- Settles O1. -/
theorem stepRunsFront : Obligations.StepRunsFront := fun _ _ => step_front rfl

/-- Settles O2: which clock of the idle hub counts, by whether the time unit runs and VPLN is there. -/
theorem emptyQueueIdles : Obligations.EmptyQueueIdles := by
  intro s p
  rw [step_empty p]
  refine ⟨fun r => ?_, fun r k => ?_, fun r k => ?_⟩
  · rw [Hub.idle, if_pos r]
  · rw [Hub.idle, if_neg (by simp [r]), if_pos (Hub.powered_of_phase k)]
  · rw [Hub.idle, if_neg (by simp [r]), if_neg (by simp [Hub.powered, k])]
    rfl

/-! ## After reset -/

/-- Settles O5: the tables of the reset state are empty, so each register reads its Reset column and each record its first value. -/
theorem resetState : Obligations.ResetState :=
  ⟨rfl, rfl, fun _ => rfl, fun _ => rfl, fun _ => ⟨rfl, rfl, rfl⟩, rfl, rfl, rfl⟩

end Sys2Proof.Machine
end

section
/-! SUPPORT. What each source of a reset leaves (R418, R421 to R423). -/

namespace Sys2Proof.Machine

/-- POWER_ON leaves the plinth cleared too: its log holds the entry of the reset alone. -/
theorem Hub.resetBy_powerOn_leaves (h : Hub) : ResetLeaves 1 h (h.resetBy srcPowerOn) := by
  have cleared (f : Field) : (h.wiped srcPowerOn).get f = f.reset := by rw [Hub.wiped_get, if_neg fun k => k.1 rfl]
  have count : (h.resetBy srcPowerOn).get RST_COUNT = 1 := by
    rw [Hub.resetBy_get_noted h _ _ (by decide), Hub.resetNoted_count, cleared]; rfl
  have last : (h.resetBy srcPowerOn).get RST_LAST = 1 := by
    rw [Hub.resetBy_get_noted h _ _ (by decide)]; exact Hub.resetNoted_last h _ (by decide)
  have all : (h.resetBy srcPowerOn).get RST_ALL / 2 ^ (1 - 1) % 2 = 1 := by
    rw [Hub.resetBy_get_noted h _ _ (by decide)]; exact Hub.resetNoted_all h srcPowerOn (by decide)
  have ready : (h.resetBy srcPowerOn).get PWR_READY = 0 := by
    rw [Hub.resetBy_get_wiped h _ _ (by decide) (by decide), cleared]; rfl
  have adj : (h.resetBy srcPowerOn).get TIME_INCR_ADJ = 0 := by
    rw [Hub.resetBy_get_wiped h _ _ (by decide) (by decide), cleared]; rfl
  have quality : (h.resetBy srcPowerOn).get TIME_STAT_QUALITY = 0 := by
    rw [Hub.resetBy_get_noted h _ _ (by decide)]
    simp (disch := decide) only [Hub.resetNoted, Hub.bump_get_ne, Hub.setBit_get_ne, Hub.get_set_ne, Hub.get_set_same]
    decide
  have entry : (h.resetBy srcPowerOn).pwr.log.head?.map (fun e => (e.code, e.p0, e.p1)) = some (1, 1, h.get DEV_MODE_MODE % 2 ^ 32) := by
    rw [Hub.resetBy_eq, Hub.log_head]; rfl
  have log : (h.resetBy srcPowerOn).pwr.log.length = 1 := by
    rw [Hub.resetBy_eq, Hub.log_pwr, Hub.resetNoted_pwr]; rfl
  have plinth : (h.resetBy srcPowerOn).pwr.phase = .held ∧ (h.resetBy srcPowerOn).pwr.coarse = 0 := by
    simp [Hub.resetBy_eq, Hub.plinth]
  have units : (h.resetBy srcPowerOn).time.running = false ∧ (h.resetBy srcPowerOn).chans = [] ∧ (h.resetBy srcPowerOn).mm = {}
      ∧ (h.resetBy srcPowerOn).lk = {} ∧ (h.resetBy srcPowerOn).lanes = [] ∧ (h.resetBy srcPowerOn).carve = {}
      ∧ (h.resetBy srcPowerOn).arm = {} := by
    simp [Hub.resetBy_eq, Hub.resetNoted, Hub.wiped]
  obtain ⟨time, chans, mm, lk, lanes, carve, arm⟩ := units
  exact ⟨plinth.1, time, chans, mm, lk, lanes, carve, arm, ready, last, all, fun other => absurd rfl other,
    fun _ => ⟨count, adj, log, quality, plinth.2⟩, entry⟩

/-- A served write of the SW bit acts, and its register is not mirrored. -/
theorem exec_swReset {s : State} (served : s.hw.hub.served 0x9200 = true) : exec .swReset s = .next (s.onHub fun _ => s.hw.hub.swReset) :=
  congrArg (fun h => Host.Outcome.next (s.withHub h)) (Hub.hostWr_plain (f := Hub.swReset) served (by decide))

/-- Settles O9: each source by whether it acts, and then what a reset of that source leaves. -/
theorem resetSources : Obligations.ResetSources := by
  intro s
  dsimp only
  refine ⟨?_, fun powered good => ?_, fun up => ⟨?_, fun enabled => ?_⟩, fun served => ⟨fun armed => ?_, fun unarmed => ?_⟩⟩
  · exact leads_onHub (f := Hub.powerOn) rfl (Hub.resetBy_powerOn_leaves (s.hw.hub.setPwr _))
  · refine leads_onHub (f := Hub.supplyReset) rfl ?_
    rw [Hub.supplyReset, if_pos ⟨Hub.powered_of_phase powered, good⟩]
    exact Hub.resetBy_leaves (s.hw.hub.setPwr _) srcSupply (by decide) (by decide)
  · refine leads_onHub (f := Hub.wdtCore) rfl ?_
    rw [Hub.wdtCore, if_pos (show s.hw.hub.inService = true from up)]
    exact Hub.resetBy_leaves _ srcWdtCore (by decide) (by decide)
  · refine leads_onHub (f := Hub.wdtHost) rfl ?_
    have runs : s.hw.hub.inService = true ∧ s.hw.hub.bit RST_WDT_EN = true := ⟨up, by simp [Hub.bit_eq, enabled]⟩
    rw [Hub.wdtHost, if_pos runs]
    exact Hub.resetBy_leaves _ srcWdtHost (by decide) (by decide)
  · refine leads_onHub (exec_swReset served) ?_
    rw [Hub.swReset, if_pos armed]
    exact Hub.resetBy_leaves _ srcSoftware (by decide) (by decide)
  · refine gives_onHub (exec_swReset served) ?_
    rw [Hub.swReset, if_neg (by simp [unarmed])]

end Sys2Proof.Machine
end

section
/-! SUPPORT. Host writes: which addresses are served by phase, refused in MIRROR and mirrored by the active (R351, R352, R406, R413, R417). -/

namespace Sys2Proof.Machine

/-! ## The gate of a host write -/

/-- In MIRROR a served write of a mirrored register sets its WERR bit and nothing else. -/
theorem Hub.hostWr_mirror {h : Hub} {a v : Nat} {f : Hub → Hub} (served : h.served a = true) (mirrored : mirroredAddr a = true)
    (standby : h.dupStandby = true) (own : a < 0xD000 ∨ 0xE000 ≤ a) : h.hostWr a v f = h.on (mirrorWerr a) := by
  have outside : ¬(0xD000 ≤ a ∧ a < 0xE000) := by omega
  simp [Hub.hostWr, served, mirrored, standby, outside]

/-- The linearisation tables have no WERR bit (log entry 33). -/
theorem Hub.hostWr_mirror_lin {h : Hub} {a v : Nat} {f : Hub → Hub} (served : h.served a = true) (mirrored : mirroredAddr a = true)
    (standby : h.dupStandby = true) (lo : 0xD000 ≤ a) (hi : a < 0xE000) : h.hostWr a v f = h := by
  simp [Hub.hostWr, served, mirrored, standby, lo, hi]

/-- The active member takes a write that sets its WERR bit, and tells nobody. -/
theorem Hub.hostWr_active_refused {h : Hub} {a v : Nat} {f : Hub → Hub} (served : h.served a = true) (standby : h.dupStandby = false)
    (werr : (f (h.off (mirrorWerr a))).get (mirrorWerr a) ≠ 0) : h.hostWr a v f = f h := by
  simp [Hub.hostWr, served, standby, werr]

/-- The active member sends a write of a mirrored register that sets no WERR bit to its partner. -/
theorem Hub.hostWr_active {h : Hub} {a v : Nat} {f : Hub → Hub} (served : h.served a = true) (mirrored : mirroredAddr a = true)
    (standby : h.dupStandby = false) (active : h.dupActive = true) (taken : (f (h.off (mirrorWerr a))).get (mirrorWerr a) = 0) :
    h.hostWr a v f = (f h).dupEvent .regWrite a v := by
  simp [Hub.hostWr, served, mirrored, standby, active, taken]

theorem Hub.dupStandby_of_mirror {h : Hub} (m : h.get DEV_MODE_MODE = 6) : h.dupStandby = true := by simp [Hub.dupStandby, Hub.mode, m, mMirror]

theorem Hub.dupStandby_of_ne {h : Hub} (m : h.get DEV_MODE_MODE ≠ 6) : h.dupStandby = false := by simp [Hub.dupStandby, Hub.mode, m, mMirror]

theorem mirroredAddr_iff (a : Nat) : mirroredAddr a = true ↔ (0x10000 ≤ a ∧ a < 0x1C000) ∨ a = 0x2200 ∨ (0xD000 ≤ a ∧ a < 0xE000)
    ∨ (0x50000 ≤ a ∧ a < 0x51000) ∨ (0xB000 ≤ a ∧ a < 0xB200) ∨ (0x30000 ≤ a ∧ a < 0x40000) := by
  simp [mirroredAddr, or_assoc]

/-- An event is sent by the active member alone, and names its next modulator edge. -/
theorem Hub.dupEvent_active {h : Hub} (a : h.dupActive = true) (k : EventKind) (i v : Nat) :
    h.dupEvent k i v = h.sendCtrl (h.get DUP_LINK) (.duplex (.event
      { kind := k, subject := i, value := v, time := h.edgeAfter h.time.now, edge := h.edgeIndex (h.edgeAfter h.time.now), stamp := 0 })) := by
  simp [Hub.dupEvent, Hub.dupSend, a]

theorem Hub.dupEvent_idle {h : Hub} (a : h.dupActive = false) (k : EventKind) (i v : Nat) : h.dupEvent k i v = h := by
  simp [Hub.dupEvent, Hub.dupSend, a]

/-! ## The WERR bit of each mirrored register -/

theorem mirrorWerr_channel (n : Fin 192) {off : Nat} (o : off < 0x100) : mirrorWerr (0x10000 + 0x100 * n + off) = CH_EXCS_WERR n := by
  have inside : 0x10000 ≤ 0x10000 + 0x100 * n.val + off ∧ 0x10000 + 0x100 * n.val + off < 0x1C000 := by omega
  have number : (0x10000 + 0x100 * n.val + off - 0x10000) / 0x100 = n.val := by omega
  rw [mirrorWerr, if_pos inside, number]

theorem mirrorWerr_carver (e : Fin 16) {off : Nat} (o : off < 0x1000) : mirrorWerr (0x30000 + 0x1000 * e + off) = ENG_WERR e := by
  have channel : ¬(0x10000 ≤ 0x30000 + 0x1000 * e.val + off ∧ 0x30000 + 0x1000 * e.val + off < 0x1C000) := by omega
  have calibration : ¬(0x30000 + 0x1000 * e.val + off = 0x2200) := by omega
  have trigger : ¬(0x50000 ≤ 0x30000 + 0x1000 * e.val + off ∧ 0x30000 + 0x1000 * e.val + off < 0x51000) := by omega
  have carver : 0x30000 ≤ 0x30000 + 0x1000 * e.val + off ∧ 0x30000 + 0x1000 * e.val + off < 0x40000 := by omega
  have number : (0x30000 + 0x1000 * e.val + off - 0x30000) / 0x1000 = e.val := by omega
  rw [mirrorWerr, if_neg channel, if_neg calibration, if_neg trigger, if_pos carver, number]

/-- In MIRROR a write of a register of CH[n] sets the channel's WERR bit. -/
theorem Hub.hostCh_mirror {h : Hub} (up : h.inService = true) (m : h.get DEV_MODE_MODE = 6) (n : Fin 192) {off : Nat} (o : off < 0x100)
    (sc : Nat) (f : Hub → Hub) : h.hostCh n off sc f = h.on (CH_EXCS_WERR n) := by
  rw [← mirrorWerr_channel n o]
  exact Hub.hostWr_mirror (Hub.served_of_inService up _) ((mirroredAddr_iff _).2 (by omega)) (Hub.dupStandby_of_mirror m) (by omega)

/-- In MIRROR a write of a register of ENG[e] sets the carver's WERR bit. -/
theorem Hub.hostEng_mirror {h : Hub} (up : h.inService = true) (m : h.get DEV_MODE_MODE = 6) (e : Fin 16) {off : Nat} (o : off < 0x1000)
    (v : Nat) (f : Hub → Hub) : h.hostWr (0x30000 + 0x1000 * e + off) v f = h.on (ENG_WERR e) := by
  rw [← mirrorWerr_carver e o]
  exact Hub.hostWr_mirror (Hub.served_of_inService up _) ((mirroredAddr_iff _).2 (by omega)) (Hub.dupStandby_of_mirror m) (by omega)

/-- Which addresses are served, by phase (R406, R413, R417, R457). -/
theorem Hub.served_by_phase (h : Hub) (a : Nat) :
    (h.pwr.phase = .run ∨ h.pwr.phase = .entering → h.served a = true)
    ∧ (h.pwr.phase = .gesso ∨ h.pwr.phase = .casting ∨ h.pwr.phase = .loading ∨ h.pwr.phase = .loaded →
      (h.served a = true ↔ 0x9000 ≤ a ∧ a < 0xA000))
    ∧ (h.pwr.phase = .dormant ∨ h.pwr.phase = .waking ∨ h.pwr.phase = .wakingMem →
      (h.served a = true ↔ (0x9000 ≤ a ∧ a < 0xA000) ∧ (a < 0x9100 ∨ 0x9200 ≤ a)))
    ∧ (h.pwr.phase = .retired → (h.served a = true ↔ a < 0x1000 ∨ (0x8800 ≤ a ∧ a < 0x8810)))
    ∧ (h.pwr.phase = .held ∨ h.pwr.phase = .released ∨ h.pwr.phase = .dead → h.served a = false) := by
  cases p : h.pwr.phase <;> simp [Hub.served, p]

/-- Settles O4: the gate case by case, then one command of each block that MIRROR refuses. -/
theorem hostWrites : Obligations.HostWrites := by
  refine ⟨fun h a v f => ⟨Hub.hostWr_unserved, Hub.hostWr_plain, fun served mirrored => ⟨fun mirror => ⟨?_, ?_⟩, fun other => ⟨?_, fun active => ⟨?_, ?_⟩⟩⟩⟩,
    mirroredAddr_iff, Hub.served_by_phase, fun h k i v => ⟨fun a => Hub.dupEvent_idle a k i v, fun a => Hub.dupEvent_active a k i v⟩, ?_⟩
  · exact fun lo hi => Hub.hostWr_mirror_lin served mirrored (Hub.dupStandby_of_mirror mirror) lo hi
  · exact fun own => Hub.hostWr_mirror served mirrored (Hub.dupStandby_of_mirror mirror) own
  · exact fun idle => Hub.hostWr_single served (Hub.dupStandby_of_ne other) idle
  · exact fun werr => Hub.hostWr_active_refused served (Hub.dupStandby_of_ne other) werr
  · exact fun taken => Hub.hostWr_active served mirrored (Hub.dupStandby_of_ne other) active taken
  · intro s up mirror
    have refused {a : Nat} (m : mirroredAddr a = true) (own : a < 0xD000 ∨ 0xE000 ≤ a) (v : Nat) (f : Hub → Hub) :
        s.hw.hub.hostWr a v f = s.hw.hub.on (mirrorWerr a) :=
      Hub.hostWr_mirror (Hub.served_of_inService up _) m (Hub.dupStandby_of_mirror mirror) own
    have channel (n : Fin 192) {off : Nat} (o : off < 0x100) (sc : Nat) (f : Hub → Hub) := Hub.hostCh_mirror up mirror n o sc f
    have carver (e : Fin 16) {off : Nat} (o : off < 0x1000) (v : Nat) (f : Hub → Hub) := Hub.hostEng_mirror up mirror e o v f
    refine ⟨fun n m => ?_, fun n v => ?_, fun n => ⟨?_, ?_⟩, fun e => ⟨?_, ?_⟩, ?_, ?_⟩
    · exact gives_onHub rfl (channel n (by decide) _ _)
    · exact gives_onHub rfl (channel n (by decide) _ _)
    · exact gives_onHub rfl (channel n (by decide) _ _)
    · exact gives_onHub rfl (channel n (by decide) _ _)
    · exact gives_onHub rfl (carver e (off := 0) (by decide) _ _)
    · refine gives_onHub rfl ?_
      rw [show 0x30080 + 0x1000 * e.val = 0x30000 + 0x1000 * e.val + 0x80 by omega]
      exact carver e (by decide) _ _
    · exact gives_onHub rfl (refused (by decide) (by decide) _ _)
    · exact gives_onHub rfl (refused (by decide) (by decide) _ _)

end Sys2Proof.Machine
end

section
/-! SUPPORT. Start-up: the gesso pass, the cast that boots, the settings in force and the hub that is READY (R386, R399, R404, R416, R421). -/

namespace Sys2Proof.Machine

theorem Hw.onHub_onHub (w : Hw) (f g : Hub → Hub) : (w.onHub f).onHub g = w.onHub fun h => g (f h) := rfl

/-! ## The cast that the boot record selects -/

theorem Hw.loaderOnly_false {w : Hw} (record : w.nv.boot.state ≠ 4) (fuse : w.nv.lcFuse ≠ 4) : w.loaderOnly = false := by
  have life : w.lcState ≠ lcRetired := by
    unfold Hw.lcState
    split
    · decide
    · exact fuse
  simp [Hw.loaderOnly, brRecovery, record, life]

/-- What the loader selects from, once the gesso pass has wiped memory. -/
def Hw.selecting (w : Hw) : Hw :=
  { w with mem := {}, nv := { w.nv with boot := w.nv.governing }, hub := w.hub.setPwr { w.hub.pwr with phase := .casting } }

/-- GESSO_PASS_COMPLETE with what the loader selected: the slot, the boot record, and the hub with what it logged. -/
theorem Hw.gessoDone_eq {w : Hw} (gesso : w.hub.pwr.phase = .gesso) :
    w.gessoDone = (if w.selecting.loaderOnly then (w.selecting.nv.boot.active, w.selecting) else w.selecting.selectCast).2.onHub fun h =>
      (h.setPwr { h.pwr with actGo := false }).set UPD_STAT_RUN_SLOT
        (if w.selecting.loaderOnly then (w.selecting.nv.boot.active, w.selecting) else w.selecting.selectCast).1 := by
  rw [Hw.gessoDone, if_neg (by simp [Hub.phase, gesso])]
  rfl

theorem Hw.selectCast_stable {w : Hw} (s : w.nv.boot.state = 1) : w.selectCast = (w.nv.boot.active, w) := by
  simp [Hw.selectCast, s, brPending, brProbation]

theorem Hw.selectCast_due {w : Hw} (s : w.nv.boot.state = 2) (due : w.hub.pwr.actGo = true) :
    w.selectCast = (1 - w.nv.boot.active, w.writeBoot fun b => { b with state := 3, active := 1 - w.nv.boot.active }) := by
  simp [Hw.selectCast, s, due, brPending, brProbation]

theorem Hw.selectCast_probation {w : Hw} (s : w.nv.boot.state = 3) :
    w.selectCast = (1 - w.nv.boot.active, (w.writeBoot fun b => { b with state := w.nv.restState, active := 1 - w.nv.boot.active, probEnd := 0 }).onHub
      fun h => ((h.on UPD_STAT_FELL_BACK).bump UPD_FALLBACKS UPD_STAT_SAT).log .castFallback (1 - w.nv.boot.active)
        ((w.nv.castOf w.nv.boot.active).elim 0 (·.version)) 0) := by
  simp [Hw.selectCast, s, brPending, brProbation]

/-- A stable record: its slot boots, loader alone or not. -/
theorem Hw.gessoDone_stable {w : Hw} (gesso : w.hub.pwr.phase = .gesso) (s : w.nv.governing.state = 1) :
    w.gessoDone = { w with mem := {}, nv := { w.nv with boot := w.nv.governing }
                           hub := (w.hub.setPwr { w.hub.pwr with phase := .casting, actGo := false }).set UPD_STAT_RUN_SLOT w.nv.governing.active } := by
  rw [Hw.gessoDone_eq gesso, Hw.selectCast_stable s, ite_self]
  rfl

theorem Hw.selecting_loaderOnly {w : Hw} (record : w.nv.governing.state ≠ 4) (fuse : w.nv.lcFuse ≠ 4) : w.selecting.loaderOnly = false :=
  Hw.loaderOnly_false (w := w.selecting) record fuse

/-! ## The cast that runs -/

section shown
variable (w : Hw)

@[simp] theorem Hw.showCasts_nv : w.showCasts.nv = w.nv := rfl

@[simp] theorem Hw.showCasts_pwr : w.showCasts.hub.pwr = w.hub.pwr := by
  unfold Hw.showCasts
  dsimp only [Hw.onHub_hub]
  split <;> split <;> (try split) <;> rfl

@[simp] theorem Hw.showCasts_upd : w.showCasts.hub.upd = w.hub.upd := by
  unfold Hw.showCasts
  dsimp only [Hw.onHub_hub]
  split <;> split <;> (try split) <;> rfl

/-- The versions and forms of the casts are shown in these fields alone. -/
theorem Hw.showCasts_get_ne (f : Field)
    (k : f.key ∉ [UPD_RUN_VERSION, UPD_PREV_VERSION, UPD_STAT_PREV_VALID, UPD_STAGED_VERSION, UPD_STAT_FORMAT].map Field.key) :
    w.showCasts.hub.get f = w.hub.get f := by
  simp only [List.map_cons, List.map_nil, List.mem_cons, List.not_mem_nil, or_false, not_or] at k
  obtain ⟨run, prev, valid, staged, form⟩ := k
  unfold Hw.showCasts
  dsimp only [Hw.onHub_hub]
  split <;> split <;> (try split) <;> simp (disch := assumption) only [Hub.get_set_ne, Hub.get_off_ne]

theorem Hw.showCasts_runVersion : w.showCasts.hub.get UPD_RUN_VERSION = (w.hub.upd.running.elim 0 (·.version)) % 2 ^ 32 := by
  unfold Hw.showCasts
  dsimp only [Hw.onHub_hub]
  split <;> split <;> (try split) <;> simp (disch := decide) only [Hub.get_set_ne, Hub.get_off_ne, Hub.get_set_same] <;> rfl

end shown

/-- The state of the update once a cast runs: on probation, beside a staged cast, or idle. -/
theorem Hw.runCast_state (w : Hw) (slot : Nat) : (w.runCast slot).hub.get UPD_STAT_STATE
    = if w.nv.boot.state = 3 ∧ w.nv.boot.active = slot then 5 else if w.nv.boot.valid (1 - slot) then 3 else 0 := by
  rw [Hw.runCast, Hw.showCasts_get_ne _ _ (by decide), Hw.onHub_hub, Hub.get_setUpd, Hub.get_set_same]
  refine Nat.mod_eq_of_lt (?_ : (if w.nv.boot.state = 3 ∧ w.nv.boot.active = slot then 5 else if w.nv.boot.valid (1 - slot) then 3 else 0) < 8)
  split_ifs <;> decide

theorem Hw.castLoaded_eq {w : Hw} (casting : w.hub.pwr.phase = .casting) (loader : w.loaderOnly = false) :
    w.castLoaded = (let s := w.hub.get UPD_STAT_RUN_SLOT
      let v := w.onHub fun h => h.setPhase .loading
      if w.nv.boots s then v.runCast s
      else if !v.rejected (1 - s) ∧ w.nv.boots (1 - s) then (v.onHub fun h => h.log .castBad s 0 0).runCast (1 - s) else v.noCast) := by
  rw [Hw.castLoaded, if_neg (by simp [Hub.phase, casting])]
  dsimp only
  rw [if_neg (by rw [show Hw.loaderOnly (w.onHub _) = w.loaderOnly from rfl, loader]; decide)]
  rfl

theorem Nv.boots_none {n : Nv} (a : n.boots 0 = false) (b : n.boots 1 = false) (slot : Nat) : n.boots slot = false := by
  cases slot with
  | zero => exact a
  | succ k => exact b

/-- What a hub without a cast keeps: its record and memory, and the cause of RECOVERY. -/
theorem Hw.runNone_keeps (w : Hw) : w.runNone.nv = w.nv ∧ w.runNone.hub.pwr = w.hub.pwr ∧ w.runNone.hub.upd.running = none
    ∧ w.runNone.hub.get LC_RECOVERY_CAUSE = w.hub.get LC_RECOVERY_CAUSE := by
  refine ⟨rfl, ?_, ?_, ?_⟩
  · simp [Hw.runNone]
  · simp [Hw.runNone]
  · rw [Hw.runNone, Hw.showCasts_get_ne _ _ (by decide)]
    exact Hub.get_set_ne _ _ _ _ (by decide)

@[simp] theorem Nv.appendBoot_boot (n : Nv) (b : BootRec) : (n.appendBoot b).boot = b := by
  unfold Nv.appendBoot
  dsimp only
  split <;> rfl

@[simp] theorem Nv.appendBoot_recovery (n : Nv) (b : BootRec) : (n.appendBoot b).recovery = n.recovery := by
  unfold Nv.appendBoot
  dsimp only
  split <;> rfl

/-- For want of a cast the hub is in RECOVERY with cause NO_CAST, but in BLANK as it is (R399, R406). -/
theorem Hw.noCast_outcome (w : Hw) : w.noCast.hub.pwr = w.hub.pwr ∧ w.noCast.hub.upd.running = none
    ∧ (w.lcState ≠ 0 → w.noCast.nv.boot.state = 4 ∧ w.noCast.nv.recovery = true ∧ w.noCast.hub.get LC_RECOVERY_CAUSE = 1)
    ∧ (w.lcState = 0 → w.noCast.nv = w.nv) := by
  by_cases blank : w.lcState = 0
  · have e : w.noCast = w.runNone := if_pos blank
    obtain ⟨nv, pwr, running, -⟩ := w.runNone_keeps
    rw [e]
    exact ⟨pwr, running, fun other => absurd blank other, fun _ => nv⟩
  · have e : w.noCast = (((w.setNv { w.nv with recovery := true }).writeBoot fun b => { b with state := brRecovery }).onHub fun h =>
        h.set LC_RECOVERY_CAUSE 1).runNone := if_neg blank
    obtain ⟨nv, pwr, running, cause⟩ := Hw.runNone_keeps
      (((w.setNv { w.nv with recovery := true }).writeBoot fun b => { b with state := brRecovery }).onHub fun h => h.set LC_RECOVERY_CAUSE 1)
    rw [e, nv, pwr, running, cause]
    refine ⟨rfl, rfl, fun _ => ⟨?_, ?_, Hub.get_set_same _ _ _⟩, fun z => absurd z blank⟩
    · exact congrArg BootRec.state (Nv.appendBoot_boot _ _)
    · exact Nv.appendBoot_recovery _ _

/-! ## The settings in force and the end of start-up -/

theorem Hub.patLoad_coarse (h : Hub) (f s : Option (AMap Nat)) : (h.patLoad f s).pwr.coarse = h.pwr.coarse := by
  unfold Hub.patLoad Hub.patTake
  dsimp only
  split <;> split <;> simp [Hub.patForce]

/-- SETTINGS_LOADED of a hub whose cast reads no settings: the patina of the factory is loaded, and local time starts from coarse time. -/
theorem Hw.settingsLoaded_none {w : Hw} (loading : w.hub.pwr.phase = .loading) (running : w.hub.upd.running = none) :
    w.settingsLoaded = w.onHub fun h => (match w.boundSlot with
      | some s => ((h.patLoad w.nv.factory none).set UPD_SETC_SLOT s).on UPD_SETC_SLOT_VALID
      | none => h.patLoad w.nv.factory none).timeStart.setPhase .loaded := by
  rw [Hw.settingsLoaded, if_neg (by simp [Hub.phase, loading]), Hw.takeSettings, running]
  dsimp only
  refine (Hw.onHub_onHub _ _ _).trans ?_
  cases w.boundSlot <;> rfl

theorem Hw.takeSettings_bound {w : Hw} {c : Cast} {slot : Nat} {img : AMap Nat} (running : w.hub.upd.running = some c)
    (state : w.hub.get UPD_STAT_STATE ≠ 5) (readable : w.hub.get UPD_STAT_SETTINGS_UNREADABLE = 0) (bound : w.boundSlot = some slot)
    (image : w.readable c slot = some img) : w.takeSettings = (some img, w) := by
  have probation : w.hub.upState ≠ upProbation := state
  simp [Hw.takeSettings, running, probation, Hub.bit_eq, readable, bound, image]

/-- Settles O10: the phases of start-up in their order, each by the equation of its step. -/
theorem startUp : Obligations.StartUp := by
  refine ⟨fun s => ⟨fun held => ?_, fun released => ?_, fun gesso => ⟨fun stable => ?_, fun pending due fuse => ?_, fun probation fuse => ?_⟩,
    fun casting loader boots => ?_, fun casting loader a b => ?_⟩, fun s => ⟨fun loading running => ?_, fun c slot img loading running state readable bound image => ?_, fun loaded => ?_⟩⟩
  · exact gives_onHub (f := Hub.startRelease) rfl (if_pos held)
  · refine gives_onHub (f := Hub.sysLocked) rfl ?_
    rw [Hub.sysLocked, Hub.phase, released]
    rfl
  · exact givesHw_onHw (f := Hw.gessoDone) rfl (Hw.gessoDone_stable gesso stable)
  · refine givesHw_onHw (f := Hw.gessoDone) rfl ?_
    rw [Hw.gessoDone_eq gesso, Hw.selecting_loaderOnly (by rw [pending]; decide) fuse, if_neg (by decide), Hw.selectCast_due (w := s.hw.selecting) pending due]
    rfl
  · refine leads_onHw (f := Hw.gessoDone) rfl ?_
    rw [Hw.gessoDone_eq gesso, Hw.selecting_loaderOnly (by rw [probation]; decide) fuse, if_neg (by decide), Hw.selectCast_probation (w := s.hw.selecting) probation]
    refine ⟨rfl, rfl, Hub.get_set_same _ _ _, ?_, ?_, ?_⟩
    · simp (disch := decide) only [Hw.onHub_hub, Hub.get_set_ne, Hub.get_setPwr, Hub.log_get_ne, Hub.bump_get_ne, Hub.get_on_same]
    · simp (disch := decide) only [Hw.onHub_hub, Hub.get_set_ne, Hub.get_setPwr, Hub.log_get_ne, Hub.bump_get, Hub.get_on_ne]
      rfl
    · simp only [Hw.onHub_hub, Hub.set_pwr, Hub.setPwr_pwr, Hub.log_head, Option.map_some]
      rfl
  · refine leads_onHw (f := Hw.castLoaded) rfl ?_
    rw [Hw.castLoaded_eq casting loader]
    dsimp only
    rw [if_pos boots]
    refine ⟨rfl, by simp [Hw.runCast], by simp [Hw.runCast, Hub.setPhase], by simp [Hw.runCast], ?_, ?_⟩
    · rw [Hw.runCast, Hw.showCasts_runVersion]
      rfl
    · exact Hw.runCast_state _ _
  · refine leads_onHw (f := Hw.castLoaded) rfl ?_
    have none := Nv.boots_none a b
    rw [Hw.castLoaded_eq casting loader]
    dsimp only
    rw [if_neg (by rw [none]; decide), if_neg (by rw [none]; simp)]
    obtain ⟨pwr, running, recovery, blank⟩ := Hw.noCast_outcome (s.hw.onHub fun h => h.setPhase .loading)
    exact ⟨by rw [pwr]; rfl, running, Hw.noCast_mem _, recovery, blank⟩
  · refine leads_onHw (f := Hw.settingsLoaded) rfl ?_
    rw [Hw.settingsLoaded_none loading running]
    refine ⟨rfl, rfl, rfl, rfl, ?_, rfl⟩
    cases s.hw.boundSlot with
    | none => exact congrArg coarseInstant (Hub.patLoad_coarse _ _ _)
    | some slot => exact congrArg coarseInstant (Hub.patLoad_coarse _ _ _)
  · refine givesHw_onHw (f := Hw.settingsLoaded) (w := s.hw.setHub _) rfl ?_
    rw [Hw.settingsLoaded, if_neg (by simp [Hub.phase, loading]), Hw.takeSettings_bound running state readable bound image]
    dsimp only
    rw [bound]
    rfl
  · refine givesHw_onHw (f := Hw.startUpDone) (w := s.hw.setHub _) rfl ?_
    rw [Hw.startUpDone, if_neg (by simp [Hub.phase, loaded])]
    have stays : s.hw.staysMaint = true ↔ s.hw.lcState = 0 ∨ s.hw.lcState = 3 ∨ s.hw.lcState = 4 := by
      simp [Hw.staysMaint, lcBlank, lcRecovery, lcRetired, or_assoc]
    simp only [stays]
    rfl

end Sys2Proof.Machine
end

section
/-! SUPPORT. The register frame of the shared operations: what counters, bits and log entries may change. -/

namespace Sys2Proof.Machine

/-- A bit of a field as the test of a condition. -/
theorem Hub.bit_iff (h : Hub) (f : Field) : h.bit f = true ↔ h.get f = 1 := by simp [Hub.bit_eq]

theorem Hub.bit_of_one {h : Hub} {f : Field} (e : h.get f = 1) : h.bit f = true := (h.bit_iff f).2 e

theorem Hub.bit_of_ne {h : Hub} {f : Field} (e : h.get f ≠ 1) : h.bit f = false := by simp [Hub.bit_eq, e]

theorem Hub.bit_of_zero {h : Hub} {f : Field} (e : h.get f = 0) : h.bit f = false := Hub.bit_of_ne (by omega)

section frame
variable {l : List Field} {h h' : Hub}

theorem onlyRegs_bumpBy {c s : Field} (k : Nat) (hc : c.key ∈ l.map Field.key) (hs : s.key ∈ l.map Field.key) (a : OnlyRegs l h h') :
    OnlyRegs l h (h'.bumpBy c s k) := fun g hg =>
  (Hub.bumpBy_get_ne h' c s g k (fun e => hg (e ▸ hc)) (fun e => hg (e ▸ hs))).trans (a g hg)

theorem onlyRegs_bump {c s : Field} (hc : c.key ∈ l.map Field.key) (hs : s.key ∈ l.map Field.key) (a : OnlyRegs l h h') :
    OnlyRegs l h (h'.bump c s) := onlyRegs_bumpBy 1 hc hs a

/-- A log entry changes the log's own registers alone. -/
theorem onlyRegs_log (c : LogCode) (x y z : Nat) (hl : ∀ k ∈ [LOG_OVERWRITES, LOG_SAT, LOG_NEW, DEV_IRQ_LOG].map Field.key, k ∈ l.map Field.key)
    (a : OnlyRegs l h h') : OnlyRegs l h (h'.log c x y z) := fun g hg =>
  (Hub.log_get_ne h' c x y z g fun m => hg (hl _ m)).trans (a g hg)

end frame

/-- The registers before the channels': those whose address lies below 0x10000. -/
theorem Field.key_ne_of_low {f g : Field} (low : f.key < 0x200000) (high : 0x10000 ≤ g.addr) : f.key ≠ g.key := by
  unfold Field.key at *
  omega

end Sys2Proof.Machine
end

section
/-! SUPPORT. Clocks, loss of VPLN and the test access port (R28, R29, R107, R411, R457, R463). -/

namespace Sys2Proof.Machine

/-! ## A restart of a chain changes its channel's registers alone -/

/-- A restart changes these registers of its channel alone (R152). -/
theorem Hub.restartChain_only (h : Hub) (n t cause : Nat) :
    OnlyRegs [CH_SETTLE_N n, CH_CHAIN_SETTLING n, CH_CHAIN_LAST_CAUSE n, CH_RESTART_COUNT n, CH_CHAIN_SAT n, CH_DCB_EST n, CH_CHAIN_RESTARTED n] h
      (h.restartChain n t cause) := by
  intro f k
  simp only [List.map_cons, List.map_nil, List.mem_cons, List.not_mem_nil, or_false, not_or] at k
  obtain ⟨settle, settling, last, count, sat, est, restarted⟩ := k
  unfold Hub.restartChain
  dsimp only
  split
  · rfl
  · split <;> simp (disch := assumption) only [Hub.get_on_ne, Hub.get_off_ne, Hub.bump_get_ne, Hub.get_set_ne, Hub.setChan_get]

theorem Hub.restartChain_get_low (h : Hub) (n t cause : Nat) (f : Field) (low : f.key < 0x200000) : (h.restartChain n t cause).get f = h.get f := by
  refine Hub.restartChain_only h n t cause f ?_
  simp only [List.map_cons, List.map_nil, List.mem_cons, List.not_mem_nil, or_false, not_or]
  refine ⟨?_, ?_, ?_, ?_, ?_, ?_, ?_⟩ <;> exact Field.key_ne_of_low low (Nat.le_add_right_of_le (by decide))

/-- Besides registers and channels a restart keeps the hub. -/
theorem Hub.restartChain_keeps (h : Hub) (n t cause : Nat) :
    (h.restartChain n t cause).pwr = h.pwr ∧ (h.restartChain n t cause).time = h.time ∧ (h.restartChain n t cause).free = h.free := by
  unfold Hub.restartChain
  dsimp only
  split
  · exact ⟨rfl, rfl, rfl⟩
  · split <;> simp

/-! ## The crystal and the PLLs -/

theorem Hub.xtalFail_runs {h : Hub} (p : h.pwr.phase ≠ .dead) (ok : h.get CLK_XTAL_OK = 1) :
    h.xtalFail = ((h.off CLK_XTAL_OK).on CLK_XTAL_FAIL).log .xtalFail 0 0 0 := if_pos ⟨Hub.powered_of_phase p, Hub.bit_of_one ok⟩

/-- PLL_FAIL of a running hub: it is noted, and then what the PLL that failed takes with it (R29). -/
theorem Hub.pllFail_runs {h : Hub} (run : h.pwr.phase = .run) {which : Nat} (mod : which = 1 → h.pwr.modRunning = true) :
    h.pllFail which = (let g := (h.on CLK_PLL_FAIL).on DEV_IRQ_CLOCK
      if which = 0 then
        if g.pwr.pllFailLogged then g else ((g.setPwr { g.pwr with pllFailLogged := true }).log .pllFail 0 0 0).off CLK_SYS_LOCK
      else
        let g := g.log .pllFail which 0 0
        if which = 1 then ((g.setPwr { g.pwr with modFailed := true, modUnlocked := false }).off CLK_MOD_LOCK).modLost
        else (g.clrBit CLK_QUAD_LOCK (which - 2)).quadLost (which - 2)) := by
  have acts : ¬((!h.powered) = true ∨ h.phase = .held ∨ h.phase = .dormant ∨ (which = 1 ∧ (!h.pwr.modRunning) = true)) := by
    rintro (p | p | p | ⟨one, p⟩)
    · simp [Hub.powered, run] at p
    · simp [Hub.phase, run] at p
    · simp [Hub.phase, run] at p
    · simp [mod one] at p
  rw [Hub.pllFail, if_neg acts]

theorem Hub.pllLoses_runs {h : Hub} (run : h.pwr.phase = .run) (which : Nat) :
    h.pllLoses which = if which = 0 then h.off CLK_SYS_LOCK
      else if which = 1 then
        (if h.bit CLK_MOD_LOCK then ((h.setPwr { h.pwr with modUnlocked := true }).off CLK_MOD_LOCK).modLost else h)
      else (h.clrBit CLK_QUAD_LOCK (which - 2)).quadLost (which - 2) := by
  rw [Hub.pllLoses, if_neg fun p => p.1 run]

@[simp] theorem Hub.modPhased_get (h : Hub) (f : Field) : h.modPhased.get f = h.get f := rfl

/-- The modulator PLL locks again: its edges go on from a phase of their own, and the channels it clocks restart (R102, R107). -/
theorem Hub.modRelock_outcome {h : Hub} (running : h.pwr.modRunning = true) (lost : h.modLocked = false) :
    h.modRelock.get CLK_MOD_LOCK = 1 ∧ h.modRelock.pwr.modFailed = false ∧ h.modRelock.pwr.modUnlocked = false
    ∧ h.modRelock.time.now = h.time.now ∧ h.modRelock.time.edge0 = h.time.now + Config.modPhase h.free ∧ h.modRelock.free = h.free + 1
    ∧ ∀ f : Field, f.key < 0x200000 → f.key ≠ CLK_MOD_LOCK.key → h.modRelock.get f = h.get f := by
  rw [Hub.modRelock, if_neg (by simp [running, lost])]
  dsimp only
  have reads (f : Field) (low : f.key < 0x200000) (l : List Nat) (t : Nat) (g : Hub) :
      (g.each l fun h n => (h.markEnd n .pll t).restartChain n t 4).get f = g.get f :=
    Hub.each_keeps (fun h => h.get f) _ l g fun h n _ => Hub.restartChain_get_low _ n t 4 f low
  have pwr (l : List Nat) (t : Nat) (g : Hub) : (g.each l fun h n => (h.markEnd n .pll t).restartChain n t 4).pwr = g.pwr :=
    Hub.each_keeps Hub.pwr _ l g fun h n _ => (Hub.restartChain_keeps (h.markEnd n .pll t) n t 4).1
  have time (l : List Nat) (t : Nat) (g : Hub) : (g.each l fun h n => (h.markEnd n .pll t).restartChain n t 4).time = g.time :=
    Hub.each_keeps Hub.time _ l g fun h n _ => (Hub.restartChain_keeps (h.markEnd n .pll t) n t 4).2.1
  have free (l : List Nat) (t : Nat) (g : Hub) : (g.each l fun h n => (h.markEnd n .pll t).restartChain n t 4).free = g.free :=
    Hub.each_keeps Hub.free _ l g fun h n _ => (Hub.restartChain_keeps (h.markEnd n .pll t) n t 4).2.2
  rw [reads _ (by decide), pwr, time, free]
  refine ⟨(Hub.modPhased_get _ _).trans (Hub.get_on_same _ _ (by decide)), rfl, rfl, rfl, rfl, rfl, fun f low k => ?_⟩
  rw [reads f low]
  exact (Hub.modPhased_get _ _).trans (Hub.get_on_ne _ _ _ k)

/-! ## The test access port -/

theorem Hub.discharge_keeps (h : Hub) (n : Nat) : (h.discharge n).pwr = h.pwr := by
  unfold Hub.discharge Hub.complianceOff
  split <;> rfl

theorem Hub.discharge_get_low (h : Hub) (n : Nat) (f : Field) (low : f.key < 0x200000) : (h.discharge n).get f = h.get f := by
  unfold Hub.discharge Hub.complianceOff
  split
  · rfl
  · exact Hub.get_off_ne _ _ _ (Field.key_ne_of_low low (Nat.le_add_right_of_le (by decide)))

/-- An instruction that comes into force is kept in the plinth. -/
theorem Hub.tapSet_pwr (h : Hub) (op : Nat) : (h.tapSet op).pwr = { h.pwr with tap := op } := by
  unfold Hub.tapSet
  dsimp only
  split
  · exact Hub.each_keeps Hub.pwr _ _ _ fun h n _ => h.discharge_keeps n
  · split
    · exact Hub.each_keeps Hub.pwr _ _ _ fun _ _ _ => rfl
    · rfl

theorem Hub.tapSet_get_low (h : Hub) (op : Nat) (f : Field) (low : f.key < 0x200000) : (h.tapSet op).get f = h.get f := by
  unfold Hub.tapSet
  dsimp only
  split
  · exact Hub.each_keeps (fun h => h.get f) _ _ _ fun h n _ => h.discharge_get_low n f low
  · split
    · exact Hub.each_keeps (fun h => h.get f) _ _ _ fun _ _ _ => rfl
    · rfl

/-- An instruction that does not take the balls changes no register. -/
theorem Hub.tapSet_regs (h : Hub) {op : Nat} (free : tapTakes op = false) : (h.tapSet op).regs = h.regs := by
  unfold Hub.tapSet
  dsimp only
  rw [if_neg (by simp [free])]
  split
  · exact Hub.each_keeps Hub.regs _ _ _ fun _ _ _ => rfl
  · rfl

theorem Hub.testEnFall_outcome (h : Hub) : h.testEnFall.regs = h.regs
    ∧ h.testEnFall.pwr = { h.pwr with testEn := false, tap := if tapTakes h.pwr.tap then 0x3F else h.pwr.tap } := by
  unfold Hub.testEnFall
  dsimp only
  split
  case isTrue takes =>
    refine ⟨Hub.tapSet_regs _ (by decide), ?_⟩
    rw [Hub.tapSet_pwr, if_pos (show tapTakes h.pwr.tap = true from takes)]
    rfl
  case isFalse free => exact ⟨rfl, by rw [if_neg (show ¬tapTakes h.pwr.tap = true from free)]; rfl⟩

/-- Settles O12: clock by clock, each by what its event does. -/
theorem clocksAndTestPins : Obligations.ClocksAndTestPins := by
  intro s
  dsimp only
  refine ⟨fun powered ok => ?_, fun powered => ?_, fun run first => ?_, fun run modulator => ?_, fun run q two => ?_,
    fun run => ⟨?_, fun locked => ?_, fun q two => ?_⟩, fun running lost => ?_, fun up => ⟨fun e => ?_, ?_, ?_⟩, ?_,
    fun served v => ⟨fun e held => ?_, fun gone => ?_⟩, fun op en => ?_, ?_⟩
  · refine leads_onHub (f := Hub.xtalFail) rfl ?_
    rw [Hub.xtalFail_runs powered ok]
    refine ⟨?_, ?_, by rw [Hub.log_head]; rfl, onlyRegs_log _ _ _ _ (by decide) (onlyRegs_on (by decide) (onlyRegs_off (by decide) (onlyRegs_refl _ _)))⟩
    · simp (disch := decide) only [Hub.log_get_ne, Hub.get_on_ne, Hub.get_off_same]
    · simp (disch := decide) only [Hub.log_get_ne, Hub.get_on_same]
  · exact gives_onHub (f := Hub.xtalOk) rfl (if_pos (Hub.powered_of_phase powered))
  · refine leads_onHub (f := fun h => h.pllFail 0) rfl ?_
    rw [Hub.pllFail_runs run (by omega)]
    dsimp only
    rw [if_pos rfl, if_neg (by simp [first])]
    refine ⟨?_, ?_, Hub.get_off_same _ _, ?_, ?_⟩
    · simp (disch := decide) only [Hub.get_off_ne, Hub.log_get_ne, Hub.get_setPwr, Hub.get_on_ne, Hub.get_on_same]
    · simp (disch := decide) only [Hub.get_off_ne, Hub.log_get_ne, Hub.get_setPwr, Hub.get_on_same]
    · rw [Hub.off_pwr, Hub.log_head]
      rfl
    · exact onlyRegs_off (by decide) (onlyRegs_log _ _ _ _ (by decide) (onlyRegs_of_regs (Hub.setPwr_regs _ _)
        (onlyRegs_on (by decide) (onlyRegs_on (by decide) (onlyRegs_refl _ _)))))
  · refine gives_onHub (f := fun h => h.pllFail 1) rfl ?_
    rw [Hub.pllFail_runs run fun _ => modulator]
    rfl
  · refine gives_onHub (f := fun h => h.pllFail q) rfl ?_
    rw [Hub.pllFail_runs run (by omega)]
    dsimp only
    rw [if_neg (by omega), if_neg (by omega)]
  · exact gives_onHub (f := fun h => h.pllLoses 0) rfl (Hub.pllLoses_runs run 0)
  · refine gives_onHub (f := fun h => h.pllLoses 1) rfl ?_
    rw [Hub.pllLoses_runs run 1, if_neg (by decide), if_pos rfl, if_pos (Hub.bit_of_one locked)]
  · refine gives_onHub (f := fun h => h.pllLoses q) rfl ?_
    rw [Hub.pllLoses_runs run, if_neg (by omega), if_neg (by omega)]
  · exact leads_onHub (f := Hub.modRelock) rfl (Hub.modRelock_outcome running lost)
  · refine gives_onHub (f := fun h => h.clockStart (.carver e)) rfl ?_
    rw [Hub.clockStart, if_neg (by rw [show s.hw.hub.inService = true from up]; decide)]
  · refine gives_onHub (f := fun h => h.clockStart .compressor) rfl ?_
    rw [Hub.clockStart, if_neg (by rw [show s.hw.hub.inService = true from up]; decide)]
  · refine gives_onHub (f := fun h => h.clockStart .memory) rfl ?_
    rw [Hub.clockStart, if_neg (by rw [show s.hw.hub.inService = true from up]; decide)]
  · exact leads_onHub (f := Hub.vplnLoss) rfl ⟨rfl, rfl, fun _ => rfl⟩
  · exact gives_onHub (exec_logSeqWrite v served) (Hub.logSeqWrite_held held)
  · exact gives_onHub (exec_logSeqWrite v served) (Hub.logSeqWrite_gone gone)
  · refine leads_onHub (f := fun h => h.tapLoad op en) rfl ⟨fun f low => Hub.tapSet_get_low _ _ f low, ?_⟩
    rw [Hub.tapLoad, Hub.tapSet_pwr]
    rfl
  · exact leads_onHub (f := Hub.testEnFall) rfl s.hw.hub.testEnFall_outcome

end Sys2Proof.Machine
end

section
/-! SUPPORT. Mode commands, DORMANT and wake (R17, R31, R32, R410 to R414, R443). -/

namespace Sys2Proof.Machine

/-! ## The gate of a host write that reaches memory or flash -/

/-- A host write of a register that is not mirrored acts. -/
theorem Hw.hostWr_plain {w : Hw} {a v : Nat} {f : Hw → Hw} (served : w.hub.served a = true) (own : mirroredAddr a = false) :
    w.hostWr a v f = f w := by
  simp [Hw.hostWr, served, own]

/-- A host write in service of a register that is not mirrored acts on hub, memory and flash. -/
theorem exec_hostWr_up {c : Instr} {s : State} {a : Nat} {v : Hw → Nat} {f : Hw → Hw} (up : s.up) (own : mirroredAddr a = false)
    (e : exec c s = .next (s.onHw fun w => w.hostWr a (v w) f)) : exec c s = .next (s.onHw f) := by
  rw [e]
  exact congrArg (fun w => Host.Outcome.next { s with hw := w }) (Hw.hostWr_plain (Hub.served_of_inService up a) own)

/-- A command whose effect is on the hub alone, found by what it does to hub, memory and flash together. -/
theorem gives_onHw {c : Instr} {s : State} {f : Hw → Hw} {h : Hub} (e : exec c s = .next (s.onHw f)) (p : f s.hw = s.hw.setHub h) : Gives c s h := by
  rw [Gives, e, State.onHw, p]
  rfl

/-- The same for a hub of which something holds. -/
theorem leads_onHw_hub {c : Instr} {s : State} {f : Hw → Hw} {h : Hub} {P : Hub → Prop} (e : exec c s = .next (s.onHw f))
    (p : f s.hw = s.hw.setHub h) (q : P h) : Leads c s P := ⟨h, gives_onHw e p, q⟩

/-! ## Mode commands (R31, R32, R443) -/

theorem exec_modeIdle {s : State} (up : s.up) : exec .modeIdle s = .next (s.onHw fun w => w.modeCmd mIdle) :=
  exec_hostWr_up (v := fun _ => 0x90) (a := 4) up (by decide) rfl

theorem exec_modeDormant {s : State} (up : s.up) : exec .modeDormant s = .next (s.onHw fun w => w.modeCmd mDormant) :=
  exec_hostWr_up (v := fun _ => 0x80) (a := 4) up (by decide) rfl

theorem exec_modeMaintenance {s : State} (up : s.up) : exec .modeMaintenance s = .next (s.onHw fun w => w.modeCmd mMaint) :=
  exec_hostWr_up (v := fun _ => 0xF0) (a := 4) up (by decide) rfl

section command
variable {w : Hw}

/-- A GO in a transition is refused with reason 1. -/
theorem Hw.modeCmd_busy (c : Nat) (t : w.hub.get DEV_MODE_IN_TRANSITION = 1) :
    w.modeCmd c = w.setHub ((((w.hub.set DEV_MODE_CMD c).on DEV_MODE_REFUSED).set DEV_MODE_REFUSE 1).on DEV_MODE_MODE_BUSY) := by
  have busy : (w.hub.set DEV_MODE_CMD c).bit DEV_MODE_IN_TRANSITION = true :=
    Hub.bit_of_one ((Hub.get_set_ne _ _ _ _ (by decide)).trans t)
  exact if_pos busy

/-- Outside a transition GO acts by CMD and the mode. -/
theorem Hw.modeCmd_idle {c : Nat} (t : w.hub.get DEV_MODE_IN_TRANSITION = 0) (small : c < 8) :
    w.modeCmd c = (let g := w.onHub fun h => h.set DEV_MODE_CMD c
      if c = mIdle then
        if w.hub.mode = mMaint then (if w.staysMaint then g.onHub fun h => h.modeRefuse 6 else g.leaveMaint)
        else if w.hub.mode = mStaging then g.onHub Hub.discard
        else if w.hub.acquiring then g.onHub Hub.goIdle
        else g
      else if c = mDormant then g.onHub fun h => if h.mode = mIdle then h.goDormant else h.modeRefuse 2
      else if c = mMaint then g.onHub fun h => if h.mode = mIdle then h.enter mMaint else h.modeRefuse 2
      else g.onHub fun h => h.modeRefuse 7) := by
  have free : (w.hub.set DEV_MODE_CMD c).bit DEV_MODE_IN_TRANSITION = false :=
    Hub.bit_of_zero ((Hub.get_set_ne _ _ _ _ (by decide)).trans t)
  have cmd : (w.hub.set DEV_MODE_CMD c).get DEV_MODE_CMD = c := (Hub.get_set_same _ _ _).trans (Nat.mod_eq_of_lt small)
  have mode : (w.hub.set DEV_MODE_CMD c).mode = w.hub.mode := Hub.get_set_ne _ _ _ _ (by decide)
  have acquiring : (w.hub.set DEV_MODE_CMD c).acquiring = w.hub.acquiring := by simp only [Hub.acquiring, mode]
  have stays : (w.onHub fun h => h.set DEV_MODE_CMD c).staysMaint = w.staysMaint := rfl
  simp only [Hw.modeCmd, Hw.modeGo, Hw.onHub_hub, free, cmd, mode, acquiring, stays, Bool.false_eq_true, if_false]

end command

theorem Hub.set_cmd_mode (h : Hub) (c : Nat) : (h.set DEV_MODE_CMD c).mode = h.mode := Hub.get_set_ne _ _ _ _ (by decide)

/-- GO with CMD DORMANT by what keeps the hub awake (R32). -/
theorem Hw.modeCmd_dormant {w : Hw} (t : w.hub.get DEV_MODE_IN_TRANSITION = 0) :
    w.modeCmd mDormant = w.setHub (if w.hub.mode = 1 then (w.hub.set DEV_MODE_CMD 0).goDormant else (w.hub.set DEV_MODE_CMD 0).modeRefuse 2) := by
  rw [Hw.modeCmd_idle t (by decide)]
  dsimp only
  rw [if_neg (by decide), if_pos rfl, Hw.onHub_onHub]
  simp only [Hw.onHub, Hw.setHub, mDormant, mIdle, Hub.set_cmd_mode]

theorem Hw.modeCmd_maint {w : Hw} (t : w.hub.get DEV_MODE_IN_TRANSITION = 0) :
    w.modeCmd mMaint = w.setHub (if w.hub.mode = 1 then (w.hub.set DEV_MODE_CMD 7).enter mMaint else (w.hub.set DEV_MODE_CMD 7).modeRefuse 2) := by
  rw [Hw.modeCmd_idle t (by decide)]
  dsimp only
  rw [if_neg (by decide), if_neg (by decide), if_pos rfl, Hw.onHub_onHub]
  simp only [Hw.onHub, Hw.setHub, mMaint, mIdle, Hub.set_cmd_mode]

/-- What GO with CMD DORMANT looks at does not change with CMD. -/
theorem Hub.goDormant_cmd (h : Hub) (c : Nat) : (h.set DEV_MODE_CMD c).goDormant
    = if h.holdsPackets then (h.set DEV_MODE_CMD c).modeRefuse 3
      else if (List.range 8).any h.schedPending then (h.set DEV_MODE_CMD c).modeRefuse 4
      else if h.bit UPD_SETC_BUSY then (h.set DEV_MODE_CMD c).modeRefuse 5
      else ((h.set DEV_MODE_CMD c).setPhase .entering).on DEV_MODE_IN_TRANSITION := by
  have slots : (h.set DEV_MODE_CMD c).schedPending = h.schedPending := funext fun n => by
    unfold Hub.schedPending
    rw [Hub.get_set_ne _ _ _ _ (by simp [Field.key, SCHED_STATE, DEV_MODE_CMD]; omega)]
  have busy : (h.set DEV_MODE_CMD c).bit UPD_SETC_BUSY = h.bit UPD_SETC_BUSY := by
    rw [Hub.bit_eq, Hub.bit_eq, Hub.get_set_ne _ _ _ _ (by decide)]
  rw [Hub.goDormant, slots, busy]
  rfl

theorem Hub.modeRefuse_of_ne_one {h : Hub} {r : Nat} (e : r ≠ 1) : h.modeRefuse r = (h.on DEV_MODE_REFUSED).set DEV_MODE_REFUSE r := if_neg e

/-- MAINTENANCE is left with no load and no scheduled activation to end. -/
theorem Hw.leaveMaint_idle {w : Hw} (idle : w.hub.upState = 0) : w.leaveMaint = w.setHub w.hub.toIdle.clearTests := by
  have load : w.hub.updAbort = w.hub := if_neg (by rw [idle]; decide)
  have activation : w.updUnschedule = w := if_neg (by rw [idle]; decide)
  rw [Hw.leaveMaint, show w.onHub Hub.updAbort = w from congrArg w.setHub load, activation]
  rfl

/-- CMD IDLE from an acquisition mode that withdraws or drains already is refused. -/
theorem Hub.goIdle_refused {h : Hub} (b : h.get ARM_STAT_WITHDRAW_PENDING = 1 ∨ h.get ARM_STAT_DRAINING = 1) : h.goIdle = h.modeRefuse 1 :=
  if_pos (b.imp Hub.bit_of_one Hub.bit_of_one)

theorem Hub.goIdle_withdraws {h : Hub} (a : h.get ARM_STAT_WITHDRAW_PENDING = 0) (b : h.get ARM_STAT_DRAINING = 0) :
    h.goIdle = (h.calDrop.withdrawFrom h.calDrop.nextTick).on DEV_MODE_IN_TRANSITION :=
  if_neg (by simp [Hub.bit_of_zero a, Hub.bit_of_zero b])

theorem Hub.acquiring_iff (h : Hub) : h.acquiring = true ↔ h.mode = 3 ∨ h.mode = 4 ∨ h.mode = 5 ∨ h.mode = 6 := by
  simp [Hub.acquiring, mCal, mStream, mSegment, mMirror, or_assoc]

/-- CMD IDLE from an acquisition mode (R17). -/
theorem Hw.modeCmd_idle_acquiring {w : Hw} (t : w.hub.get DEV_MODE_IN_TRANSITION = 0) (a : w.hub.acquiring = true) :
    w.modeCmd mIdle = w.setHub (w.hub.set DEV_MODE_CMD 1).goIdle := by
  have mode := w.hub.acquiring_iff.1 a
  rw [Hw.modeCmd_idle t (by decide)]
  dsimp only
  rw [if_pos rfl, if_neg (by unfold mMaint; omega), if_neg (by unfold mStaging; omega), if_pos a]
  rfl

/-! ## Wake (R413) -/

/-- The 64 lanes whose signal may wake the hub. -/
theorem Hub.linkWake_enabled {h : Hub} {k : Nat} (e : (h.get PWR_WAKE_LANES_LO + 2 ^ 32 * h.get PWR_WAKE_LANES_HI).testBit k = true) :
    h.linkWake k = h.wake 3 k := if_pos e

/-- A source seen in DORMANT wakes the hub, is counted and logged with where it was seen. -/
theorem Hub.wake_dormant {h : Hub} (d : h.pwr.phase = .dormant) {src at_ : Nat} (small : src < 8) (place : at_ < 64) :
    (h.wake src at_).pwr.phase = .waking ∧ (h.wake src at_).pwr.coarse = h.pwr.coarse
    ∧ (h.wake src at_).get PWR_WAKE_SRC = src ∧ (h.wake src at_).get PWR_WAKE_WHERE = at_
    ∧ (h.wake src at_).get PWR_WAKES = min (h.get PWR_WAKES + 1) PWR_WAKES.top
    ∧ ((h.wake src at_).pwr.log.head?.map fun e => (e.code, e.sev, e.p0, e.p1)) = some (2, 0, src, at_)
    ∧ OnlyRegs [PWR_WAKE_SRC, PWR_WAKE_WHERE, PWR_WAKES, PWR_SAT, LOG_OVERWRITES, LOG_SAT, LOG_NEW, DEV_IRQ_LOG] h (h.wake src at_) := by
  have e : h.wake src at_ = ((((h.set PWR_WAKE_SRC src).set PWR_WAKE_WHERE at_).bump PWR_WAKES PWR_SAT).log .wake src at_ 0).setPhase .waking := by
    rw [Hub.wake, Hub.phase, d]
  rw [e]
  refine ⟨rfl, ?_, ?_, ?_, ?_, ?_, ?_⟩
  · exact (Hub.log_coarse _ _ _ _ _).trans (by rw [Hub.bump_pwr]; rfl)
  · simp (disch := decide) only [Hub.setPhase, Hub.get_setPwr, Hub.log_get_ne, Hub.bump_get_ne, Hub.get_set_ne, Hub.get_set_same]
    exact Nat.mod_eq_of_lt small
  · simp (disch := decide) only [Hub.setPhase, Hub.get_setPwr, Hub.log_get_ne, Hub.bump_get_ne, Hub.get_set_same]
    exact Nat.mod_eq_of_lt place
  · simp (disch := decide) only [Hub.setPhase, Hub.get_setPwr, Hub.log_get_ne, Hub.bump_get, Hub.get_set_ne]
  · have src32 : src % 2 ^ 32 = src := Nat.mod_eq_of_lt (by omega)
    have at32 : at_ % 2 ^ 32 = at_ := Nat.mod_eq_of_lt (by omega)
    simp only [Hub.setPhase, Hub.setPwr_pwr, Hub.log_head, Option.map_some, Hub.logEntry, logCode, src32, at32]
  · exact onlyRegs_of_regs (Hub.setPwr_regs _ _) (onlyRegs_log _ _ _ _ (by decide) (onlyRegs_bump (by decide) (by decide)
      (onlyRegs_set _ (by decide) (onlyRegs_set _ (by decide) (onlyRegs_refl _ h)))))

/-- A source seen in the entry to DORMANT ends the entry. -/
theorem Hub.wake_entering {h : Hub} (d : h.pwr.phase = .entering) (src at_ : Nat) :
    h.wake src at_ = ((((h.set PWR_WAKE_SRC src).set PWR_WAKE_WHERE at_).on PWR_WAKE_ABORTED_ENTRY).setPwr { h.pwr with phase := .run }).off
      DEV_MODE_IN_TRANSITION := by
  rw [Hub.wake, Hub.phase, d]
  rfl

/-- The level of a pin is kept beside the registers. -/
theorem Hub.pinWake_both {h : Hub} {i : Nat} (e : (h.get PWR_WAKE_PIN_EN).testBit i = true) (both : bitsAt (h.get PWR_WAKE_PIN_EDGE) (2 * i) 2 = 3)
    (rising : Bool) : h.pinWake i rising = (h.setPin i { h.pin i with level := rising }).wake 2 i := by
  have edge : edgeSelected (if 3 = 0 then 1 else 3) rising = true := by cases rising <;> rfl
  rw [Hub.pinWake]
  dsimp only
  rw [show (h.setPin i { h.pin i with level := rising }).get PWR_WAKE_PIN_EDGE = h.get PWR_WAKE_PIN_EDGE from rfl, both, edge]
  exact if_pos (by rw [Bool.and_true]; exact e)

@[simp] theorem Hub.timeStart_get (h : Hub) (f : Field) : h.timeStart.get f = h.get f := by
  unfold Hub.timeStart
  exact (Hub.get_setPwr _ _ _).trans (Hub.get_setTime _ _ _)

@[simp] theorem Hub.pllGood_get (h : Hub) (f : Field) : h.pllGood.get f = h.get f := rfl

/-- The fast clocks run again: local time starts from coarse time (R40, R414). -/
theorem Hub.sysLocked_waking {h : Hub} (d : h.pwr.phase = .waking) : h.sysLocked.pwr.phase = .wakingMem ∧ h.sysLocked.get CLK_SYS_LOCK = 1
    ∧ h.sysLocked.time.running = true ∧ h.sysLocked.time.now = coarseInstant h.pwr.coarse ∧ h.sysLocked.time.slew = 0 := by
  have e : h.sysLocked = (((h.setPhase .wakingMem).on CLK_SYS_LOCK).timeStart.pllGood).setQuality qFree := by
    rw [Hub.sysLocked, Hub.phase, d]
  have beside (g : Hub) : (g.setQuality qFree).pwr = g.pwr ∧ (g.setQuality qFree).time.running = g.time.running := by
    unfold Hub.setQuality
    dsimp only
    split <;> exact ⟨rfl, rfl⟩
  rw [e, (beside _).1, (beside _).2, Hub.setQuality_get_ne _ _ _ (by decide), Hub.setQuality_now, Hub.setQuality_slew]
  exact ⟨rfl, by rw [Hub.pllGood_get, Hub.timeStart_get]; exact Hub.get_on_same _ _ (by decide), rfl, rfl, rfl⟩

theorem Hub.served_plinth_dormant {h : Hub} (d : h.pwr.phase = .dormant) : h.served 0x9000 = true :=
  ((h.served_by_phase 0x9000).2.2.1 (.inl d)).2 (by decide)

/-- A host write of PWR_CTL acts where it is served, and its register is not mirrored. -/
theorem exec_wake {s : State} (served : s.hw.hub.served 0x9000 = true) : exec .wake s = .next (s.onHub fun _ => s.hw.hub.hostWake) :=
  congrArg (fun h => Host.Outcome.next (s.withHub h)) (Hub.hostWr_plain (f := Hub.hostWake) served (by decide))

/-- Settles O13: mode commands by what GO acts on or is refused for, then the sources of a wake by the phase they are seen in. -/
theorem modesAndDormant : Obligations.ModesAndDormant := by
  refine ⟨fun s up => ?_, fun s => ?_⟩
  · dsimp only
    have kept (f : Field) (k : f.key ≠ DEV_MODE_CMD.key) (c : Nat) : (s.hw.hub.set DEV_MODE_CMD c).get f = s.hw.hub.get f := Hub.get_set_ne _ _ _ _ k
    refine ⟨fun t => ⟨gives_onHw (exec_modeIdle up) (Hw.modeCmd_busy _ t), gives_onHw (exec_modeDormant up) (Hw.modeCmd_busy _ t),
      gives_onHw (exec_modeMaintenance up) (Hw.modeCmd_busy _ t)⟩,
      fun t => ⟨fun idle => ⟨?_, ?_⟩, fun other => ⟨?_, ?_⟩, fun idle holds => ?_, fun idle empty => ⟨fun slot => ?_, fun none busy => ?_, fun none free => ?_⟩,
        fun maint => ⟨fun stays => ?_, fun leaves state => ?_⟩, fun acquiring pending draining => ?_, fun acquiring busy => ?_, fun staging => ?_⟩⟩
    · refine gives_onHw (exec_modeMaintenance up) ((Hw.modeCmd_maint t).trans ?_)
      rw [if_pos idle]
      rfl
    · refine gives_onHw (exec_modeIdle up) ((Hw.modeCmd_idle t (by decide)).trans ?_)
      dsimp only
      have apart : ¬s.hw.hub.acquiring = true := by rw [Hub.acquiring_iff]; omega
      rw [if_pos rfl, if_neg (by rw [idle]; decide), if_neg (by rw [idle]; decide), if_neg apart]
      rfl
    · refine gives_onHw (exec_modeMaintenance up) ((Hw.modeCmd_maint t).trans ?_)
      rw [if_neg other, Hub.modeRefuse_of_ne_one (by decide)]
    · refine gives_onHw (exec_modeDormant up) ((Hw.modeCmd_dormant t).trans ?_)
      rw [if_neg other, Hub.modeRefuse_of_ne_one (by decide)]
    · refine gives_onHw (exec_modeDormant up) ((Hw.modeCmd_dormant t).trans ?_)
      rw [if_pos idle, Hub.goDormant_cmd, if_pos holds, Hub.modeRefuse_of_ne_one (by decide)]
    · refine gives_onHw (exec_modeDormant up) ((Hw.modeCmd_dormant t).trans ?_)
      rw [if_pos idle, Hub.goDormant_cmd, if_neg (by simp [empty]), if_pos slot, Hub.modeRefuse_of_ne_one (by decide)]
    · refine gives_onHw (exec_modeDormant up) ((Hw.modeCmd_dormant t).trans ?_)
      rw [if_pos idle, Hub.goDormant_cmd, if_neg (by simp [empty]), if_neg (by rw [none]; decide), if_pos (Hub.bit_of_one busy),
        Hub.modeRefuse_of_ne_one (by decide)]
    · refine gives_onHw (exec_modeDormant up) ((Hw.modeCmd_dormant t).trans ?_)
      rw [if_pos idle, Hub.goDormant_cmd, if_neg (by simp [empty]), if_neg (by rw [none]; decide), if_neg (by simp [Hub.bit_of_zero free])]
      rfl
    · refine gives_onHw (exec_modeIdle up) ((Hw.modeCmd_idle t (by decide)).trans ?_)
      dsimp only
      rw [if_pos rfl, if_pos (show s.hw.hub.mode = mMaint from maint), if_pos stays]
      rfl
    · refine givesHw_onHw (exec_modeIdle up) ((Hw.modeCmd_idle t (by decide)).trans ?_)
      dsimp only
      rw [if_pos rfl, if_pos (show s.hw.hub.mode = mMaint from maint), if_neg (by simp [leaves]), Hw.leaveMaint_idle (w := s.hw.onHub fun h => h.set DEV_MODE_CMD mIdle) ((kept UPD_STAT_STATE (by decide) 1).trans state)]
      rfl
    · refine gives_onHw (exec_modeIdle up) ((Hw.modeCmd_idle_acquiring t acquiring).trans ?_)
      rw [Hub.goIdle_withdraws ((kept _ (by decide) 1).trans pending) ((kept _ (by decide) 1).trans draining)]
    · refine gives_onHw (exec_modeIdle up) ((Hw.modeCmd_idle_acquiring t acquiring).trans ?_)
      rw [Hub.goIdle_refused (by rw [kept _ (by decide), kept _ (by decide)]; exact busy)]
      rfl
    · refine gives_onHw (exec_modeIdle up) ((Hw.modeCmd_idle t (by decide)).trans ?_)
      dsimp only
      rw [if_pos rfl, if_neg (by rw [staging]; decide), if_pos staging]
      rfl
  · dsimp only
    refine ⟨fun entering => ?_, fun dormant => ⟨fun enabled => ?_, fun i enabled both r => ?_, fun k enabled => ?_, fun enabled => ?_⟩,
      fun entering => ⟨fun enabled ahead => ?_, fun k enabled => ?_, ?_⟩, fun waking => ?_, fun waking => ?_, fun served => ?_⟩
    · refine leads_onHw (f := Hw.dormantDone) rfl ?_
      rw [Hw.dormantDone, if_neg (by simp [Hub.phase, entering])]
      refine ⟨Hw.onHub_mem _ _, Hw.onHub_nv _ _, ?_⟩
      dsimp only [Hw.onHub_hub, Hw.setMem_hub, mDormant]
      exact if_congr (and_congr_left' (Hub.bit_iff _ _)) rfl rfl
    · have e : s.hw.hub.timerWake = (s.hw.hub.setPwr { s.hw.hub.pwr with coarse := max s.hw.hub.pwr.coarse s.hw.hub.wakeAt }).wake 1 0 := by
        rw [Hub.timerWake, if_neg (by simp [Hub.bit_of_one enabled]), Hub.phase, dormant]
      refine leads_onHub (f := Hub.timerWake) rfl ?_
      rw [e]
      obtain ⟨phase, coarse, rest⟩ := Hub.wake_dormant (h := s.hw.hub.setPwr { s.hw.hub.pwr with coarse := max s.hw.hub.pwr.coarse s.hw.hub.wakeAt })
        dormant (src := 1) (at_ := 0) (by decide) (by decide)
      exact ⟨⟨phase, rest⟩, coarse⟩
    · refine leads_onHub (f := fun h => h.pinWake i r) rfl ?_
      rw [Hub.pinWake_both enabled both]
      obtain ⟨phase, -, rest⟩ := Hub.wake_dormant (h := s.hw.hub.setPin i { s.hw.hub.pin i with level := r }) dormant (src := 2) (at_ := i)
        (by decide) (by omega)
      exact ⟨phase, rest⟩
    · refine leads_onHub (f := fun h => h.linkWake k) rfl ?_
      rw [Hub.linkWake_enabled enabled]
      obtain ⟨phase, -, rest⟩ := Hub.wake_dormant dormant (src := 3) (at_ := k) (by decide) k.isLt
      exact ⟨phase, rest⟩
    · refine leads_onHub (exec_wake (Hub.served_plinth_dormant dormant)) ?_
      rw [Hub.hostWake, if_pos ⟨dormant, Hub.bit_of_one enabled⟩]
      obtain ⟨phase, -, rest⟩ := Hub.wake_dormant dormant (src := 4) (at_ := 0) (by decide) (by decide)
      exact ⟨phase, rest⟩
    · refine gives_onHub (f := Hub.timerWake) rfl ?_
      rw [Hub.timerWake, if_neg (by simp [Hub.bit_of_one enabled]), Hub.phase, entering]
      exact (if_pos ahead).trans (Hub.wake_entering (h := s.hw.hub.upTo _) entering 1 0)
    · refine gives_onHub (f := fun h => h.linkWake k) rfl ?_
      rw [Hub.linkWake_enabled enabled, Hub.wake_entering entering]
    · refine gives_onHub (exec_wake (Hub.served_of_inService (by simp [Hub.inService, entering]) _)) ?_
      rw [Hub.hostWake, if_neg (by simp [Hub.phase, entering])]
    · refine leads_onHw (f := Hw.wakeReady) rfl ?_
      rw [Hw.wakeReady, if_neg (by simp [Hub.phase, waking])]
      refine ⟨Hw.onHub_mem _ _, Hw.onHub_nv _ _, ?_⟩
      simp only [Hw.onHub_hub, Hw.setMem_hub, Hub.setPhase, mIdle]
    · exact leads_onHub (f := Hub.sysLocked) rfl (Hub.sysLocked_waking waking)
    · exact gives_onHub rfl (Hub.hostWr_plain served (by decide))

end Sys2Proof.Machine
end

section
/-! SUPPORT. Steering of local time: the increment, slews, holdover (R36, R37, R41). -/

namespace Sys2Proof.Machine

/-- A host write in service of a register that is not mirrored acts on the hub. -/
theorem exec_hubWr_up {c : Instr} {s : State} {a : Nat} {v : Hub → Nat} {f : Hub → Hub} (up : s.up) (own : mirroredAddr a = false)
    (e : exec c s = .next (s.onHub fun h => h.hostWr a (v h) f)) : exec c s = .next (s.onHub f) := by
  rw [e]
  exact congrArg (fun h => Host.Outcome.next (s.withHub h)) (Hub.hostWr_plain (Hub.served_of_inService up a) own)

/-- An event of a unit acts while the hub is in service. -/
theorem exec_whenUp_up {c : Instr} {s : State} {f : Hub → Hub} (up : s.up) (e : exec c s = .next (s.onHub fun h => h.whenUp f)) :
    exec c s = .next (s.onHub f) := by
  rw [e]
  exact congrArg (fun h => Host.Outcome.next (s.withHub h)) (Hub.whenUp_up up)

theorem exec_incrAdjWrite {s : State} (up : s.up) (v : Word) : exec (.incrAdjWrite v) s = .next (s.onHub fun h => h.incrWrite v) :=
  exec_hubWr_up (a := 0x1008) (v := fun _ => v.toNat) up (by decide) rfl

theorem exec_slew {s : State} (up : s.up) : exec .slew s = .next (s.onHub Hub.adjSlew) :=
  exec_hubWr_up (a := 0x1000) (v := fun _ => 0x18) up (by decide) rfl

theorem exec_slewAbort {s : State} (up : s.up) : exec .slewAbort s = .next (s.onHub Hub.slewAbort) :=
  exec_hubWr_up (a := 0x1000) (v := fun _ => 0x20) up (by decide) rfl

theorem exec_holdoverForce {s : State} (up : s.up) (v : Bool) : exec (.holdoverForce v) s = .next (s.onHub fun h => h.holdoverForce v) :=
  exec_hubWr_up (a := 0x1000) (v := fun _ => 0x40) up (by decide) rfl

@[simp] theorem Hub.edgeFix_slew (h : Hub) : h.edgeFix.time.slew = h.time.slew := by
  unfold Hub.edgeFix
  dsimp only
  split <;> rfl

/-! ## The increment (R36) -/

theorem Hub.incrWrite_inside {h : Hub} {v : Word} (lo : -8589934 ≤ v.toInt) (hi : v.toInt ≤ 8589934) :
    h.incrWrite v = h.edgeFix.set TIME_INCR_ADJ v.toNat := by
  refine if_neg ?_
  rw [toSigned_word]
  unfold incrMax
  omega

theorem Hub.incrWrite_outside {h : Hub} {v : Word} (out : v.toInt < -8589934 ∨ 8589934 < v.toInt) : h.incrWrite v = h.on TIME_STAT_ADJ_RANGE := by
  refine if_pos ?_
  rw [toSigned_word]
  exact out

/-! ## Slews (R37) -/

/-- The magnitude in TIME_ADJ, its parts written out. -/
def Hub.adjMag (h : Hub) : Int :=
  (h.get TIME_ADJ_SEC_LO + 2 ^ 32 * h.get TIME_ADJ_SEC_HI) * (10 ^ 9 * 2 ^ 32) + h.get TIME_ADJ_NS * 2 ^ 32 + h.get TIME_ADJ_FRAC

theorem Hub.adjOffset_eq (h : Hub) : h.adjOffset = if h.get TIME_ADJ_SIGN = 1 then -h.adjMag else h.adjMag := by
  simp only [Hub.adjOffset, Hub.adjMag, Hub.bit_iff, mkTime, secU, nsU]
  push_cast
  norm_num

/-- The offset and its check do not look at MODE. -/
theorem Hub.adjOffset_set (h : Hub) (v : Nat) : (h.set TIME_CTL_ADJ_MODE v).adjOffset = h.adjOffset := by
  simp (disch := decide) only [Hub.adjOffset_eq, Hub.adjMag, Hub.get_set_ne]

theorem Hub.adjBad_set (h : Hub) (v : Nat) : (h.set TIME_CTL_ADJ_MODE v).adjBad = h.adjBad := by
  unfold Hub.adjBad
  rw [Hub.get_set_ne _ _ _ _ (by decide)]

/-- A slew within the limit is added to what is outstanding. -/
theorem Hub.addSlew_inside {h : Hub} {d : Int} (lo : -(2 ^ 63) < h.time.slew + d) (hi : h.time.slew + d < 2 ^ 63) :
    h.addSlew d = (h.putSlew (h.time.slew + d), true) := by
  refine if_neg ?_
  unfold slewLimit
  omega

theorem Hub.addSlew_outside {h : Hub} {d : Int} (out : h.time.slew + d ≤ -(2 ^ 63) ∨ 2 ^ 63 ≤ h.time.slew + d) :
    h.addSlew d = (h.on TIME_STAT_ADJ_RANGE, false) := by
  refine if_pos ?_
  unfold slewLimit
  omega

theorem Hub.adjSlew_inside {h : Hub} (valid : h.get TIME_ADJ_NS ≤ 999999999) (lo : -(2 ^ 63) < h.time.slew + h.adjOffset)
    (hi : h.time.slew + h.adjOffset < 2 ^ 63) : h.adjSlew = (h.on TIME_CTL_ADJ_MODE).putSlew (h.time.slew + h.adjOffset) := by
  have good : ¬(h.on TIME_CTL_ADJ_MODE).adjBad = true := by
    rw [Hub.on, Hub.adjBad_set, Hub.adjBad, decide_eq_true_eq]
    omega
  unfold Hub.adjSlew
  dsimp only
  rw [if_neg good, Hub.on, Hub.adjOffset_set, Hub.addSlew_inside (h := h.set TIME_CTL_ADJ_MODE 1) lo hi]
  rfl

theorem Hub.adjSlew_outside {h : Hub} (out : 999999999 < h.get TIME_ADJ_NS ∨ h.time.slew + h.adjOffset ≤ -(2 ^ 63) ∨ 2 ^ 63 ≤ h.time.slew + h.adjOffset) :
    h.adjSlew = (h.on TIME_CTL_ADJ_MODE).on TIME_STAT_ADJ_RANGE := by
  unfold Hub.adjSlew
  dsimp only
  rw [Hub.on, Hub.adjBad_set, Hub.adjOffset_set, Hub.adjBad]
  split
  · rfl
  next valid =>
    rw [decide_eq_true_eq] at valid
    rw [Hub.addSlew_outside (h := h.set TIME_CTL_ADJ_MODE 1) (out.resolve_left valid)]

/-! ## Holdover (R41) -/

theorem Hub.holdoverForce_true (h : Hub) : h.holdoverForce true =
    if h.get TIME_STAT_QUALITY = 1 ∨ h.get TIME_STAT_QUALITY = 2 then
      ((h.set TIME_CTL_HOLDOVER_FORCE 1).setTime { h.time with lockRun := 0 }).setQuality qHoldover
    else (h.set TIME_CTL_HOLDOVER_FORCE 1).setTime { h.time with lockRun := 0 } := by
  have quality (t : TimeSt) : ((h.set TIME_CTL_HOLDOVER_FORCE 1).setTime t).quality = h.get TIME_STAT_QUALITY :=
    (Hub.get_setTime _ _ _).trans (Hub.get_set_ne _ _ _ _ (by decide))
  simp only [Hub.holdoverForce, b2n, if_true, true_and, quality]
  rfl

/-- HOLDOVER_FORCE is stored and moves FREE and LOCKED to HOLDOVER. -/
theorem Hub.holdoverForce_outcome (h : Hub) (v : Bool) : (h.holdoverForce v).get TIME_CTL_HOLDOVER_FORCE = v.toNat
    ∧ (h.holdoverForce v).get TIME_STAT_QUALITY
        = (if v = true ∧ (h.get TIME_STAT_QUALITY = 1 ∨ h.get TIME_STAT_QUALITY = 2) then 4 else h.get TIME_STAT_QUALITY)
    ∧ OnlyRegs [TIME_CTL_HOLDOVER_FORCE, TIME_STAT_QUALITY] h (h.holdoverForce v) := by
  have kept (b : Nat) (f : Field) (k : f.key ≠ TIME_CTL_HOLDOVER_FORCE.key) : (h.set TIME_CTL_HOLDOVER_FORCE b).get f = h.get f :=
    Hub.get_set_ne _ _ _ _ k
  cases v with
  | false => exact ⟨Hub.get_set_same _ _ _, (kept 0 _ (by decide)).trans (by simp), onlyRegs_set _ (by decide) (onlyRegs_refl _ h)⟩
  | true =>
    rw [Hub.holdoverForce_true]
    split
    case isTrue moves =>
      refine ⟨?_, ?_, fun f k => ?_⟩
      · rw [Hub.setQuality_get_ne _ _ _ (by decide)]
        exact (Hub.get_setTime _ _ _).trans (Hub.get_set_same _ _ _)
      · rw [if_pos ⟨rfl, moves⟩, Hub.setQuality_get _ _ (by decide)]
        rfl
      · simp only [List.map_cons, List.map_nil, List.mem_cons, List.not_mem_nil, or_false, not_or] at k
        rw [Hub.setQuality_get_ne _ _ _ k.2]
        exact kept 1 f k.1
    case isFalse stays =>
      refine ⟨(Hub.get_setTime _ _ _).trans (Hub.get_set_same _ _ _), ?_, onlyRegs_of_regs (Hub.setTime_regs _ _) (onlyRegs_set 1 (by decide) (onlyRegs_refl _ h))⟩
      rw [if_neg fun k => stays k.2]
      exact kept 1 _ (by decide)

/-- Settles O14: each command by what the rule of its operation does within its limit and beyond. -/
theorem timeSteering : Obligations.TimeSteering := by
  intro s up
  dsimp only
  refine ⟨fun v lo hi => ?_, fun v out => ?_, fun valid lo hi => ?_, fun out => ?_, ?_, fun slewing => ?_, fun v => ?_⟩
  · refine leads_onHub (exec_incrAdjWrite up v) ?_
    rw [Hub.incrWrite_inside lo hi]
    refine ⟨?_, Hub.edgeFix_now _, Hub.edgeFix_slew _, onlyRegs_set _ (by decide) fun f _ => Hub.edgeFix_get _ f⟩
    exact (Hub.get_set_same _ _ _).trans (Nat.mod_eq_of_lt v.isLt)
  · exact gives_onHub (exec_incrAdjWrite up v) (Hub.incrWrite_outside out)
  · have total : s.hw.hub.time.slew + s.hw.hub.adjOffset = _ := congrArg (s.hw.hub.time.slew + ·) s.hw.hub.adjOffset_eq
    refine leads_onHub (exec_slew up) ?_
    rw [Hub.adjSlew_inside valid (by rw [total]; exact lo) (by rw [total]; exact hi), total]
    refine ⟨Hub.putSlew_slew _ _, Hub.putSlew_now _ _, Hub.putSlew_quality _ _, ?_, fun f k => ?_⟩
    · rw [Hub.putSlew_get_ne _ _ _ (by decide)]
      exact Hub.get_on_same _ _ (by decide)
    · simp only [List.map_cons, List.map_nil, List.mem_cons, List.not_mem_nil, or_false, not_or] at k
      rw [Hub.putSlew_get_ne _ _ _ k.2, Hub.get_on_ne _ _ _ k.1]
  · have total : s.hw.hub.time.slew + s.hw.hub.adjOffset = _ := congrArg (s.hw.hub.time.slew + ·) s.hw.hub.adjOffset_eq
    refine gives_onHub (exec_slew up) (Hub.adjSlew_outside ?_)
    rw [total]
    exact out
  · exact leads_onHub (exec_slewAbort up) ⟨Hub.putSlew_slew _ _, Hub.putSlew_now _ _, Hub.putSlew_only _ _, Hub.putSlew_end _⟩
  · refine leads_onHub (exec_whenUp_up (f := Hub.slewEnd) up rfl) ?_
    rw [Hub.slewEnd, if_neg slewing]
    exact ⟨Hub.putSlew_slew _ _, Hub.putSlew_only _ _⟩
  · exact leads_onHub (exec_holdoverForce up v) (s.hw.hub.holdoverForce_outcome v)

end Sys2Proof.Machine
end

section
/-! SUPPORT. A step of local time and the choice of its source (R38, R39, R41, R44, R45). -/

namespace Sys2Proof.Machine

theorem exec_step {s : State} (up : s.up) : exec .step s = .next (s.onHub Hub.adjStep) :=
  exec_hubWr_up (a := 0x1000) (v := fun _ => 0x08) up (by decide) rfl

theorem exec_srcChange {s : State} (up : s.up) (src : Fin 4) : exec (.srcChange src) s = .next (s.onHub fun h => h.srcChange src) :=
  exec_hubWr_up (a := 0x1000) (v := fun _ => src.val) up (by decide) rfl

/-! ## A step -/

/-- What a step of local time says of time itself, apart from the timers it carries over. -/
def Hub.steered (h : Hub) : Nat × Int × Nat × Nat := (h.time.now, h.time.slew, h.get TIME_STAT_QUALITY, h.get TIME_INCR_ADJ)

theorem Hub.steered_eq {h : Hub} {now : Nat} {slew : Int} {quality incr : Nat} (e : h.steered = (now, slew, quality, incr)) :
    h.time.now = now ∧ h.time.slew = slew ∧ h.get TIME_STAT_QUALITY = quality ∧ h.get TIME_INCR_ADJ = incr := by
  simpa [Hub.steered] using e

/-- A register write apart from QUALITY and the increment leaves time as it was set. -/
theorem Hub.set_steered {f : Field} (h : Hub) (v : Nat) (k : f.key ≠ TIME_STAT_QUALITY.key ∧ f.key ≠ TIME_INCR_ADJ.key) :
    (h.set f v).steered = h.steered := by
  unfold Hub.steered
  rw [Hub.get_set_ne _ _ _ _ k.1.symm, Hub.get_set_ne _ _ _ _ k.2.symm, Hub.set_time]

theorem Hub.on_steered {f : Field} (h : Hub) (k : f.key ≠ TIME_STAT_QUALITY.key ∧ f.key ≠ TIME_INCR_ADJ.key) :
    (h.on f).steered = h.steered := h.set_steered 1 k

theorem Hub.off_steered {f : Field} (h : Hub) (k : f.key ≠ TIME_STAT_QUALITY.key ∧ f.key ≠ TIME_INCR_ADJ.key) :
    (h.off f).steered = h.steered := h.set_steered 0 k

theorem Hub.ownerMissed_steered (h : Hub) (owner : Nat) : (h.ownerMissed owner).steered = h.steered := by
  unfold Hub.ownerMissed
  (repeat' split) <;> simp (disch := decide) only [Hub.set_steered, Hub.on_steered, Hub.off_steered]
  rfl

theorem Hub.schedStep_steered (p n : Nat) (h : Hub) (i : Nat) : (h.schedStep p n i).steered = h.steered := by
  have state : (SCHED_STATE i).key ≠ TIME_STAT_QUALITY.key ∧ (SCHED_STATE i).key ≠ TIME_INCR_ADJ.key := by
    simp only [Field.key, SCHED_STATE, TIME_STAT_QUALITY, TIME_INCR_ADJ]
    omega
  unfold Hub.schedStep
  split
  · rw [Hub.ownerMissed_steered, Hub.on_steered _ (by decide)]
    exact Hub.set_steered _ _ state
  · rfl

theorem Hub.pulseOn_steered (h : Hub) (i t : Nat) : (h.pulseOn i t).steered = h.steered := by
  unfold Hub.pulseOn
  split <;> rfl

theorem Hub.outStep_steered (p n : Nat) (h : Hub) (i : Nat) : (h.outStep p n i).steered = h.steered := by
  have missed : (TOUT_MISSED i).key ≠ TIME_STAT_QUALITY.key ∧ (TOUT_MISSED i).key ≠ TIME_INCR_ADJ.key := by
    simp only [Field.key, TOUT_MISSED, TIME_STAT_QUALITY, TIME_INCR_ADJ]
    omega
  have armed : (TOUT_ARMED i).key ≠ TIME_STAT_QUALITY.key ∧ (TOUT_ARMED i).key ≠ TIME_INCR_ADJ.key := by
    simp only [Field.key, TOUT_ARMED, TIME_STAT_QUALITY, TIME_INCR_ADJ]
    omega
  unfold Hub.outStep
  split
  · split
    · rw [Hub.off_steered _ armed, Hub.on_steered _ missed]
    · split
      · show Hub.steered (if _ then _ else _) = _
        split
        · exact h.pulseOn_steered i n
        · rfl
      · rfl
  · rfl

theorem Hub.capStep_steered (d : Int) (h : Hub) (i : Nat) : (h.capStep d i).steered = h.steered := by
  have stepped : (EVT_STEPPED i).key ≠ TIME_STAT_QUALITY.key ∧ (EVT_STEPPED i).key ≠ TIME_INCR_ADJ.key := by
    simp only [Field.key, EVT_STEPPED, TIME_STAT_QUALITY, TIME_INCR_ADJ]
    omega
  unfold Hub.capStep
  dsimp only
  split
  · exact Hub.on_steered _ stepped
  · rfl

/-- A step sets local time and discards the slew; QUALITY follows HOLDOVER_FORCE and the increment stays. -/
theorem Hub.doStep_steered (h : Hub) (d : Int) : (h.doStep d).steered
    = (timeAdd (timeAdd h.time.now h.tickInc) d, 0, (if h.get TIME_CTL_HOLDOVER_FORCE = 1 then 4 else 1), h.get TIME_INCR_ADJ) := by
  unfold Hub.doStep
  dsimp only
  rw [Hub.each_keeps Hub.steered _ _ _ fun g i _ => g.capStep_steered d i,
    Hub.each_keeps Hub.steered _ _ _ fun g i _ => g.outStep_steered _ _ i,
    Hub.each_keeps Hub.steered _ _ _ fun g i _ => g.schedStep_steered _ _ i]
  have kept (t : TimeSt) (f : Field) : ((h.edgeFix.shiftTimers d).setTime t).get f = h.get f := h.edgeFix_get f
  unfold Hub.steered
  rw [Hub.setQuality_now, Hub.setQuality_slew, Hub.setQuality_get_ne _ _ TIME_INCR_ADJ (by decide), Hub.setQuality_get _ _ (by split <;> decide)]
  simp only [Hub.setTime_time, Hub.forced, Hub.bit_iff, kept, qHoldover, qFree]

/-- A step is refused, and taken, by the grids as the command finds them. -/
theorem Hub.anyGrid_set_mode (h : Hub) (v : Nat) : (h.set TIME_CTL_ADJ_MODE v).anyGrid = h.anyGrid := by
  have kept (g : Nat) : (h.set TIME_CTL_ADJ_MODE v).gridState g = h.gridState g :=
    Hub.get_set_ne _ _ _ _ (by simp only [Field.key, GRID_STATE, TIME_CTL_ADJ_MODE]; omega)
  simp only [Hub.anyGrid, kept]

theorem Hub.anyGrid_iff (h : Hub) : h.anyGrid = true ↔ ∃ g, g < 8 ∧ h.get (GRID_STATE g) ≠ 0 := by
  simp [Hub.anyGrid, Hub.gridState, gIdle]

theorem Hub.adjStep_idle {h : Hub} (valid : h.get TIME_ADJ_NS ≤ 999999999) (idle : ∀ g, g < 8 → h.get (GRID_STATE g) = 0) :
    h.adjStep = (h.off TIME_CTL_ADJ_MODE).doStep h.adjOffset := by
  have good : ¬(h.off TIME_CTL_ADJ_MODE).adjBad = true := by
    rw [Hub.off, Hub.adjBad_set, Hub.adjBad, decide_eq_true_eq]
    omega
  have none : ¬(h.off TIME_CTL_ADJ_MODE).anyGrid = true := by
    rw [Hub.off, Hub.anyGrid_set_mode, Hub.anyGrid_iff]
    rintro ⟨g, lt, busy⟩
    exact busy (idle g lt)
  unfold Hub.adjStep
  dsimp only
  rw [if_neg good, if_neg none, Hub.off, Hub.adjOffset_set]

theorem Hub.adjStep_busy {h : Hub} (valid : h.get TIME_ADJ_NS ≤ 999999999) (busy : ∃ g, g < 8 ∧ h.get (GRID_STATE g) ≠ 0) :
    h.adjStep = (h.off TIME_CTL_ADJ_MODE).on TIME_STAT_STEP_REFUSED := by
  have good : ¬(h.off TIME_CTL_ADJ_MODE).adjBad = true := by
    rw [Hub.off, Hub.adjBad_set, Hub.adjBad, decide_eq_true_eq]
    omega
  have any : (h.off TIME_CTL_ADJ_MODE).anyGrid = true := by
    rw [Hub.off, Hub.anyGrid_set_mode, Hub.anyGrid_iff]
    exact busy
  unfold Hub.adjStep
  dsimp only
  rw [if_neg good, if_pos any]

/-- The increment of a tick does not look at MODE. -/
theorem Hub.tickInc_set_mode (h : Hub) (v : Nat) : (h.set TIME_CTL_ADJ_MODE v).tickInc = h.tickInc := by
  unfold Hub.tickInc Hub.incrAdj Hub.slewTerm
  rw [Hub.get_set_ne _ _ _ _ (by decide), Hub.get_set_ne _ _ _ _ (by decide), Hub.set_time]

/-! ## A change of source -/

theorem Hub.srcChange_taken {h : Hub} {src : Fin 4} (clock : src.val ≠ 3) (other : ¬(h.get TIME_CTL_SRC = src.val ∧ h.get TIME_STAT_SRC_ACTIVE = src.val))
    {v : Int} (sum : h.time.slew + -(h.dom src.val).lastOff * 2 ^ 16 = v) (lo : -(2 ^ 63) < v) (hi : v < 2 ^ 63) :
    ∃ run, h.srcChange src = (((h.putSlew v).setTime { (h.putSlew v).time with lockRun := run, srcLost := false }).set TIME_STAT_SRC_ACTIVE src.val).set
      TIME_CTL_SRC src.val := by
  subst sum
  unfold Hub.srcChange
  rw [if_neg other, if_neg clock, Hub.takeSource, Hub.addSlew_inside lo hi]
  exact ⟨_, rfl⟩

theorem Hub.srcChange_refused {h : Hub} {src : Fin 4} (clock : src.val ≠ 3) (other : ¬(h.get TIME_CTL_SRC = src.val ∧ h.get TIME_STAT_SRC_ACTIVE = src.val))
    {v : Int} (sum : h.time.slew + -(h.dom src.val).lastOff * 2 ^ 16 = v) (out : v ≤ -(2 ^ 63) ∨ 2 ^ 63 ≤ v) :
    h.srcChange src = h.on TIME_STAT_ADJ_RANGE := by
  subst sum
  unfold Hub.srcChange
  rw [if_neg other, if_neg clock, Hub.takeSource, Hub.addSlew_outside out]
  rfl

/-- The selected source, as the registers show it. -/
theorem Hub.srcChange_taken_outcome {h : Hub} {src : Fin 4} {v : Int} (run : Nat) :
    let h' := (((h.putSlew v).setTime { (h.putSlew v).time with lockRun := run, srcLost := false }).set TIME_STAT_SRC_ACTIVE src.val).set TIME_CTL_SRC src.val
    h'.time.now = h.time.now ∧ h'.time.slew = v ∧ h'.get TIME_CTL_SRC = src.val ∧ h'.get TIME_STAT_SRC_ACTIVE = src.val
      ∧ (v ≠ 0 → h'.get TIME_STAT_QUALITY = 3) ∧ OnlyRegs [TIME_CTL_SRC, TIME_STAT_SRC_ACTIVE, TIME_STAT_QUALITY] h h' := by
  dsimp only
  refine ⟨Hub.putSlew_now h v, Hub.putSlew_slew h v, ?_, ?_, fun slewing => ?_, ?_⟩
  · exact (Hub.get_set_same _ _ _).trans (Nat.mod_eq_of_lt src.isLt)
  · rw [Hub.get_set_ne _ _ _ _ (by decide)]
    exact (Hub.get_set_same _ _ _).trans (Nat.mod_eq_of_lt src.isLt)
  · rw [Hub.get_set_ne _ _ _ _ (by decide), Hub.get_set_ne _ _ _ _ (by decide), Hub.get_setTime]
    exact Hub.putSlew_quality h v slewing
  · refine onlyRegs_set _ (by decide) (onlyRegs_set _ (by decide) (onlyRegs_of_regs (Hub.setTime_regs _ _) ?_))
    exact onlyRegs_mono (by decide) (Hub.putSlew_only h v)

/-- Source 3 selected, before QUALITY follows. -/
def Hub.freeRun (h : Hub) : Hub :=
  ((h.set TIME_CTL_SRC 3).set TIME_STAT_SRC_ACTIVE 3).setTime { ((h.set TIME_CTL_SRC 3).set TIME_STAT_SRC_ACTIVE 3).time with lockRun := 0, srcLost := false }

theorem Hub.srcChange_free {h : Hub} (other : ¬(h.get TIME_CTL_SRC = 3 ∧ h.get TIME_STAT_SRC_ACTIVE = 3)) : h.srcChange 3
    = if h.freeRun.quality = qLocked ∨ (h.freeRun.quality = qHoldover ∧ !h.freeRun.forced) then h.freeRun.setQuality qFree else h.freeRun :=
  (if_neg other).trans (if_pos rfl)

theorem Hub.freeRun_regs (h : Hub) : h.freeRun.get TIME_CTL_SRC = 3 ∧ h.freeRun.get TIME_STAT_SRC_ACTIVE = 3 :=
  ⟨(Hub.get_setTime _ _ _).trans ((Hub.get_set_ne _ _ _ _ (by decide)).trans (Hub.get_set_same _ _ _)),
    (Hub.get_setTime _ _ _).trans (Hub.get_set_same _ _ _)⟩

/-- Source 3 free-runs: QUALITY leaves LOCKED. -/
theorem Hub.srcChange_free_outcome {h : Hub} (other : ¬(h.get TIME_CTL_SRC = 3 ∧ h.get TIME_STAT_SRC_ACTIVE = 3)) :
    (h.srcChange 3).time.now = h.time.now ∧ (h.srcChange 3).time.slew = h.time.slew ∧ (h.srcChange 3).get TIME_CTL_SRC = 3
      ∧ (h.srcChange 3).get TIME_STAT_SRC_ACTIVE = 3 ∧ (h.srcChange 3).get TIME_STAT_QUALITY ≠ 2 := by
  obtain ⟨src, active⟩ := h.freeRun_regs
  rw [Hub.srcChange_free other]
  split
  · refine ⟨Hub.setQuality_now _ _, Hub.setQuality_slew _ _, ?_, ?_, ?_⟩
    · rw [Hub.setQuality_get_ne _ _ _ (by decide), src]
    · rw [Hub.setQuality_get_ne _ _ _ (by decide), active]
    · rw [Hub.setQuality_get _ _ (by decide)]
      decide
  next stays => exact ⟨rfl, rfl, src, active, fun locked => stays (Or.inl locked)⟩

/-- Settles O15: a step by what it says of time itself, a change of source by the slew it asks for. -/
theorem timeStepAndSource : Obligations.TimeStepAndSource := by
  intro s up
  dsimp only
  have sum (src : Fin 4) : s.hw.hub.time.slew + -(s.hw.hub.dom src.val).lastOff * 2 ^ 16 = s.hw.hub.time.slew - (s.hw.hub.dom src.val).lastOff * 2 ^ 16 := by
    ring
  refine ⟨fun valid idle => ?_, fun valid busy => ?_, fun src clock other => ⟨fun lo hi => ?_, fun out => ?_⟩, fun other => ?_⟩
  · refine leads_onHub (exec_step up) ?_
    rw [Hub.adjStep_idle valid idle]
    obtain ⟨now, slew, quality, incr⟩ := Hub.steered_eq ((s.hw.hub.off TIME_CTL_ADJ_MODE).doStep_steered s.hw.hub.adjOffset)
    refine ⟨now.trans ?_, slew, quality.trans ?_, incr.trans (Hub.get_off_ne _ _ _ (by decide))⟩
    · rw [Hub.off, Hub.tickInc_set_mode, Hub.adjOffset_eq]
      rfl
    · rw [Hub.get_off_ne _ _ _ (by decide)]
  · exact gives_onHub (exec_step up) (Hub.adjStep_busy valid busy)
  · obtain ⟨run, taken⟩ := Hub.srcChange_taken clock other (sum src) lo hi
    refine leads_onHub (exec_srcChange up src) ?_
    rw [taken]
    exact Hub.srcChange_taken_outcome run
  · exact gives_onHub (exec_srcChange up src) (Hub.srcChange_refused clock other (sum src) out)
  · exact leads_onHub (exec_srcChange up 3) (Hub.srcChange_free_outcome other)

end Sys2Proof.Machine
end

section
/-! SUPPORT. The pre-transforms of compression and their inverses (R233 to R235). -/

namespace Sys2Proof.Machine

/-! ## DELTA -/

/-- The sum of a difference modulo 2^32 and what was subtracted. -/
theorem sub_add_mod {u above : Nat} (hu : u < 2 ^ 32) (ha : above < 2 ^ 32) : ((u + 2 ^ 32 - above) % 2 ^ 32 + above) % 2 ^ 32 = u := by omega

theorem undeltaFrom_deltaFrom (r : Nat) (prev u : List Nat) (hp : ∀ v ∈ prev, v < 2 ^ 32) (hu : ∀ v ∈ u, v < 2 ^ 32) :
    undeltaFrom r prev (deltaFrom r prev u) = u := by
  induction u generalizing prev with
  | nil => rfl
  | cons x t ih =>
    obtain ⟨hx, ht⟩ := List.forall_mem_cons.1 hu
    have hxp : ∀ v ∈ x :: prev, v < 2 ^ 32 := List.forall_mem_cons.2 ⟨hx, hp⟩
    cases above : prev.drop (r - 1) with
    | nil => simp only [deltaFrom, undeltaFrom, above, ih _ hxp ht]
    | cons a rest =>
      have ha : a < 2 ^ 32 := hp a (List.mem_of_mem_drop (above ▸ List.mem_cons_self))
      simp only [deltaFrom, undeltaFrom, above, sub_add_mod hx ha]
      rw [ih _ (fun v m => hxp v (List.mem_of_mem_take m)) ht]

theorem undelta_delta (r : Nat) {u : List Nat} (hu : ∀ v ∈ u, v < 2 ^ 32) : undelta r (delta r u) = u :=
  undeltaFrom_deltaFrom r [] u (by simp) hu

theorem deltaFrom_length (r : Nat) (prev u : List Nat) : (deltaFrom r prev u).length = u.length := by
  induction u generalizing prev with
  | nil => rfl
  | cons x t ih => cases above : prev.drop (r - 1) <;> simp [deltaFrom, above, ih]

theorem deltaFrom_lt (r : Nat) (prev u : List Nat) (hu : ∀ v ∈ u, v < 2 ^ 32) : ∀ v ∈ deltaFrom r prev u, v < 2 ^ 32 := by
  induction u generalizing prev with
  | nil => simp [deltaFrom]
  | cons x t ih =>
    obtain ⟨hx, ht⟩ := List.forall_mem_cons.1 hu
    cases above : prev.drop (r - 1) with
    | nil =>
      simp only [deltaFrom, above]
      exact List.forall_mem_cons.2 ⟨hx, ih _ ht⟩
    | cons a rest =>
      simp only [deltaFrom, above]
      exact List.forall_mem_cons.2 ⟨Nat.mod_lt _ (by decide), ih _ ht⟩

/-- The units kept as the row above, after the units `l`. -/
def rowAbove (r : Nat) (l : List Nat) : List Nat := l.reverse.take r

theorem rowAbove_nil (r : Nat) : rowAbove r [] = [] := List.take_nil

theorem rowAbove_snoc (r : Nat) (l : List Nat) (x : Nat) : rowAbove r (l ++ [x]) = (x :: rowAbove r l).take r := by
  unfold rowAbove
  cases r with
  | zero => rfl
  | succ r => simp [List.take_take]

/-- The oldest unit of the row above is the one `r` units back. -/
theorem rowAbove_oldest {r : Nat} (hr : 1 ≤ r) (l : List Nat) :
    (rowAbove r l).drop (r - 1) = if r ≤ l.length then [l.getD (l.length - r) 0] else [] := by
  unfold rowAbove
  rw [List.drop_take, Nat.sub_sub_self hr]
  split
  case isTrue full =>
    rw [List.drop_eq_getElem_cons (by rw [List.length_reverse]; omega), List.take_succ_cons, List.take_zero, List.getElem_reverse,
      List.getD_eq_getElem _ _ (by omega)]
    congr 2
    omega
  case isFalse short => rw [List.drop_of_length_le (by rw [List.length_reverse]; omega), List.take_nil]

theorem rowAbove_short {r : Nat} {l : List Nat} (x : Nat) (short : ¬r ≤ l.length) : x :: rowAbove r l = rowAbove r (l ++ [x]) := by
  rw [rowAbove_snoc, List.take_of_length_le]
  simp only [rowAbove, List.length_cons, List.length_take, List.length_reverse]
  omega

theorem deltaFrom_getD {r : Nat} (hr : 1 ≤ r) (l t : List Nat) (i : Nat) (row : r ≤ l.length + i) (hi : i < t.length) :
    (deltaFrom r (rowAbove r l) t).getD i 0 = (t.getD i 0 + 2 ^ 32 - (l ++ t).getD (l.length + i - r) 0) % 2 ^ 32 := by
  induction t generalizing l i with
  | nil => simp at hi
  | cons x t ih =>
    have next (i : Nat) (row : r ≤ l.length + (i + 1)) (hi : i < t.length) : (deltaFrom r (rowAbove r (l ++ [x])) t).getD i 0
        = ((x :: t).getD (i + 1) 0 + 2 ^ 32 - (l ++ x :: t).getD (l.length + (i + 1) - r) 0) % 2 ^ 32 := by
      rw [ih (l ++ [x]) i (by simpa [Nat.add_assoc, Nat.add_comm 1] using row) hi]
      simp [Nat.add_assoc, Nat.add_comm 1]
    have oldest := rowAbove_oldest hr l
    split at oldest
    case isTrue full =>
      simp only [deltaFrom, oldest]
      cases i with
      | zero =>
        rw [List.getD_cons_zero, List.getD_cons_zero, Nat.add_zero, List.getD_append _ _ _ _ (by omega)]
      | succ i =>
        rw [List.getD_cons_succ, ← rowAbove_snoc]
        exact next i row (by simpa using hi)
    case isFalse short =>
      simp only [deltaFrom, oldest]
      cases i with
      | zero => exact absurd row short
      | succ i =>
        rw [List.getD_cons_succ, rowAbove_short x short]
        exact next i row (by simpa using hi)

/-! ## Bytes and byte planes -/

theorem bytesOf_length (u : List Nat) : (bytesOf u).length = 4 * u.length := by
  induction u with
  | nil => rfl
  | cons x t ih => rw [bytesOf, List.flatMap_cons, List.length_append, leBytes_length, ← bytesOf, ih, List.length_cons]; omega

theorem bytesOf_drop (u : List Nat) (i : Nat) (hi : i < u.length) : ((bytesOf u).drop (4 * i)).take 4 = leBytes 4 u[i] := by
  induction u generalizing i with
  | nil => simp at hi
  | cons x t ih =>
    rw [bytesOf, List.flatMap_cons, ← bytesOf]
    cases i with
    | zero => exact List.take_left' (leBytes_length 4 x)
    | succ i =>
      have skip : (leBytes 4 x ++ bytesOf t).drop (4 * (i + 1)) = (bytesOf t).drop (4 * i) := by
        rw [show 4 * (i + 1) = (leBytes 4 x).length + 4 * i from by rw [leBytes_length]; omega, List.drop_length_add_append]
      rw [skip]
      exact ih i (by simpa using hi)

theorem wordsOf_bytesOf {u : List Nat} (hu : ∀ v ∈ u, v < 2 ^ 32) : wordsOf u.length (bytesOf u) = u := by
  refine List.ext_getElem (by simp [wordsOf]) fun i _ hi => ?_
  simp only [wordsOf, List.getElem_map, List.getElem_range]
  rw [bytesOf_drop u i hi, ofLe_leBytes]
  exact Nat.mod_eq_of_lt (hu _ (List.getElem_mem hi))

/-- One byte plane of the units. -/
def bytePlane (k : Nat) (u : List Nat) : List (BitVec 8) := u.map fun w => BitVec.ofNat 8 (w / 256 ^ k)

theorem bytePlane_length (k : Nat) (u : List Nat) : (bytePlane k u).length = u.length := List.length_map _

theorem shuffle_eq (u : List Nat) : shuffle u = bytePlane 0 u ++ (bytePlane 1 u ++ (bytePlane 2 u ++ bytePlane 3 u)) := by
  simp [shuffle, bytePlane]

theorem shuffle_length (u : List Nat) : (shuffle u).length = 4 * u.length := by
  simp only [shuffle_eq, List.length_append, bytePlane_length]
  omega

theorem bytePlane_getD (k : Nat) (u : List Nat) (i : Nat) (hi : i < u.length) : (bytePlane k u).getD i 0 = BitVec.ofNat 8 (u[i] / 256 ^ k) := by
  simp [bytePlane, hi]

/-- Where the byte planes stand in a shuffled area. -/
theorem shuffle_getD (k : Nat) (hk : k < 4) (u : List Nat) (i : Nat) (hi : i < u.length) :
    (shuffle u).getD (k * u.length + i) 0 = BitVec.ofNat 8 (u[i] / 256 ^ k) := by
  have skip (a b : List (BitVec 8)) (j : Nat) (e : a.length = u.length) : (a ++ b).getD (u.length + j) 0 = b.getD j 0 := by
    rw [List.getD_append_right _ _ _ _ (by omega), e, Nat.add_sub_cancel_left]
  have take (k : Nat) (b : List (BitVec 8)) : (bytePlane k u ++ b).getD i 0 = BitVec.ofNat 8 (u[i] / 256 ^ k) := by
    rw [List.getD_append _ _ _ _ (by rw [bytePlane_length]; exact hi), bytePlane_getD k u i hi]
  rw [shuffle_eq]
  match k, hk with
  | 0, _ => rw [Nat.zero_mul, Nat.zero_add, take]
  | 1, _ => rw [Nat.one_mul, skip _ _ _ (bytePlane_length 0 u), take]
  | 2, _ =>
    rw [show 2 * u.length + i = u.length + (u.length + i) from by omega, skip _ _ _ (bytePlane_length 0 u), skip _ _ _ (bytePlane_length 1 u), take]
  | 3, _ =>
    rw [show 3 * u.length + i = u.length + (u.length + (u.length + i)) from by omega, skip _ _ _ (bytePlane_length 0 u),
      skip _ _ _ (bytePlane_length 1 u), skip _ _ _ (bytePlane_length 2 u), bytePlane_getD 3 u i hi]

theorem leBytes_four (v : Nat) : [0, 1, 2, 3].map (fun k => BitVec.ofNat 8 (v / 256 ^ k)) = leBytes 4 v := by
  simp [leBytes, Nat.div_div_eq_div_mul]

theorem unshuffle_shuffle {u : List Nat} (hu : ∀ v ∈ u, v < 2 ^ 32) : unshuffle u.length (shuffle u) = u := by
  refine List.ext_getElem (by simp [unshuffle]) fun i _ hi => ?_
  have planes : [0, 1, 2, 3].map (fun k => (shuffle u).getD (k * u.length + i) 0) = leBytes 4 u[i] := by
    rw [← leBytes_four]
    exact List.map_congr_left fun k m => shuffle_getD k (by simp at m; omega) u i hi
  simp only [unshuffle, List.getElem_map, List.getElem_range]
  rw [planes, ofLe_leBytes]
  exact Nat.mod_eq_of_lt (hu _ (List.getElem_mem hi))

theorem transform_length (x r : Nat) (u : List Nat) : (transform x r u).length = 4 * u.length := by
  have units : (if x % 2 = 1 then delta r u else u).length = u.length := by
    split
    · exact deltaFrom_length r [] u
    · rfl
  unfold transform
  dsimp only
  split
  · rw [shuffle_length, units]
  · rw [bytesOf_length, units]

/-- The planes or words of a transformed area are its units, DELTA still on them. -/
theorem untransform_units (x r : Nat) {u : List Nat} (hu : ∀ v ∈ u, v < 2 ^ 32) :
    (if x / 2 % 2 = 1 then unshuffle u.length (transform x r u) else wordsOf u.length (transform x r u)) = if x % 2 = 1 then delta r u else u := by
  have small : ∀ v ∈ (if x % 2 = 1 then delta r u else u), v < 2 ^ 32 := by
    split
    · exact deltaFrom_lt r [] u hu
    · exact hu
  have units : (if x % 2 = 1 then delta r u else u).length = u.length := by
    split
    · exact deltaFrom_length r [] u
    · rfl
  unfold transform
  dsimp only
  split
  · exact (congrArg (fun n => unshuffle n _) units.symm).trans (unshuffle_shuffle small)
  · exact (congrArg (fun n => wordsOf n _) units.symm).trans (wordsOf_bytesOf small)

/-- Settles O36: SHUFFLE is undone plane by plane, DELTA down each column. -/
theorem transformsInvert : Obligations.TransformsInvert := by
  intro x r u hr hu
  refine ⟨?_, transform_length x r u, fun i row hi => ?_⟩
  · unfold untransform
    dsimp only
    rw [transform_length, Nat.mul_div_cancel_left _ (by decide : 0 < 4), untransform_units x r hu]
    split
    · rw [undelta_delta r hu]
    · rfl
  · have e := deltaFrom_getD hr [] u i (by simpa using row) hi
    rw [List.nil_append, List.length_nil, Nat.zero_add, rowAbove_nil] at e
    exact e

end Sys2Proof.Machine
end

section
/-! SUPPORT. The mailbox of a carver (R206, R207). -/

namespace Sys2Proof.Machine

/-- A host write of a hub outside any duplex section acts. -/
theorem exec_hubWr_alone {c : Instr} {s : State} {a : Hub → Nat} {v : Hub → Nat} {f : Hub → Hub} (up : s.alone)
    (e : exec c s = .next (s.onHub fun h => h.hostWr (a h) (v h) f)) : exec c s = .next (s.onHub f) := by
  rw [e]
  exact congrArg (fun h => Host.Outcome.next (s.withHub h)) (Hub.hostWr_alone up _ _ f)

/-! ## Commands -/

section command
variable {h : Hub} {e : Nat} {f : Hub → Task → Hub} {takes : Task → Bool}

theorem Hub.mbCommand_busy (busy : h.get (ENG_MB_BUSY e) = 1) : h.mbCommand e f takes = h.on (ENG_MB_WERR e) :=
  if_pos (Hub.bit_of_one busy)

theorem Hub.mbCommand_free (idle : h.get (ENG_MB_BUSY e) = 0) : h.mbCommand e f takes
    = if h.eState e ≠ eReady ∧ h.eState e ≠ eRunning then h.mbReply e 6 []
      else match (h.eng e).tasks[h.get (MBIN_WORD e 0)]? with
        | none => h.mbReply e 2 []
        | some t => if takes t then f h t else h.mbReply e 2 [] :=
  if_neg (by simp [Hub.bit_of_zero idle])

theorem Hub.mbCommand_stopped (idle : h.get (ENG_MB_BUSY e) = 0) (ready : h.eState e ≠ 1) (running : h.eState e ≠ 2) :
    h.mbCommand e f takes = h.mbReply e 6 [] :=
  (Hub.mbCommand_free idle).trans (if_pos ⟨ready, running⟩)

theorem Hub.mbCommand_task (idle : h.get (ENG_MB_BUSY e) = 0) (live : h.eState e = 1 ∨ h.eState e = 2) {r : Option Task}
    (task : (h.eng e).tasks[h.get (MBIN_WORD e 0)]? = r) :
    h.mbCommand e f takes = r.elim (h.mbReply e 2 []) fun t => if takes t then f h t else h.mbReply e 2 [] := by
  subst task
  refine (Hub.mbCommand_free idle).trans ((if_neg ?_).trans ?_)
  · rintro ⟨ready, running⟩
    exact live.elim ready running
  · cases (h.eng e).tasks[h.get (MBIN_WORD e 0)]? <;> rfl

end command

theorem exec_paramSwap {s : State} (a : s.alone) (e : Fin 16) : exec (.paramSwap e) s = .next (s.onHub fun h => h.paramSwap e) :=
  exec_hubWr_alone a rfl

theorem exec_taskQuery {s : State} (a : s.alone) (e : Fin 16) : exec (.taskQuery e) s = .next (s.onHub fun h => h.taskQuery e) :=
  exec_hubWr_alone a rfl

theorem exec_detectReset {s : State} (a : s.alone) (e : Fin 16) : exec (.detectReset e) s = .next (s.onHub fun h => h.detectReset e) :=
  exec_hubWr_alone a rfl

theorem exec_detectSet {s : State} (a : s.alone) (e : Fin 16) : exec (.detectSet e) s = .next (s.onHub fun h => h.detectSet e) :=
  exec_hubWr_alone a rfl

/-- The four commands are answered alike wherever the mailbox itself decides. -/
theorem gives_mailbox {s : State} (a : s.alone) (e : Fin 16) {g : Hub}
    (same : ∀ (f : Hub → Task → Hub) (takes : Task → Bool), s.hw.hub.mbCommand e f takes = g) :
    ∀ i ∈ [Instr.paramSwap e, .taskQuery e, .detectReset e, .detectSet e], Gives i s g := by
  intro i m
  simp only [List.mem_cons, List.not_mem_nil, or_false] at m
  obtain rfl | rfl | rfl | rfl := m
  · exact gives_onHub (exec_paramSwap a e) (same _ _)
  · exact gives_onHub (exec_taskQuery a e) (same _ _)
  · exact gives_onHub (exec_detectReset a e) (same _ _)
  · exact gives_onHub (exec_detectSet a e) (same _ _)

/-! ## Thresholds of DETECT_SET -/

theorem fMag_nonneg (b : Nat) : 0 ≤ fMag b := by
  unfold fMag
  split
  · positivity
  · split <;> positivity

/-- The sign bit and the value of a threshold say the same: -0 is no negative value. -/
theorem fVal_nonneg_iff (b : Nat) : 0 ≤ fVal b ↔ fNeg b = false ∨ fVal b = 0 := by
  have mag := fMag_nonneg b
  unfold fVal
  cases fNeg b with
  | false => simp [mag]
  | true =>
    simp only [if_true, Bool.true_eq_false, false_or, neg_nonneg, neg_eq_zero]
    exact ⟨fun le => le_antisymm le mag, fun zero => zero.le⟩

/-- What DETECT_SET asks of one threshold. -/
def thresholdOk (v : Nat) : Bool := fFinite v && (!fNeg v || decide (fVal v = 0))

theorem thresholdOk_iff (v : Nat) : thresholdOk v = true ↔ fFinite v = true ∧ 0 ≤ fVal v := by
  rw [fVal_nonneg_iff]
  simp [thresholdOk]

theorem fLe_iff {a b : Nat} (ha : fFinite a = true) (hb : fFinite b = true) : fLe a b = true ↔ fVal a ≤ fVal b := by
  have finite {v : Nat} (f : fFinite v = true) : fIsNaN v = false ∧ fIsInf v = false := by
    simp only [fFinite, bne_iff_ne, ne_eq] at f
    simp [fIsNaN, fIsInf, f]
  obtain ⟨na, ia⟩ := finite ha
  obtain ⟨nb, ib⟩ := finite hb
  simp [fLe, fLt, na, nb, ia, ib]

/-- The thresholds DETECT_SET takes. -/
def thresholdsOk (a b c : Nat) : Bool := thresholdOk a && thresholdOk b && thresholdOk c && fLe c b

theorem thresholdsOk_true {a b c : Nat} (fa : fFinite a = true) (fb : fFinite b = true) (fc : fFinite c = true) (pa : 0 ≤ fVal a) (pb : 0 ≤ fVal b)
    (pc : 0 ≤ fVal c) (le : fVal c ≤ fVal b) : thresholdsOk a b c = true := by
  simp [thresholdsOk, (thresholdOk_iff a).2 ⟨fa, pa⟩, (thresholdOk_iff b).2 ⟨fb, pb⟩, (thresholdOk_iff c).2 ⟨fc, pc⟩, (fLe_iff fc fb).2 le]

theorem thresholdsOk_false {a b c : Nat} (bad : fFinite a = false ∨ fFinite b = false ∨ fFinite c = false ∨ fVal a < 0 ∨ fVal b < 0 ∨ fVal c < 0
    ∨ fVal b < fVal c) : thresholdsOk a b c = false := by
  by_contra good
  simp only [thresholdsOk, Bool.not_eq_false, Bool.and_eq_true, thresholdOk_iff] at good
  obtain ⟨⟨⟨⟨fa, pa⟩, fb, pb⟩, fc, pc⟩, le⟩ := good
  rw [fLe_iff fc fb] at le
  rcases bad with f | f | f | f | f | f | f
  · simp [fa] at f
  · simp [fb] at f
  · simp [fc] at f
  · exact absurd pa (not_le.2 f)
  · exact absurd pb (not_le.2 f)
  · exact absurd pc (not_le.2 f)
  · exact absurd le (not_le.2 f)

theorem Hub.detectSet_eq (h : Hub) (e : Nat) : h.detectSet e = h.mbCommand e (fun h _ =>
    if thresholdsOk (h.get (MBIN_WORD e 1)) (h.get (MBIN_WORD e 2)) (h.get (MBIN_WORD e 3)) then
      (h.modTask e (h.get (MBIN_WORD e 0)) fun t =>
        { t with staged := some (h.get (MBIN_WORD e 1), h.get (MBIN_WORD e 2), h.get (MBIN_WORD e 3)), stagedAt := 0 }).mbReply e 0
          [(h.eng e).upcoming % 2 ^ 32, (h.eng e).upcoming / 2 ^ 32]
    else h.mbReply e 3 []) fun t => t.op == 4 := rfl

/-! ## The reply -/

/-- Words 1 to n of the outgoing mailbox change no other register. -/
theorem Hub.mbOut_each_get_ne (h : Hub) (e n : Nat) (v : Nat → Nat) {f : Field} (k : ∀ i < n, f.key ≠ (MBOUT_WORD e (i + 1)).key) :
    (h.each (List.range n) fun h i => h.set (MBOUT_WORD e (i + 1)) (v i)).get f = h.get f :=
  Hub.each_keeps (fun h => h.get f) _ _ _ fun _ i m => Hub.get_set_ne _ _ _ _ (k i (List.mem_range.1 m))

theorem Hub.mbReply_get_ne {h : Hub} {e st : Nat} {rest : List Nat} {f : Field} (busy : f.key ≠ (ENG_MB_BUSY e).key) (done : f.key ≠ (ENG_MB_DONE e).key)
    (pend : f.key ≠ DEV_PEND_ENG.key) (word : ∀ i < rest.length, f.key ≠ (MBOUT_WORD e (i + 1)).key) :
    (h.mbReply e st rest).get f = (h.set (MBOUT_WORD e 0) st).get f := by
  unfold Hub.mbReply
  dsimp only
  rw [Hub.irqEng, Hub.setBit_get_ne _ _ _ _ pend, Hub.get_on_ne _ _ _ done, Hub.get_off_ne _ _ _ busy]
  exact Hub.mbOut_each_get_ne _ e _ _ word

theorem mboutWord_key_ne (e : Nat) {i j : Nat} (ne : i ≠ j) : (MBOUT_WORD e i).key ≠ (MBOUT_WORD e j).key := by
  simp only [MBOUT_WORD, Field.key]
  omega

/-- The fields of a reply stand apart from one another. -/
theorem mailbox_keys (e : Nat) (i : Nat) : (MBOUT_WORD e i).key ≠ (ENG_MB_BUSY e).key ∧ (MBOUT_WORD e i).key ≠ (ENG_MB_DONE e).key
    ∧ (MBOUT_WORD e i).key ≠ DEV_PEND_ENG.key ∧ (ENG_MB_BUSY e).key ≠ (ENG_MB_DONE e).key ∧ (ENG_MB_BUSY e).key ≠ DEV_PEND_ENG.key
    ∧ (ENG_MB_DONE e).key ≠ DEV_PEND_ENG.key := by
  simp only [MBOUT_WORD, ENG_MB_BUSY, ENG_MB_DONE, DEV_PEND_ENG, Field.key]
  omega

theorem Hub.mbReply_outcome (h : Hub) (e : Nat) {st : Nat} {rest : List Nat} (hs : st < 8) (hl : rest.length ≤ 6) :
    (h.mbReply e st rest).get (MBOUT_WORD e 0) = st ∧ (h.mbReply e st rest).get (ENG_MB_BUSY e) = 0 ∧ (h.mbReply e st rest).get (ENG_MB_DONE e) = 1
      ∧ OnlyRegs ([ENG_MB_BUSY e, ENG_MB_DONE e, DEV_PEND_ENG] ++ (List.range 7).map (MBOUT_WORD e)) h (h.mbReply e st rest) := by
  obtain ⟨wordBusy, wordDone, wordPend, busyDone, busyPend, donePend⟩ := mailbox_keys e 0
  refine ⟨?_, ?_, ?_, fun f k => ?_⟩
  · rw [Hub.mbReply_get_ne wordBusy wordDone wordPend fun i _ => mboutWord_key_ne e (Nat.succ_ne_zero i).symm]
    exact (Hub.get_set_same _ _ _).trans (Nat.mod_eq_of_lt (by simp only [MBOUT_WORD]; omega))
  · unfold Hub.mbReply
    dsimp only
    rw [Hub.irqEng, Hub.setBit_get_ne _ _ _ _ busyPend, Hub.get_on_ne _ _ _ busyDone, Hub.get_off_same]
  · unfold Hub.mbReply
    dsimp only
    rw [Hub.irqEng, Hub.setBit_get_ne _ _ _ _ donePend]
    exact Hub.get_on_same _ _ (by simp [ENG_MB_DONE])
  · simp only [List.map_append, List.map_cons, List.map_nil, List.map_map, List.mem_append, List.mem_cons, List.not_mem_nil, or_false, List.mem_map,
      List.mem_range, Function.comp, not_or, not_exists, not_and] at k
    obtain ⟨⟨busy, done, pend⟩, words⟩ := k
    rw [Hub.mbReply_get_ne busy done pend fun i hi => fun e => words (i + 1) (by omega) e.symm]
    exact Hub.get_set_ne _ _ _ _ fun e => words 0 (by decide) e.symm

/-- Settles O28: the mailbox decides by BUSY, the carver's state and the task named; the operation then answers. -/
theorem mailbox : Obligations.Mailbox := by
  refine ⟨fun s e a => ⟨fun busy => ?_, fun idle => ⟨fun ready running => ?_, fun live => ⟨fun none => ?_, fun t task => ?_⟩⟩⟩,
    fun h e st rest hs hl => h.mbReply_outcome e hs hl⟩
  · exact gives_mailbox a e fun f takes => Hub.mbCommand_busy busy
  · exact gives_mailbox a e fun f takes => Hub.mbCommand_stopped idle ready running
  · exact gives_mailbox a e fun f takes => Hub.mbCommand_task idle live none
  · have run (f : Hub → Task → Hub) (takes : Task → Bool) :
        s.hw.hub.mbCommand e f takes = if takes t then f s.hw.hub t else s.hw.hub.mbReply e 2 [] := Hub.mbCommand_task idle live task
    refine ⟨fun relief => ?_, fun other => ?_, ?_, fun other => ⟨?_, ?_⟩, fun detect => ⟨?_, fun bad => ?_, fun fa fb fc pa pb pc le => ?_⟩⟩
    · exact gives_onHub (exec_paramSwap a e) ((run _ _).trans (if_pos (by simp [relief])))
    · exact gives_onHub (exec_paramSwap a e) ((run _ _).trans (if_neg (by simp [other])))
    · exact gives_onHub (exec_taskQuery a e) ((run _ _).trans (if_pos rfl))
    · exact gives_onHub (exec_detectReset a e) ((run _ _).trans (if_neg (by simp [other])))
    · exact gives_onHub (exec_detectSet a e) ((run _ _).trans (if_neg (by simp [other])))
    · exact gives_onHub (exec_detectReset a e) ((run _ _).trans (if_pos (by simp [detect])))
    · refine gives_onHub (exec_detectSet a e) ?_
      rw [Hub.detectSet_eq, run, if_pos (by simp [detect]), thresholdsOk_false bad]
      rfl
    · refine gives_onHub (exec_detectSet a e) ?_
      rw [Hub.detectSet_eq, run, if_pos (by simp [detect]), thresholdsOk_true fa fb fc pa pb pc le]
      rfl

end Sys2Proof.Machine
end

section
/-! SUPPORT. The window of a carver (R205), the locks (R209, R211) and a waiting PARAM_SWAP (R208). -/

namespace Sys2Proof.Machine

/-! ## The window -/

theorem exec_winWrite {s : State} (a : s.alone) (p : Fin 2) (e : Fin 16) (v : Word) :
    exec (.winDataAccess p e (some v)) s = .next (s.onHub fun h => h.winWrite e v.toNat) :=
  exec_hubWr_alone a rfl

theorem exec_winRead {s : State} (a : s.alone) (p : Fin 2) (e : Fin 16) :
    exec (.winDataAccess p e none) s = .next (s.onHub fun h => h.winRead p e) :=
  congrArg (fun h => Host.Outcome.next (s.withHub h)) (if_pos (Hub.served_of_inService a.1 _))

section window
variable {h : Hub} {e : Nat}

/-- The address of the window's next access, rounded down to a word. -/
def Hub.winAt (h : Hub) (e : Nat) : Nat := h.get (ENG_WIN_ADDR e) / 4 * 4

/-- A write outside a shadow bank is ignored. -/
theorem Hub.winWrite_outside (v : Nat) (out : h.bankAt e (h.winAt e) = none ∨ ∃ k, h.bankAt e (h.winAt e) = some (k, false)) :
    h.winWrite e v = (h.on (ENG_WERR e)).winNext e := by
  unfold Hub.winAt at out
  unfold Hub.winWrite
  dsimp only
  obtain none | ⟨k, active⟩ := out
  · rw [none]
  · rw [active]

/-- A write into a shadow bank acts while the host owns its lock. -/
theorem Hub.winWrite_shadow (v : Nat) {k l : Nat} {t : Task} (bank : h.bankAt e (h.winAt e) = some (k, true)) (task : (h.eng e).tasks[k]? = some t)
    (lock : t.lock = some l) : h.winWrite e v
      = if h.bit (LOCK_STAT_HELD l) ∧ h.get (LOCK_STAT_OWNER l) = ownHost then
          (h.setEng e { h.eng e with sram := aInsert (h.eng e).sram (h.winAt e) v }).winNext e
        else (h.on (ENG_WERR e)).winNext e := by
  unfold Hub.winAt at bank ⊢
  unfold Hub.winWrite
  dsimp only
  rw [bank]
  dsimp only
  rw [task, Option.bind_some, lock]

theorem Hub.winRead_code {p : Nat} (code : h.winAt e < 65536) : h.winRead p e = (h.setRd p 0).winNext e := if_pos code

theorem Hub.winRead_data {p : Nat} (data : 65536 ≤ h.winAt e) {r : Option (Nat × Bool)} (bank : h.bankAt e (h.winAt e) = r) :
    h.winRead p e = (h.setRd p (r.elim ((h.eng e).kept e (h.winAt e)) fun _ => aGet (h.eng e).sram (h.winAt e) 0)).winNext e := by
  subst bank
  refine (if_neg (by exact Nat.not_lt.2 data)).trans ?_
  unfold Hub.winAt
  cases h.bankAt e (h.get (ENG_WIN_ADDR e) / 4 * 4) <;> rfl

/-- An ignored write moves the window on. -/
theorem Hub.winNext_werr : (h.on (ENG_WERR e)).winNext e = (h.on (ENG_WERR e)).set (ENG_WIN_ADDR e) (h.winAt e + 4) := by
  have apart : (ENG_WIN_ADDR e).key ≠ (ENG_WERR e).key := by
    simp only [ENG_WIN_ADDR, ENG_WERR, Field.key]
    omega
  unfold Hub.winNext
  rw [Hub.get_on_ne _ _ _ apart]
  rfl

end window

/-- Settles O30: each access by the bank its address lies in. -/
theorem carverWindow : Obligations.CarverWindow := by
  intro s p e a
  dsimp only
  refine ⟨fun v k t l bank task lock _ => ⟨fun held owner => ?_, fun other => ?_⟩, fun v out => ?_, fun code => ?_, fun data k bank => ?_,
    fun data none => ?_⟩
  · refine gives_onHub (exec_winWrite a p e v) ((Hub.winWrite_shadow _ bank task lock).trans ?_)
    exact if_pos ⟨Hub.bit_of_one held, owner⟩
  · refine gives_onHub (exec_winWrite a p e v) ((Hub.winWrite_shadow _ bank task lock).trans ((if_neg ?_).trans Hub.winNext_werr))
    rintro ⟨held, owner⟩
    rw [Hub.bit_iff] at held
    exact other.elim (fun free => by omega) fun ne => ne owner
  · exact gives_onHub (exec_winWrite a p e v) ((Hub.winWrite_outside _ out).trans Hub.winNext_werr)
  · exact gives_onHub (exec_winRead a p e) (Hub.winRead_code code)
  · exact gives_onHub (exec_winRead a p e) (Hub.winRead_data data bank)
  · exact gives_onHub (exec_winRead a p e) (Hub.winRead_data data none)

/-! ## The locks -/

theorem exec_lockTry {s : State} (a : s.alone) (p : Fin 2) (l : Fin 64) : exec (.lockTry p l) s = .next (s.onHub fun h => h.hostTry p l) :=
  congrArg (fun h => Host.Outcome.next (s.withHub h)) (if_pos (Hub.served_of_inService a.1 _))

theorem exec_lockRelease {s : State} (a : s.alone) (l : Fin 64) : exec (.lockRelease l) s = .next (s.onHub fun h => h.hostRelease l) :=
  exec_hubWr_alone a rfl

theorem exec_lockBreak {s : State} (a : s.alone) (l : Fin 64) : exec (.lockBreak l) s = .next (s.onHub fun h => h.hostBreak l) :=
  exec_hubWr_alone a rfl

section lock
variable {h : Hub} {l : Nat}

theorem Hub.lockTry_free (owner : Nat) (free : h.get (LOCK_STAT_HELD l) = 0) : h.lockTry l owner
    = (if h.get (LOCK_STAT_BROKEN l) = 1 then 1 else 0, ((h.on (LOCK_STAT_HELD l)).set (LOCK_STAT_OWNER l) owner).off (LOCK_STAT_BROKEN l)) := by
  rw [Hub.lockTry, if_neg (by simp [Hub.bit_of_zero free])]
  simp only [Hub.bit_iff]
  rfl

theorem Hub.lockTry_held (owner : Nat) (held : h.get (LOCK_STAT_HELD l) = 1) : h.lockTry l owner
    = (if h.get (LOCK_STAT_OWNER l) = owner then 3 else 2, h) :=
  if_pos (Hub.bit_of_one held)

/-- A lock taken shows its owner. -/
theorem Hub.lockTaken_owner (owner : Nat) (lt : owner < 64) :
    (((h.on (LOCK_STAT_HELD l)).set (LOCK_STAT_OWNER l) owner).off (LOCK_STAT_BROKEN l)).get (LOCK_STAT_OWNER l) = owner := by
  rw [Hub.get_off_ne _ _ _ (by simp only [LOCK_STAT_OWNER, LOCK_STAT_BROKEN, Field.key]; omega)]
  exact (Hub.get_set_same _ _ _).trans (Nat.mod_eq_of_lt lt)

end lock

/-- The host's use of a lock. -/
theorem hostLocks {s : State} (p : Fin 2) (l : Fin 64) (a : s.alone) :
    let h := s.hw.hub
    let o := h.get (LOCK_STAT_OWNER l)
    (h.get (LOCK_STAT_HELD l) = 0 → Gives (.lockTry p l) s
        ((((h.on (LOCK_STAT_HELD l)).set (LOCK_STAT_OWNER l) 17).off (LOCK_STAT_BROKEN l)).setRd p
          ((if h.get (LOCK_STAT_BROKEN l) = 1 then 1 else 0) + 256 * 17)))
    ∧ (h.get (LOCK_STAT_HELD l) = 1 → Gives (.lockTry p l) s (h.setRd p ((if o = 17 then 3 else 2) + 256 * o)))
    ∧ (h.get (LOCK_STAT_HELD l) = 1 → o = 17 → Gives (.lockRelease l) s ((h.off (LOCK_STAT_HELD l)).set (LOCK_STAT_LAST_OWNER l) 17))
    ∧ (h.get (LOCK_STAT_HELD l) = 0 ∨ o ≠ 17 → Gives (.lockRelease l) s (h.on (LOCK_STAT_WERR l)))
    ∧ (h.get (LOCK_STAT_HELD l) = 1 → o = 17 ∨ (o < 16 ∧ (h.eState o = 3 ∨ h.eState o = 5)) → Gives (.lockBreak l) s
        ((((h.off (LOCK_STAT_HELD l)).on (LOCK_STAT_BROKEN l)).set (LOCK_STAT_LAST_OWNER l) o).log .lockBroken l o 0))
    ∧ (h.get (LOCK_STAT_HELD l) = 0 → Gives (.lockBreak l) s (h.on (LOCK_STAT_WERR l)))
    ∧ (o ≠ 17 → (16 ≤ o ∨ (h.eState o ≠ 3 ∧ h.eState o ≠ 5)) → Gives (.lockBreak l) s (h.on (LOCK_STAT_WERR l))) := by
  have free {f : Field} (z : s.hw.hub.get f = 0) : ¬s.hw.hub.bit f = true := by simp [Hub.bit_of_zero z]
  dsimp only
  refine ⟨fun z => ?_, fun held => ?_, fun held own => ?_, fun other => ?_, fun held may => ?_, fun z => ?_, fun ne no => ?_⟩
  · refine gives_onHub (exec_lockTry a p l) ?_
    unfold Hub.hostTry
    rw [Hub.lockTry_free _ z]
    dsimp only
    rw [Hub.lockTaken_owner _ (by decide)]
    rfl
  · refine gives_onHub (exec_lockTry a p l) ?_
    unfold Hub.hostTry
    rw [Hub.lockTry_held _ held]
    rfl
  · refine gives_onHub (exec_lockRelease a l) ((if_pos ⟨Hub.bit_of_one held, own⟩).trans ?_)
    exact if_pos ⟨Hub.bit_of_one held, own⟩
  · refine gives_onHub (exec_lockRelease a l) (if_neg ?_)
    rintro ⟨held, own⟩
    exact other.elim (fun z => free z held) fun ne => ne own
  · refine gives_onHub (exec_lockBreak a l) ((if_pos ⟨Hub.bit_of_one held, may⟩).trans ?_)
    exact if_pos (Hub.bit_of_one held)
  · exact gives_onHub (exec_lockBreak a l) (if_neg fun k => free z k.1)
  · refine gives_onHub (exec_lockBreak a l) (if_neg ?_)
    rintro ⟨-, own | ⟨lt, stopped⟩⟩
    · exact ne own
    · exact no.elim (fun ge => absurd lt (Nat.not_lt.2 ge)) fun k => stopped.elim k.1 k.2

/-! ## A waiting PARAM_SWAP -/

section swap
variable {h : Hub} {e l idx : Nat} {w : Swap} {t : Task}

/-- The swap no longer waits. -/
def Hub.swapDone (h : Hub) (e : Nat) : Hub := h.setEng e { h.eng e with swap := none }

theorem Hub.swapAttempt_early (wait : (h.eng e).swap = some w) (early : idx < w.index) : h.swapAttempt e idx = h := by
  unfold Hub.swapAttempt
  dsimp only
  rw [wait]
  exact if_pos early

/-- An attempt at its index, by what TRY on the lock answers. -/
theorem Hub.swapAttempt_due (wait : (h.eng e).swap = some w) (task : (h.eng e).tasks[w.task]? = some t) (lock : t.lock = some l)
    (due : w.index ≤ idx) {r : Nat} {g : Hub} (tried : h.lockTry l e = (r, g)) : h.swapAttempt e idx
      = if r = 2 then
          if w.tries + 1 = 64 then (h.swapDone e).mbReply e 5 [] else h.setEng e { h.eng e with swap := some { w with tries := w.tries + 1 } }
        else if r = 1 then ((g.lockRelease l e).swapDone e).mbReply e 4 []
        else if crc32c (h.shadow e w.task (h.eng e) t) = w.crc then
          (((g.lockRelease l e).set (TASK_BANK e w.task) (1 - h.get (TASK_BANK e w.task))).swapDone e).mbReply e (if idx = w.index then 0 else 1)
            [idx % 2 ^ 32, idx / 2 ^ 32]
        else ((g.lockRelease l e).swapDone e).mbReply e 3 [] := by
  unfold Hub.swapAttempt
  dsimp only
  rw [wait]
  refine (if_neg (Nat.not_lt.2 due)).trans ?_
  rw [task]
  dsimp only
  rw [lock]
  dsimp only
  simp only [tried]
  rfl

end swap

/-- Settles O29: the host's use of the locks, and a waiting PARAM_SWAP by what TRY on its lock answers. -/
theorem locksAndSwaps : Obligations.LocksAndSwaps := by
  refine ⟨fun s p l a => hostLocks p l a, fun h e idx l w t wait task lock _ => ?_⟩
  dsimp only
  refine ⟨Hub.swapAttempt_early wait, fun due => ⟨fun held other => ?_, fun free => ⟨fun broken => ?_, fun sound => ⟨fun differs => ?_, fun same => ?_⟩⟩⟩⟩
  · have attempt := Hub.swapAttempt_due wait task lock due ((Hub.lockTry_held e held).trans (by rw [if_neg other]))
    rw [if_pos rfl] at attempt
    exact ⟨fun last => attempt.trans (if_pos (by omega)), fun more => attempt.trans (if_neg (by omega))⟩
  · exact Hub.swapAttempt_due wait task lock due ((Hub.lockTry_free e free).trans (by rw [if_pos broken]))
  · exact (Hub.swapAttempt_due wait task lock due ((Hub.lockTry_free e free).trans (by rw [if_neg (by omega)]))).trans (if_neg differs)
  · exact (Hub.swapAttempt_due wait task lock due ((Hub.lockTry_free e free).trans (by rw [if_neg (by omega)]))).trans (if_pos same)

end Sys2Proof.Machine
end

section
/-! SUPPORT. Posted writes, reads and cut transactions over SPI (R437 to R440). -/

namespace Sys2Proof.Machine

theorem Hub.spiUp_iff (h : Hub) : h.spiUp = true ↔ h.pwr.phase ≠ .held ∧ h.pwr.phase ≠ .released ∧ h.pwr.phase ≠ .dead := by
  unfold Hub.spiUp
  cases h.pwr.phase <;> simp

/-! ## Posting -/

theorem Hub.post_down {h : Hub} (p : Posted) (down : h.spiUp = false) : h.post p = h := if_pos (by simp [down])

theorem Hub.post_room {h : Hub} (p : Posted) (up : h.spiUp = true) (room : h.spi.posted.length < 32) :
    h.post p = h.setSpi { h.spi with posted := h.spi.posted ++ [p] } := by
  refine (if_neg (by simp [up])).trans (if_neg ?_)
  exact Nat.not_le.2 room

theorem Hub.post_full {h : Hub} (p : Posted) (up : h.spiUp = true) (full : 32 ≤ h.spi.posted.length) : h.post p = h.on DEV_SPI_WDROP :=
  (if_neg (by simp [up])).trans (if_pos full)

theorem exec_write32 (a v : Word) (s : State) : exec (.write32 a v) s = .next (s.onHub fun h => h.post { addr := a.toNat, value := v.toNat }) := rfl

theorem exec_write64 (a v u : Word) (s : State) :
    exec (.write64 a v u) s = .next (s.onHub fun h => h.post { addr := a.toNat, value := v.toNat, second := some u.toNat }) := rfl

/-! ## Cut transactions -/

theorem exec_csRise (c : SpiCut) (s : State) : exec (.spiCsRise c) s = .next (s.onHw fun w => w.csRise c) := rfl

theorem Hw.csRise_down {w : Hw} (c : SpiCut) (down : w.hub.spiUp = false) : w.csRise c = w := if_pos (by simp [down])

section cut
variable {w : Hw}

theorem Hw.csRise_read {a : Word} (two : Bool) (up : w.hub.spiUp = true) :
    w.csRise (.read a two) = (if two then w.spiRead64 a.toNat else w.spiRead32 a.toNat).onHub fun h => h.on DEV_SPI_SHORT := if_neg (by simp [up])

theorem Hw.csRise_command (c : BitVec 8) (up : w.hub.spiUp = true) : w.csRise (.command c)
    = if c = 0x02 ∨ c = 0x03 ∨ c = 0x12 ∨ c = 0x13 then w else w.onHub fun h => h.on DEV_SPI_CMD_ERR := if_neg (by simp [up])

theorem Hw.csRise_write {a : Word} (first : Option Word) (up : w.hub.spiUp = true) : w.csRise (.write a first)
    = w.onHub fun h => (first.elim h fun v => h.post { addr := a.toNat, value := v.toNat }).on DEV_SPI_SHORT := by
  refine (if_neg (by simp [up])).trans ?_
  cases first <;> rfl

end cut

/-! ## The head of the queue -/

theorem Hw.applyHead_nil {w : Hw} (none : w.hub.spi.posted = []) : w.applyHead = w := by
  unfold Hw.applyHead
  rw [none]

theorem Hw.applyHead_cons {w : Hw} {p : Posted} {rest : List Posted} (head : w.hub.spi.posted = p :: rest) :
    w.applyHead = p.second.elim ((w.setHub (w.hub.setSpi { w.hub.spi with posted := rest })).writeAt p.addr p.value)
      fun u => (w.setHub (w.hub.setSpi { w.hub.spi with posted := rest })).write64At p.addr p.value u := by
  unfold Hw.applyHead
  rw [head]
  dsimp only
  cases p.second <;> rfl

theorem Hw.write64At_regs {w : Hw} {addr v u : Nat} (out : addr / 4 * 4 < 0x100000 ∨ 0x200000 ≤ addr / 4 * 4 + 4) :
    w.write64At addr v u = (w.writeAt (addr / 4 * 4) v).writeAt ((addr / 4 * 4 + 4) % 2 ^ 32) u := by
  refine if_neg ?_
  rintro ⟨lo, hi⟩
  omega

theorem Hw.write64At_window {w : Hw} {addr v u : Nat} (lo : 0x100000 ≤ addr / 4 * 4) (hi : addr / 4 * 4 + 4 < 0x200000) :
    w.write64At addr v u = w.hostWr (addr / 4 * 4) v fun w => w.windowWrite (addr / 4 * 4 - 0x100000) v (some u) := if_pos ⟨lo, hi⟩

/-! ## Reads -/

theorem Hw.drain_nil {w : Hw} (n : Nat) (none : w.hub.spi.posted = []) : Hw.drain n w = w := by
  cases n with
  | zero => rfl
  | succ n => exact if_pos (by simp [none])

theorem Hw.drain_succ {w : Hw} (n : Nat) (some : w.hub.spi.posted ≠ []) : Hw.drain (n + 1) w = Hw.drain n w.applyHead := if_neg (by simp [some])

theorem Hw.spiDrain_nil {w : Hw} (none : w.hub.spi.posted = []) : Hw.drain spiDepth w = w := Hw.drain_nil spiDepth none

theorem Hw.spiDrain_cons {w : Hw} (some : w.hub.spi.posted ≠ []) : Hw.drain spiDepth w = Hw.drain 31 w.applyHead := Hw.drain_succ 31 some

theorem exec_read32 (a : Word) (s : State) : exec (.read32 a) s = .next (s.onHw fun w => (Hw.drain spiDepth w).read32 0 a.toNat) := rfl

theorem exec_read64 (a : Word) (s : State) : exec (.read64 a) s = .next (s.onHw fun w => (Hw.drain spiDepth w).read64 0 a.toNat) := rfl

theorem Hw.readWord_unserved {w : Hw} {path addr : Nat} (out : w.hub.served (addr / 4 * 4) = false) : w.readWord path addr = (0, w) :=
  if_pos (by simp [out])

theorem Hw.readWord_peek {w : Hw} {path addr : Nat} (served : w.hub.served (addr / 4 * 4) = true)
    (out : addr / 4 * 4 < 0x100000 ∨ 0x200000 ≤ addr / 4 * 4) (port : w.hub.portRead path (addr / 4 * 4) = none) (rs : rsAt (addr / 4 * 4) = none) :
    w.readWord path addr = (w.peek (addr / 4 * 4), w) := by
  unfold Hw.readWord
  dsimp only
  rw [if_neg (by simp [served]), if_neg (by omega), port]
  dsimp only
  rw [rs]

theorem Hw.read32_eq {w w' : Hw} {path addr v : Nat} (word : w.readWord path addr = (v, w')) : w.read32 path addr = w'.setHub (w'.hub.setRd path v) := by
  unfold Hw.read32
  rw [word]
  rfl

theorem Hw.read64_eq {w w' w'' : Hw} {path addr lo hi : Nat} (low : w.readWord path addr = (lo, w'))
    (high : w'.readWord path ((addr / 4 * 4 + 4) % 2 ^ 32) = (hi, w'')) : w.read64 path addr = w''.setHub (w''.hub.setRd path (lo + 2 ^ 32 * hi)) := by
  unfold Hw.read64
  rw [low]
  dsimp only
  rw [high]
  rfl

/-- A write over SPI is posted at the end of the queue, or dropped while it is full. -/
theorem spiWrites (s : State) :
    let h := s.hw.hub
    let q := h.spi.posted
    let put := fun p => h.setSpi { h.spi with posted := q ++ [p] }
    ∀ a v u : Word, h.spiUp = true →
      (q.length < 32 → Gives (.write32 a v) s (put { addr := a.toNat, value := v.toNat }) ∧ Gives (.write64 a v u) s (put { addr := a.toNat, value := v.toNat, second := some u.toNat })
        ∧ Gives (.spiCsRise (.write a (some v))) s ((put { addr := a.toNat, value := v.toNat }).on DEV_SPI_SHORT))
      ∧ (32 ≤ q.length → Gives (.write32 a v) s (h.on DEV_SPI_WDROP) ∧ Gives (.write64 a v u) s (h.on DEV_SPI_WDROP)
        ∧ Gives (.spiCsRise (.write a (some v))) s ((h.on DEV_SPI_WDROP).on DEV_SPI_SHORT))
      ∧ Gives (.spiCsRise (.write a none)) s (h.on DEV_SPI_SHORT) := by
  intro h q put a v u up
  have cut (first : Option Word) : Gives (.spiCsRise (.write a first)) s ((first.elim h fun v => h.post { addr := a.toNat, value := v.toNat }).on DEV_SPI_SHORT) :=
    gives_onHw (exec_csRise _ s) (Hw.csRise_write first up)
  refine ⟨fun room => ⟨?_, ?_, ?_⟩, fun full => ⟨?_, ?_, ?_⟩, cut none⟩
  · exact gives_onHub (exec_write32 a v s) (Hub.post_room _ up room)
  · exact gives_onHub (exec_write64 a v u s) (Hub.post_room _ up room)
  · refine (congrArg (fun g : Hub => Gives _ s (g.on DEV_SPI_SHORT)) (Hub.post_room { addr := a.toNat, value := v.toNat } up room)).mp ?_
    exact cut (some v)
  · exact gives_onHub (exec_write32 a v s) (Hub.post_full _ up full)
  · exact gives_onHub (exec_write64 a v u s) (Hub.post_full _ up full)
  · rw [← Hub.post_full { addr := a.toNat, value := v.toNat } up full]
    exact cut (some v)

/-- A cut read keeps its effects, and a command that is none of the four is noted. -/
theorem spiCuts {s : State} (a : Word) (up : s.hw.hub.spiUp = true) :
    let h := s.hw.hub
    Gives .spiReadTimeout s ((h.on DEV_SPI_RD_TIMEOUT).setRd 0 0)
      ∧ (∀ c : BitVec 8, (c = 0x02 ∨ c = 0x03 ∨ c = 0x12 ∨ c = 0x13 → Gives (.spiCsRise (.command c)) s h)
        ∧ (c ≠ 0x02 → c ≠ 0x03 → c ≠ 0x12 → c ≠ 0x13 → Gives (.spiCsRise (.command c)) s (h.on DEV_SPI_CMD_ERR)))
      ∧ GivesHw (.spiCsRise (.read a false)) s ((s.hw.spiRead32 a.toNat).onHub fun h => h.on DEV_SPI_SHORT)
      ∧ GivesHw (.spiCsRise (.read a true)) s ((s.hw.spiRead64 a.toNat).onHub fun h => h.on DEV_SPI_SHORT) := by
  refine ⟨?_, fun c => ⟨fun known => ?_, fun x y z t => ?_⟩, ?_, ?_⟩
  · exact gives_onHub (f := Hub.spiTimeout) rfl (if_pos up)
  · exact gives_onHw (exec_csRise _ s) ((Hw.csRise_command c up).trans (if_pos known))
  · refine gives_onHw (exec_csRise _ s) ((Hw.csRise_command c up).trans (if_neg ?_))
    rintro (k | k | k | k)
    · exact x k
    · exact y k
    · exact z k
    · exact t k
  · exact givesHw_onHw (exec_csRise _ s) (Hw.csRise_read false up)
  · exact givesHw_onHw (exec_csRise _ s) (Hw.csRise_read true up)

/-- Settles O59: writes by the room of the queue, reads once the queue is empty, cut transactions by what has arrived. -/
theorem spiAccess : Obligations.SpiAccess := by
  refine ⟨fun s => ⟨s.hw.hub.spiUp_iff, spiWrites s, fun a v u down => ⟨?_, ?_⟩, fun none => ?_, fun p rest head => ⟨fun one => ?_, fun u two => ⟨fun regs => ?_, fun lo hi => ?_⟩⟩⟩,
    fun s a => ⟨fun none => ⟨?_, ?_⟩, fun some => ⟨?_, ?_⟩, fun none unserved => ?_, fun none served out port rs => ?_, fun lo hi w w' none low high => ?_,
      spiCuts a, fun down => ⟨?_, fun c => ?_⟩⟩⟩
  · exact gives_onHub (exec_write32 a v s) (Hub.post_down _ down)
  · exact gives_onHub (exec_write64 a v u s) (Hub.post_down _ down)
  · exact gives_onHw (f := Hw.applyHead) rfl (Hw.applyHead_nil none)
  · refine givesHw_onHw (f := Hw.applyHead) rfl ((Hw.applyHead_cons head).trans ?_)
    rw [one]
    rfl
  · refine givesHw_onHw (f := Hw.applyHead) rfl ((Hw.applyHead_cons head).trans ?_)
    rw [two]
    exact Hw.write64At_regs regs
  · refine givesHw_onHw (f := Hw.applyHead) rfl ((Hw.applyHead_cons head).trans ?_)
    rw [two]
    exact Hw.write64At_window lo hi
  · exact givesHw_onHw (exec_read32 a s) (by rw [Hw.spiDrain_nil none])
  · exact givesHw_onHw (exec_read64 a s) (by rw [Hw.spiDrain_nil none])
  · exact givesHw_onHw (exec_read32 a s) (by rw [Hw.spiDrain_cons some])
  · exact givesHw_onHw (exec_read64 a s) (by rw [Hw.spiDrain_cons some])
  · refine gives_onHw (exec_read32 a s) ?_
    rw [Hw.spiDrain_nil none]
    exact Hw.read32_eq (Hw.readWord_unserved unserved)
  · refine gives_onHw (exec_read32 a s) ?_
    rw [Hw.spiDrain_nil none]
    exact Hw.read32_eq (Hw.readWord_peek served out port rs)
  · refine givesHw_onHw (exec_read64 a s) ?_
    rw [Hw.spiDrain_nil none]
    exact Hw.read64_eq low high
  · exact gives_onHub (f := Hub.spiTimeout) rfl (if_neg (by simp [down]))
  · exact gives_onHw (exec_csRise c s) (Hw.csRise_down c down)

end Sys2Proof.Machine
end

section
/-! SUPPORT. The settings slots (R402 to R405, R409). -/

namespace Sys2Proof.Machine

theorem Hw.whenUp_up {w : Hw} {f : Hw → Hw} (up : w.hub.inService = true) : w.whenUp f = f w := if_pos up

/-! ## The staged image through its port -/

theorem exec_setDataAccess {s : State} (up : s.up) (p : Fin 2) (wr : Option Word) : exec (.setDataAccess p wr) s
    = .next (s.onHub fun h => wr.elim ((h.setRead.2).setRd p h.setRead.1) fun v => h.setWrite v.toNat) := by
  refine congrArg (fun h => Host.Outcome.next (s.withHub h)) ((if_neg ?_).trans ?_)
  · rw [Hub.served_of_inService up]
    decide
  · cases wr <;> rfl

section port
variable {h : Hub}

theorem Hub.setWrite_inside (v : Nat) (inside : h.get UPD_SET_ADDR / 4 * 4 ≤ 0x5D90) : h.setWrite v
    = (h.setUpd { h.upd with setImg := imgPut h.upd.setImg (h.get UPD_SET_ADDR / 4 * 4) (leBytes 4 v) }).set UPD_SET_ADDR (h.get UPD_SET_ADDR / 4 * 4 + 4) :=
  congrArg (fun g : Hub => g.set UPD_SET_ADDR (h.get UPD_SET_ADDR / 4 * 4 + 4)) (if_neg (Nat.not_lt.2 inside))

theorem Hub.setWrite_beyond (v : Nat) (beyond : 0x5D90 < h.get UPD_SET_ADDR / 4 * 4) : h.setWrite v
    = h.set UPD_SET_ADDR (h.get UPD_SET_ADDR / 4 * 4 + 4) :=
  congrArg (fun g : Hub => g.set UPD_SET_ADDR (h.get UPD_SET_ADDR / 4 * 4 + 4)) (if_pos beyond)

theorem Hub.setRead_inside (inside : h.get UPD_SET_ADDR / 4 * 4 ≤ 0x5D90) : h.setRead.1 = imgVal h.upd.setImg (h.get UPD_SET_ADDR / 4 * 4) 4 :=
  if_neg (Nat.not_lt.2 inside)

theorem Hub.setRead_beyond (beyond : 0x5D90 < h.get UPD_SET_ADDR / 4 * 4) : h.setRead.1 = 0 := if_pos beyond

end port

/-! ## WRITE and LOAD -/

theorem exec_settingsWrite {s : State} (up : s.up) : exec .settingsWrite s = .next (s.onHw Hw.settingsWrite) :=
  exec_hostWr_up (a := 0x8068) (v := fun _ => 1) up (by decide) rfl

theorem exec_settingsLoad {s : State} (up : s.up) : exec .settingsLoad s = .next (s.onHw Hw.settingsLoad) :=
  exec_hostWr_up (a := 0x8068) (v := fun _ => 2) up (by decide) rfl

/-- What refuses a write of the settings (R403). -/
theorem Hw.setRefused_iff (w : Hw) : w.setRefused = true ↔ w.hub.get UPD_STAT_STATE = 1 ∨ w.hub.get UPD_STAT_STATE = 2 ∨ w.hub.get UPD_SETC_BUSY = 1
    ∨ w.hub.pwr.holdup < w.hub.get UPD_HOLDUP_MIN ∨ w.hub.pwr.supplies = false ∨ w.lcState = 0 ∨ w.lcState = 4 ∨ w.setTarget = none := by
  simp [Hw.setRefused, Hub.upState, Hub.powerFails, Hub.bit_iff, upReceiving, upChecking, lcBlank, lcRetired, or_assoc]

theorem Hw.settingsWrite_refused {w : Hw} (why : w.setRefused = true ∨ (w.hub.get DEV_MODE_MODE ≠ 1 ∧ w.hub.get DEV_MODE_MODE ≠ 7)) :
    w.settingsWrite = w.onHub fun h => h.on UPD_SETC_WRITE_REFUSED := if_pos why

theorem Hw.settingsWrite_begins {w : Hw} {k : Nat} (may : ¬w.setRefused = true) (mode : w.hub.get DEV_MODE_MODE = 1 ∨ w.hub.get DEV_MODE_MODE = 7)
    (target : w.setTarget = some k) :
    w.settingsWrite = w.onHub fun h => (h.on UPD_SETC_BUSY).setUpd { h.upd with setPend := some (k, w.hub.upd.setImg) } := by
  refine (if_neg ?_).trans ?_
  · rintro (refused | ⟨idle, maint⟩)
    · exact may refused
    · exact mode.elim idle maint
  · rw [Hw.setBegin, target]
    rfl

/-! ## The sealed copy -/

theorem sealImage_crc (img : AMap Nat) (n v : Nat) :
    imgVal (sealImage img n v).img setCrcAt 4 = crc32c (imgBytes (sealImage img n v).img 0 setCrcAt) % 2 ^ 32 := by
  refine (imgVal_imgPut _ _ _ _).trans ?_
  refine congrArg (fun b => crc32c b % 2 ^ 32) (imgBytes_imgPut_of_disjoint _ _ _ _ _ (.inl ?_)).symm
  exact Nat.le_of_eq (Nat.zero_add _)

/-- What stands below the CRC is not touched by it. -/
theorem imgVal_imgPut_below (m : AMap Nat) (a off n : Nat) (b : List (BitVec 8)) (below : off + n ≤ a) : imgVal (imgPut m a b) off n = imgVal m off n :=
  congrArg ofLe (imgBytes_imgPut_of_disjoint _ _ _ _ _ (.inl below))

theorem sealImage_seq (img : AMap Nat) (n v : Nat) : imgVal (sealImage img n v).img 0x0C 4 = n % 2 ^ 32 :=
  (imgVal_imgPut_below _ _ _ _ _ (by decide)).trans ((imgVal_imgPut_below _ _ _ _ _ (by decide)).trans (imgVal_imgPut _ _ _ _))

theorem sealImage_version (img : AMap Nat) (n v : Nat) : imgVal (sealImage img n v).img 0x10 4 = v % 2 ^ 32 :=
  (imgVal_imgPut_below _ _ _ _ _ (by decide)).trans (imgVal_imgPut _ _ _ _)

/-! ## The end of a write -/

/-- The registers that the ETH and PTP settings fill. -/
def clockFields : List Field :=
  (List.range 8).flatMap (fun k => [LANE_ETH_ADDR_LO k, LANE_ETH_ADDR_HI k, LINK_PEER_MAC_LO k, LINK_PEER_MAC_HI k])
    ++ [0, 1].flatMap fun d => [DOM_DOMAIN_NUMBER d, DOM_SDO_ID d, DOM_TRANSPORT d, DOM_DELAY_MECH d, DOM_ENABLE d, DOM_SLAVE_LANE d]

/-- Settings that act change the registers of lanes, links and domain slots alone. -/
theorem Hub.applyClock_only (h : Hub) (img : AMap Nat) : OnlyRegs clockFields h (h.applyClock img) := by
  intro f k
  have lane (i : Nat) (m : i ∈ List.range 8) (g : Field)
      (mem : g ∈ [LANE_ETH_ADDR_LO i, LANE_ETH_ADDR_HI i, LINK_PEER_MAC_LO i, LINK_PEER_MAC_HI i]) : f.key ≠ g.key := fun e =>
    k (e ▸ List.mem_map_of_mem (List.mem_append_left _ (List.mem_flatMap.2 ⟨i, m, mem⟩)))
  have slot (d : Nat) (m : d ∈ [0, 1]) (g : Field)
      (mem : g ∈ [DOM_DOMAIN_NUMBER d, DOM_SDO_ID d, DOM_TRANSPORT d, DOM_DELAY_MECH d, DOM_ENABLE d, DOM_SLAVE_LANE d]) : f.key ≠ g.key := fun e =>
    k (e ▸ List.mem_map_of_mem (List.mem_append_right _ (List.mem_flatMap.2 ⟨d, m, mem⟩)))
  unfold Hub.applyClock
  dsimp only
  rw [Hub.get_setUpd, Hub.each_keeps (fun g => g.get f) _ _ _ fun g d m => ?slots, Hub.each_keeps (fun g => g.get f) _ _ _ fun g i m => ?lanes]
  case slots =>
    simp only [List.foldl_cons, List.foldl_nil]
    iterate 6 rw [Hub.get_set_ne _ _ _ _ (slot d m _ (by simp))]
  case lanes => iterate 4 rw [Hub.get_set_ne _ _ _ _ (lane i m _ (by simp))]

theorem Hub.applyClock_setPend (h : Hub) (img : AMap Nat) : (h.applyClock img).upd.setPend = h.upd.setPend := by
  unfold Hub.applyClock
  dsimp only
  refine (Hub.each_keeps (fun g => g.upd.setPend) _ _ _ fun g d m => ?_).trans (Hub.each_keeps (fun g => g.upd.setPend) _ _ _ fun g i m => ?_)
  · rfl
  · rfl

theorem Hub.applySettings_only (h : Hub) (img : AMap Nat) : OnlyRegs clockFields h (h.applySettings img) := by
  unfold Hub.applySettings
  dsimp only
  split
  · exact fun f k => (Hub.applyClock_only _ img f k).trans rfl
  · exact fun f _ => rfl

theorem Hub.applySettings_setPend (h : Hub) (img : AMap Nat) : (h.applySettings img).upd.setPend = h.upd.setPend := by
  unfold Hub.applySettings
  dsimp only
  split
  · exact Hub.applyClock_setPend _ img
  · rfl

theorem Nv.appendBoot_settings (n : Nv) (b : BootRec) : (n.appendBoot b).settings = n.settings := by
  unfold Nv.appendBoot
  dsimp only
  split <;> rfl

/-- The second copy of a slot is the newer one. -/
def Hw.secondNewer (w : Hw) (k : Nat) : Bool :=
  let x := aGet w.nv.settings (2 * k) {}
  let y := aGet w.nv.settings (2 * k + 1) {}
  y.ok && (!x.ok || decide ((y.seq + 2 ^ 32 - x.seq) % 2 ^ 32 < 2 ^ 31))

theorem Hw.secondNewer_iff (w : Hw) (k : Nat) : w.secondNewer k = true ↔ (aGet w.nv.settings (2 * k + 1) {}).ok = true
    ∧ ((aGet w.nv.settings (2 * k) {}).ok = false
      ∨ ((aGet w.nv.settings (2 * k + 1) {}).seq + 2 ^ 32 - (aGet w.nv.settings (2 * k) {}).seq) % 2 ^ 32 < 2 ^ 31) := by
  simp [Hw.secondNewer]

/-- The older copy of a slot, or one that fails its CRC, is written. -/
def Hw.sealNext (w : Hw) (k : Nat) (img : AMap Nat) : AMap SetCopy :=
  if w.secondNewer k then
    aInsert w.nv.settings (2 * k) (sealImage img (((aGet w.nv.settings (2 * k + 1) {}).seq + 1) % 2 ^ 32) (w.hub.get UPD_RUN_VERSION))
  else
    aInsert w.nv.settings (2 * k + 1)
      (sealImage img (((if (aGet w.nv.settings (2 * k) {}).ok then (aGet w.nv.settings (2 * k) {}).seq else 0) + 1) % 2 ^ 32) (w.hub.get UPD_RUN_VERSION))

theorem Hw.putSettings_settings (w : Hw) (k : Nat) (img : AMap Nat) : (w.putSettings k img).nv.settings = w.sealNext k img := by
  unfold Hw.sealNext
  split
  next newer =>
    unfold Hw.secondNewer at newer
    simp only [Hw.putSettings, newer, Hw.onHub_nv]
    rfl
  next older =>
    rw [Bool.not_eq_true, Hw.secondNewer] at older
    simp only [Hw.putSettings, older, Hw.onHub_nv]
    rfl

/-- SETTINGS_WRITE_DONE of a write that waits. -/
theorem Hw.settingsDone_pending {w : Hw} {k : Nat} {img : AMap Nat} (pend : w.hub.upd.setPend = some (k, img)) :
    ∃ w' : Hw, w.settingsDone = w'.onHub (fun h => (((h.off UPD_SETC_BUSY).on UPD_SETC_DONE).setUpd { h.upd with setPend := none }).applySettings img)
      ∧ w'.mem = w.mem ∧ w'.nv.settings = w.sealNext k img := by
  unfold Hw.settingsDone
  rw [pend]
  refine ⟨_, rfl, ?_, ?_⟩
  · split
    · rw [Hw.onHub_mem, Hw.writeBoot_mem]
      rfl
    · rfl
  · rw [← Hw.putSettings_settings]
    split
    · rw [Hw.onHub_nv]
      exact Nv.appendBoot_settings _ _
    · rfl

theorem Hub.settingsDone_regs (h : Hub) (img : AMap Nat) (u : Upd) :
    ((((h.off UPD_SETC_BUSY).on UPD_SETC_DONE).setUpd u).applySettings img).get UPD_SETC_BUSY = 0
      ∧ ((((h.off UPD_SETC_BUSY).on UPD_SETC_DONE).setUpd u).applySettings img).get UPD_SETC_DONE = 1 := by
  constructor
  · rw [Hub.applySettings_only _ img _ (by decide), Hub.get_setUpd, Hub.get_on_ne _ _ _ (by decide), Hub.get_off_same]
  · rw [Hub.applySettings_only _ img _ (by decide), Hub.get_setUpd]
    exact Hub.get_on_same _ _ (by decide)

/-- Settles O57: the port by its address, a write by what refuses it, its end by the copy it seals. -/
theorem settingsSlots : Obligations.SettingsSlots := by
  refine ⟨fun s up => ⟨fun p v => ⟨fun inside => ⟨?_, ?_⟩, fun beyond => ⟨?_, ?_⟩⟩, fun why => ?_, fun k mode recv check idle power supplies blank retired target => ?_, ?_,
    fun none => ?_, fun k img pend => ?_⟩, fun m a v => ?_, fun img n v => ⟨rfl, rfl, sealImage_crc img n v, sealImage_seq img n v, sealImage_version img n v⟩⟩
  · exact gives_onHub (exec_setDataAccess up p (some v)) (Hub.setWrite_inside _ inside)
  · refine gives_onHub (exec_setDataAccess up p none) ?_
    exact congrArg (fun v => (s.hw.hub.setRead.2).setRd p v) (Hub.setRead_inside inside)
  · exact gives_onHub (exec_setDataAccess up p (some v)) (Hub.setWrite_beyond _ beyond)
  · refine gives_onHub (exec_setDataAccess up p none) ?_
    exact congrArg (fun v => (s.hw.hub.setRead.2).setRd p v) (Hub.setRead_beyond beyond)
  · refine gives_onHw (exec_settingsWrite up) (Hw.settingsWrite_refused ?_)
    rw [Hw.setRefused_iff]
    exact why.symm
  · refine gives_onHw (exec_settingsWrite up) (Hw.settingsWrite_begins ?_ mode target)
    rw [Hw.setRefused_iff]
    rintro (e | e | e | e | e | e | e | e)
    · exact recv e
    · exact check e
    · exact idle e
    · exact absurd e (Nat.not_lt.2 power)
    · simp [supplies] at e
    · exact blank e
    · exact retired e
    · simp [target] at e
  · exact gives_onHw (exec_settingsLoad up) rfl
  · refine gives_onHw (f := fun w => w.whenUp Hw.settingsDone) rfl ((Hw.whenUp_up up).trans ?_)
    unfold Hw.settingsDone
    rw [none]
    rfl
  · obtain ⟨w', done, mem, settings⟩ := Hw.settingsDone_pending pend
    obtain ⟨busy, finished⟩ := w'.hub.settingsDone_regs img { w'.hub.upd with setPend := none }
    refine leads_onHw (f := fun w => w.whenUp Hw.settingsDone) rfl ?_
    rw [Hw.whenUp_up up, done]
    refine ⟨busy, finished, Hub.applySettings_setPend _ img, mem, fun newer => ?_, fun older => ?_⟩
    · exact settings.trans (if_pos ((Hw.secondNewer_iff _ _).2 newer))
    · exact settings.trans (if_neg fun n => older ((Hw.secondNewer_iff _ _).1 n))
  · exact (imgVal_imgPut _ _ _ _).trans (Nat.mod_eq_of_lt v.isLt)

end Sys2Proof.Machine
end

section
/-! SUPPORT. The life cycle and the factory patina (R406 to R408). -/

namespace Sys2Proof.Machine

theorem exec_lcArm {s : State} (up : s.up) (v : Word) : exec (.lcArm v) s = .next (s.onHub fun h => h.lcArm v.toNat) :=
  exec_hubWr_up (a := 0x8808) (v := fun _ => v.toNat) up (by decide) rfl

theorem exec_lcGo {s : State} (up : s.up) (t : BitVec 3) : exec (.lcGo t) s = .next (s.onHw fun w => (w.onHub fun h => h.set LC_TARGET t.toNat).lcGo) :=
  exec_hostWr_up (a := 0x8804) (v := fun _ => t.toNat + 8) up (by decide) rfl

theorem exec_factoryWrite {s : State} (up : s.up) : exec .factoryWrite s = .next (s.onHw Hw.factoryWrite) :=
  exec_hostWr_up (a := 0x880C) (v := fun _ => 1) up (by decide) rfl

/-! ## What refuses a transition -/

theorem Hub.powerFails_iff (h : Hub) : h.powerFails = true ↔ h.pwr.holdup < h.get UPD_HOLDUP_MIN ∨ h.pwr.supplies = false := by simp [Hub.powerFails]

/-- The transitions of R406. -/
theorem Hw.lcReach_iff (w : Hw) (t : Nat) : w.lcReach t = true ↔ (t = 4 ∧ w.lcState ≠ 4) ∨ (w.lcState = 0 ∧ t = 1) ∨ (w.lcState = 1 ∧ t = 2)
    ∨ (w.lcState = 2 ∧ t = 3) ∨ (w.lcState = 3 ∧ t = 2 ∧ (w.nv.boot.validA = true ∨ w.nv.boot.validB = true)) := by
  simp [Hw.lcReach, lcRetired, lcBlank, lcManufacture, lcField, lcRecovery, or_assoc, and_assoc]

section refusal
variable {w : Hw} {t : Nat}

theorem Hw.lcRefusal_unarmed (armed : w.hub.get LC_ARMED ≠ 1) : w.lcRefusal t = 1 := if_pos (by simp [Hub.bit_of_ne armed])

theorem Hw.lcRefusal_armed (armed : w.hub.get LC_ARMED = 1) : w.lcRefusal t = if !w.lcReach t then 2 else if w.hub.updBusy then 3
    else if w.hub.powerFails then 4 else if w.lcState = lcManufacture ∧ t = lcField ∧ !w.factoryReady then 5 else 0 :=
  if_neg (by simp [Hub.bit_of_one armed])

theorem Hw.lcRefusal_unreached (armed : w.hub.get LC_ARMED = 1) (out : ¬w.lcReach t = true) : w.lcRefusal t = 2 :=
  (Hw.lcRefusal_armed armed).trans (if_pos (by simpa using out))

theorem Hw.lcRefusal_reached (armed : w.hub.get LC_ARMED = 1) (reach : w.lcReach t = true) : w.lcRefusal t = if w.hub.updBusy then 3
    else if w.hub.powerFails then 4 else if w.lcState = lcManufacture ∧ t = lcField ∧ !w.factoryReady then 5 else 0 :=
  (Hw.lcRefusal_armed armed).trans (if_neg (by simp [reach]))

theorem Hw.lcRefusal_free (armed : w.hub.get LC_ARMED = 1) (reach : w.lcReach t = true) (free : w.hub.updBusy = false) : w.lcRefusal t
    = if w.hub.powerFails then 4 else if w.lcState = lcManufacture ∧ t = lcField ∧ !w.factoryReady then 5 else 0 :=
  (Hw.lcRefusal_reached armed reach).trans (if_neg (by simp [free]))

theorem Hw.lcRefusal_powered (armed : w.hub.get LC_ARMED = 1) (reach : w.lcReach t = true) (free : w.hub.updBusy = false)
    (power : ¬w.hub.powerFails = true) : w.lcRefusal t = if w.lcState = lcManufacture ∧ t = lcField ∧ !w.factoryReady then 5 else 0 :=
  (Hw.lcRefusal_free armed reach free).trans (if_neg power)

end refusal

/-- The target a write of LC_GO carries is the one it asks for. -/
theorem Hub.get_lcTarget (h : Hub) (t : BitVec 3) : (h.set LC_TARGET t.toNat).get LC_TARGET = t.toNat :=
  (Hub.get_set_same _ _ _).trans (Nat.mod_eq_of_lt t.isLt)

/-- What refuses a transition does not look at the target's register. -/
theorem Hw.lcRefusal_target (w : Hw) (v t : Nat) : (w.onHub fun h => h.set LC_TARGET v).lcRefusal t = w.lcRefusal t := by
  have armed : (w.onHub fun h => h.set LC_TARGET v).hub.bit LC_ARMED = w.hub.bit LC_ARMED := by
    rw [Hw.onHub_hub, Hub.bit_eq, Hub.bit_eq, Hub.get_set_ne _ _ _ _ (by decide)]
  have busy : (w.onHub fun h => h.set LC_TARGET v).hub.updBusy = w.hub.updBusy := by
    unfold Hub.updBusy Hub.upState
    rw [Hw.onHub_hub, Hub.get_set_ne _ _ _ _ (by decide)]
  have power : (w.onHub fun h => h.set LC_TARGET v).hub.powerFails = w.hub.powerFails := by
    unfold Hub.powerFails
    rw [Hw.onHub_hub, Hub.get_set_ne _ _ _ _ (by decide), Hub.set_pwr]
  unfold Hw.lcRefusal
  rw [armed, busy, power]
  rfl

theorem Hw.lcGo_refused {w : Hw} (t : BitVec 3) (why : w.lcRefusal t.toNat ≠ 0) :
    (w.onHub fun h => h.set LC_TARGET t.toNat).lcGo
      = w.setHub (((w.hub.set LC_TARGET t.toNat).on LC_REFUSED).set LC_REASON (w.lcRefusal t.toNat)) := by
  unfold Hw.lcGo
  dsimp only
  rw [Hw.onHub_hub, Hub.get_lcTarget, Hw.lcRefusal_target]
  exact if_pos why

/-! ## A transition -/

/-- The log begins with LC_CHANGE, and then the entry of the reset. -/
theorem Hub.lcLog_log (h : Hub) (old new mode : Nat) : ∃ g g' : Hub, g'.pwr.logSeq = 0 ∧ (h.lcLog old new mode).pwr.log
    = [g.logEntry .reset srcLifeCycle mode (h.get RST_COUNT), g'.logEntry .lcChange old new 0] := by
  refine ⟨((h.setPwr { h.pwr with log := [], logSeq := 0, logLast := [] }).offs [LOG_OVERWRITES, LOG_SAT]).log .lcChange old new 0,
    (h.setPwr { h.pwr with log := [], logSeq := 0, logLast := [] }).offs [LOG_OVERWRITES, LOG_SAT], ?_, ?_⟩
  · rw [Hub.offs_pwr]
    rfl
  · rw [Hub.lcLog, Hub.log_pwr, Hub.log_pwr, Hub.offs_pwr]
    rfl

theorem Hub.lcLog_get (h : Hub) (old new mode : Nat) {f : Field} (k : f.key ∉ [LOG_OVERWRITES, LOG_SAT, LOG_NEW, DEV_IRQ_LOG].map Field.key) :
    (h.lcLog old new mode).get f = h.get f := by
  have apart : f.key ≠ LOG_OVERWRITES.key ∧ f.key ≠ LOG_SAT.key := by
    simp only [List.map_cons, List.map_nil, List.mem_cons, List.not_mem_nil, or_false, not_or] at k
    exact ⟨k.1, k.2.1⟩
  rw [Hub.lcLog, Hub.log_get_ne _ _ _ _ _ _ k, Hub.log_get_ne _ _ _ _ _ _ k]
  exact (Hub.get_off_ne _ _ _ apart.2).trans (Hub.get_off_ne _ _ _ apart.1)

theorem Hub.lcLog_phase (h : Hub) (old new mode : Nat) : (h.lcLog old new mode).pwr.phase = h.pwr.phase := by
  rw [Hub.lcLog, Hub.log_phase, Hub.log_phase, Hub.offs_pwr]
  rfl

/-- The cause that a transition to RECOVERY records. -/
def Hub.lcCause (h : Hub) (t : Nat) : Hub := if t = 3 then h.set LC_RECOVERY_CAUSE 2 else h

theorem Hub.lcCause_pwr (h : Hub) (t : Nat) : (h.lcCause t).pwr = h.pwr := by
  unfold Hub.lcCause
  split
  · exact Hub.set_pwr _ _ _
  · rfl

theorem Hub.lcCause_get (h : Hub) (t : Nat) {f : Field} (k : f.key ≠ LC_RECOVERY_CAUSE.key) : (h.lcCause t).get f = h.get f := by
  unfold Hub.lcCause
  split
  · exact Hub.get_set_ne _ _ _ _ k
  · rfl

theorem Hub.lcCause_recovery (h : Hub) : (h.lcCause 3).get LC_RECOVERY_CAUSE = 2 := Hub.get_set_same _ _ _

theorem Hw.lcGo_accepted {w : Hw} (t : BitVec 3) (may : w.lcRefusal t.toNat = 0) :
    ∃ g mode, (w.onHub fun h => h.set LC_TARGET t.toNat).lcGo = ((w.onHub fun h => h.set LC_TARGET t.toNat).lcFlash t.toNat).setHub
      (((Hub.resetBy g srcLifeCycle).lcLog w.lcState t.toNat mode).lcCause t.toNat) := by
  unfold Hw.lcGo
  dsimp only
  rw [Hw.onHub_hub, Hub.get_lcTarget, Hw.lcRefusal_target, if_neg (fun k => k may)]
  exact ⟨_, _, rfl⟩

/-- What a transition leaves of the hub. -/
theorem Hub.lcReset_outcome (g : Hub) (old mode : Nat) (t : BitVec 3) :
    let h' := ((g.resetBy srcLifeCycle).lcLog old t.toNat mode).lcCause t.toNat
    h'.pwr.phase = .held ∧ h'.get RST_LAST = srcLifeCycle ∧ (h'.pwr.log.map fun e => e.code) = [(logCode .reset).1, (logCode .lcChange).1]
      ∧ (h'.pwr.log.getLast?.map fun e => (e.seq, e.p0, e.p1)) = some (0, old % 2 ^ 32, t.toNat) ∧ (t.toNat = 3 → h'.get LC_RECOVERY_CAUSE = 2) := by
  obtain ⟨x, y, seq, log⟩ := (g.resetBy srcLifeCycle).lcLog_log old t.toNat mode
  dsimp only
  rw [Hub.lcCause_pwr, Hub.lcCause_get _ _ (by decide), log, Hub.lcLog_phase]
  refine ⟨?_, ?_, rfl, ?_, fun recovery => ?_⟩
  · exact (Hub.resetBy_leaves g srcLifeCycle (by decide) (by decide)).1
  · rw [Hub.lcLog_get _ _ _ _ (by decide), Hub.resetBy_get_noted g _ _ (by decide), Hub.resetNoted_last g _ (by decide)]
  · show some (y.pwr.logSeq, old % 2 ^ 32, t.toNat % 2 ^ 32) = _
    rw [seq, Nat.mod_eq_of_lt (Nat.lt_trans t.isLt (by decide))]
  · rw [recovery]
    exact Hub.lcCause_recovery _

/-! ## Fuses and flash -/

theorem Nv.appendBoot_kept (n : Nv) (b : BootRec) : (n.appendBoot b).castA = n.castA ∧ (n.appendBoot b).castB = n.castB
    ∧ (n.appendBoot b).factory = n.factory ∧ (n.appendBoot b).lcFuse = n.lcFuse ∧ (n.appendBoot b).recovery = n.recovery := by
  unfold Nv.appendBoot
  dsimp only
  split <;> exact ⟨rfl, rfl, rfl, rfl, rfl⟩

section flash
variable (w : Hw)

theorem Hw.lcFlash_recovery : (w.lcFlash 3).nv
    = { w.nv with recovery := true }.appendBoot { w.nv.boot with state := brRecovery, seq := (w.nv.boot.seq + 1) % 2 ^ 32 } := rfl

theorem Hw.lcFlash_plain {t : Nat} (retired : t ≠ 4) (recovery : t ≠ 3) (old : w.lcState ≠ 3) : (w.lcFlash t).nv = { w.nv with lcFuse := t } := by
  unfold Hw.lcFlash
  rw [if_neg (show ¬t = lcRetired from retired), if_neg (show ¬t = lcRecovery from recovery), if_neg (show ¬w.lcState = lcRecovery from old)]
  rfl

/-- Back from RECOVERY to FIELD: the boot record is stable again. -/
theorem Hw.lcFlash_field (old : w.lcState = 3) : ∃ b : BootRec, b.state = brStable
    ∧ (w.lcFlash 2).nv = { w.nv.appendBoot b with lcFuse := lcField, recovery := false } := by
  unfold Hw.lcFlash
  rw [if_neg (by decide), if_neg (by decide), if_pos (show w.lcState = lcRecovery from old)]
  exact ⟨_, rfl, rfl⟩

/-- Every transition but the one to RETIRED keeps casts, settings and the factory's patina. -/
theorem Hw.lcFlash_keeps {t : Nat} (live : t ≠ 4) : (w.lcFlash t).nv.castA = w.nv.castA ∧ (w.lcFlash t).nv.castB = w.nv.castB
    ∧ (w.lcFlash t).nv.settings = w.nv.settings ∧ (w.lcFlash t).nv.factory = w.nv.factory := by
  have boot (n : Nv) (b : BootRec) : (n.appendBoot b).castA = n.castA ∧ (n.appendBoot b).castB = n.castB
      ∧ (n.appendBoot b).settings = n.settings ∧ (n.appendBoot b).factory = n.factory := by
    obtain ⟨a, b', f, -, -⟩ := n.appendBoot_kept b
    exact ⟨a, b', n.appendBoot_settings b, f⟩
  unfold Hw.lcFlash
  rw [if_neg (show ¬t = lcRetired from live)]
  split
  · exact boot _ _
  · split
    · exact boot _ _
    · exact ⟨rfl, rfl, rfl, rfl⟩

end flash

/-- The state that fuses and flash say. -/
theorem lcState_of_fuse {w : Hw} {n : Nat} (fuse : w.nv.lcFuse = n) (plain : (n ≠ 2 ∧ n ≠ 1) ∨ (w.nv.boot.state ≠ 4 ∧ w.nv.recovery = false)) : w.lcState = n := by
  refine (if_neg ?_).trans fuse
  rw [fuse]
  rintro ⟨live, marked⟩
  rcases plain with ⟨field, manufacture⟩ | ⟨boot, recovery⟩
  · exact live.elim field manufacture
  · exact marked.elim boot (by simp [recovery])

/-- A hub in MANUFACTURE or FIELD is not marked for RECOVERY. -/
theorem unmarked_of_lcState {w : Hw} (live : w.lcState = 1 ∨ w.lcState = 2) : w.nv.lcFuse = w.lcState ∧ w.nv.boot.state ≠ 4 ∧ w.nv.recovery = false := by
  unfold Hw.lcState at live ⊢
  split at live
  · simp [lcRecovery] at live
  next unmarked =>
    rw [if_neg unmarked]
    refine ⟨rfl, fun boot => unmarked ⟨live.symm, .inl boot⟩, ?_⟩
    rw [← Bool.not_eq_true]
    exact fun recovery => unmarked ⟨live.symm, .inr recovery⟩

/-- The life cycle after a transition is the one asked for. -/
theorem Hw.lcFlash_state {w : Hw} {t : Nat} (reach : w.lcReach t = true) : (t = 1 → (w.lcFlash t).nv.lcFuse = 1) ∧ (t ≠ 1 → (w.lcFlash t).lcState = t) := by
  rw [Hw.lcReach_iff] at reach
  rcases reach with ⟨rfl, -⟩ | ⟨blank, rfl⟩ | ⟨made, rfl⟩ | ⟨field, rfl⟩ | ⟨recovering, rfl, -⟩
  · exact ⟨fun k => absurd k (by decide), fun _ => lcState_of_fuse rfl (.inl (by decide))⟩
  · exact ⟨fun _ => by rw [w.lcFlash_plain (by decide) (by decide) (by omega)], fun k => absurd rfl k⟩
  · refine ⟨fun k => absurd k (by decide), fun _ => ?_⟩
    obtain ⟨-, boot, recovery⟩ := unmarked_of_lcState (.inl made)
    have flash := w.lcFlash_plain (t := 2) (by decide) (by decide) (by omega)
    exact lcState_of_fuse (by rw [flash]) (.inr (by rw [flash]; exact ⟨boot, recovery⟩))
  · refine ⟨fun k => absurd k (by decide), fun _ => ?_⟩
    obtain ⟨fuse, -, -⟩ := unmarked_of_lcState (.inr field)
    obtain ⟨-, -, -, keptFuse, keptMark⟩ := Nv.appendBoot_kept { w.nv with recovery := true }
      { w.nv.boot with state := brRecovery, seq := (w.nv.boot.seq + 1) % 2 ^ 32 }
    have marked : (w.lcFlash 3).nv.lcFuse = lcField ∧ (w.lcFlash 3).nv.recovery = true := by
      rw [w.lcFlash_recovery, keptFuse, keptMark]
      exact ⟨fuse.trans field, rfl⟩
    exact if_pos ⟨.inl marked.1, .inr marked.2⟩
  · refine ⟨fun k => absurd k (by decide), fun _ => ?_⟩
    obtain ⟨b, stable, flash⟩ := w.lcFlash_field recovering
    refine lcState_of_fuse (by rw [flash]; rfl) (.inr ?_)
    rw [flash]
    refine ⟨?_, rfl⟩
    show (w.nv.appendBoot b).boot.state ≠ 4
    rw [Nv.appendBoot_boot, stable]
    decide

theorem Hub.lcArmExpiry_armed {h : Hub} (armed : h.get LC_ARMED = 1) : h.lcArmExpiry = (h.upTo (h.upd.lcArmAt + secU)).off LC_ARMED :=
  if_pos (Hub.bit_of_one armed)

theorem Hub.lcArmExpiry_idle {h : Hub} (idle : h.get LC_ARMED ≠ 1) : h.lcArmExpiry = h := if_neg (by simp [Hub.bit_of_ne idle])

theorem Hub.lcArm_key {h : Hub} (v : Word) (key : v = 0x4C434152) : h.lcArm v.toNat = (h.on LC_ARMED).setUpd { h.upd with lcArmAt := h.time.now } :=
  if_pos (by rw [key]; rfl)

theorem Hub.lcArm_other {h : Hub} (v : Word) (other : v ≠ 0x4C434152) : h.lcArm v.toNat = h :=
  if_neg fun e => other (BitVec.eq_of_toNat_eq e)

/-- GO of a life-cycle transition: refused with its REASON, or the hub resets in the new state. -/
theorem lcGo_outcome {s : State} (up : s.up) (t : BitVec 3) :
    let h := s.hw.hub
    let lc := s.hw.lcState
    let n := t.toNat
    let refuse := fun r => ((h.set LC_TARGET n).on LC_REFUSED).set LC_REASON r
    (s.hw.lcRefusal n ≠ 0 → Gives (.lcGo t) s (refuse (s.hw.lcRefusal n)))
    ∧ (s.hw.lcRefusal n = 0 → s.hw.lcReach n = true → LeadsHw (.lcGo t) s fun w' => (n = 1 → w'.nv.lcFuse = 1) ∧ (n ≠ 1 → w'.lcState = n)
        ∧ w'.hub.pwr.phase = .held ∧ w'.hub.get RST_LAST = srcLifeCycle ∧ w'.mem = s.hw.mem
        ∧ (w'.hub.pwr.log.map fun e => e.code) = [(logCode .reset).1, (logCode .lcChange).1] ∧ (w'.hub.pwr.log.getLast?.map fun e => (e.seq, e.p0, e.p1)) = some (0, lc % 2 ^ 32, n)
        ∧ (n = 3 → w'.hub.get LC_RECOVERY_CAUSE = 2)
        ∧ (n = 4 → w'.nv.castA = none ∧ w'.nv.castB = none ∧ w'.nv.settings = [] ∧ w'.nv.factory = none ∧ w'.nv.boot = {})
        ∧ (n ≠ 4 → w'.nv.castA = s.hw.nv.castA ∧ w'.nv.castB = s.hw.nv.castB ∧ w'.nv.settings = s.hw.nv.settings ∧ w'.nv.factory = s.hw.nv.factory)) := by
  dsimp only
  refine ⟨fun why => gives_onHw (exec_lcGo up t) (Hw.lcGo_refused t why), fun may reach => ?_⟩
  obtain ⟨g, mode, gone⟩ := Hw.lcGo_accepted t may
  obtain ⟨phase, last, codes, first, cause⟩ := g.lcReset_outcome s.hw.lcState mode t
  refine leads_onHw (exec_lcGo up t) ?_
  rw [gone]
  obtain ⟨fuse, state⟩ := Hw.lcFlash_state (w := s.hw.onHub fun h => h.set LC_TARGET t.toNat) reach
  refine ⟨fuse, state, phase, last, Hw.lcFlash_mem _ _, codes, first, cause, fun retired => ?_, fun live => ?_⟩
  · rw [retired]
    exact ⟨rfl, rfl, rfl, rfl, rfl⟩
  · exact Hw.lcFlash_keeps (s.hw.onHub fun h => h.set LC_TARGET t.toNat) live

theorem Hw.factoryWrite_passes {w : Hw} (made : w.lcState = 1) (ok : patOk w.hub.hk.patina = true) :
    let f := patSeal (imgPut w.hub.hk.patina 0x18 (leBytes 1 (aGet w.hub.hk.patina 0x18 0 / 2 * 2 + 1)))
    w.factoryWrite = (w.setNv { w.nv with factory := some f }).setHub ((w.hub.setHk { w.hub.hk with patina := f, checked := f }).on LC_FACTORY_DONE) :=
  if_pos ⟨made, ok⟩

theorem Hw.factoryWrite_refused {w : Hw} (why : w.lcState ≠ 1 ∨ patOk w.hub.hk.patina = false) :
    w.factoryWrite = w.setHub (w.hub.on LC_FACTORY_FACTORY_REFUSED) := by
  refine if_neg ?_
  rintro ⟨made, ok⟩
  exact why.elim (fun other => other made) fun bad => by simp [bad] at ok

/-- Settles O58: the arming by its key and its second, a transition by its first refusal, the factory's patina by its check. -/
theorem lifeCycle : Obligations.LifeCycle := by
  refine ⟨⟨fun s => ⟨fun armed => ?_, fun idle => ?_⟩, fun s up => ?_⟩, fun s up => ⟨fun made ok => ?_, fun why => ?_⟩⟩
  · exact gives_onHub (f := Hub.lcArmExpiry) rfl (Hub.lcArmExpiry_armed armed)
  · exact gives_onHub (f := Hub.lcArmExpiry) rfl (Hub.lcArmExpiry_idle idle)
  · dsimp only
    refine ⟨fun v => ⟨fun key => ?_, fun other => ?_⟩, fun t => ?_⟩
    · exact gives_onHub (exec_lcArm up v) (Hub.lcArm_key v key)
    · exact gives_onHub (exec_lcArm up v) (Hub.lcArm_other v other)
    · obtain ⟨refused, accepted⟩ := lcGo_outcome up t
      have refuse {r : Nat} (nz : r ≠ 0) (e : s.hw.lcRefusal t.toNat = r) :
          Gives (.lcGo t) s (((s.hw.hub.set LC_TARGET t.toNat).on LC_REFUSED).set LC_REASON r) := by
        rw [← e]
        exact refused (by rw [e]; exact nz)
      rw [← Hw.lcReach_iff]
      refine ⟨fun unarmed => ?_, fun armed out => ?_, fun armed reach busy => ?_, fun armed reach free weak => ?_,
        fun armed reach free holdup supplies => ⟨fun factory => ?_, fun ready => ?_⟩⟩
      · exact refuse (by decide) (Hw.lcRefusal_unarmed unarmed)
      · exact refuse (by decide) (Hw.lcRefusal_unreached armed out)
      · exact refuse (by decide) ((Hw.lcRefusal_reached armed reach).trans (if_pos busy))
      · exact refuse (by decide) ((Hw.lcRefusal_free armed reach free).trans (if_pos ((Hub.powerFails_iff _).2 weak)))
      all_goals
        have power : ¬s.hw.hub.powerFails = true := by
          rw [Hub.powerFails_iff]
          rintro (e | e)
          · exact absurd e (Nat.not_lt.2 holdup)
          · simp [supplies] at e
        have last := Hw.lcRefusal_powered armed reach free power
      · refine refuse (by decide) (last.trans (if_pos ?_))
        obtain ⟨made, field, missing⟩ := factory
        exact ⟨made, field, by simp [missing]⟩
      · refine accepted (last.trans (if_neg ?_)) reach
        rintro ⟨made, field, missing⟩
        exact ready ⟨made, field, by simpa using missing⟩
  · exact givesHw_onHw (exec_factoryWrite up) (Hw.factoryWrite_passes made ok)
  · exact gives_onHw (exec_factoryWrite up) (Hw.factoryWrite_refused why)

end Sys2Proof.Machine
end

section
/-! SUPPORT. Staging a maquette (R374 to R377, R384). -/

namespace Sys2Proof.Machine

theorem exec_loadStart {s : State} (up : s.up) : exec .loadStart s = .next (s.onHub Hub.loadStart) :=
  exec_hubWr_up (a := 0x7000) (v := fun _ => 1) up (by decide) rfl

theorem exec_armCopy {s : State} (up : s.up) : exec .armCopy s = .next (s.onHw Hw.armCopy) :=
  exec_hostWr_up (a := 0x7000) (v := fun _ => 2) up (by decide) rfl

theorem exec_armLoadData {s : State} (up : s.up) (v : Word) : exec (.armLoadData v) s = .next (s.onHub fun h => h.loadData v.toNat) :=
  exec_hubWr_up (a := 0x7014) (v := fun _ => v.toNat) up (by decide) rfl

theorem exec_discard {s : State} (up : s.up) : exec .discard s = .next (s.onHw fun w => w.onHub Hub.discard) :=
  exec_hostWr_up (a := 0x7000) (v := fun _ => 4) up (by decide) rfl

theorem exec_armCntClr {s : State} (up : s.up) : exec .armCntClr s = .next (s.onHub fun h => h.offs [ARM_COMMITS, ARM_FAILS]) :=
  exec_hubWr_up (a := 0x7000) (v := fun _ => 0x200) up (by decide) rfl

/-! ## Where staging is taken (R376) -/

theorem Hub.mayStage_iff (h : Hub) : h.mayStage = true
    ↔ (h.get DEV_MODE_MODE = 1 ∨ h.get DEV_MODE_MODE = 2 ∨ h.acquiring = true) ∧ h.get DEV_MODE_IN_TRANSITION ≠ 1 := by
  simp [Hub.mayStage, Hub.mode, Hub.bit_eq, mIdle, mStaging, or_assoc]

theorem Hub.mayLoad_iff (h : Hub) : h.mayLoad = true
    ↔ ((h.get DEV_MODE_MODE = 1 ∨ h.get DEV_MODE_MODE = 2 ∨ h.acquiring = true) ∧ h.get DEV_MODE_IN_TRANSITION ≠ 1)
      ∧ (h.get ARM_STAT_STATE = 0 ∨ h.get ARM_STAT_STATE = 4) ∧ h.get ARM_STAT_COMMIT_PENDING ≠ 1 := by
  rw [← Hub.mayStage_iff]
  simp [Hub.mayLoad, Hub.amState, Hub.bit_eq, amEmpty, amFailed, and_assoc]

/-! ## Modes that follow the maquette -/

/-- Back in IDLE, settings that waited act; the maquette's registers stay. -/
theorem Hub.toIdle_get (h : Hub) {f : Field} (clock : f.key ∉ clockFields.map Field.key) : h.toIdle.get f = (h.enter mIdle).get f := by
  unfold Hub.toIdle
  dsimp only
  split
  · exact Hub.applyClock_only _ _ _ clock
  · rfl

theorem Hub.enter_get_ne (h : Hub) (m : Nat) {f : Field} (k : f.key ∉ [DEV_MODE_MODE, DEV_MODE_IN_TRANSITION, DEV_IRQ_MODE].map Field.key) :
    (h.enter m).get f = h.get f := by
  simp only [List.map_cons, List.map_nil, List.mem_cons, List.not_mem_nil, or_false, not_or] at k
  obtain ⟨mode, transition, irq⟩ := k
  rw [Hub.enter, Hub.get_on_ne _ _ _ irq, Hub.get_off_ne _ _ _ transition, Hub.get_set_ne _ _ _ _ mode]

theorem Hub.enter_mode (h : Hub) {m : Nat} (lt : m < 8) : (h.enter m).get DEV_MODE_MODE = m := by
  rw [Hub.enter, Hub.get_on_ne _ _ _ (by decide), Hub.get_off_ne _ _ _ (by decide)]
  exact (Hub.get_set_same _ _ _).trans (Nat.mod_eq_of_lt lt)

theorem Hub.applyClock_arm (h : Hub) (img : AMap Nat) : (h.applyClock img).arm = h.arm := by
  unfold Hub.applyClock
  dsimp only
  rw [Hub.setUpd_arm, Hub.each_keeps (fun g => g.arm) _ _ _ fun g d _ => ?slots, Hub.each_keeps (fun g => g.arm) _ _ _ fun g i _ => ?lanes]
  case slots => simp only [List.foldl_cons, List.foldl_nil, Hub.set_arm]
  case lanes => simp only [Hub.set_arm]

theorem Hub.toIdle_arm (h : Hub) : h.toIdle.arm = h.arm := by
  unfold Hub.toIdle
  dsimp only
  split
  · exact Hub.applyClock_arm _ _
  · rfl

/-! ## LOAD_START -/

/-- The maquette's registers as a load begins. -/
def Hub.loadClean (h : Hub) : Hub := (h.maqClear.set ARM_STAT_STATE amLoading).offs [ARM_STAT_ERR, ARM_ERR_OFS, ARM_ERR_TYPE, ARM_ERR_INST]

theorem Hub.loadClean_only (h : Hub) : OnlyRegs [ARM_STAT_STATE, ARM_STAT_SIGNED, ARM_LOAD_OFS, ARM_TOTAL_LEN, ARM_ID_MAQ, ARM_KEY_ID, ARM_STAT_ERR,
    ARM_ERR_OFS, ARM_ERR_TYPE, ARM_ERR_INST] h h.loadClean := by
  refine onlyRegs_off (by decide) (onlyRegs_off (by decide) (onlyRegs_off (by decide) (onlyRegs_off (by decide) (onlyRegs_set _ (by decide) ?_))))
  refine onlyRegs_of_regs (Hub.setArm_regs _ _) ?_
  exact onlyRegs_off (by decide) (onlyRegs_off (by decide) (onlyRegs_off (by decide) (onlyRegs_off (by decide) (onlyRegs_off (by decide)
    (onlyRegs_off (by decide) (onlyRegs_refl _ h))))))

theorem Hub.loadClean_regs (h : Hub) : h.loadClean.get ARM_STAT_STATE = 1 ∧ h.loadClean.get ARM_LOAD_OFS = 0 ∧ h.loadClean.get ARM_STAT_ERR = 0 := by
  refine ⟨?_, ?_, ?_⟩
  · unfold Hub.loadClean Hub.offs
    simp only [List.foldl_cons, List.foldl_nil]
    simp (disch := decide) only [Hub.get_off_ne]
    exact Hub.get_set_same _ _ _
  · unfold Hub.loadClean Hub.maqClear Hub.offs
    simp only [List.foldl_cons, List.foldl_nil]
    simp (disch := decide) only [Hub.get_off_ne, Hub.get_set_ne, Hub.get_setArm, Hub.get_off_same]
  · unfold Hub.loadClean Hub.offs
    simp only [List.foldl_cons, List.foldl_nil]
    simp (disch := decide) only [Hub.get_off_ne, Hub.get_off_same]

/-- A load begins, and IDLE leads on to STAGING. -/
theorem Hub.loadBegin_eq (h : Hub) : ∃ a : ArmSt, a.maq = [] ∧ h.loadBegin
    = if h.get DEV_MODE_MODE = 1 then (h.loadClean.setArm a).enter mStaging else h.loadClean.setArm a := by
  have mode (a : ArmSt) : (h.loadClean.setArm a).mode = h.get DEV_MODE_MODE := (Hub.get_setArm _ _ _).trans (h.loadClean_only _ (by decide))
  have maq : h.loadClean.arm.maq = [] := rfl
  unfold Hub.loadBegin
  dsimp only
  rw [← Hub.loadClean, mode]
  refine ⟨_, ?_, rfl⟩
  exact maq

theorem Hub.enter_arm (h : Hub) (m : Nat) : (h.enter m).arm = h.arm := rfl

theorem Hub.loadBegin_outcome (h : Hub) : h.loadBegin.get ARM_STAT_STATE = 1 ∧ h.loadBegin.get ARM_LOAD_OFS = 0 ∧ h.loadBegin.get ARM_STAT_ERR = 0
    ∧ h.loadBegin.arm.maq = [] ∧ h.loadBegin.get DEV_MODE_MODE = (if h.get DEV_MODE_MODE = 1 then 2 else h.get DEV_MODE_MODE)
    ∧ OnlyRegs [ARM_STAT_STATE, ARM_STAT_SIGNED, ARM_LOAD_OFS, ARM_TOTAL_LEN, ARM_ID_MAQ, ARM_KEY_ID, ARM_STAT_ERR, ARM_ERR_OFS, ARM_ERR_TYPE, ARM_ERR_INST,
        DEV_MODE_MODE, DEV_MODE_IN_TRANSITION, DEV_IRQ_MODE] h h.loadBegin := by
  obtain ⟨state, ofs, err⟩ := h.loadClean_regs
  obtain ⟨a, maq, begins⟩ := h.loadBegin_eq
  have clean : OnlyRegs [ARM_STAT_STATE, ARM_STAT_SIGNED, ARM_LOAD_OFS, ARM_TOTAL_LEN, ARM_ID_MAQ, ARM_KEY_ID, ARM_STAT_ERR, ARM_ERR_OFS, ARM_ERR_TYPE, ARM_ERR_INST,
      DEV_MODE_MODE, DEV_MODE_IN_TRANSITION, DEV_IRQ_MODE] h (h.loadClean.setArm a) :=
    onlyRegs_of_regs (Hub.setArm_regs _ _) (onlyRegs_mono (by decide) h.loadClean_only)
  rw [begins]
  split
  · rw [Hub.enter_arm, Hub.setArm_arm]
    refine ⟨?_, ?_, ?_, maq, Hub.enter_mode _ (by decide), onlyRegs_on (by decide) (onlyRegs_off (by decide) (onlyRegs_set _ (by decide) clean))⟩
    · rw [Hub.enter_get_ne _ _ (by decide), Hub.get_setArm, state]
    · rw [Hub.enter_get_ne _ _ (by decide), Hub.get_setArm, ofs]
    · rw [Hub.enter_get_ne _ _ (by decide), Hub.get_setArm, err]
  · rw [Hub.get_setArm, Hub.get_setArm, Hub.get_setArm, Hub.get_setArm, Hub.setArm_arm]
    exact ⟨state, ofs, err, maq, h.loadClean_only _ (by decide), clean⟩

/-! ## Bytes arrive -/

section bytes
variable {h : Hub} {v : Nat}

/-- The hub once the bytes so far are `m`. -/
def Hub.loaded (h : Hub) (m : List (BitVec 8)) : Hub := (h.setArm { h.arm with maq := m }).set ARM_LOAD_OFS m.length

/-- The header's total length and identifier show once it is there. -/
def Hub.loadedHead (h : Hub) (m : List (BitVec 8)) : Hub := ((h.loaded m).set ARM_TOTAL_LEN (fieldAt m 8 4)).set ARM_ID_MAQ (fieldAt m 0x14 4)

theorem Hub.loadBytes_eq (h : Hub) (b : List (BitVec 8)) : ∀ m, m = h.arm.maq ++ b → h.loadBytes b
    = (formatErr h.route h.arm.keys h.arm.sigReq m).elim
      (if 64 ≤ m.length ∧ fieldAt m 8 4 ≤ m.length then
        (if armSigned m then (((if 64 ≤ m.length then h.loadedHead m else h.loaded m).set ARM_STAT_STATE 2).on ARM_STAT_SIGNED).set ARM_KEY_ID
            (fieldAt m (armCrcAt m + 4) 4)
          else (if 64 ≤ m.length then h.loadedHead m else h.loaded m).set ARM_STAT_STATE 2)
      else if 64 ≤ m.length then h.loadedHead m else h.loaded m)
      fun e => (if 64 ≤ m.length then h.loadedHead m else h.loaded m).maqFail e := by
  rintro m rfl
  have check : (if 64 ≤ (h.arm.maq ++ b).length then h.loadedHead (h.arm.maq ++ b) else h.loaded (h.arm.maq ++ b)).route = h.route
      ∧ (if 64 ≤ (h.arm.maq ++ b).length then h.loadedHead (h.arm.maq ++ b) else h.loaded (h.arm.maq ++ b)).arm.keys = h.arm.keys
      ∧ (if 64 ≤ (h.arm.maq ++ b).length then h.loadedHead (h.arm.maq ++ b) else h.loaded (h.arm.maq ++ b)).arm.sigReq = h.arm.sigReq := by
    split <;> exact ⟨rfl, rfl, rfl⟩
  obtain ⟨route, keys, sig⟩ := check
  have checked {r : Option ArmErr} (found : formatErr (if 64 ≤ (h.arm.maq ++ b).length then h.loadedHead (h.arm.maq ++ b) else h.loaded (h.arm.maq ++ b)).route
      (if 64 ≤ (h.arm.maq ++ b).length then h.loadedHead (h.arm.maq ++ b) else h.loaded (h.arm.maq ++ b)).arm.keys
      (if 64 ≤ (h.arm.maq ++ b).length then h.loadedHead (h.arm.maq ++ b) else h.loaded (h.arm.maq ++ b)).arm.sigReq (h.arm.maq ++ b) = r) :
      formatErr h.route h.arm.keys h.arm.sigReq (h.arm.maq ++ b) = r := by
    rw [← found, route, keys, sig]
  unfold Hub.loadBytes
  dsimp only
  split
  next e bad =>
    rw [checked bad]
    rfl
  next good =>
    rw [checked good]
    rfl

theorem Hub.loadData_idle (idle : h.get ARM_STAT_STATE ≠ 1) : h.loadData v = h.on ARM_STAT_WERR := if_neg idle

theorem Hub.loadData_loading (loading : h.get ARM_STAT_STATE = 1) : h.loadData v = h.loadBytes (leBytes 4 v) := if_pos loading

end bytes

/-! ## Failure -/

/-- FAILED, with the code and place of the error. -/
def Hub.failed (h : Hub) (e : ArmErr) : Hub :=
  (((((h.set ARM_STAT_STATE 4).set ARM_STAT_ERR e.code).set ARM_ERR_OFS e.ofs).set ARM_ERR_TYPE e.type).set ARM_ERR_INST e.inst).bump ARM_FAILS ARM_STAT_SAT

theorem Hub.failed_get (h : Hub) (e : ArmErr) {f : Field}
    (k : f.key ∉ [ARM_STAT_STATE, ARM_STAT_ERR, ARM_ERR_OFS, ARM_ERR_TYPE, ARM_ERR_INST, ARM_FAILS, ARM_STAT_SAT].map Field.key) :
    (h.failed e).get f = h.get f := by
  simp only [List.map_cons, List.map_nil, List.mem_cons, List.not_mem_nil, or_false, not_or] at k
  obtain ⟨state, err, ofs, type, inst, fails, sat⟩ := k
  rw [Hub.failed, Hub.bump_get_ne _ _ _ _ fails sat, Hub.get_set_ne _ _ _ _ inst, Hub.get_set_ne _ _ _ _ type, Hub.get_set_ne _ _ _ _ ofs,
    Hub.get_set_ne _ _ _ _ err, Hub.get_set_ne _ _ _ _ state]

theorem Hub.maqFail_eq (h : Hub) (e : ArmErr) : h.maqFail e
    = if ((h.failed e).commitCancel 6).get DEV_MODE_MODE = 2 then ((h.failed e).commitCancel 6).toIdle else (h.failed e).commitCancel 6 := rfl

theorem Hub.commitCancel_none {h : Hub} (r : Nat) (none : h.get ARM_STAT_COMMIT_PENDING = 0) : h.commitCancel r = h :=
  if_neg (by simp [Hub.bit_of_zero none])

/-- A pending commit that no bank was started for ends with its slot. -/
theorem Hub.commitCancel_pending {h : Hub} (r : Nat) {k : Nat} (pending : h.get ARM_STAT_COMMIT_PENDING = 1) (cold : h.arm.prestarted = false)
    (slot : h.schedOf 1 = some k) : h.commitCancel r
      = ((((h.set (SCHED_STATE k) 4).off ARM_STAT_COMMIT_PENDING).off ARM_COMMIT_SLOT_VALID).on ARM_STAT_COMMIT_REFUSED).set ARM_STAT_REASON r := by
  have ended : h.schedEndOf ownCommit scCancelled = h.set (SCHED_STATE k) 4 := by
    rw [Hub.schedEndOf, show h.schedOf ownCommit = some k from slot]
    rfl
  have off : (h.set (SCHED_STATE k) 4).commitOff = ((h.set (SCHED_STATE k) 4).off ARM_STAT_COMMIT_PENDING).off ARM_COMMIT_SLOT_VALID :=
    if_neg (by rw [Bool.not_eq_true]; exact cold)
  rw [Hub.commitCancel, if_pos (Hub.bit_of_one pending), ended, off]
  rfl

/-- The slot of a commit is found as before. -/
theorem Hub.failed_schedOf (h : Hub) (e : ArmErr) (owner : Nat) : (h.failed e).schedOf owner = h.schedOf owner := by
  refine List.find?_congr fun i m => ?_
  rw [List.mem_range] at m
  have state : (h.failed e).get (SCHED_STATE i) = h.get (SCHED_STATE i) := Hub.failed_get h e (by
    simp only [List.map_cons, List.map_nil, List.mem_cons, List.not_mem_nil, or_false, not_or, Field.key, SCHED_STATE, ARM_STAT_STATE, ARM_STAT_ERR,
      ARM_ERR_OFS, ARM_ERR_TYPE, ARM_ERR_INST, ARM_FAILS, ARM_STAT_SAT]
    omega)
  have holder : (h.failed e).get (SCHED_OWNER i) = h.get (SCHED_OWNER i) := Hub.failed_get h e (by
    simp only [List.map_cons, List.map_nil, List.mem_cons, List.not_mem_nil, or_false, not_or, Field.key, SCHED_OWNER, ARM_STAT_STATE, ARM_STAT_ERR,
      ARM_ERR_OFS, ARM_ERR_TYPE, ARM_ERR_INST, ARM_FAILS, ARM_STAT_SAT]
    omega)
  rw [Hub.schedPending, Hub.schedPending, state, holder]

theorem Hub.failed_arm (h : Hub) (e : ArmErr) : (h.failed e).arm = h.arm := by
  rw [Hub.failed, Hub.bump_arm]
  rfl

theorem Hub.maqFail_alone {h : Hub} (e : ArmErr) (none : h.get ARM_STAT_COMMIT_PENDING = 0) :
    h.maqFail e = if h.get DEV_MODE_MODE = 2 then (h.failed e).toIdle else h.failed e := by
  rw [Hub.maqFail_eq, Hub.commitCancel_none 6 ((h.failed_get e (by decide)).trans none), h.failed_get e (by decide)]

theorem Hub.maqFail_cancels {h : Hub} (e : ArmErr) {k : Nat} (pending : h.get ARM_STAT_COMMIT_PENDING = 1) (cold : h.arm.prestarted = false)
    (slot : h.schedOf 1 = some k) :
    let c := (((((h.failed e).set (SCHED_STATE k) 4).off ARM_STAT_COMMIT_PENDING).off ARM_COMMIT_SLOT_VALID).on ARM_STAT_COMMIT_REFUSED).set ARM_STAT_REASON 6
    h.maqFail e = if h.get DEV_MODE_MODE = 2 then c.toIdle else c := by
  have slotKey : DEV_MODE_MODE.key ≠ (SCHED_STATE k).key := by
    simp only [Field.key, DEV_MODE_MODE, SCHED_STATE]
    omega
  dsimp only
  rw [Hub.maqFail_eq, Hub.commitCancel_pending 6 ((h.failed_get e (by decide)).trans pending) (by rw [h.failed_arm e]; exact cold)
    ((h.failed_schedOf e 1).trans slot), Hub.get_set_ne _ _ _ _ (by decide), Hub.get_on_ne _ _ _ (by decide), Hub.get_off_ne _ _ _ (by decide),
    Hub.get_off_ne _ _ _ (by decide), Hub.get_set_ne _ _ _ _ slotKey, h.failed_get e (by decide)]

/-! ## COPY -/

section copy
variable {w : Hw}

theorem Hw.armCopy_refused (why : ¬w.hub.mayLoad = true ∨ w.hub.get ARM_SRC_ADDR % 4 ≠ 0) : w.armCopy = w.setHub (w.hub.on ARM_STAT_WERR) :=
  if_pos (why.imp_left fun k => by simpa using k)

/-- What the 64 bytes of the header make of a COPY. -/
def Hw.copyHead (w : Hw) : Hub := w.hub.loadBegin.loadBytes (memBytes w.mem.cells (w.hub.get ARM_SRC_ADDR) 64)

theorem Hw.armCopy_taken (may : w.hub.mayLoad = true) (aligned : w.hub.get ARM_SRC_ADDR % 4 = 0) : w.armCopy = w.setHub
    (if !w.hub.loadBegin.hostRange (w.hub.get ARM_SRC_ADDR) 64 then w.hub.loadBegin.maqFail copyErr
    else if w.copyHead.get ARM_STAT_STATE ≠ 1 then w.copyHead
    else if !w.copyHead.hostRange (w.hub.get ARM_SRC_ADDR) (w.copyHead.get ARM_TOTAL_LEN) then w.copyHead.maqFail copyErr
    else w.copyHead.loadBytes (memBytes w.mem.cells (w.hub.get ARM_SRC_ADDR + 64) (w.copyHead.get ARM_TOTAL_LEN - 64))) := by
  refine if_neg ?_
  rintro (no | odd)
  · simp [may] at no
  · exact odd aligned

end copy

/-! ## Validation and DISCARD -/

theorem Hub.validationDone_idle {h : Hub} (idle : h.get ARM_STAT_STATE ≠ 2) : h.validationDone = h := if_neg idle

theorem Hub.validationDone_checked {h : Hub} (checking : h.get ARM_STAT_STATE = 2) {r : Option ArmErr} (content : contentErr h h.arm.maq = r) :
    h.validationDone = r.elim (h.set ARM_STAT_STATE 3) fun e => h.maqFail e := by
  subst content
  refine (if_pos checking).trans ?_
  cases contentErr h h.arm.maq <;> rfl

theorem Hub.maqClear_get (h : Hub) : h.maqClear.get ARM_STAT_STATE = 0 ∧ h.maqClear.get ARM_LOAD_OFS = 0 ∧ h.maqClear.get ARM_TOTAL_LEN = 0
    ∧ h.maqClear.get ARM_ID_MAQ = 0 ∧ h.maqClear.get DEV_MODE_MODE = h.get DEV_MODE_MODE := by
  unfold Hub.maqClear Hub.offs
  simp only [List.foldl_cons, List.foldl_nil, Hub.get_setArm]
  simp (disch := decide) only [Hub.get_off_ne, Hub.get_off_same, and_self]

/-- DISCARD with no commit pending empties the maquette, and STAGING leads back to IDLE. -/
theorem Hub.discard_outcome {h : Hub} (may : h.mayStage = true) (none : h.get ARM_STAT_COMMIT_PENDING = 0) :
    h.discard.get ARM_STAT_STATE = 0 ∧ h.discard.get ARM_LOAD_OFS = 0 ∧ h.discard.get ARM_TOTAL_LEN = 0 ∧ h.discard.get ARM_ID_MAQ = 0
      ∧ h.discard.arm.maq = [] ∧ h.discard.get DEV_MODE_MODE = (if h.get DEV_MODE_MODE = 2 then 1 else h.get DEV_MODE_MODE) := by
  obtain ⟨state, ofs, total, id, mode⟩ := h.maqClear_get
  have discards : h.discard = if h.get DEV_MODE_MODE = 2 then h.maqClear.toIdle else h.maqClear := by
    refine (if_pos may).trans ?_
    rw [Hub.commitCancel_none 9 none, ← mode]
    rfl
  rw [discards]
  split
  · have kept {f : Field} (clock : f.key ∉ clockFields.map Field.key) (k : f.key ∉ [DEV_MODE_MODE, DEV_MODE_IN_TRANSITION, DEV_IRQ_MODE].map Field.key) :
        h.maqClear.toIdle.get f = h.maqClear.get f := (Hub.toIdle_get _ clock).trans (Hub.enter_get_ne _ _ k)
    refine ⟨?_, ?_, ?_, ?_, ?_, ?_⟩
    · rw [kept (by decide) (by decide), state]
    · rw [kept (by decide) (by decide), ofs]
    · rw [kept (by decide) (by decide), total]
    · rw [kept (by decide) (by decide), id]
    · rw [Hub.toIdle_arm]
      rfl
    · rw [Hub.toIdle_get _ (by decide), Hub.enter_mode _ (by decide)]
      rfl
  · exact ⟨state, ofs, total, id, rfl, mode⟩

/-- Settles O52: staging by where it is taken, bytes by their checks, a failure by the commit it cancels. -/
theorem stagingMaquette : Obligations.StagingMaquette := by
  refine ⟨fun s up => ?_, fun h e => ⟨fun none => Hub.maqFail_alone e none, fun k pending cold slot => Hub.maqFail_cancels e pending cold slot⟩⟩
  dsimp only
  rw [← Hub.mayLoad_iff, ← Hub.mayStage_iff]
  refine ⟨fun may => ?_, fun no => ?_, fun why => ?_, fun may aligned out => ?_, fun may aligned inside => ⟨fun stopped => ?_, fun loading far => ?_, fun loading near => ?_⟩,
    fun v => ⟨fun idle => ?_, fun loading => ?_⟩, fun idle => ?_, fun checking => ⟨fun e bad => ?_, fun good => ?_⟩, fun no => ?_, fun may none => ?_, ?_⟩
  · refine leads_onHub (exec_loadStart up) ?_
    rw [Hub.loadStart, if_pos may]
    exact Hub.loadBegin_outcome _
  · exact gives_onHub (exec_loadStart up) (if_neg no)
  · exact gives_onHw (exec_armCopy up) (Hw.armCopy_refused why)
  · refine gives_onHw (exec_armCopy up) ((Hw.armCopy_taken may aligned).trans (congrArg _ ?_))
    exact if_pos (by simp [out])
  · refine gives_onHw (exec_armCopy up) ((Hw.armCopy_taken may aligned).trans (congrArg _ ?_))
    exact (if_neg (by simp [inside])).trans (if_pos stopped)
  · refine gives_onHw (exec_armCopy up) ((Hw.armCopy_taken may aligned).trans (congrArg _ ?_))
    exact (if_neg (by simp [inside])).trans ((if_neg (not_not.2 loading)).trans (if_pos (by rw [Bool.not_eq_true']; exact far)))
  · refine gives_onHw (exec_armCopy up) ((Hw.armCopy_taken may aligned).trans (congrArg _ ?_))
    exact (if_neg (by simp [inside])).trans ((if_neg (not_not.2 loading)).trans (if_neg (by rw [Bool.not_eq_true', Bool.not_eq_false]; exact near)))
  · exact gives_onHub (exec_armLoadData up v) (Hub.loadData_idle idle)
  · have bytes := (Hub.loadData_loading (v := v.toNat) loading).trans (Hub.loadBytes_eq s.hw.hub (leBytes 4 v.toNat) _ rfl)
    refine ⟨fun short ok => ?_, fun head part ok => ?_, fun head whole ok unsigned => ?_, fun e bad => ?_⟩
    · refine gives_onHub (exec_armLoadData up v) (bytes.trans ?_)
      rw [ok]
      exact (if_neg fun k => absurd k.1 (Nat.not_le.2 short)).trans (if_neg (Nat.not_le.2 short))
    · refine gives_onHub (exec_armLoadData up v) (bytes.trans ?_)
      rw [ok]
      exact (if_neg fun k => absurd k.2 (Nat.not_le.2 part)).trans (if_pos head)
    · refine gives_onHub (exec_armLoadData up v) (bytes.trans ?_)
      rw [ok]
      refine (if_pos ⟨head, whole⟩).trans ((if_neg (by rw [Bool.not_eq_true]; exact unsigned)).trans ?_)
      rw [if_pos head]
      rfl
    · refine gives_onHub (exec_armLoadData up v) (bytes.trans ?_)
      rw [bad]
      rfl
  · exact gives_onHub (exec_whenUp_up (f := Hub.validationDone) up rfl) (Hub.validationDone_idle idle)
  · exact gives_onHub (exec_whenUp_up (f := Hub.validationDone) up rfl) (Hub.validationDone_checked checking bad)
  · exact gives_onHub (exec_whenUp_up (f := Hub.validationDone) up rfl) (Hub.validationDone_checked checking good)
  · exact gives_onHw (exec_discard up) (congrArg s.hw.setHub (if_neg no))
  · exact leads_onHw_hub (exec_discard up) rfl (Hub.discard_outcome may none)
  · exact gives_onHub (exec_armCntClr up) rfl

end Sys2Proof.Machine
end

section
/-! SUPPORT. The paged window and the scrubber (R249, R252, R447, R448). -/

namespace Sys2Proof.Machine

section window
variable {w : Hw}

theorem Hw.windowMerge_out {a : Nat} (v : Nat) (out : w.hub.hostPage (a / 4096) = false) : w.windowMerge a v = w.setHub (w.hub.on MEM_WERR) :=
  if_pos (by simp [out])

theorem Hw.windowMerge_bad {a : Nat} (v : Nat) (host : w.hub.hostPage (a / 4096) = true) (bad : w.mem.isBad a = true) :
    w.windowMerge a v = w.setHub (w.hub.ueAt a) := (if_neg (by simp [host])).trans (if_pos bad)

theorem Hw.windowMerge_good {a : Nat} (v : Nat) (host : w.hub.hostPage (a / 4096) = true) (good : w.mem.isBad a = false) :
    w.windowMerge a v = { w with mem := { w.mem with cells := memPut w.mem.cells a (leBytes 4 v) } } :=
  (if_neg (by simp [host])).trans (if_neg (by simp [good]))

/-- A page of the host region is no SYSTEM page. -/
theorem Hub.system_of_hostPage {h : Hub} {p : Nat} (host : h.hostPage p = true) : ¬p < sysPages := by
  simp only [Hub.hostPage, Bool.and_eq_true, decide_eq_true_eq] at host
  exact Nat.not_lt.2 host.1.1

theorem Hw.windowRead_system {off : Nat} (system : w.hub.windowAt off < 2 ^ 20) : w.windowRead off = (0, w) :=
  if_pos (by unfold sysPages; omega)

theorem Hw.windowRead_host {off : Nat} (host : w.hub.hostPage (w.hub.windowAt off / 4096) = true) : w.windowRead off
    = (w.mem.word (w.hub.windowAt off), if w.mem.isBad (w.hub.windowAt off) then w.onHub fun h => h.ueAt (w.hub.windowAt off) else w) :=
  (if_neg (Hub.system_of_hostPage host)).trans (if_pos host)

/-- WRITE64 at an aligned address replaces its word whole. -/
theorem Hw.windowWrite_pair {off : Nat} (v u : Nat) (aligned : w.hub.windowAt off % 8 = 0) (host : w.hub.hostPage (w.hub.windowAt off / 4096) = true) :
    w.windowWrite off v (some u) = w.setMem (w.mem.put64 (w.hub.windowAt off) (leBytes 4 v ++ leBytes 4 u)) :=
  (if_pos aligned).trans (if_pos host)

theorem Hw.windowAccess_write (p : Nat) {off : Nat} {v : Word} {u : Option Word} (up : w.hub.inService = true) :
    w.windowAccess p off (some (v, u)) 0 = w.windowWrite off v.toNat (u.map (·.toNat)) := if_neg (by simp [Hub.served_of_inService up])

theorem Hw.windowAccess_read (p : Nat) {off : Nat} (up : w.hub.inService = true) :
    w.windowAccess p off none 0 = (w.windowRead off).2.onHub fun h => h.setRd p (w.windowRead off).1 := if_neg (by simp [Hub.served_of_inService up])

/-- A read in whose word a single-bit error is corrected. -/
theorem Hw.windowAccess_corrected (p : Nat) {off : Nat} (up : w.hub.inService = true) : w.windowAccess p off none 1
    = ((w.onHub fun h => h.bump MEM_CE_COUNT MEM_SAT).windowRead off).2.onHub fun h =>
        h.setRd p ((w.onHub fun h => h.bump MEM_CE_COUNT MEM_SAT).windowRead off).1 := if_neg (by simp [Hub.served_of_inService up])

/-- A count of corrected words moves no window and no partition. -/
theorem Hub.windowAt_ce (h : Hub) (off : Nat) : (h.bump MEM_CE_COUNT MEM_SAT).windowAt off = h.windowAt off := by
  unfold Hub.windowAt
  rw [Hub.bump_get_ne _ _ _ _ (by decide) (by decide)]

theorem Hub.hostPage_ce (h : Hub) (p : Nat) : (h.bump MEM_CE_COUNT MEM_SAT).hostPage p = h.hostPage p := by
  unfold Hub.hostPage
  rw [Hub.bump_mm]

theorem Hw.scrubPass_runs (ce : Nat) (ues : List (Fin (2 ^ 28))) (on : w.hub.get MEM_SCRUB_EN = 1) (run : w.hub.pwr.phase = .run) :
    w.scrubPass ce ues = { w with hub := ues.foldl (fun g e => g.ueAt e.val) (w.hub.bumpBy MEM_CE_COUNT MEM_SAT ce)
                                  mem := ues.foldl (fun m e => m.spoil e.val) w.mem } := if_pos ⟨Hub.bit_of_one on, run⟩

theorem Hw.scrubPass_off (ce : Nat) (ues : List (Fin (2 ^ 28))) (off : w.hub.get MEM_SCRUB_EN = 0) : w.scrubPass ce ues = w :=
  if_neg fun k => by simp [Hub.bit_of_zero off] at k

end window

/-- Settles O37: an access by the page and the word it reaches, a pass of the scrubber by its enable. -/
theorem windowAndScrub : Obligations.WindowAndScrub := by
  intro s p off v u a
  dsimp only
  have up : s.hw.hub.inService = true := a.1
  have access (wr : Option (Word × Option Word)) (err : Fin 3) : exec (.windowAccess p off wr err) s = .next (s.onHw fun w => w.windowAccess p off wr err) := rfl
  refine ⟨fun out => ?_, fun host => ⟨fun good => ⟨?_, ?_⟩, fun bad => ⟨?_, ?_⟩, fun aligned => ?_⟩, fun system => ?_, fun host good => ?_,
    fun ce ues => ⟨fun on run => ?_, fun off => ?_⟩, ?_⟩
  · exact givesHw_onHw (access _ _) ((Hw.windowAccess_write p up).trans (Hw.windowMerge_out _ out))
  · exact givesHw_onHw (access _ _) ((Hw.windowAccess_write p up).trans (Hw.windowMerge_good _ host good))
  · refine givesHw_onHw (access _ _) ((Hw.windowAccess_read p up).trans ?_)
    rw [Hw.windowRead_host host]
    dsimp only
    rw [if_neg (by rw [Bool.not_eq_true]; exact good)]
    rfl
  · exact givesHw_onHw (access _ _) ((Hw.windowAccess_write p up).trans (Hw.windowMerge_bad _ host bad))
  · refine givesHw_onHw (access _ _) ((Hw.windowAccess_read p up).trans ?_)
    rw [Hw.windowRead_host host]
    dsimp only
    rw [if_pos (show s.hw.mem.isBad (s.hw.hub.windowAt off) = true from bad)]
    rfl
  · exact givesHw_onHw (access _ _) ((Hw.windowAccess_write p up).trans (Hw.windowWrite_pair _ _ aligned host))
  · refine givesHw_onHw (access _ _) ((Hw.windowAccess_read p up).trans ?_)
    rw [Hw.windowRead_system system]
    rfl
  · refine givesHw_onHw (access _ _) ((Hw.windowAccess_corrected p up).trans ?_)
    have corrected : (s.hw.onHub fun h => h.bump MEM_CE_COUNT MEM_SAT).hub.windowAt off = s.hw.hub.windowAt off := Hub.windowAt_ce _ _
    rw [Hw.windowRead_host (by rw [corrected, Hw.onHub_hub, Hub.hostPage_ce]; exact host), corrected]
    dsimp only
    rw [Hw.onHub_mem, if_neg (by rw [Bool.not_eq_true]; exact good)]
    rfl
  · exact givesHw_onHw (f := fun w => w.whenUp fun w => w.scrubPass ce ues) rfl ((Hw.whenUp_up up).trans (Hw.scrubPass_runs ce ues on run))
  · exact givesHw_onHw (f := fun w => w.whenUp fun w => w.scrubPass ce ues) rfl ((Hw.whenUp_up up).trans (Hw.scrubPass_off ce ues off))
  · exact gives_onHub (exec_hubWr_alone (a := fun _ => 0x6000) a rfl) rfl

end Sys2Proof.Machine
end

section
/-! SUPPORT. The push and pop ports of a queue, and acknowledgement (R256, R260, R261, R263, R264). -/

namespace Sys2Proof.Machine

theorem exec_pushLen {s : State} (a : s.alone) (q : Fin 256) (n : Fin (2 ^ 13)) : exec (.pushLen q n) s = .next (s.onHub fun h => h.pushLen q n) :=
  exec_hubWr_alone a rfl

theorem exec_push {s : State} (a : s.alone) (q : Fin 256) (v : Word) : exec (.push q v) s = .next (s.onHub fun h => h.push q v.toNat) :=
  exec_hubWr_alone a rfl

theorem exec_ack {s : State} (a : s.alone) (q : Fin 256) (v : Word) : exec (.ack q v) s = .next (s.onHub fun h => h.ackWrite q v.toNat) :=
  exec_hubWr_alone a rfl

theorem exec_replay {s : State} (a : s.alone) (q : Fin 256) : exec (.replay q) s = .next (s.onHub fun h => h.replay q) :=
  exec_hubWr_alone a rfl

theorem exec_popLoRead {s : State} (a : s.alone) (p : Fin 2) (q : Fin 256) :
    exec (.popLoRead p q) s = .next (s.onHub fun h => (h.popRead p q).2.setRd p (h.popRead p q).1) :=
  congrArg (fun h => Host.Outcome.next (s.withHub h)) (if_pos (Hub.served_of_inService a.1 _))

/-! ## Pressure -/

/-- Pressure is noted for the streams alone. -/
theorem Hub.press_keeps (h : Hub) (p : Nat) : (h.press p).regs = h.regs ∧ (h.press p).mm = h.mm := by
  unfold Hub.press
  dsimp only
  split
  · exact ⟨rfl, rfl⟩
  · split <;> exact ⟨rfl, rfl⟩

theorem Hub.press_q (h : Hub) (p q : Nat) : (h.press p).q q = h.q q := by
  unfold Hub.q
  rw [(h.press_keeps p).2]

/-! ## The push port -/

section push
variable {h : Hub} {q n v : Nat}

/-- A packet of `n` words opens. -/
def Hub.pushOpen (h : Hub) (q n : Nat) : Hub :=
  h.setQ q { h.q q with push := some (n, []), prods := ((h.q q).prods.filter fun p => p.prod != 4) ++ [{ prod := 4, tag := 0, need := need (4 * n) }] }

theorem Hub.pushLen_masked (mask : h.qMask q 4 = false) : h.pushLen q n = h.on (Q_WERR q) :=
  if_pos (by rw [Bool.not_eq_true']; exact mask)

theorem Hub.pushLen_unmasked (mask : h.qMask q 4 = true) : h.pushLen q n = if h.qFull q then h.on (Q_OVR q)
    else if n = 0 ∨ 4110 < n then h.on (Q_WERR q)
    else ((if (h.q q).push.isSome then h.bump (Q_REWINDS q) (Q_SAT q) else h).setQ q { h.q q with
        push := some (n, []), prods := ((h.q q).prods.filter fun p => p.prod != 4) ++ [{ prod := 4, tag := 0, need := need (4 * n) }] }).press
      ((if (h.q q).push.isSome then h.bump (Q_REWINDS q) (Q_SAT q) else h).get (Q_PARTITION q)) :=
  if_neg (by rw [Bool.not_eq_true', Bool.not_eq_false]; exact mask)

theorem Hub.pushLen_full (mask : h.qMask q 4 = true) (full : h.qFull q = true) : h.pushLen q n = h.on (Q_OVR q) :=
  (Hub.pushLen_unmasked mask).trans (if_pos full)

theorem Hub.pushLen_bad (mask : h.qMask q 4 = true) (room : h.qFull q = false) (bad : n = 0 ∨ 4110 < n) : h.pushLen q n = h.on (Q_WERR q) :=
  (Hub.pushLen_unmasked mask).trans ((if_neg (by rw [Bool.not_eq_true]; exact room)).trans (if_pos bad))

theorem Hub.pushLen_opens (mask : h.qMask q 4 = true) (room : h.qFull q = false) (some : n ≠ 0) (fits : n ≤ 4110) (none : (h.q q).push = none) :
    h.pushLen q n = (h.pushOpen q n).press (h.get (Q_PARTITION q)) := by
  refine (Hub.pushLen_unmasked mask).trans ((if_neg (by rw [Bool.not_eq_true]; exact room)).trans ((if_neg (by omega)).trans ?_))
  rw [none]
  rfl

/-- A packet still open is rewound and counted. -/
theorem Hub.pushLen_rewinds (mask : h.qMask q 4 = true) (room : h.qFull q = false) (nz : n ≠ 0) (fits : n ≤ 4110) {o : Nat × List Nat}
    (opened : (h.q q).push = some o) : h.pushLen q n = ((h.bump (Q_REWINDS q) (Q_SAT q)).pushOpen q n).press (h.get (Q_PARTITION q)) := by
  refine (Hub.pushLen_unmasked mask).trans ((if_neg (by rw [Bool.not_eq_true]; exact room)).trans ((if_neg (by omega)).trans ?_))
  have kept : (h.bump (Q_REWINDS q) (Q_SAT q)).get (Q_PARTITION q) = h.get (Q_PARTITION q) := by
    refine Hub.bump_get_ne _ _ _ _ ?_ ?_
    · simp only [Q_PARTITION, Q_REWINDS, Field.key]
      omega
    · simp only [Q_PARTITION, Q_SAT, Field.key]
      omega
  have same : (h.bump (Q_REWINDS q) (Q_SAT q)).q q = h.q q := by
    unfold Hub.q
    rw [Hub.bump_mm]
  unfold Hub.pushOpen
  rw [same, opened]
  simp only [Option.isSome_some, if_true, kept]

theorem Hub.push_masked (mask : h.qMask q 4 = false) : h.push q v = h.on (Q_WERR q) :=
  if_pos (by rw [Bool.not_eq_true']; exact mask)

theorem Hub.push_none (mask : h.qMask q 4 = true) (none : (h.q q).push = none) :
    h.push q v = if h.qFull q then h.on (Q_OVR q) else h.on (Q_WERR q) := by
  unfold Hub.push
  rw [if_neg (by rw [Bool.not_eq_true', Bool.not_eq_false]; exact mask), none]

/-- The packet that was open is none any more. -/
def Hub.pushEnd (h : Hub) (q : Nat) : Hub := (h.setQ q { h.q q with push := none }).prodEnd q 4 0

theorem Hub.push_open (mask : h.qMask q 4 = true) {k : Nat} {ws : List Nat} (opened : (h.q q).push = some (k, ws)) : ∃ old : Bool, h.push q v
    = if ws.length + 1 < k then h.setQ q { h.q q with push := some (k, v :: ws) }
      else ((h.pushEnd q).qAppend q
        { words := (v :: ws).reverse, len := 4 * k, fresh := (h.pushEnd q).bit (Q_FLUSH_BUSY q) && !old }).press ((h.pushEnd q).get (Q_PARTITION q)) := by
  unfold Hub.push
  rw [if_neg (by rw [Bool.not_eq_true', Bool.not_eq_false]; exact mask), opened]
  exact ⟨_, rfl⟩

/-- What the end of an open packet leaves of its queue. -/
theorem Hub.pushEnd_q (h : Hub) (q : Nat) : ((h.pushEnd q).q q).pkts = (h.q q).pkts ∧ ((h.pushEnd q).q q).nextSeq = (h.q q).nextSeq
    ∧ ((h.pushEnd q).q q).tail = (h.q q).tail ∧ ((h.pushEnd q).q q).push = none ∧ ∀ j, j ≠ q → (h.pushEnd q).q j = h.q j := by
  unfold Hub.pushEnd Hub.prodEnd
  dsimp only
  rw [Hub.setQ_q_same, Hub.setQ_q_same]
  refine ⟨rfl, rfl, rfl, rfl, fun j ne => ?_⟩
  rw [Hub.setQ_q_ne _ _ _ _ ne, Hub.setQ_q_ne _ _ _ _ ne]

theorem Hub.pushEnd_regs (h : Hub) (q : Nat) : (h.pushEnd q).regs = h.regs := rfl

/-- A packet that owes nothing is appended at the next QSEQ. -/
theorem Hub.qAppend_q (h : Hub) (q : Nat) {p : Pkt} (owes : p.owes = []) :
    ((h.qAppend q p).q q).pkts = (h.q q).pkts ++ [{ p with qseq := (h.q q).nextSeq, off := (h.q q).tail, owes := [] }]
    ∧ ((h.qAppend q p).q q).nextSeq = ((h.q q).nextSeq + 1) % 2 ^ 32 ∧ ((h.qAppend q p).q q).push = (h.q q).push
    ∧ (h.qAppend q p).regs = h.regs ∧ ∀ j, j ≠ q → (h.qAppend q p).q j = h.q j := by
  unfold Hub.qAppend
  rw [owes]
  dsimp only [Hub.settleAll, List.foldl_nil]
  rw [Hub.setQ_q_same]
  exact ⟨rfl, rfl, rfl, rfl, fun j ne => Hub.setQ_q_ne _ _ _ _ ne⟩

/-- The last word commits the packet at the queue's next QSEQ. -/
theorem Hub.push_commits (mask : h.qMask q 4 = true) {k : Nat} {ws : List Nat} (opened : (h.q q).push = some (k, ws)) (last : k ≤ ws.length + 1)
    (calm : h.get (Q_FLUSH_BUSY q) = 0) :
    ((h.push q v).q q).pkts = (h.q q).pkts ++ [{ words := ws.reverse ++ [v], len := 4 * k, qseq := (h.q q).nextSeq, off := (h.q q).tail }]
      ∧ ((h.push q v).q q).nextSeq = ((h.q q).nextSeq + 1) % 2 ^ 32 ∧ ((h.push q v).q q).push = none ∧ (h.push q v).regs = h.regs
      ∧ ∀ j, j ≠ q → (h.push q v).q j = h.q j := by
  have stale : (h.pushEnd q).bit (Q_FLUSH_BUSY q) = false := Hub.bit_of_zero ((Hub.get_of_regs _ _ (h.pushEnd_regs q) _).trans calm)
  obtain ⟨old, pushed⟩ := Hub.push_open (v := v) mask opened
  obtain ⟨pkts, next, tail, none, others⟩ := h.pushEnd_q q
  obtain ⟨pkts', next', push', regs', others'⟩ := (h.pushEnd q).qAppend_q q (p := { words := (v :: ws).reverse, len := 4 * k, fresh := false && !old }) rfl
  rw [pushed, if_neg (Nat.not_lt.2 last), stale, (Hub.press_keeps _ _).1, Hub.press_q]
  refine ⟨?_, ?_, push'.trans none, regs', fun j ne => ?_⟩
  · rw [pkts', pkts, next, tail, List.reverse_cons]
    rfl
  · rw [next', next]
  · rw [Hub.press_q, others' j ne, others j ne]

end push

/-! ## The pop port and acknowledgement -/

/-- The POP_HI word that a read of POP_LO leaves for its path. -/
def Hub.popSnap (h : Hub) (p q hi : Nat) : Hub := { h with snaps := aInsert h.snaps (snapKey p (0x40018 + 0x40 * q)) ⟨[hi], [0]⟩ }

section pop
variable {h : Hub} {p q v : Nat}

theorem Hub.popRead_linked (link : h.get (Q_CONSUMER q) = 0) : h.popRead p q = (0, (h.on (Q_WERR q)).popSnap p q ((h.q q).nextSeq % 2 ^ 16)) := by
  unfold Hub.popRead
  dsimp only
  rw [if_pos link]
  rfl

theorem Hub.popRead_empty (host : h.get (Q_CONSUMER q) = 1) (none : (h.q q).front = none) :
    h.popRead p q = (0, h.popSnap p q ((h.q q).nextSeq % 2 ^ 16)) := by
  unfold Hub.popRead
  dsimp only
  rw [if_neg (by omega), none]
  rfl

/-- A word of the packet in front: START, then SINGLE or END where it is the last. -/
theorem Hub.popRead_word (host : h.get (Q_CONSUMER q) = 1) {k0 k : Pkt} {h1 : Hub} (front : (h.q q).front = some k0)
    (read : (if k0.popped = 0 then h.readPkt q k0 else (k0, h)) = (k, h1)) :
    let left := k.out.length - k.popped - 1
    let g := h1.modPkt q k.qseq fun a => if left = 0 then { a with sent := true, popped := 0 } else { a with popped := k.popped + 1 }
    let y := g.setQ q { g.q q with popLen := k.out.length, popPoison := k.poison }
    h.popRead p q = (k.out.getD k.popped 0, (if k.poison then y.on (Q_POISON q) else y).popSnap p q
      ((if left = 0 then 3 else if k.popped = 0 then 1 else 2) * 2 ^ 30 + left % 2 ^ 14 * 2 ^ 16 + k.qseq % 2 ^ 16)) := by
  unfold Hub.popRead
  dsimp only
  rw [if_neg (by omega), front]
  dsimp only
  rw [read]
  rfl

/-- A queue all of whose packets are SENT has nothing in front. -/
theorem QSt.front_sent {x : QSt} (sent : ∀ k ∈ x.pkts, k.sent = true) : x.front = none := by
  have all (t : Pkt → Bool) : x.pkts.find? (fun p => !p.sent && t p) = none := by
    rw [List.find?_eq_none]
    intro k m
    simp [sent k m]
  have last : x.pkts.find? (fun p => !p.sent) = none := by
    rw [List.find?_eq_none]
    intro k m
    simp [sent k m]
  unfold QSt.front
  rw [all fun p => decide (0 < p.popped), all fun p => p.gap.isSome, last]

/-- What stands in front: the packet in progress, else a gap record, else the oldest COMMITTED packet. -/
theorem QSt.front_cases {x : QSt} {k : Pkt} (front : x.front = some k) :
    x.pkts.find? (fun p => !p.sent && decide (0 < p.popped)) = some k
    ∨ (x.pkts.find? (fun p => !p.sent && decide (0 < p.popped)) = none ∧ (x.pkts.find? (fun p => !p.sent && p.gap.isSome) = some k
      ∨ (x.pkts.find? (fun p => !p.sent && p.gap.isSome) = none ∧ x.pkts.find? (fun p => !p.sent) = some k))) := by
  unfold QSt.front at front
  split at front
  next p progress => exact .inl (progress.trans front)
  next idle =>
    refine .inr ⟨idle, ?_⟩
    split at front
    next p gap => exact .inl (gap.trans front)
    next plain => exact .inr ⟨plain, front⟩

theorem QSt.front_spec {x : QSt} {k : Pkt} (front : x.front = some k) : k ∈ x.pkts ∧ k.sent = false
    ∧ (k.popped = 0 → (∀ e ∈ x.pkts, e.sent = false → e.popped = 0) ∧ (k.gap = none → ∀ e ∈ x.pkts, e.sent = false → e.gap = none)) := by
  have found {t : Pkt → Bool} (f : x.pkts.find? (fun p => !p.sent && t p) = some k) : k ∈ x.pkts ∧ k.sent = false ∧ t k = true := by
    have holds := List.find?_some f
    simp only [Bool.and_eq_true, Bool.not_eq_true'] at holds
    exact ⟨List.mem_of_find?_eq_some f, holds⟩
  have idle (f : x.pkts.find? (fun p => !p.sent && decide (0 < p.popped)) = none) : ∀ e ∈ x.pkts, e.sent = false → e.popped = 0 := fun e m sent => by
    have no := List.find?_eq_none.1 f e m
    simp only [sent, Bool.not_false, Bool.true_and, decide_eq_true_eq] at no
    omega
  have plain (f : x.pkts.find? (fun p => !p.sent && p.gap.isSome) = none) : ∀ e ∈ x.pkts, e.sent = false → e.gap = none := fun e m sent => by
    have no := List.find?_eq_none.1 f e m
    simpa [sent] using no
  rcases QSt.front_cases front with progress | ⟨calm, gap | ⟨bare, oldest⟩⟩
  · obtain ⟨m, sent, started⟩ := found progress
    exact ⟨m, sent, fun zero => absurd started (by simp [zero])⟩
  · obtain ⟨m, sent, some⟩ := found gap
    exact ⟨m, sent, fun _ => ⟨idle calm, fun none => by simp [none] at some⟩⟩
  · have sent := List.find?_some oldest
    exact ⟨List.mem_of_find?_eq_some oldest, by simpa using sent, fun _ => ⟨idle calm, fun _ => plain bare⟩⟩

theorem Hub.ackWrite_linked (link : h.get (Q_CONSUMER q) = 0) : h.ackWrite q v = h.on (Q_WERR q) := if_pos link

theorem Hub.ackWrite_host (host : h.get (Q_CONSUMER q) = 1) : h.ackWrite q v
    = if (h.q q).pkts.any fun p => p.sent && p.qseq == v then h.freePkts q fun p => p.sent && serialLe p.qseq v
      else if serialLe v (h.get (Q_ACKED_QSEQ q)) ∧ !((h.q q).pkts.any fun p => p.qseq == v) ∧ (h.q q).nextSeq ≠ 0 then h
      else h.on (Q_WERR q) := if_neg (by omega)

theorem Hub.ackWrite_sent (host : h.get (Q_CONSUMER q) = 1) (sent : ∃ k ∈ (h.q q).pkts, k.sent = true ∧ k.qseq = v) :
    h.ackWrite q v = h.freePkts q fun p => p.sent && serialLe p.qseq v := by
  refine (Hub.ackWrite_host host).trans (if_pos ?_)
  obtain ⟨k, m, s, e⟩ := sent
  exact List.any_eq_true.2 ⟨k, m, by simp [s, e]⟩

theorem Hub.ackWrite_unsent (host : h.get (Q_CONSUMER q) = 1) (held : ∃ k ∈ (h.q q).pkts, k.qseq = v)
    (unsent : ∀ k ∈ (h.q q).pkts, k.qseq = v → k.sent = false) : h.ackWrite q v = h.on (Q_WERR q) := by
  refine (Hub.ackWrite_host host).trans ((if_neg ?_).trans (if_neg ?_))
  · rw [List.any_eq_true]
    rintro ⟨k, m, t⟩
    simp only [Bool.and_eq_true, beq_iff_eq] at t
    simp [unsent k m t.2] at t
  · rintro ⟨-, no, -⟩
    obtain ⟨k, m, e⟩ := held
    rw [Bool.not_eq_true', List.any_eq_false] at no
    exact no k m (by simp [e])

/-- A QSEQ already acknowledged changes nothing. -/
theorem Hub.ackWrite_again (host : h.get (Q_CONSUMER q) = 1) (gone : ∀ k ∈ (h.q q).pkts, k.qseq ≠ v) (acked : serialLe v (h.get (Q_ACKED_QSEQ q)) = true)
    (used : (h.q q).nextSeq ≠ 0) : h.ackWrite q v = h := by
  refine (Hub.ackWrite_host host).trans ((if_neg ?_).trans (if_pos ⟨acked, ?_, used⟩))
  · rw [List.any_eq_true]
    rintro ⟨k, m, t⟩
    simp only [Bool.and_eq_true, beq_iff_eq] at t
    exact gone k m t.2
  · rw [Bool.not_eq_true', List.any_eq_false]
    intro k m
    simpa using gone k m

theorem Hub.replay_linked (link : h.get (Q_CONSUMER q) = 0) : h.replay q = h.on (Q_WERR q) := if_pos link

theorem Hub.replay_host (host : h.get (Q_CONSUMER q) = 1) : h.replay q = h.setQ q { h.q q with
    pkts := (h.q q).pkts.map fun k => { k with sent := false, popped := 0, again := k.again || k.sent || decide (0 < k.popped) } } :=
  if_neg (by omega)

end pop

/-- The pop port, ACK and REPLAY of a queue. -/
theorem popPort (s : State) (p : Fin 2) (q : Fin 256) (v : Word) (a : s.alone) :
    let h := s.hw.hub
    let x := h.q q
    (h.get (Q_CONSUMER q) = 0 → Gives (.popLoRead p q) s (((h.on (Q_WERR q)).popSnap p q (x.nextSeq % 2 ^ 16)).setRd p 0)
        ∧ Gives (.ack q v) s (h.on (Q_WERR q)) ∧ Gives (.replay q) s (h.on (Q_WERR q)))
    ∧ (h.get (Q_CONSUMER q) = 1 →
      ((∀ k ∈ x.pkts, k.sent = true) → Gives (.popLoRead p q) s ((h.popSnap p q (x.nextSeq % 2 ^ 16)).setRd p 0))
      ∧ (∀ k0 k h1, x.front = some k0 → (if k0.popped = 0 then h.readPkt q k0 else (k0, h)) = (k, h1) →
          let left := k.out.length - k.popped - 1
          let tag := if left = 0 then 3 else if k.popped = 0 then 1 else 2
          let g := h1.modPkt q k.qseq fun a => if left = 0 then { a with sent := true, popped := 0 } else { a with popped := k.popped + 1 }
          let y := g.setQ q { g.q q with popLen := k.out.length, popPoison := k.poison }
          Gives (.popLoRead p q) s (((if k.poison then y.on (Q_POISON q) else y).popSnap p q
            (tag * 2 ^ 30 + left % 2 ^ 14 * 2 ^ 16 + k.qseq % 2 ^ 16)).setRd p (k.out.getD k.popped 0)))
      ∧ ((∃ k ∈ x.pkts, k.sent = true ∧ k.qseq = v.toNat) → Gives (.ack q v) s (h.freePkts q fun k => k.sent && serialLe k.qseq v.toNat))
      ∧ ((∃ k ∈ x.pkts, k.qseq = v.toNat) → (∀ k ∈ x.pkts, k.qseq = v.toNat → k.sent = false) → Gives (.ack q v) s (h.on (Q_WERR q)))
      ∧ ((∀ k ∈ x.pkts, k.qseq ≠ v.toNat) → serialLe v.toNat (h.get (Q_ACKED_QSEQ q)) = true → x.nextSeq ≠ 0 → Gives (.ack q v) s h)
      ∧ Gives (.replay q) s (h.setQ q { x with pkts := x.pkts.map fun k =>
          { k with sent := false, popped := 0, again := k.again || k.sent || decide (0 < k.popped) } })) := by
  have pops {r : Nat} {g : Hub} (read : s.hw.hub.popRead p q = (r, g)) : Gives (.popLoRead p q) s (g.setRd p r) :=
    gives_onHub (exec_popLoRead a p q) (by rw [read])
  dsimp only
  refine ⟨fun link => ⟨pops (Hub.popRead_linked link), ?_, ?_⟩, fun host => ⟨fun sent => ?_, fun k0 k h1 front read => ?_, fun sent => ?_,
    fun held unsent => ?_, fun gone acked used => ?_, ?_⟩⟩
  · exact gives_onHub (exec_ack a q v) (Hub.ackWrite_linked link)
  · exact gives_onHub (exec_replay a q) (Hub.replay_linked link)
  · exact pops (Hub.popRead_empty host (QSt.front_sent sent))
  · exact pops (Hub.popRead_word host front read)
  · exact gives_onHub (exec_ack a q v) (Hub.ackWrite_sent host sent)
  · exact gives_onHub (exec_ack a q v) (Hub.ackWrite_unsent host held unsent)
  · exact gives_onHub (exec_ack a q v) (Hub.ackWrite_again host gone acked used)
  · exact gives_onHub (exec_replay a q) (Hub.replay_host host)

/-- Settles O38: the push port by the mask, the room and the packet open; the pop port by the consumer and what stands in front. -/
theorem queuePorts : Obligations.QueuePorts := by
  refine ⟨fun s q n v a => ?_, fun s p q v a => popPort s p q v a, fun x k front => QSt.front_spec front⟩
  refine ⟨fun mask => ⟨?_, ?_⟩, fun mask => ⟨fun full => ⟨?_, fun none => ?_⟩, fun room => ⟨fun bad => ?_, fun nz fits => ⟨fun none => ?_, fun o opened => ?_⟩,
    fun none => ?_⟩, fun k ws opened => ⟨fun more => ?_, fun last calm => ?_⟩⟩⟩
  · exact gives_onHub (exec_pushLen a q n) (Hub.pushLen_masked mask)
  · exact gives_onHub (exec_push a q v) (Hub.push_masked mask)
  · exact gives_onHub (exec_pushLen a q n) (Hub.pushLen_full mask full)
  · exact gives_onHub (exec_push a q v) ((Hub.push_none mask none).trans (if_pos full))
  · exact gives_onHub (exec_pushLen a q n) (Hub.pushLen_bad mask room bad)
  · exact gives_onHub (exec_pushLen a q n) (Hub.pushLen_opens mask room nz fits none)
  · exact gives_onHub (exec_pushLen a q n) (Hub.pushLen_rewinds mask room nz fits opened)
  · exact gives_onHub (exec_push a q v) ((Hub.push_none mask none).trans (if_neg (by rw [Bool.not_eq_true]; exact room)))
  · obtain ⟨old, pushed⟩ := Hub.push_open (v := v.toNat) mask opened
    exact gives_onHub (exec_push a q v) (pushed.trans (if_pos more))
  · exact leads_onHub (exec_push a q v) (Hub.push_commits mask opened last calm)

end Sys2Proof.Machine
end

section
/-! SUPPORT. FLUSH, sacrificial discard, starvation and gap records (R257, R259, R262, R266, R267). -/

namespace Sys2Proof.Machine

/-! ## FLUSH -/

theorem exec_flush {s : State} (a : s.alone) (q : Fin 256) : exec (.flush q) s = .next (s.onHub fun h => h.flush q) := exec_hubWr_alone a rfl

section flush
variable {h : Hub} {q : Nat}

/-- The packets in progress are marked, and the queue waits for them. -/
def Hub.flushMarked (h : Hub) (q : Nat) : Hub :=
  (h.setQ q { h.q q with prods := (h.q q).prods.map fun p => { p with old := true }, pkts := (h.q q).pkts.map fun p => { p with fresh := false } }).on
    (Q_FLUSH_BUSY q)

theorem Hub.flushMarked_qState (h : Hub) (q : Nat) : (h.flushMarked q).qState q = h.qState q :=
  Hub.get_on_ne _ _ _ (by simp only [Q_STATE, Q_FLUSH_BUSY, Field.key]; omega)

theorem Hub.flush_refused (why : h.qState q = 0 ∨ h.get (Q_FLUSH_BUSY q) = 1) : h.flush q = h.on (Q_WERR q) :=
  if_pos (why.imp_right Hub.bit_of_one)

theorem Hub.flush_taken (idle : h.get (Q_FLUSH_BUSY q) = 0) (live : h.qState q ≠ 0) :
    h.flush q = if h.qState q = 1 then (h.flushMarked q).set (Q_STATE q) 2 else h.flushMarked q := by
  rw [← Hub.flushMarked_qState]
  refine if_neg ?_
  rintro (off | busy)
  · exact live off
  · simp [Hub.bit_of_zero idle] at busy

/-- The packets a completed flush discards. -/
def QSt.doomed (x : QSt) : List Pkt := x.pkts.filter fun p => !p.sent && !p.isGap && !p.fresh && p.popped == 0 && !p.moving

/-- The queue once they are discarded. -/
def Hub.flushedOut (h : Hub) (q : Nat) : Hub :=
  ((((h.q q).doomed.foldl (fun g p => g.dropPkt q p 1) h).off (Q_FLUSH_BUSY q)).on (Q_FLUSHED q)).log .qFlush q (h.q q).doomed.length 0

theorem Hub.flushComplete_waits (why : h.get (Q_FLUSH_BUSY q) = 0 ∨ ∃ p ∈ (h.q q).prods, p.old = true) : h.flushComplete q = h := by
  refine if_neg ?_
  simp only [Bool.and_eq_true, Bool.not_eq_true', List.any_eq_false]
  rintro ⟨busy, ended⟩
  rcases why with idle | ⟨p, m, old⟩
  · simp [Hub.bit_of_zero idle] at busy
  · exact ended p m old

theorem Hub.flushComplete_ends (busy : h.get (Q_FLUSH_BUSY q) = 1) (ended : ∀ p ∈ (h.q q).prods, p.old = false) : h.flushComplete q
    = (if (h.flushedOut q).qState q = 2 then (h.flushedOut q).set (Q_STATE q) 1 else h.flushedOut q).refill ((h.flushedOut q).get (Q_PARTITION q)) := by
  have partition (v : Nat) : ((h.flushedOut q).set (Q_STATE q) v).get (Q_PARTITION q) = (h.flushedOut q).get (Q_PARTITION q) :=
    Hub.get_set_ne _ _ _ _ (by simp only [Q_PARTITION, Q_STATE, Field.key]; omega)
  have runs : (h.bit (Q_FLUSH_BUSY q) && !(h.q q).prods.any (·.old)) = true := by
    simp only [Bool.and_eq_true, Bool.not_eq_true', List.any_eq_false]
    exact ⟨Hub.bit_of_one busy, fun p m => by simp [ended p m]⟩
  refine (if_pos runs).trans ?_
  by_cases flushing : (h.flushedOut q).qState q = 2
  · rw [if_pos flushing, ← partition 1]
    exact congrArg (fun g : Hub => g.refill (g.get (Q_PARTITION q))) (if_pos flushing)
  · rw [if_neg flushing]
    exact congrArg (fun g : Hub => g.refill (g.get (Q_PARTITION q))) (if_neg flushing)

end flush

/-! ## Starvation and gap records -/

section starved
variable {h : Hub} {q : Nat}

theorem Hub.starve_none (calm : ∀ p ∈ (h.q q).prods, p.granted = true ∨ 2 ≤ p.prod) : h.starve q = (h, none) := by
  have none : (h.q q).prods.find? (fun p => !p.granted && decide (p.prod ≤ prodRelief)) = none := by
    rw [List.find?_eq_none]
    intro p m
    rcases calm p m with granted | credited
    · simp [granted]
    · have acq : ¬p.prod ≤ prodRelief := by
        unfold prodRelief
        omega
      simp [acq]
  unfold Hub.starve
  rw [none]

theorem Hub.starve_some {r : Prod} (found : (h.q q).prods.find? (fun p => !p.granted && decide (p.prod ≤ 1)) = some r) (indexed : 0 < r.pkt.count) :
    let g := (((h.upTo (r.since + 50 * usU)).prodEnd q r.prod r.tag).on MEM_STARVED).settleAll r.pkt.owes
    h.starve q = (g.gapIssue q (g.gapOf r.pkt 1), some r) := by
  have found' : (h.q q).prods.find? (fun p => !p.granted && decide (p.prod ≤ prodRelief)) = some r := found
  unfold Hub.starve
  rw [found']
  dsimp only
  rw [if_pos indexed]

theorem Hub.starved_of_none (none : h.starve q = (h, none)) : h.starved q = h := by
  unfold Hub.starved
  rw [none]

theorem Hub.starved_relief {g : Hub} {r : Prod} (given : h.starve q = (g, some r)) (relief : r.prod = 1) : h.starved q = g := by
  unfold Hub.starved
  rw [given]
  exact if_neg (by rw [relief]; decide)

theorem Hub.gapObtained_none (none : (h.q q).waiting = []) : h.gapObtained q = h := by
  unfold Hub.gapObtained
  rw [none]
  rfl

theorem Hub.gapObtained_last {l : List GapInfo} {g : GapInfo} (last : (h.q q).waiting = l ++ [g]) :
    h.gapObtained q = (h.setQ q { h.q q with waiting := l }).gapIssue q g := by
  unfold Hub.gapObtained
  simp only [last, List.getLast?_append, List.getLast?_singleton, Option.some_or, List.dropLast_concat]

end starved

/-! ## Sacrificial discard -/

theorem Hub.candidate_spec {h : Hub} {q : Nat} {p : Pkt} (c : h.candidate q = some p) : h.qMask q 4 = false ∧ p ∈ (h.q q).pkts ∧ p.sent = false
    ∧ p.gap = none ∧ p.relayedGap = false ∧ p.moving = false := by
  unfold Hub.candidate at c
  split at c
  · simp at c
  next mask =>
    have may := List.find?_some c
    simp only [Pkt.candidate, Pkt.isGap, Bool.and_eq_true, Bool.not_eq_true', Bool.or_eq_false_iff, Option.isSome_eq_false_iff, Option.isNone_iff_eq_none] at may
    obtain ⟨⟨⟨sent, gap, relayed⟩, -⟩, moving⟩ := may
    exact ⟨by rw [← Bool.not_eq_true]; exact mask, List.mem_of_find?_eq_some c, sent, gap, relayed, moving⟩

/-- `v` gives its packet before `q`: a lower rank, then a higher number. -/
def Hub.givesBefore (h : Hub) (v q : Nat) : Prop :=
  h.get (Q_SAC_RANK v) ≤ h.get (Q_SAC_RANK q) ∧ (h.get (Q_SAC_RANK q) = h.get (Q_SAC_RANK v) → q ≤ v)

theorem Hub.givesBefore_refl (h : Hub) (v : Nat) : h.givesBefore v v := ⟨le_rfl, fun _ => le_rfl⟩

theorem Hub.givesBefore_trans {h : Hub} {a b c : Nat} (ab : h.givesBefore a b) (bc : h.givesBefore b c) : h.givesBefore a c := by
  unfold Hub.givesBefore at *
  omega

theorem Hub.victimLt_iff (h : Hub) (a b : Nat) : h.victimLt a b = true ↔ h.get (Q_SAC_RANK a) < h.get (Q_SAC_RANK b)
    ∨ (h.get (Q_SAC_RANK a) = h.get (Q_SAC_RANK b) ∧ b < a) := by simp [Hub.victimLt]

theorem Hub.givesBefore_of_victimLt {h : Hub} {a b : Nat} (lt : h.victimLt a b = true) : h.givesBefore a b := by
  rw [Hub.victimLt_iff] at lt
  unfold Hub.givesBefore
  omega

theorem Hub.givesBefore_of_not_victimLt {h : Hub} {a b : Nat} (ge : ¬h.victimLt a b = true) : h.givesBefore b a := by
  rw [Hub.victimLt_iff] at ge
  unfold Hub.givesBefore
  omega

theorem Hub.bestOf_none {h : Hub} {l : List Nat} (none : h.bestOf l = none) : l = [] := by
  cases l with
  | nil => rfl
  | cons a t =>
    unfold Hub.bestOf at none
    split at none <;> simp at none

theorem Hub.bestOf_spec {h : Hub} {l : List Nat} {v : Nat} (best : h.bestOf l = some v) : v ∈ l ∧ ∀ q ∈ l, h.givesBefore v q := by
  induction l generalizing v with
  | nil => simp [Hub.bestOf] at best
  | cons a t ih =>
    unfold Hub.bestOf at best
    split at best
    next last =>
      obtain rfl : a = v := Option.some.inj best
      rw [Hub.bestOf_none last]
      exact ⟨List.mem_cons_self, by simpa using h.givesBefore_refl a⟩
    next b rest =>
      obtain ⟨mem, before⟩ := ih rest
      split at best
      next lt =>
        obtain rfl : a = v := Option.some.inj best
        refine ⟨List.mem_cons_self, List.forall_mem_cons.2 ⟨h.givesBefore_refl a, fun q m => ?_⟩⟩
        exact Hub.givesBefore_trans (Hub.givesBefore_of_victimLt lt) (before q m)
      next ge =>
        obtain rfl : b = v := Option.some.inj best
        exact ⟨List.mem_cons_of_mem a mem, List.forall_mem_cons.2 ⟨Hub.givesBefore_of_not_victimLt ge, before⟩⟩

/-- The victim is the first to give among the sheddable queues, and where none is sheddable among all. -/
theorem Hub.victim_spec {h : Hub} {p v : Nat} (victim : h.victim p = some v) : v ∈ h.qsOf p ∧ h.candidate v ≠ none
    ∧ (h.get (Q_UNSHEDDABLE v) ≠ 0 → ∀ q ∈ h.qsOf p, h.candidate q ≠ none → h.get (Q_UNSHEDDABLE q) ≠ 0)
    ∧ ∀ q ∈ h.qsOf p, h.candidate q ≠ none → (h.get (Q_UNSHEDDABLE q) = 0 ↔ h.get (Q_UNSHEDDABLE v) = 0) → h.givesBefore v q := by
  have gives {q : Nat} : q ∈ (h.qsOf p).filter (fun q => (h.candidate q).isSome) ↔ q ∈ h.qsOf p ∧ h.candidate q ≠ none := by
    rw [List.mem_filter, ← Option.isSome_iff_ne_none]
  have sheds {q : Nat} : q ∈ ((h.qsOf p).filter fun q => (h.candidate q).isSome).filter (fun q => h.get (Q_UNSHEDDABLE q) == 0)
      ↔ (q ∈ h.qsOf p ∧ h.candidate q ≠ none) ∧ h.get (Q_UNSHEDDABLE q) = 0 := by
    rw [List.mem_filter, gives, beq_iff_eq]
  unfold Hub.victim at victim
  dsimp only at victim
  split at victim
  next b best =>
    obtain rfl : b = v := Option.some.inj victim
    obtain ⟨mem, before⟩ := Hub.bestOf_spec best
    obtain ⟨⟨there, has⟩, shed⟩ := sheds.1 mem
    exact ⟨there, has, fun k => absurd shed k, fun q m c same => before q (sheds.2 ⟨⟨m, c⟩, same.2 shed⟩)⟩
  next none =>
    obtain ⟨mem, before⟩ := Hub.bestOf_spec victim
    obtain ⟨there, has⟩ := gives.1 mem
    refine ⟨there, has, fun _ q m c shed => ?_, fun q m c _ => before q (gives.2 ⟨m, c⟩)⟩
    have empty := sheds.2 ⟨⟨m, c⟩, shed⟩
    rw [Hub.bestOf_none none] at empty
    simp at empty

/-- Settles O39: a flush by its marks and its end, starvation by what waits, the victim by rank and number. -/
theorem flushesAndDiscards : Obligations.FlushesAndDiscards := by
  refine ⟨fun s q a => ?_, fun s q up => ?_, fun h q p c => Hub.candidate_spec c, fun h p v victim => ?_, fun h p reason => ⟨rfl, rfl, rfl, rfl, rfl, rfl⟩⟩
  · have complete : exec (.flushComplete q) s = .next (s.onHub fun h => h.flushComplete q) := exec_whenUp_up a.1 rfl
    refine ⟨fun why => ?_, fun idle => ⟨fun active => ?_, fun draining => ?_⟩, fun why => ?_, fun busy ended => ⟨fun flushing => ?_, fun other => ?_⟩, ?_⟩
    · exact gives_onHub (exec_flush a q) (Hub.flush_refused why)
    · exact gives_onHub (exec_flush a q) ((Hub.flush_taken idle (by omega)).trans (if_pos active))
    · exact gives_onHub (exec_flush a q) ((Hub.flush_taken idle (by omega)).trans (if_neg (by omega)))
    · exact gives_onHub complete (Hub.flushComplete_waits why)
    · refine gives_onHub complete ((Hub.flushComplete_ends busy ended).trans ?_)
      exact congrArg (fun g : Hub => g.refill ((s.hw.hub.flushedOut q).get (Q_PARTITION q))) (if_pos flushing)
    · refine gives_onHub complete ((Hub.flushComplete_ends busy ended).trans ?_)
      exact congrArg (fun g : Hub => g.refill ((s.hw.hub.flushedOut q).get (Q_PARTITION q))) (if_neg other)
    · exact gives_onHub (f := fun h => h.qCntClr q) (exec_hubWr_alone a rfl) rfl
  · have starved : exec (.starved q) s = .next (s.onHub fun h => h.starved q) := exec_whenUp_up up rfl
    have obtained : exec (.gapRecordSlotObtained q) s = .next (s.onHub fun h => h.gapObtained q) := exec_whenUp_up up rfl
    refine ⟨fun calm => ?_, fun r found relief indexed => ?_, fun none => ?_, fun l g last => ?_⟩
    · exact gives_onHub starved (Hub.starved_of_none (Hub.starve_none calm))
    · exact gives_onHub starved (Hub.starved_relief (Hub.starve_some found indexed) relief)
    · exact gives_onHub obtained (Hub.gapObtained_none none)
    · exact gives_onHub obtained (Hub.gapObtained_last last)
  · obtain ⟨there, has, shed, before⟩ := Hub.victim_spec victim
    exact ⟨there, has, shed, before⟩

end Sys2Proof.Machine
end

section
/-! SUPPORT. DMA channels, their words and halts (R269 to R275). -/

namespace Sys2Proof.Machine

theorem Hw.hostWr_single {w : Hw} {a v : Nat} {f : Hw → Hw} (served : w.hub.served a = true) (standby : w.hub.dupStandby = false)
    (active : w.hub.dupActive = false) : w.hostWr a v f = f w := by
  cases own : mirroredAddr a <;> simp [Hw.hostWr, served, standby, active, own]

/-- A host write that reaches memory or flash acts outside any duplex section. -/
theorem exec_hwWr_alone {c : Instr} {s : State} {a : Hw → Nat} {v : Hw → Nat} {f : Hw → Hw} (up : s.alone)
    (e : exec c s = .next (s.onHw fun w => w.hostWr (a w) (v w) f)) : exec c s = .next (s.onHw f) := by
  rw [e]
  exact congrArg (fun w => Host.Outcome.next { s with hw := w }) (Hw.hostWr_single (Hub.served_of_inService up.1 _) up.2.1 up.2.2)

theorem exec_dmaGo {s : State} (a : s.alone) (c : Fin 32) : exec (.dmaGo c) s = .next (s.onHw fun w => w.dmaGo c) := exec_hwWr_alone a rfl

theorem exec_dmaResume {s : State} (a : s.alone) (c : Fin 32) : exec (.dmaResume c) s = .next (s.onHw fun w => w.dmaResume c) := exec_hwWr_alone a rfl

theorem exec_dmaAbort {s : State} (a : s.alone) (c : Fin 32) : exec (.dmaAbort c) s = .next (s.onHw fun w => w.dmaAbort c) := exec_hwWr_alone a rfl

/-- An event that reaches memory or flash acts while the hub is in service. -/
theorem exec_whenUpHw {c : Instr} {s : State} {f : Hw → Hw} (up : s.up) (e : exec c s = .next (s.onHw fun w => w.whenUp f)) :
    exec c s = .next (s.onHw f) := by
  rw [e]
  exact congrArg (fun w => Host.Outcome.next { s with hw := w }) (Hw.whenUp_up up)

/-! ## A halt (R274) -/

theorem Hw.dmaWriteBack_hub (w : Hw) (c code : Nat) (delayed poison : Bool) (len wait : Nat) : (w.dmaWriteBack c code delayed poison len wait).hub = w.hub := by
  unfold Hw.dmaWriteBack
  dsimp only
  split <;> rfl

theorem Hub.dmaShowLock_get_ne (h : Hub) (c : Nat) {f : Field} (lock : f.key ≠ (DMA_LOCK c).key) (held : f.key ≠ (DMA_LOCK_HELD c).key) :
    (h.dmaShowLock c).get f = h.get f := by
  unfold Hub.dmaShowLock
  split
  · rw [Hub.get_on_ne _ _ _ held, Hub.get_set_ne _ _ _ _ lock]
  · rw [Hub.get_off_ne _ _ _ held, Hub.get_off_ne _ _ _ lock]

theorem Hub.arbRelent_get (h : Hub) (who : Nat) (f : Field) : (h.arbRelent who).get f = h.get f := rfl

/-- What a halt records of the fault in the channel's registers. -/
def Hub.dmaFaulted (h : Hub) (c : Nat) (f : Halt) : Hub :=
  (((h.set (DMA_STATE c) dsHalted).set (DMA_FAULT c) f.code).set (DMA_FAULT_DST c) (b2n f.dst)).set (DMA_FAULT_ADDR c) f.addr

/-- What a halt counts, raises and logs, with the locks shown. -/
def Hub.dmaNoted (h : Hub) (c : Nat) (f : Halt) : Hub :=
  ((((h.bump (DMA_FAULTS c) (DMA_SAT c)).irqDma c).log .dmaFault c f.code f.addr).dmaShowLock c).arbRelent (ownDma c)

theorem Hw.dmaHalt_hub (w : Hw) (c : Nat) (f : Halt) : ∃ d, (w.dmaHalt c f).hub = ((w.hub.dmaFaulted c f).setDma c d).dmaNoted c f := by
  unfold Hw.dmaHalt
  dsimp only
  rw [Hw.onHub_hub, Hw.dmaWriteBack_hub]
  exact ⟨_, rfl⟩

/-- The registers that the note of a halt may change. -/
def dmaNoteFields (c : Nat) : List Field :=
  [DMA_FAULTS c, DMA_SAT c, DEV_PEND_DMA, LOG_OVERWRITES, LOG_SAT, LOG_NEW, DEV_IRQ_LOG, DMA_LOCK c, DMA_LOCK_HELD c]

theorem Hub.dmaNoted_get_ne (h : Hub) (c : Nat) (f : Halt) {g : Field} (k : g.key ∉ (dmaNoteFields c).map Field.key) : (h.dmaNoted c f).get g = h.get g := by
  simp only [dmaNoteFields, List.map_cons, List.map_nil, List.mem_cons, List.not_mem_nil, or_false, not_or] at k
  obtain ⟨faults, sat, pend, overwrites, logSat, new, irq, lock, held⟩ := k
  rw [Hub.dmaNoted, Hub.arbRelent_get, Hub.dmaShowLock_get_ne _ _ lock held, Hub.log_get_ne _ _ _ _ _ _ (by simp [overwrites, logSat, new, irq]), Hub.irqDma, Hub.setBit_get_ne _ _ _ _ pend,
    Hub.bump_get_ne _ _ _ _ faults sat]

/-- The fields of a channel stand apart from what a halt notes. -/
theorem dmaNoteFields_apart {c : Nat} (hc : c < 32) : ∀ f ∈ [DMA_STATE c, DMA_FAULT c, DMA_FAULT_DST c, DMA_FAULT_ADDR c, DMA_PROGRESS c, DMA_CUR_DESC c],
    f.key ∉ (dmaNoteFields c).map Field.key := by
  simp only [dmaNoteFields, List.map_cons, List.map_nil, List.mem_cons, List.not_mem_nil, or_false, forall_eq_or_imp, forall_eq, not_or, Field.key, DMA_STATE,
    DMA_FAULT, DMA_FAULT_DST, DMA_FAULT_ADDR, DMA_PROGRESS, DMA_CUR_DESC, DMA_FAULTS, DMA_SAT, DEV_PEND_DMA, LOG_OVERWRITES, LOG_SAT, LOG_NEW, DEV_IRQ_LOG,
    DMA_LOCK, DMA_LOCK_HELD]
  omega

theorem Hw.dmaHalt_get {w : Hw} {c : Nat} (hc : c < 32) (f : Halt) {g : Field}
    (mem : g ∈ [DMA_STATE c, DMA_FAULT c, DMA_FAULT_DST c, DMA_FAULT_ADDR c, DMA_PROGRESS c, DMA_CUR_DESC c]) :
    (w.dmaHalt c f).hub.get g = (w.hub.dmaFaulted c f).get g := by
  obtain ⟨d, halted⟩ := w.dmaHalt_hub c f
  rw [halted, Hub.dmaNoted_get_ne _ _ _ (dmaNoteFields_apart hc g mem)]
  rfl

/-- The fields that the record of a fault fills, each apart from those written after it. -/
theorem dmaFaulted_keys (c : Nat) : (DMA_STATE c).key ≠ (DMA_FAULT c).key ∧ (DMA_STATE c).key ≠ (DMA_FAULT_DST c).key
    ∧ (DMA_STATE c).key ≠ (DMA_FAULT_ADDR c).key ∧ (DMA_FAULT c).key ≠ (DMA_FAULT_DST c).key ∧ (DMA_FAULT c).key ≠ (DMA_FAULT_ADDR c).key
    ∧ (DMA_FAULT_DST c).key ≠ (DMA_FAULT_ADDR c).key := by
  simp only [Field.key, DMA_STATE, DMA_FAULT, DMA_FAULT_DST, DMA_FAULT_ADDR]
  omega

/-- A halted channel keeps code, side and address of what stopped it. -/
theorem Hw.dmaHalt_fault (w : Hw) {c : Nat} (hc : c < 32) (f : Halt) : (w.dmaHalt c f).hub.get (DMA_STATE c) = 3
    ∧ (w.dmaHalt c f).hub.get (DMA_FAULT c) = f.code % 16 ∧ (w.dmaHalt c f).hub.get (DMA_FAULT_DST c) = b2n f.dst
    ∧ (w.dmaHalt c f).hub.get (DMA_FAULT_ADDR c) = f.addr % 2 ^ 32 := by
  obtain ⟨sf, sd, sa, fd, fa, da⟩ := dmaFaulted_keys c
  refine ⟨?_, ?_, ?_, ?_⟩
  · rw [Hw.dmaHalt_get hc f (by simp), Hub.dmaFaulted, Hub.get_set_ne _ _ _ _ sa, Hub.get_set_ne _ _ _ _ sd, Hub.get_set_ne _ _ _ _ sf]
    exact Hub.get_set_same _ _ _
  · rw [Hw.dmaHalt_get hc f (by simp), Hub.dmaFaulted, Hub.get_set_ne _ _ _ _ fa, Hub.get_set_ne _ _ _ _ fd]
    exact Hub.get_set_same _ _ _
  · rw [Hw.dmaHalt_get hc f (by simp), Hub.dmaFaulted, Hub.get_set_ne _ _ _ _ da]
    refine (Hub.get_set_same _ _ _).trans ?_
    cases f.dst <;> rfl
  · rw [Hw.dmaHalt_get hc f (by simp), Hub.dmaFaulted]
    exact Hub.get_set_same _ _ _

/-- Fields that the record of a fault leaves. -/
theorem Hub.dmaFaulted_get_ne (h : Hub) (c : Nat) (f : Halt) {g : Field}
    (k : g.key ∉ [DMA_STATE c, DMA_FAULT c, DMA_FAULT_DST c, DMA_FAULT_ADDR c].map Field.key) : (h.dmaFaulted c f).get g = h.get g := by
  simp only [List.map_cons, List.map_nil, List.mem_cons, List.not_mem_nil, or_false, not_or] at k
  obtain ⟨state, fault, dst, addr⟩ := k
  rw [Hub.dmaFaulted, Hub.get_set_ne _ _ _ _ addr, Hub.get_set_ne _ _ _ _ dst, Hub.get_set_ne _ _ _ _ fault, Hub.get_set_ne _ _ _ _ state]

/-- A halt keeps where the descriptor stood. -/
theorem Hw.dmaHalt_keeps (w : Hw) {c : Nat} (hc : c < 32) (f : Halt) : (w.dmaHalt c f).hub.get (DMA_PROGRESS c) = w.hub.get (DMA_PROGRESS c)
    ∧ (w.dmaHalt c f).hub.get (DMA_CUR_DESC c) = w.hub.get (DMA_CUR_DESC c) := by
  constructor
  · rw [Hw.dmaHalt_get hc f (by simp), Hub.dmaFaulted_get_ne]
    simp only [List.map_cons, List.map_nil, List.mem_cons, List.not_mem_nil, or_false, not_or, Field.key, DMA_STATE, DMA_FAULT, DMA_FAULT_DST, DMA_FAULT_ADDR,
      DMA_PROGRESS]
    omega
  · rw [Hw.dmaHalt_get hc f (by simp), Hub.dmaFaulted_get_ne]
    simp only [List.map_cons, List.map_nil, List.mem_cons, List.not_mem_nil, or_false, not_or, Field.key, DMA_STATE, DMA_FAULT, DMA_FAULT_DST, DMA_FAULT_ADDR,
      DMA_CUR_DESC]
    omega

/-- A halt is counted. -/
theorem Hw.dmaHalt_counts (w : Hw) {c : Nat} (hc : c < 32) (f : Halt) :
    (w.dmaHalt c f).hub.get (DMA_FAULTS c) = min (w.hub.get (DMA_FAULTS c) + 1) (2 ^ 32 - 1) := by
  have apart : (DMA_FAULTS c).key ≠ (DMA_SAT c).key ∧ (DMA_FAULTS c).key ≠ DEV_PEND_DMA.key ∧ (DMA_FAULTS c).key ≠ (DMA_LOCK c).key
      ∧ (DMA_FAULTS c).key ≠ (DMA_LOCK_HELD c).key := by
    simp only [Field.key, DMA_FAULTS, DMA_SAT, DEV_PEND_DMA, DMA_LOCK, DMA_LOCK_HELD]
    omega
  have unlogged : (DMA_FAULTS c).key ∉ [LOG_OVERWRITES, LOG_SAT, LOG_NEW, DEV_IRQ_LOG].map Field.key := by
    simp only [List.map_cons, List.map_nil, List.mem_cons, List.not_mem_nil, or_false, not_or, Field.key, DMA_FAULTS, LOG_OVERWRITES, LOG_SAT, LOG_NEW, DEV_IRQ_LOG]
    omega
  have unrecorded : (DMA_FAULTS c).key ∉ [DMA_STATE c, DMA_FAULT c, DMA_FAULT_DST c, DMA_FAULT_ADDR c].map Field.key := by
    simp only [List.map_cons, List.map_nil, List.mem_cons, List.not_mem_nil, or_false, not_or, Field.key, DMA_STATE, DMA_FAULT, DMA_FAULT_DST, DMA_FAULT_ADDR,
      DMA_FAULTS]
    omega
  obtain ⟨sat, pend, lock, held⟩ := apart
  obtain ⟨d, halted⟩ := w.dmaHalt_hub c f
  rw [halted]
  rw [Hub.dmaNoted, Hub.arbRelent_get, Hub.dmaShowLock_get_ne _ _ lock held, Hub.log_get_ne _ _ _ _ _ _ unlogged, Hub.irqDma, Hub.setBit_get_ne _ _ _ _ pend, Hub.bump_get _ _ _ sat,
    Hub.setDma_get, Hub.dmaFaulted_get_ne _ _ _ unrecorded]
  rfl

/-! ## Words (R270) -/

section word
variable {w : Hw} {c : Nat} {d : Desc}

theorem Hw.dmaWord_moves (v : Nat) (src : d.srcKind = 0) (dst : d.dstKind = 0) (from_ : w.hub.dmaPage c (memEnd d.src + w.hub.get (DMA_PROGRESS c)) = true)
    (into : w.hub.dmaPage c (memEnd d.dst + w.hub.get (DMA_PROGRESS c)) = true) (good : w.mem.isBad (memEnd d.src + w.hub.get (DMA_PROGRESS c)) = false) :
    w.dmaWord c d v = ((w.setMem (w.mem.put (memEnd d.dst + w.hub.get (DMA_PROGRESS c))
      (leBytes 4 (w.mem.word (memEnd d.src + w.hub.get (DMA_PROGRESS c)))))).onHub fun h => h.dmaMoved c, none) := by
  unfold Hw.dmaWord
  simp [ekMem, src, dst, from_, into, good]

theorem Hw.dmaWord_source (v : Nat) (src : d.srcKind = 0) (out : w.hub.dmaPage c (memEnd d.src + w.hub.get (DMA_PROGRESS c)) = false) :
    w.dmaWord c d v = (w, some ⟨1, false, memEnd d.src + w.hub.get (DMA_PROGRESS c)⟩) :=
  if_pos ⟨src, by simp [out]⟩

theorem Hw.dmaWord_target (v : Nat) (src : d.srcKind = 0) (dst : d.dstKind = 0) (from_ : w.hub.dmaPage c (memEnd d.src + w.hub.get (DMA_PROGRESS c)) = true)
    (good : w.mem.isBad (memEnd d.src + w.hub.get (DMA_PROGRESS c)) = false) (out : w.hub.dmaPage c (memEnd d.dst + w.hub.get (DMA_PROGRESS c)) = false) :
    w.dmaWord c d v = (w, some ⟨1, true, memEnd d.dst + w.hub.get (DMA_PROGRESS c)⟩) := by
  unfold Hw.dmaWord
  simp [ekMem, dfPage, src, dst, from_, good, out]

end word

/-! ## Fetching and running a descriptor (R272, R273) -/

section fetch
variable {w : Hw} {c : Nat}

/-- A channel that fetches its descriptor runs, with nothing recorded of the one before. -/
def Hub.dmaFresh (h : Hub) (c : Nat) : Hub := (((h.set (DMA_STATE c) dsRunning).off (DMA_FAULT c)).off (DMA_PROGRESS c)).setDma c {}

theorem Hub.dmaFresh_get_ne (h : Hub) (c : Nat) {f : Field} (k : f.key ∉ [DMA_STATE c, DMA_FAULT c, DMA_PROGRESS c].map Field.key) :
    (h.dmaFresh c).get f = h.get f := by
  simp only [List.map_cons, List.map_nil, List.mem_cons, List.not_mem_nil, or_false, not_or] at k
  obtain ⟨state, fault, progress⟩ := k
  rw [Hub.dmaFresh, Hub.setDma_get, Hub.get_off_ne _ _ _ progress, Hub.get_off_ne _ _ _ fault, Hub.get_set_ne _ _ _ _ state]

theorem Hub.dmaFresh_cur (h : Hub) (c : Nat) : (h.dmaFresh c).get (DMA_CUR_DESC c) = h.get (DMA_CUR_DESC c) := by
  refine Hub.dmaFresh_get_ne _ _ ?_
  simp only [List.map_cons, List.map_nil, List.mem_cons, List.not_mem_nil, or_false, not_or, Field.key, DMA_STATE, DMA_FAULT, DMA_PROGRESS, DMA_CUR_DESC]
  omega

theorem Hub.dmaFresh_page (h : Hub) (c a : Nat) : (h.dmaFresh c).dmaPage c a = h.dmaPage c a := by
  have first : (h.dmaFresh c).get (DMA_PAGE_FIRST c) = h.get (DMA_PAGE_FIRST c) := by
    refine Hub.dmaFresh_get_ne _ _ ?_
    simp only [List.map_cons, List.map_nil, List.mem_cons, List.not_mem_nil, or_false, not_or, Field.key, DMA_STATE, DMA_FAULT, DMA_PROGRESS, DMA_PAGE_FIRST]
    omega
  have last : (h.dmaFresh c).get (DMA_PAGE_LAST c) = h.get (DMA_PAGE_LAST c) := by
    refine Hub.dmaFresh_get_ne _ _ ?_
    simp only [List.map_cons, List.map_nil, List.mem_cons, List.not_mem_nil, or_false, not_or, Field.key, DMA_STATE, DMA_FAULT, DMA_PROGRESS, DMA_PAGE_LAST]
    omega
  unfold Hub.dmaPage
  rw [first, last]
  rfl

theorem Hub.dmaFresh_regs (h : Hub) (c : Nat) : (h.dmaFresh c).get (DMA_FAULT c) = 0 ∧ (h.dmaFresh c).get (DMA_PROGRESS c) = 0 := by
  have apart : (DMA_FAULT c).key ≠ (DMA_PROGRESS c).key := by
    simp only [Field.key, DMA_FAULT, DMA_PROGRESS]
    omega
  refine ⟨?_, ?_⟩
  · rw [Hub.dmaFresh, Hub.setDma_get, Hub.get_off_ne _ _ _ apart, Hub.get_off_same]
  · rw [Hub.dmaFresh, Hub.setDma_get, Hub.get_off_same]

theorem Hw.dmaFetch_eq (w : Hw) (c : Nat) : ∀ a, a = w.hub.get (DMA_CUR_DESC c) → w.dmaFetch c
    = if !w.hub.dmaPage c a then (w.onHub fun h => h.dmaFresh c).dmaHalt c ⟨dfPage, false, a⟩
      else if (List.range 8).any fun i => w.mem.isBad (a + 8 * i) then ((w.onHub fun h => h.dmaFresh c).onHub fun h => h.ueAt a).dmaHalt c ⟨dfEcc, false, a⟩
      else if a % 64 ≠ 0 ∨ !(parseDesc a (memBytes w.mem.cells a 64)).ok then (w.onHub fun h => h.dmaFresh c).dmaHalt c ⟨dfBadDesc, false, a⟩
      else ((w.onHub fun h => h.dmaFresh c).onHub fun h => h.setDma c { h.dmaSt c with desc := some (parseDesc a (memBytes w.mem.cells a 64)) }).dmaLock c
        (parseDesc a (memBytes w.mem.cells a 64)) true := by
  rintro a rfl
  rw [← Hub.dmaFresh_cur, ← Hub.dmaFresh_page]
  rfl

theorem Hw.dmaBegin_mem (w : Hw) {d : Desc} (src : d.srcKind = 0) (dst : d.dstKind = 0) : w.dmaBegin c d
    = w.onHub fun h => (h.set (DMA_STATE c) dsRunning).setDma c { h.dmaSt c with moving := true, producing := false } := by
  unfold Hw.dmaBegin
  simp [ekQueue, ekRemote, src, dst]
  rfl

theorem Hw.dmaLock_free (w : Hw) {d : Desc} (free : d.lockAcq = false) : w.dmaLock c d true = w.dmaBegin c d := if_pos (by simp [free])

end fetch

/-- GO takes DESC into CUR_DESC. -/
def Hub.dmaStarted (h : Hub) (c : Nat) : Hub := h.set (DMA_CUR_DESC c) (h.get (DMA_DESC c))

section go
variable {h : Hub} {c : Nat}

theorem Hub.dmaStarted_cur (small : h.get (DMA_DESC c) < 2 ^ 28) : (h.dmaStarted c).get (DMA_CUR_DESC c) = h.get (DMA_DESC c) :=
  (Hub.get_set_same _ _ _).trans (Nat.mod_eq_of_lt small)

theorem Hub.dmaStarted_page (a : Nat) : (h.dmaStarted c).dmaPage c a = h.dmaPage c a := by
  have first : (h.dmaStarted c).get (DMA_PAGE_FIRST c) = h.get (DMA_PAGE_FIRST c) :=
    Hub.get_set_ne _ _ _ _ (by simp only [Field.key, DMA_PAGE_FIRST, DMA_CUR_DESC]; omega)
  have last : (h.dmaStarted c).get (DMA_PAGE_LAST c) = h.get (DMA_PAGE_LAST c) :=
    Hub.get_set_ne _ _ _ _ (by simp only [Field.key, DMA_PAGE_LAST, DMA_CUR_DESC]; omega)
  unfold Hub.dmaPage
  rw [first, last]
  rfl

/-- A descriptor from MEM to MEM that runs. -/
def Hub.dmaRunning (h : Hub) (c : Nat) (d : Desc) : Hub :=
  let g := (h.dmaStarted c).dmaFresh c
  let g := g.setDma c { g.dmaSt c with desc := some d }
  (g.set (DMA_STATE c) dsRunning).setDma c { g.dmaSt c with moving := true, producing := false }

theorem Hub.dmaRunning_st (h : Hub) (c : Nat) (d : Desc) : ((h.dmaRunning c d).dmaSt c).desc = some d ∧ ((h.dmaRunning c d).dmaSt c).moving = true := by
  unfold Hub.dmaRunning
  dsimp only
  rw [Hub.setDma_dmaSt_same, Hub.setDma_dmaSt_same]
  exact ⟨rfl, rfl⟩

theorem Hub.dmaRunning_get (h : Hub) (c : Nat) (d : Desc) (f : Field) : (h.dmaRunning c d).get f = (((h.dmaStarted c).dmaFresh c).set (DMA_STATE c) dsRunning).get f :=
  rfl

theorem Hub.dmaRunning_regs (small : h.get (DMA_DESC c) < 2 ^ 28) (d : Desc) : (h.dmaRunning c d).get (DMA_STATE c) = 1
    ∧ (h.dmaRunning c d).get (DMA_FAULT c) = 0 ∧ (h.dmaRunning c d).get (DMA_CUR_DESC c) = h.get (DMA_DESC c) ∧ (h.dmaRunning c d).get (DMA_PROGRESS c) = 0
    ∧ OnlyRegs [DMA_STATE c, DMA_FAULT c, DMA_CUR_DESC c, DMA_PROGRESS c] h (h.dmaRunning c d) := by
  obtain ⟨fault, progress⟩ := (h.dmaStarted c).dmaFresh_regs c
  refine ⟨?_, ?_, ?_, ?_, fun f k => ?_⟩
  · rw [Hub.dmaRunning_get]
    exact Hub.get_set_same _ _ _
  · rw [Hub.dmaRunning_get, Hub.get_set_ne _ _ _ _ (by simp only [Field.key, DMA_FAULT, DMA_STATE]; omega), fault]
  · rw [Hub.dmaRunning_get, Hub.get_set_ne _ _ _ _ (by simp only [Field.key, DMA_CUR_DESC, DMA_STATE]; omega), Hub.dmaFresh_cur, Hub.dmaStarted_cur small]
  · rw [Hub.dmaRunning_get, Hub.get_set_ne _ _ _ _ (by simp only [Field.key, DMA_PROGRESS, DMA_STATE]; omega), progress]
  · simp only [List.map_cons, List.map_nil, List.mem_cons, List.not_mem_nil, or_false, not_or] at k
    obtain ⟨state, notFault, cur, notProgress⟩ := k
    rw [Hub.dmaRunning_get, Hub.get_set_ne _ _ _ _ state, Hub.dmaFresh_get_ne _ _ (by simp [state, notFault, notProgress])]
    exact Hub.get_set_ne _ _ _ _ cur

end go

/-- GO in IDLE: the descriptor is fetched, and its page, form and endpoints decide. -/
theorem dmaGo_idle {s : State} (a : s.alone) (c : Fin 32) :
    let w := s.hw
    let h := w.hub
    let b := h.get (DMA_DESC c)
    let d := parseDesc b (memBytes w.mem.cells b 64)
    h.get (DMA_STATE c) = 0 → b < 2 ^ 28 → GivesHw (.dmaGo c) s ((w.onHub fun h => h.set (DMA_CUR_DESC c) (h.get (DMA_DESC c))).dmaFetch c)
      ∧ (h.dmaPage c b = false → LeadsHw (.dmaGo c) s fun w' => w'.hub.get (DMA_STATE c) = 3 ∧ w'.hub.get (DMA_FAULT c) = 1 ∧ w'.hub.get (DMA_FAULT_ADDR c) = b)
      ∧ (h.dmaPage c b = true → (∀ i < 8, w.mem.isBad (b + 8 * i) = false) →
        (b % 64 ≠ 0 ∨ d.ok = false → LeadsHw (.dmaGo c) s fun w' => w'.hub.get (DMA_STATE c) = 3 ∧ w'.hub.get (DMA_FAULT c) = 4 ∧ w'.hub.get (DMA_FAULT_ADDR c) = b)
        ∧ (b % 64 = 0 → d.ok = true → d.lockAcq = false → d.srcKind = 0 → d.dstKind = 0 → LeadsHw (.dmaGo c) s fun w' =>
            w'.hub.get (DMA_STATE c) = 1 ∧ w'.hub.get (DMA_FAULT c) = 0 ∧ w'.hub.get (DMA_CUR_DESC c) = b ∧ w'.hub.get (DMA_PROGRESS c) = 0
            ∧ (w'.hub.dmaSt c).desc = some d ∧ (w'.hub.dmaSt c).moving = true ∧ w'.mem = w.mem
            ∧ OnlyRegs [DMA_STATE c, DMA_FAULT c, DMA_CUR_DESC c, DMA_PROGRESS c] h w'.hub)) := by
  dsimp only
  intro idle small
  have go : s.hw.dmaGo c = (s.hw.onHub fun h => h.dmaStarted c).dmaFetch c := if_pos idle
  have fetch := (s.hw.onHub fun h => h.dmaStarted c).dmaFetch_eq c _ (Hub.dmaStarted_cur small).symm
  rw [Hw.onHub_hub, Hub.dmaStarted_page] at fetch
  have halts {code : Nat} (lt : code < 16) (e : (s.hw.onHub fun h => h.dmaStarted c).dmaFetch c
      = ((s.hw.onHub fun h => h.dmaStarted c).onHub fun h => h.dmaFresh c).dmaHalt c ⟨code, false, s.hw.hub.get (DMA_DESC c)⟩) :
      LeadsHw (.dmaGo c) s fun w' => w'.hub.get (DMA_STATE c) = 3 ∧ w'.hub.get (DMA_FAULT c) = code ∧ w'.hub.get (DMA_FAULT_ADDR c) = s.hw.hub.get (DMA_DESC c) := by
    refine leads_onHw (exec_dmaGo a c) ?_
    obtain ⟨state, fault, -, addr⟩ := ((s.hw.onHub fun h => h.dmaStarted c).onHub fun h => h.dmaFresh c).dmaHalt_fault c.isLt
      ⟨code, false, s.hw.hub.get (DMA_DESC c)⟩
    rw [go, e]
    exact ⟨state, fault.trans (Nat.mod_eq_of_lt lt), addr.trans (Nat.mod_eq_of_lt (Nat.lt_trans small (by decide)))⟩
  refine ⟨givesHw_onHw (exec_dmaGo a c) go, fun out => halts (by decide) (fetch.trans (if_pos (by simp [out]))), fun page good => ?_⟩
  have clean : ¬((List.range 8).any fun i => s.hw.mem.isBad (s.hw.hub.get (DMA_DESC c) + 8 * i)) = true := by
    rw [List.any_eq_true]
    rintro ⟨i, m, bad⟩
    simp [good i (List.mem_range.1 m)] at bad
  have formed := (fetch.trans (if_neg (by simp [page]))).trans (if_neg clean)
  refine ⟨fun bad => halts (by decide) (formed.trans (if_pos (bad.imp_right fun k => by simpa using k))), fun aligned ok free src dst => ?_⟩
  refine leads_onHw (exec_dmaGo a c) ?_
  have runs := formed.trans (if_neg (by
    rintro (odd | bad)
    · exact odd aligned
    · simp only [Bool.not_eq_true'] at bad
      exact absurd (ok.symm.trans bad) (by decide)))
  obtain ⟨state, fault, cur, progress, regs⟩ := Hub.dmaRunning_regs small (parseDesc (s.hw.hub.get (DMA_DESC c)) (memBytes s.hw.mem.cells (s.hw.hub.get (DMA_DESC c)) 64))
  obtain ⟨desc, moving⟩ := s.hw.hub.dmaRunning_st c (parseDesc (s.hw.hub.get (DMA_DESC c)) (memBytes s.hw.mem.cells (s.hw.hub.get (DMA_DESC c)) 64))
  rw [go, runs, Hw.onHub_mem, Hw.dmaLock_free _ free, Hw.dmaBegin_mem _ src dst]
  exact ⟨state, fault, cur, progress, desc, moving, rfl, regs⟩

/-! ## RESUME, ABORT, the lock and the end of a descriptor (R270, R273, R275) -/

section resume
variable {w : Hw} {c : Nat} {d : Desc}

theorem Hw.dmaResume_refused (live : w.hub.get (DMA_STATE c) ≠ 3) : w.dmaResume c = w.setHub (w.hub.on (DMA_WERR c)) := if_pos live

theorem Hw.dmaResume_halted (halted : w.hub.get (DMA_STATE c) = 3) {r : Option Desc} (desc : (w.hub.dmaSt c).desc = r) : w.dmaResume c
    = r.elim (w.dmaFetch c) fun d => if w.hub.get (DMA_FAULT c) = 5 then (w.onHub fun h => (h.set (DMA_STATE c) 1).off (DMA_FAULT c)).dmaLock c d true
        else (w.onHub fun h => (h.set (DMA_STATE c) 1).off (DMA_FAULT c)).dmaBegin c d := by
  subst desc
  refine (if_neg (fun k => k halted)).trans ?_
  cases (w.hub.dmaSt c).desc <;> rfl

/-- The channel goes back to IDLE with its locks broken. -/
def Hub.dmaAborted (h : Hub) (c : Nat) : Hub := ((((h.setDma c {}).set (DMA_STATE c) 0).breakAll (32 + c)).dmaShowLock c).arbWithdraw (32 + c)

theorem Hw.dmaAbort_none (none : (w.hub.dmaSt c).desc = none) : w.dmaAbort c = w.setHub (w.hub.dmaAborted c) := by
  unfold Hw.dmaAbort Hw.onHub
  dsimp only
  rw [none]
  rfl

theorem Hw.dmaAbort_words (desc : (w.hub.dmaSt c).desc = some d) (src : d.srcKind ≠ 1) (quiet : (w.hub.dmaSt c).producing = false) :
    w.dmaAbort c = w.setHub (w.hub.dmaAborted c) := by
  have notQueue : ¬d.srcKind = ekQueue := src
  unfold Hw.dmaAbort Hw.onHub
  dsimp only
  rw [desc, quiet]
  dsimp only
  rw [if_neg notQueue]
  rfl

theorem Hw.dmaRetry_waiting (desc : (w.hub.dmaSt c).desc = some d) (waits : w.hub.get (DMA_STATE c) = 2) :
    w.dmaRetry c = (w.onHub fun h => h.upTo (h.time.now + usU)).dmaLock c d false := by
  unfold Hw.dmaRetry
  rw [desc]
  exact if_pos waits

theorem Hw.dmaRetry_other (other : w.hub.get (DMA_STATE c) ≠ 2) : w.dmaRetry c = w := by
  unfold Hw.dmaRetry
  split
  · exact if_neg other
  · rfl

/-- What the end of a descriptor from or to MEM leaves before the chain goes on. -/
def Hw.dmaEnded (r : Hw) (c wait : Nat) : Hw :=
  (r.dmaWriteBack c 0 false (r.hub.dmaSt c).poison (r.hub.get (DMA_PROGRESS c)) wait).onHub fun h =>
    (((h.bump (DMA_DESCS c) (DMA_SAT c)).set (DMA_DELAYED c) 0).set (DMA_WAIT c) (min wait (2 ^ 32 - 1))).dmaShowLock c

theorem Hw.dmaDone_mem {wait : Nat} {ext : List Word} {r : Hw} (desc : (w.hub.dmaSt c).desc = some d) (runs : w.hub.get (DMA_STATE c) = 1)
    (moving : (w.hub.dmaSt c).moving = true) (dst : d.dstKind = 0) (keeps : d.lockRel = false) (quiet : d.irq = false)
    (advanced : w.dmaAdvance c d (ext.map (·.toNat)) d.len = (r, none)) (ends : r.hub.dmaOver c d = true) : w.dmaDone c wait false ext
      = if d.chain then ((r.dmaEnded c wait).onHub fun h => h.set (DMA_CUR_DESC c) d.next).dmaFetch c
        else (r.dmaEnded c wait).onHub fun h => (h.setDma c {}).set (DMA_STATE c) dsIdle := by
  have granted : w.hub.dmaGranted c d = true := by simp [Hub.dmaGranted, ekQueue, dst]
  have notQueue : ¬d.dstKind = ekQueue := by
    rw [dst]
    decide
  unfold Hw.dmaDone
  rw [desc]
  dsimp only
  rw [if_neg (by simp [runs, dsRunning, moving, granted]), advanced, if_neg (by simp [ends])]
  simp only [if_neg notQueue, keeps, quiet]
  rfl

/-- A lost link halts a transfer with a REMOTE source at its next word. -/
theorem Hw.dmaFault_link {off : Nat} {ext : List Word} (desc : (w.hub.dmaSt c).desc = some d) (runs : w.hub.get (DMA_STATE c) = 1)
    (moving : (w.hub.dmaSt c).moving = true) (src : d.srcKind = 3) (dst : d.dstKind = 0) :
    w.dmaFault c .link off ext = w.dmaHalt c ⟨3, d.dstKind == 3, memEnd d.src + w.hub.get (DMA_PROGRESS c)⟩ := by
  have advanced (limit : Nat) : w.dmaAdvance c d (ext.map (·.toNat)) limit = (w, none) := if_pos (.inl src)
  have remote : d.remoteEnd = memEnd d.src := if_neg (by rw [dst]; decide)
  unfold Hw.dmaFault
  rw [desc]
  dsimp only
  rw [if_neg (by simp [runs, dsRunning, moving]), advanced]
  dsimp only
  rw [if_pos (.inl src), remote]
  rfl

end resume

/-- Settles O40: each command of a channel by its state, a descriptor by what is fetched, a word by the pages of its two sides. -/
theorem dmaTransfers : Obligations.DmaTransfers := by
  refine ⟨fun s c a => ⟨fun busy => ?_, dmaGo_idle a c, fun live => ?_, fun halted => ⟨fun none => ?_, fun d desc => ⟨fun timeout => ?_, fun other => ?_⟩⟩,
    fun none => ?_, fun d desc src quiet => ?_, fun d desc waits => ?_, fun other => ?_,
    fun d wait ext r desc runs moving dst keeps quiet advanced ends => ⟨fun chain => ?_, fun last => ?_⟩, fun d off ext desc runs moving src dst => ?_, ?_⟩,
    fun w c d v src dst => ⟨fun source target good lt => ?_, fun out => ?_, fun source good out => ?_, fun f code addr => ?_⟩⟩
  · exact gives_onHw (exec_dmaGo a c) (if_neg busy)
  · exact gives_onHw (exec_dmaResume a c) (Hw.dmaResume_refused live)
  · exact givesHw_onHw (exec_dmaResume a c) (Hw.dmaResume_halted halted none)
  · exact givesHw_onHw (exec_dmaResume a c) ((Hw.dmaResume_halted halted desc).trans (if_pos timeout))
  · exact givesHw_onHw (exec_dmaResume a c) ((Hw.dmaResume_halted halted desc).trans (if_neg other))
  · exact givesHw_onHw (exec_dmaAbort a c) (Hw.dmaAbort_none none)
  · exact givesHw_onHw (exec_dmaAbort a c) (Hw.dmaAbort_words desc src quiet)
  · exact givesHw_onHw (exec_whenUpHw (f := fun w => w.dmaRetry c) a.1 rfl) (Hw.dmaRetry_waiting desc waits)
  · exact givesHw_onHw (exec_whenUpHw (f := fun w => w.dmaRetry c) a.1 rfl) (Hw.dmaRetry_other other)
  · exact givesHw_onHw (exec_whenUpHw (f := fun w => w.dmaDone c wait false ext) a.1 rfl)
      ((Hw.dmaDone_mem desc runs moving dst keeps quiet advanced ends).trans (if_pos chain))
  · exact givesHw_onHw (exec_whenUpHw (f := fun w => w.dmaDone c wait false ext) a.1 rfl)
      ((Hw.dmaDone_mem desc runs moving dst keeps quiet advanced ends).trans (if_neg (by rw [Bool.not_eq_true]; exact last)))
  · exact givesHw_onHw (exec_whenUpHw (f := fun w => w.dmaFault c .link off ext) a.1 rfl) (Hw.dmaFault_link desc runs moving src dst)
  · exact gives_onHub (f := fun h => h.dmaCntClr c) (exec_hubWr_alone a rfl) rfl
  · rw [Hw.dmaWord_moves v src dst source target good]
    exact ⟨rfl, rfl, (Hub.get_set_same _ _ _).trans (Nat.mod_eq_of_lt lt)⟩
  · exact Hw.dmaWord_source v src out
  · exact Hw.dmaWord_target v src dst source good out
  · obtain ⟨state, fault, side, place⟩ := w.dmaHalt_fault c.isLt f
    obtain ⟨progress, cur⟩ := w.dmaHalt_keeps c.isLt f
    exact ⟨state, fault.trans (Nat.mod_eq_of_lt code), side, place.trans (Nat.mod_eq_of_lt addr), w.dmaHalt_counts c.isLt f, progress, cur⟩

end Sys2Proof.Machine
end

section
/-! SUPPORT. Loading a cast (R389, R391, R393, R394, R396). -/

namespace Sys2Proof.Machine

theorem exec_updStart {s : State} (up : s.up) : exec .updStart s = .next (s.onHw Hw.updStart) :=
  exec_hostWr_up (a := 0x8000) (v := fun _ => 1) up (by decide) rfl

theorem exec_updCopy {s : State} (up : s.up) : exec .updCopy s = .next (s.onHw Hw.updCopy) :=
  exec_hostWr_up (a := 0x8000) (v := fun _ => 2) up (by decide) rfl

theorem exec_updData {s : State} (up : s.up) (v : Word) : exec (.updData v) s = .next (s.onHw fun w => w.updData v.toNat) :=
  exec_hostWr_up (a := 0x800C) (v := fun _ => v.toNat) up (by decide) rfl

theorem exec_updAbort {s : State} (up : s.up) : exec .updAbort s = .next (s.onHub Hub.updAbort) :=
  exec_hubWr_up (a := 0x8000) (v := fun _ => 4) up (by decide) rfl

theorem exec_castCheckDone {s : State} (up : s.up) (f : Fin 3) : exec (.castCheckDone f) s = .next (s.onHw fun w => w.castCheckDone f) :=
  exec_whenUpHw (f := fun w => w.castCheckDone f) up rfl

theorem exec_updPowerCheck {s : State} (up : s.up) (supplies : Bool) (v : BitVec 16) :
    exec (.updPowerCheck supplies v) s = .next (s.onHub fun h => h.powerCheck supplies v.toNat) :=
  exec_whenUp_up up rfl

theorem exec_updCntClr {s : State} (up : s.up) : exec .updCntClr s = .next (s.onHub fun h => h.offs [UPD_UPDATES, UPD_FALLBACKS, UPD_FAILS]) :=
  exec_hubWr_up (a := 0x8000) (v := fun _ => 0x100) up (by decide) rfl

/-! ## The checks of a request (R393) -/

theorem Hub.updBusy_iff (h : Hub) : h.updBusy = true ↔ h.get UPD_STAT_STATE = 1 ∨ h.get UPD_STAT_STATE = 2 ∨ h.get UPD_STAT_STATE = 4
    ∨ h.get UPD_STAT_STATE = 5 := by
  simp [Hub.updBusy, Hub.upState, upReceiving, upChecking, upScheduled, upProbation, or_assoc]

section refusal
variable {w : Hw} {b : Bool}

theorem Hw.updRefusal_mode (mode : w.hub.get DEV_MODE_MODE ≠ 7) : w.updRefusal b = 1 := if_pos mode

variable (mode : w.hub.get DEV_MODE_MODE = 7)
include mode

theorem Hw.updRefusal_retired (retired : w.lcState = 4) : w.updRefusal b = 2 := (if_neg (not_not.2 mode)).trans (if_pos retired)

theorem Hw.updRefusal_live (live : w.lcState ≠ 4) : w.updRefusal b = if b ∧ w.hub.updBusy then 3 else if w.hub.bit UPD_OBS_LOCK then 4
    else if w.hub.updLock then 5 else if w.hub.powerFails then 6
    else w.hub.upd.partnerUpdAt.elim 0 fun t => if w.hub.time.now ≤ t + 10 * secU then 7 else 0 := by
  refine (if_neg (not_not.2 mode)).trans ((if_neg live).trans ?_)
  cases w.hub.upd.partnerUpdAt <;> rfl

theorem Hw.updRefusal_busy (live : w.lcState ≠ 4) (asked : b = true) (busy : w.hub.updBusy = true) : w.updRefusal b = 3 :=
  (Hw.updRefusal_live mode live).trans (if_pos ⟨asked, busy⟩)

theorem Hw.updRefusal_free (live : w.lcState ≠ 4) (free : b = false ∨ w.hub.updBusy = false) : w.updRefusal b
    = if w.hub.bit UPD_OBS_LOCK then 4 else if w.hub.updLock then 5 else if w.hub.powerFails then 6
      else w.hub.upd.partnerUpdAt.elim 0 fun t => if w.hub.time.now ≤ t + 10 * secU then 7 else 0 := by
  refine (Hw.updRefusal_live mode live).trans (if_neg ?_)
  rintro ⟨asked, busy⟩
  rcases free with free | free
  · rw [free] at asked
    exact absurd asked (by decide)
  · rw [free] at busy
    exact absurd busy (by decide)

theorem Hw.updRefusal_observed (live : w.lcState ≠ 4) (free : b = false ∨ w.hub.updBusy = false) (lock : w.hub.get UPD_OBS_LOCK = 1) : w.updRefusal b = 4 :=
  (Hw.updRefusal_free mode live free).trans (if_pos (Hub.bit_of_one lock))

theorem Hw.updRefusal_unobserved (live : w.lcState ≠ 4) (free : b = false ∨ w.hub.updBusy = false) (lock : w.hub.get UPD_OBS_LOCK ≠ 1) : w.updRefusal b
    = if w.hub.updLock then 5 else if w.hub.powerFails then 6
      else w.hub.upd.partnerUpdAt.elim 0 fun t => if w.hub.time.now ≤ t + 10 * secU then 7 else 0 :=
  (Hw.updRefusal_free mode live free).trans (if_neg (by simp [Hub.bit_of_ne lock]))

end refusal

/-- R393: the first check that fails is the reason. -/
theorem Hw.updRefusal_first (w : Hw) (b : Bool) : let h := w.hub
    (h.get DEV_MODE_MODE ≠ 7 → w.updRefusal b = 1)
    ∧ (h.get DEV_MODE_MODE = 7 → w.lcState = 4 → w.updRefusal b = 2)
    ∧ (h.get DEV_MODE_MODE = 7 → w.lcState ≠ 4 → b = true → h.updBusy = true → w.updRefusal b = 3)
    ∧ (h.get DEV_MODE_MODE = 7 → w.lcState ≠ 4 → b = false ∨ h.updBusy = false →
        (h.get UPD_OBS_LOCK = 1 → w.updRefusal b = 4)
        ∧ (h.get UPD_OBS_LOCK ≠ 1 → (h.updLock = true → w.updRefusal b = 5)
          ∧ (h.updLock = false → (h.pwr.holdup < h.get UPD_HOLDUP_MIN ∨ h.pwr.supplies = false → w.updRefusal b = 6)
            ∧ (h.get UPD_HOLDUP_MIN ≤ h.pwr.holdup → h.pwr.supplies = true →
              (∀ t, h.upd.partnerUpdAt = some t → h.time.now ≤ t + 10 * secU → w.updRefusal b = 7)
              ∧ (h.upd.partnerUpdAt = none ∨ (∃ t, h.upd.partnerUpdAt = some t ∧ t + 10 * secU < h.time.now) → w.updRefusal b = 0))))) := by
  dsimp only
  refine ⟨Hw.updRefusal_mode, Hw.updRefusal_retired, Hw.updRefusal_busy, fun mode live free =>
    ⟨Hw.updRefusal_observed mode live free, fun seen => ⟨fun lock => ?_, fun open_ => ⟨fun weak => ?_, fun holdup supplies => ⟨fun t at_ soon => ?_, fun late => ?_⟩⟩⟩⟩⟩
  · exact (Hw.updRefusal_unobserved mode live free seen).trans (if_pos lock)
  all_goals
    have checked := (Hw.updRefusal_unobserved mode live free seen).trans (if_neg (by simp [open_]))
  · exact checked.trans (if_pos ((Hub.powerFails_iff _).2 weak))
  all_goals
    have power : ¬w.hub.powerFails = true := by
      rw [Hub.powerFails_iff]
      rintro (e | e)
      · exact absurd e (Nat.not_lt.2 holdup)
      · simp [supplies] at e
    have last := checked.trans (if_neg power)
  · rw [last, at_]
    exact if_pos soon
  · rcases late with none | ⟨t, at_, late⟩
    · rw [last, none]
      rfl
    · rw [last, at_]
      exact if_neg (Nat.not_le.2 late)

/-! ## A load that fails (R396) -/

/-- The registers of a load that ends in FAILED. -/
def Hub.updFailed (h : Hub) (code : Nat) : Hub := (((h.set UPD_STAT_STATE 6).set UPD_STAT_ERR code).off UPD_STAT_UPDATING).bump UPD_FAILS UPD_STAT_SAT

theorem Hub.updFail_eq (h : Hub) (code : Nat) : h.updFail code = ((h.updFailed code).setUpd { (h.updFailed code).upd with bytes := [], cast := none }).log
    .castRefused code ((h.updFailed code).get UPD_STAT_FORMAT) 0 := rfl

theorem Hub.updFail_get (h : Hub) (code : Nat) {f : Field} (k : f.key ∉ [LOG_OVERWRITES, LOG_SAT, LOG_NEW, DEV_IRQ_LOG].map Field.key) :
    (h.updFail code).get f = (h.updFailed code).get f := by
  rw [Hub.updFail_eq, Hub.log_get_ne _ _ _ _ _ _ k, Hub.get_setUpd]

theorem Hub.updFailed_state (h : Hub) (code : Nat) : (h.updFailed code).get UPD_STAT_STATE = 6 := by
  rw [Hub.updFailed, Hub.bump_get_ne _ _ _ _ (by decide) (by decide), Hub.get_off_ne _ _ _ (by decide), Hub.get_set_ne _ _ _ _ (by decide)]
  exact Hub.get_set_same _ _ _

theorem Hub.updFail_state (h : Hub) (code : Nat) : (h.updFail code).get UPD_STAT_STATE = 6 :=
  (h.updFail_get code (by decide)).trans (h.updFailed_state code)

theorem Hub.updFail_outcome (h : Hub) {c : Nat} (lt : c < 256) : let g := h.updFail c
    g.get UPD_STAT_STATE = 6 ∧ g.get UPD_STAT_ERR = c ∧ g.get UPD_STAT_UPDATING = 0 ∧ g.get UPD_FAILS = min (h.get UPD_FAILS + 1) UPD_FAILS.top ∧ g.upd.bytes = []
    ∧ g.upd.cast = none ∧ (g.pwr.log.head?.map fun e => (e.code, e.p0)) = some ((logCode .castRefused).1, c) := by
  refine ⟨h.updFail_state c, ?_, ?_, ?_, ?_, ?_, ?_⟩
  · rw [h.updFail_get c (by decide), Hub.updFailed, Hub.bump_get_ne _ _ _ _ (by decide) (by decide), Hub.get_off_ne _ _ _ (by decide)]
    exact (Hub.get_set_same _ _ _).trans (Nat.mod_eq_of_lt lt)
  · rw [h.updFail_get c (by decide), Hub.updFailed, Hub.bump_get_ne _ _ _ _ (by decide) (by decide), Hub.get_off_same]
  · rw [h.updFail_get c (by decide), Hub.updFailed, Hub.bump_get _ _ _ (by decide), Hub.get_off_ne _ _ _ (by decide), Hub.get_set_ne _ _ _ _ (by decide),
      Hub.get_set_ne _ _ _ _ (by decide)]
  · rw [Hub.updFail_eq, Hub.log_upd, Hub.setUpd_upd]
  · rw [Hub.updFail_eq, Hub.log_upd, Hub.setUpd_upd]
  · rw [Hub.updFail_eq, Hub.log_head]
    show some ((logCode .castRefused).1, c % 2 ^ 32) = _
    rw [Nat.mod_eq_of_lt (Nat.lt_trans lt (by decide))]

/-! ## A load begins -/

theorem Hw.updStart_refused {w : Hw} (why : w.updRefusal true ≠ 0) :
    w.updStart = w.setHub ((w.hub.on UPD_STAT_WERR).set UPD_STAT_REFUSE (w.updRefusal true)) := if_neg why

theorem Hw.updStart_begins {w : Hw} (may : w.updRefusal true = 0) : w.updStart = w.setHub w.hub.updBegin := if_pos may

theorem Hw.updCopy_refused {w : Hw} (why : w.updRefusal true ≠ 0) :
    w.updCopy = w.setHub ((w.hub.on UPD_STAT_WERR).set UPD_STAT_REFUSE (w.updRefusal true)) := if_pos why

/-- The registers of a load that begins. -/
def Hub.updClean (h : Hub) : Hub :=
  (((h.set UPD_STAT_STATE upReceiving).on UPD_STAT_UPDATING).set UPD_ROOM 262144).offs
    [UPD_STAT_ERR, UPD_STAT_FORMAT, UPD_LOAD_OFS, UPD_EXPECT, UPD_BLOCK_COUNT, UPD_STAGED_VERSION]

theorem Hub.updBegin_get (h : Hub) (f : Field) : h.updBegin.get f = h.updClean.get f := Hub.get_setUpd _ _ _

theorem Hub.updClean_get (h : Hub) {f : Field}
    (k : f.key ∉ [UPD_STAT_ERR, UPD_STAT_FORMAT, UPD_LOAD_OFS, UPD_EXPECT, UPD_BLOCK_COUNT, UPD_STAGED_VERSION].map Field.key) :
    h.updClean.get f = (((h.set UPD_STAT_STATE upReceiving).on UPD_STAT_UPDATING).set UPD_ROOM 262144).get f := by
  simp only [List.map_cons, List.map_nil, List.mem_cons, List.not_mem_nil, or_false, not_or] at k
  obtain ⟨err, format, ofs, expect, count, version⟩ := k
  unfold Hub.updClean Hub.offs
  simp only [List.foldl_cons, List.foldl_nil]
  rw [Hub.get_off_ne _ _ _ version, Hub.get_off_ne _ _ _ count, Hub.get_off_ne _ _ _ expect, Hub.get_off_ne _ _ _ ofs, Hub.get_off_ne _ _ _ format,
    Hub.get_off_ne _ _ _ err]

theorem Hub.updClean_zeros (h : Hub) : h.updClean.get UPD_STAT_ERR = 0 ∧ h.updClean.get UPD_LOAD_OFS = 0 ∧ h.updClean.get UPD_EXPECT = 0 := by
  unfold Hub.updClean Hub.offs
  simp only [List.foldl_cons, List.foldl_nil]
  refine ⟨?_, ?_, ?_⟩ <;> simp (disch := decide) only [Hub.get_off_ne, Hub.get_off_same]

theorem Hub.updBegin_state (h : Hub) : h.updBegin.get UPD_STAT_STATE = 1 := by
  rw [Hub.updBegin_get, h.updClean_get (by decide), Hub.get_set_ne _ _ _ _ (by decide), Hub.get_on_ne _ _ _ (by decide)]
  exact Hub.get_set_same _ _ _

theorem Hub.updBegin_outcome (h : Hub) : let h' := h.updBegin
    h'.get UPD_STAT_STATE = 1 ∧ h'.get UPD_STAT_UPDATING = 1 ∧ h'.get UPD_ROOM = 262144 ∧ h'.get UPD_STAT_ERR = 0
    ∧ h'.get UPD_LOAD_OFS = 0 ∧ h'.get UPD_EXPECT = 0 ∧ h'.upd.bytes = [] ∧ h'.upd.cast = none
    ∧ OnlyRegs [UPD_STAT_STATE, UPD_STAT_UPDATING, UPD_ROOM, UPD_STAT_ERR, UPD_STAT_FORMAT, UPD_LOAD_OFS, UPD_EXPECT, UPD_BLOCK_COUNT, UPD_STAGED_VERSION] h h' := by
  obtain ⟨err, ofs, expect⟩ := h.updClean_zeros
  refine ⟨h.updBegin_state, ?_, ?_, (h.updBegin_get _).trans err, (h.updBegin_get _).trans ofs, (h.updBegin_get _).trans expect, rfl, rfl, ?_⟩
  · rw [Hub.updBegin_get, h.updClean_get (by decide), Hub.get_set_ne _ _ _ _ (by decide)]
    exact Hub.get_on_same _ _ (by decide)
  · rw [Hub.updBegin_get, h.updClean_get (by decide)]
    exact Hub.get_set_same _ _ _
  · exact onlyRegs_of_regs (Hub.setUpd_regs _ _) (onlyRegs_off (by decide) (onlyRegs_off (by decide) (onlyRegs_off (by decide) (onlyRegs_off (by decide)
      (onlyRegs_off (by decide) (onlyRegs_off (by decide) (onlyRegs_set _ (by decide) (onlyRegs_on (by decide) (onlyRegs_set _ (by decide) (onlyRegs_refl _ h))))))))))

/-- A copy whose source leaves the host region ends at once. -/
theorem Hw.updCopy_outside {w : Hw} (may : w.updRefusal true = 0) (out : w.hub.updBegin.hostRange (w.hub.get UPD_SRC_ADDR / 4 * 4) 256 = false) :
    w.updCopy = w.setHub (w.hub.updBegin.updFail 3) := by
  have feed : (w.onHub Hub.updBegin).updFeed (w.hub.get UPD_SRC_ADDR / 4 * 4) 256 = w.setHub (w.hub.updBegin.updFail 3) := by
    refine (if_neg (by rw [Hw.onHub_hub, out]; decide)).trans ?_
    exact congrArg w.setHub (if_pos w.hub.updBegin_state)
  have ended : ¬(w.setHub (w.hub.updBegin.updFail 3)).hub.upState = upReceiving := by
    rw [Hub.upState, Hw.setHub_hub, Hub.updFail_state]
    decide
  unfold Hw.updCopy
  dsimp only
  rw [if_neg (fun k => k may), feed]
  simp only [ended, and_false, if_false]

theorem Hw.updCopy_begins {w : Hw} (may : w.updRefusal true = 0) : let a := w.hub.get UPD_SRC_ADDR / 4 * 4
    let x := (w.onHub Hub.updBegin).updFeed a 256
    let y := if x.hub.upd.cast.isNone ∧ x.hub.get UPD_STAT_STATE = 1 then x.updFeed (a + 256) 3840 else x
    w.updCopy = if y.hub.get UPD_STAT_STATE = 1 then y.updFeed (a + y.hub.upd.bytes.length) (y.hub.upd.total - y.hub.upd.bytes.length) else y :=
  if_neg (fun k => k may)

/-! ## Bytes arrive (R389, R391, R394) -/

theorem Hw.updData_idle {w : Hw} (v : Nat) (idle : w.hub.get UPD_STAT_STATE ≠ 1) : w.updData v = w.setHub (w.hub.on UPD_STAT_WERR) := if_pos idle

theorem Hw.updData_full {w : Hw} (v : Nat) (st : w.hub.get UPD_STAT_STATE = 1) (full : w.hub.get UPD_ROOM = 0) :
    w.updData v = w.setHub ((w.hub.on UPD_STAT_OVR).roomDraw 262144) := (if_neg (not_not.2 st)).trans (if_pos full)

/-- The hub with one more word of the image, newest byte first in `rev`. -/
def Hub.updTaken (h : Hub) (rev : List (BitVec 8)) : Hub :=
  ((h.setUpd { h.upd with bytes := rev }).set UPD_LOAD_OFS rev.length).roomDraw (min rev.length (262148 - h.get UPD_ROOM))

section word
variable {w : Hw} {v : Nat} {rev : List (BitVec 8)} (st : w.hub.get UPD_STAT_STATE = 1) (room : w.hub.get UPD_ROOM ≠ 0)
  (is : rev = (leBytes 4 v).reverse ++ w.hub.upd.bytes)
include st room is

theorem Hw.updData_takes : w.updData v = if rev.length < 256 then w.setHub (w.hub.updTaken rev)
    else if fieldAt rev.reverse 0 2 = 0x2096 then
      (if rev.length % 4096 = 0 then (w.setHub (w.hub.updTaken rev)).blockIn rev.reverse false else w.setHub (w.hub.updTaken rev))
    else if rev.length = 256 then
      (if (w.setHub (w.hub.updTaken rev)).nativeErr rev.reverse = 0 then
        ((w.setHub (w.hub.updTaken rev)).updAccept (nativeCast rev.reverse) (256 + fieldAt rev.reverse 0x0C 4)).onHub Hub.updLast
      else w.setHub ((w.hub.updTaken rev).updFail ((w.setHub (w.hub.updTaken rev)).nativeErr rev.reverse)))
    else w.setHub (w.hub.updTaken rev).updLast := by
  subst is
  exact (if_neg (not_not.2 st)).trans ((if_neg room).trans (if_neg (not_not.2 st)))

theorem Hw.updData_short (short : rev.length < 256) : w.updData v = w.setHub (w.hub.updTaken rev) := (Hw.updData_takes st room is).trans (if_pos short)

theorem Hw.updData_header (whole : rev.length = 256) (native : fieldAt rev.reverse 0 2 ≠ 0x2096) : w.updData v
    = if (w.setHub (w.hub.updTaken rev)).nativeErr rev.reverse = 0 then
        ((w.setHub (w.hub.updTaken rev)).updAccept (nativeCast rev.reverse) (256 + fieldAt rev.reverse 0x0C 4)).onHub Hub.updLast
      else w.setHub ((w.hub.updTaken rev).updFail ((w.setHub (w.hub.updTaken rev)).nativeErr rev.reverse)) :=
  (Hw.updData_takes st room is).trans ((if_neg (by omega)).trans ((if_neg native).trans (if_pos whole)))

theorem Hw.updData_body (long : 256 < rev.length) (native : fieldAt rev.reverse 0 2 ≠ 0x2096) : w.updData v = w.setHub (w.hub.updTaken rev).updLast :=
  (Hw.updData_takes st room is).trans ((if_neg (by omega)).trans ((if_neg native).trans (if_neg (by omega))))

theorem Hw.updData_nlh (long : 256 ≤ rev.length) (nlh : fieldAt rev.reverse 0 2 = 0x2096) : w.updData v
    = if rev.length % 4096 = 0 then (w.setHub (w.hub.updTaken rev)).blockIn rev.reverse false else w.setHub (w.hub.updTaken rev) :=
  (Hw.updData_takes st room is).trans ((if_neg (by omega)).trans (if_pos nlh))

end word

/-! ## The last checks and the end of a load -/

theorem Hub.updAbort_loading {h : Hub} (st : h.get UPD_STAT_STATE = 1 ∨ h.get UPD_STAT_STATE = 2) : h.updAbort = h.updFail 0x11 := if_pos st

theorem Hub.updAbort_idle {h : Hub} (one : h.get UPD_STAT_STATE ≠ 1) (two : h.get UPD_STAT_STATE ≠ 2) : h.updAbort = h :=
  if_neg fun k => k.elim one two

theorem Hw.castCheckDone_eq (w : Hw) (f : Fin 3) : w.castCheckDone f = w.hub.upd.cast.elim w fun c =>
    if w.hub.get UPD_STAT_STATE ≠ 2 then w
    else if castErr c w.hub.upd.bytes.reverse f ≠ 0 then w.setHub (w.hub.updFail (castErr c w.hub.upd.bytes.reverse f))
    else (((w.setNv (w.nv.setCast w.other (some { c with image := some w.hub.upd.bytes.reverse }))).writeBoot fun b => b.setValid w.other true).onHub fun h =>
      ((h.set UPD_STAT_STATE upStaged).off UPD_STAT_UPDATING).setUpd { h.upd with bytes := [], cast := none }).showCasts := by
  unfold Hw.castCheckDone
  cases w.hub.upd.cast <;> rfl

theorem Hw.castCheckDone_idle {w : Hw} (f : Fin 3) (idle : w.hub.upd.cast = none ∨ w.hub.get UPD_STAT_STATE ≠ 2) : w.castCheckDone f = w := by
  rw [Hw.castCheckDone_eq]
  rcases idle with none | st
  · rw [none]
    rfl
  · cases w.hub.upd.cast
    · rfl
    · exact if_pos st

theorem Hw.castCheckDone_checking {w : Hw} (f : Fin 3) {c : Cast} (cast : w.hub.upd.cast = some c) (st : w.hub.get UPD_STAT_STATE = 2) : w.castCheckDone f
    = if castErr c w.hub.upd.bytes.reverse f ≠ 0 then w.setHub (w.hub.updFail (castErr c w.hub.upd.bytes.reverse f))
      else (((w.setNv (w.nv.setCast w.other (some { c with image := some w.hub.upd.bytes.reverse }))).writeBoot fun b => b.setValid w.other true).onHub fun h =>
        ((h.set UPD_STAT_STATE upStaged).off UPD_STAT_UPDATING).setUpd { h.upd with bytes := [], cast := none }).showCasts := by
  rw [Hw.castCheckDone_eq, cast]
  exact if_neg (not_not.2 st)

theorem Nv.castOf_setCast (n : Nv) (o : Nat) (c : Option Cast) : (n.setCast o c).castOf o = c := by
  unfold Nv.setCast Nv.castOf
  split <;> rfl

theorem BootRec.valid_setValid (b : BootRec) (o : Nat) (v : Bool) : (b.setValid o v).valid o = v := by
  unfold BootRec.setValid BootRec.valid
  split <;> rfl

theorem Nv.appendBoot_castOf (n : Nv) (b : BootRec) (o : Nat) : (n.appendBoot b).castOf o = n.castOf o := by
  obtain ⟨a, b', -⟩ := n.appendBoot_kept b
  unfold Nv.castOf
  rw [a, b']

/-- A load that passes its last checks is STAGED, with the slot's VALID bit in a new boot record. -/
theorem Hw.castCheckDone_passes {w : Hw} (f : Fin 3) {c : Cast} (cast : w.hub.upd.cast = some c) (st : w.hub.get UPD_STAT_STATE = 2)
    (ok : castErr c w.hub.upd.bytes.reverse f = 0) : let w' := w.castCheckDone f
    let o := 1 - w.hub.get UPD_STAT_RUN_SLOT
    w'.hub.get UPD_STAT_STATE = 3 ∧ w'.hub.get UPD_STAT_UPDATING = 0 ∧ w'.hub.upd.cast = none ∧ w'.nv.castOf o = some { c with image := some w.hub.upd.bytes.reverse }
    ∧ w'.nv.boot.valid o = true ∧ w'.nv.boot.seq = (w.nv.boot.seq + 1) % 2 ^ 32 ∧ w'.mem = w.mem := by
  dsimp only
  rw [Hw.castCheckDone_checking f cast st, if_neg (not_not.2 ok), Hw.showCasts_get_ne _ _ (by decide), Hw.showCasts_get_ne _ _ (by decide), Hw.showCasts_upd,
    Hw.showCasts_nv, Hw.showCasts_mem, Hw.onHub_hub, Hw.onHub_nv, Hw.onHub_mem, Hw.writeBoot_mem, Hw.setNv_mem, Hub.get_setUpd, Hub.get_setUpd, Hub.setUpd_upd]
  refine ⟨?_, Hub.get_off_same _ _, rfl, ?_, ?_, ?_, rfl⟩
  · rw [Hub.get_off_ne _ _ _ (by decide)]
    exact Hub.get_set_same _ _ _
  · exact (Nv.appendBoot_castOf _ _ _).trans (Nv.castOf_setCast _ _ _)
  · rw [Hw.writeBoot, Hw.setNv_nv, Nv.appendBoot_boot]
    exact BootRec.valid_setValid _ _ _
  · rw [Hw.writeBoot, Hw.setNv_nv, Nv.appendBoot_boot]
    show ((w.nv.setCast _ _).boot.seq + 1) % 2 ^ 32 = _
    unfold Nv.setCast
    split <;> rfl

/-! ## The core's power check -/

/-- The hub with what the core measured of its supplies. -/
def Hub.powerMeasured (h : Hub) (supplies : Bool) (v : Nat) : Hub :=
  ((h.coreConvert v).setPwr { h.pwr with supplies := supplies, holdup := v }).showHoldup

theorem Hub.coreConvert_get (h : Hub) (v : Nat) {f : Field} (k : f.key ∉ [INJ_ENABLE 3, INJ_INPUT 3, INJ_OVR 3].map Field.key) :
    (h.coreConvert v).get f = h.get f := by
  simp only [List.map_cons, List.map_nil, List.mem_cons, List.not_mem_nil, or_false, not_or] at k
  obtain ⟨enable, input, ovr⟩ := k
  unfold Hub.coreConvert
  dsimp only
  rw [Hub.get_setHk]
  split
  · rw [Hub.get_on_ne _ _ _ ovr, Hub.get_set_ne _ _ _ _ input, Hub.get_on_ne _ _ _ enable]
  · rw [Hub.get_set_ne _ _ _ _ input, Hub.get_on_ne _ _ _ enable]

theorem Hub.powerMeasured_get (h : Hub) (supplies : Bool) (v : Nat) {f : Field}
    (k : f.key ∉ [INJ_ENABLE 3, INJ_INPUT 3, INJ_OVR 3].map Field.key) (low : f.key ≠ PWR_HOLDUP_LOW.key) : (h.powerMeasured supplies v).get f = h.get f := by
  rw [Hub.powerMeasured, Hub.showHoldup, Hub.get_set_ne _ _ _ _ low, Hub.get_setPwr, h.coreConvert_get v k]

theorem Hub.powerMeasured_fails (h : Hub) (supplies : Bool) (v : Nat) :
    (h.powerMeasured supplies v).powerFails = true ↔ v < h.get UPD_HOLDUP_MIN ∨ supplies = false := by
  rw [Hub.powerFails_iff, h.powerMeasured_get supplies v (by decide) (by decide), Hub.powerMeasured, Hub.showHoldup, Hub.set_pwr, Hub.setPwr_pwr]

theorem Hub.powerCheck_eq (h : Hub) (supplies : Bool) (v : Nat) : h.powerCheck supplies v
    = if (h.get UPD_STAT_STATE = 1 ∨ h.get UPD_STAT_STATE = 2) ∧ (h.powerMeasured supplies v).powerFails then (h.powerMeasured supplies v).updFail 0x0E
      else h.powerMeasured supplies v := by
  have state : (h.powerMeasured supplies v).get UPD_STAT_STATE = h.get UPD_STAT_STATE := h.powerMeasured_get supplies v (by decide) (by decide)
  rw [← state]
  rfl

/-- Settles O55: the checks of a request in their order, then each step of a load by the state it is in and the bytes it has. -/
theorem castLoading : Obligations.CastLoading := by
  refine ⟨fun w b => ?_, fun h c lt => h.updFail_outcome lt, fun s up => ?_⟩
  · obtain ⟨mode, retired, busy, checks⟩ := w.updRefusal_first b
    exact ⟨mode, retired, busy, checks, w.hub.updBusy_iff⟩
  dsimp only
  refine ⟨fun why => ⟨?_, ?_⟩, fun may => ?_, fun may => ⟨fun out => ?_, fun _ => ?_⟩, fun v => ⟨fun idle => ?_, fun st full => ?_, fun st room => ?_⟩,
    fun st => ?_, fun one two => ?_, fun f => ⟨fun idle => ?_, fun c cast st => ⟨fun bad => ?_, fun ok => ?_⟩⟩,
    fun supplies v => ⟨fun one two => ?_, fun loading => ⟨fun holdup supply => ?_, fun weak => ?_⟩⟩, ?_⟩
  · exact gives_onHw (exec_updStart up) (Hw.updStart_refused why)
  · exact gives_onHw (exec_updCopy up) (Hw.updCopy_refused why)
  · exact ⟨_, gives_onHw (exec_updStart up) (Hw.updStart_begins may), s.hw.hub.updBegin_outcome⟩
  · exact gives_onHw (exec_updCopy up) (Hw.updCopy_outside may out)
  · exact givesHw_onHw (exec_updCopy up) (Hw.updCopy_begins may)
  · exact gives_onHw (exec_updData up v) (Hw.updData_idle _ idle)
  · exact gives_onHw (exec_updData up v) (Hw.updData_full _ st full)
  · refine ⟨fun short => ?_, fun whole native => ⟨fun e bad is => ?_, fun ok => ?_⟩, fun long native => ?_, fun long nlh => ⟨fun part => ?_, fun block => ?_⟩⟩
    · exact gives_onHw (exec_updData up v) (Hw.updData_short st room rfl short)
    · subst is
      exact gives_onHw (exec_updData up v) ((Hw.updData_header st room rfl whole native).trans (if_neg bad))
    · exact givesHw_onHw (exec_updData up v) ((Hw.updData_header st room rfl whole native).trans (if_pos ok))
    · exact gives_onHw (exec_updData up v) (Hw.updData_body st room rfl long native)
    · exact gives_onHw (exec_updData up v) ((Hw.updData_nlh st room rfl long nlh).trans (if_neg part))
    · exact givesHw_onHw (exec_updData up v) ((Hw.updData_nlh st room rfl long nlh).trans (if_pos block))
  · exact gives_onHub (exec_updAbort up) (Hub.updAbort_loading st)
  · exact gives_onHub (exec_updAbort up) (Hub.updAbort_idle one two)
  · exact gives_onHw (exec_castCheckDone up f) (Hw.castCheckDone_idle f idle)
  · exact gives_onHw (exec_castCheckDone up f) ((Hw.castCheckDone_checking f cast st).trans (if_pos bad))
  · exact leads_onHw (exec_castCheckDone up f) (Hw.castCheckDone_passes f cast st ok)
  · exact gives_onHub (exec_updPowerCheck up supplies v) ((Hub.powerCheck_eq _ _ _).trans (if_neg fun k => k.1.elim one two))
  · refine gives_onHub (exec_updPowerCheck up supplies v) ((Hub.powerCheck_eq _ _ _).trans (if_neg ?_))
    rw [Hub.powerMeasured_fails]
    rintro ⟨-, weak | weak⟩
    · exact absurd weak (Nat.not_lt.2 holdup)
    · simp [supply] at weak
  · exact gives_onHub (exec_updPowerCheck up supplies v) ((Hub.powerCheck_eq _ _ _).trans (if_pos ⟨loading, (Hub.powerMeasured_fails _ _ _).2 weak⟩))
  · exact gives_onHub (exec_updCntClr up) rfl

end Sys2Proof.Machine
end

section
/-! SUPPORT. Activation of a cast and its probation (R58, R392, R397, R398, R400, R401). -/

namespace Sys2Proof.Machine

theorem exec_schedule {s : State} (up : s.up) : exec .schedule s = .next (s.onHw Hw.updSchedule) :=
  exec_hostWr_up (a := 0x8000) (v := fun _ => 8) up (by decide) rfl

theorem exec_updCancel {s : State} (up : s.up) : exec .updCancel s = .next (s.onHw Hw.updUnschedule) :=
  exec_hostWr_up (a := 0x8000) (v := fun _ => 0x10) up (by decide) rfl

theorem exec_activationInstant {s : State} (up : s.up) : exec .activationInstant s = .next (s.onHw Hw.activate) :=
  exec_whenUpHw (f := Hw.activate) up rfl

theorem exec_confirm {s : State} (up : s.up) : exec .confirm s = .next (s.onHw Hw.confirm) :=
  exec_hostWr_up (a := 0x8000) (v := fun _ => 0x20) up (by decide) rfl

theorem exec_revert {s : State} (up : s.up) : exec .revert s = .next (s.onHub Hub.revert) :=
  exec_hubWr_up (a := 0x8000) (v := fun _ => 0x40) up (by decide) rfl

theorem exec_probEnd {s : State} (up : s.up) : exec .probEnd s = .next (s.onHub Hub.probationEnd) := exec_whenUp_up up rfl

theorem exec_stagePrev {s : State} (up : s.up) : exec .stagePrev s = .next (s.onHw Hw.stagePrev) :=
  exec_hostWr_up (a := 0x8000) (v := fun _ => 0x80) up (by decide) rfl

/-! ## Scheduler slots -/

theorem Hub.schedFree_none {h : Hub} (full : ∀ j < 8, h.get (SCHED_STATE j) = 1) : h.schedFree = none := by
  refine List.find?_eq_none.2 fun j lt => ?_
  simp [Hub.schedPending, scPending, full j (List.mem_range.1 lt)]

/-- The lowest slot that is not PENDING is taken. -/
theorem Hub.schedFree_lowest {h : Hub} {k : Nat} (lt : k < 8) (free : h.get (SCHED_STATE k) ≠ 1) (full : ∀ j < k, h.get (SCHED_STATE j) = 1) :
    h.schedFree = some k := by
  have below : (List.range k).find? (fun j => !h.schedPending j) = none := by
    refine List.find?_eq_none.2 fun j lt => ?_
    simp [Hub.schedPending, scPending, full j (List.mem_range.1 lt)]
  have here : (!h.schedPending k) = true := by simp [Hub.schedPending, scPending, free]
  have cut : List.range 8 = (List.range k ++ [k]) ++ (List.range (8 - (k + 1))).map (k + 1 + ·) := by
    rw [← List.range_succ, ← List.range_add]
    congr 1
    omega
  rw [Hub.schedFree, cut, List.append_assoc, List.find?_append, below, Option.none_or]
  exact List.find?_cons_of_pos here

theorem Hub.schedOf_lt {h : Hub} {owner k : Nat} (slot : h.schedOf owner = some k) : k < 8 := List.mem_range.1 (List.mem_of_find?_eq_some slot)

/-! ## SCHEDULE (R397) -/

/-- The hub with slot `k` taken for instant `t`. -/
def Hub.slotTaken (h : Hub) (k t : Nat) : Hub :=
  ((h.setTime { h.time with schedAt := aInsert h.time.schedAt k t }).set (SCHED_OWNER k) ownCast).set (SCHED_STATE k) scPending

theorem Hub.slotTaken_get (h : Hub) (k t : Nat) : (h.slotTaken k t).get (SCHED_STATE k) = 1 ∧ (h.slotTaken k t).get (SCHED_OWNER k) = 3 := by
  have apart : (SCHED_OWNER k).key ≠ (SCHED_STATE k).key := by simp only [Field.key, SCHED_OWNER, SCHED_STATE]; omega
  refine ⟨Hub.get_set_same _ _ _, ?_⟩
  rw [Hub.slotTaken, Hub.get_set_ne _ _ _ _ apart]
  exact Hub.get_set_same _ _ _

theorem Hub.slotTaken_instant (h : Hub) (k t : Nat) : (h.slotTaken k t).schedInstant k = t := by
  rw [Hub.schedInstant, Hub.slotTaken, Hub.set_time, Hub.set_time, Hub.setTime_time]
  exact aGet_aInsert_same _ _ _ _

/-- The boot record of a pending activation. -/
def Hub.pendingRec (h : Hub) (b : BootRec) : BootRec :=
  { b with state := brPending, active := h.get UPD_STAT_RUN_SLOT, probEnd := tSec h.actAt + h.get UPD_PROBATION }

section schedule
variable {w : Hw}

theorem Hw.updSchedule_idle (idle : w.hub.get UPD_STAT_STATE ≠ 3) : w.updSchedule = w.setHub (w.hub.on UPD_STAT_WERR) := if_pos idle

variable (st : w.hub.get UPD_STAT_STATE = 3)
include st

theorem Hw.updSchedule_staged : w.updSchedule = if w.updRefusal false ≠ 0 then w.setHub ((w.hub.on UPD_STAT_WERR).set UPD_STAT_REFUSE (w.updRefusal false))
    else if w.hub.actAt < w.hub.time.now + 100 * msU then w.setHub (w.hub.on UPD_STAT_WERR)
    else (w.hub.schedTake ownCast w.hub.actAt).elim (w.setHub (w.hub.on UPD_STAT_WERR)) fun p =>
      (((w.setHub p.2).writeBoot fun b => w.hub.pendingRec b).onHub fun h =>
        h.set UPD_STAT_STATE upScheduled).showCasts := by
  refine (if_neg (not_not.2 st)).trans ?_
  cases w.hub.schedTake ownCast w.hub.actAt <;> rfl

theorem Hw.updSchedule_refused (why : w.updRefusal false ≠ 0) :
    w.updSchedule = w.setHub ((w.hub.on UPD_STAT_WERR).set UPD_STAT_REFUSE (w.updRefusal false)) := (Hw.updSchedule_staged st).trans (if_pos why)

variable (may : w.updRefusal false = 0)
include may

theorem Hw.updSchedule_unplaced (why : w.hub.actAt < w.hub.time.now + 100 * msU ∨ ∀ j < 8, w.hub.get (SCHED_STATE j) = 1) :
    w.updSchedule = w.setHub (w.hub.on UPD_STAT_WERR) := by
  refine (Hw.updSchedule_staged st).trans ((if_neg (not_not.2 may)).trans ?_)
  rcases why with soon | full
  · exact if_pos soon
  · have taken : w.hub.schedTake ownCast w.hub.actAt = none := by rw [Hub.schedTake, Hub.schedFree_none full, Option.map_none]
    rw [taken]
    exact ite_self _

theorem Hw.updSchedule_takes {k : Nat} (lt : k < 8) (ahead : w.hub.time.now + 100 * msU ≤ w.hub.actAt) (free : w.hub.get (SCHED_STATE k) ≠ 1)
    (full : ∀ j < k, w.hub.get (SCHED_STATE j) = 1) : w.updSchedule
      = (((w.setHub (w.hub.slotTaken k w.hub.actAt)).writeBoot fun b => w.hub.pendingRec b).onHub fun h =>
        h.set UPD_STAT_STATE upScheduled).showCasts := by
  have taken : w.hub.schedTake ownCast w.hub.actAt = some (k, w.hub.slotTaken k w.hub.actAt) := by
    rw [Hub.schedTake, Hub.schedFree_lowest lt free full]
    rfl
  refine (Hw.updSchedule_staged st).trans ((if_neg (not_not.2 may)).trans ((if_neg (Nat.not_lt.2 ahead)).trans ?_))
  rw [taken]
  rfl

end schedule

theorem Hw.showCasts_sched (w : Hw) {k : Nat} (lt : k < 8) : w.showCasts.hub.get (SCHED_STATE k) = w.hub.get (SCHED_STATE k)
    ∧ w.showCasts.hub.get (SCHED_OWNER k) = w.hub.get (SCHED_OWNER k) := by
  have low (f : Field) (below : f.key < 0x100000) :
      f.key ∉ [UPD_RUN_VERSION, UPD_PREV_VERSION, UPD_STAT_PREV_VALID, UPD_STAGED_VERSION, UPD_STAT_FORMAT].map Field.key := by
    simp only [Field.key] at below
    simp only [List.map_cons, List.map_nil, List.mem_cons, List.not_mem_nil, or_false, not_or, Field.key, UPD_RUN_VERSION, UPD_PREV_VERSION,
      UPD_STAT_PREV_VALID, UPD_STAGED_VERSION, UPD_STAT_FORMAT]
    omega
  exact ⟨w.showCasts_get_ne _ (low _ (by simp only [Field.key, SCHED_STATE]; omega)),
    w.showCasts_get_ne _ (low _ (by simp only [Field.key, SCHED_OWNER]; omega))⟩

theorem Hw.showCasts_time (w : Hw) : w.showCasts.hub.time = w.hub.time := by
  unfold Hw.showCasts
  dsimp only [Hw.onHub_hub]
  split <;> split <;> (try split) <;> rfl

/-- What an accepted SCHEDULE leaves. -/
theorem Hw.updSchedule_outcome {w : Hw} (st : w.hub.get UPD_STAT_STATE = 3) (may : w.updRefusal false = 0) {k : Nat} (lt : k < 8)
    (ahead : w.hub.time.now + 100 * msU ≤ w.hub.actAt) (free : w.hub.get (SCHED_STATE k) ≠ 1) (full : ∀ j < k, w.hub.get (SCHED_STATE j) = 1) :
    let w' := w.updSchedule
    w'.hub.get UPD_STAT_STATE = 4 ∧ w'.hub.get (SCHED_STATE k) = 1 ∧ w'.hub.get (SCHED_OWNER k) = 3 ∧ w'.hub.schedInstant k = w.hub.actAt
    ∧ w'.nv.boot = { w.hub.pendingRec w.nv.boot with seq := (w.nv.boot.seq + 1) % 2 ^ 32 } ∧ w'.mem = w.mem := by
  have state : (SCHED_STATE k).key ≠ UPD_STAT_STATE.key := by simp only [Field.key, SCHED_STATE, UPD_STAT_STATE]; omega
  have owner : (SCHED_OWNER k).key ≠ UPD_STAT_STATE.key := by simp only [Field.key, SCHED_OWNER, UPD_STAT_STATE]; omega
  obtain ⟨taken, mine⟩ := w.hub.slotTaken_get k w.hub.actAt
  dsimp only
  rw [Hw.updSchedule_takes st may lt ahead free full, Hw.showCasts_get_ne _ _ (by decide), (Hw.showCasts_sched _ lt).1, (Hw.showCasts_sched _ lt).2,
    Hub.schedInstant, Hw.showCasts_time, Hw.showCasts_nv, Hw.showCasts_mem, Hw.onHub_hub, Hw.onHub_nv, Hw.onHub_mem, Hw.writeBoot_mem, Hub.set_time,
    Hub.get_set_ne _ _ _ _ state, Hub.get_set_ne _ _ _ _ owner]
  refine ⟨Hub.get_set_same _ _ _, taken, mine, w.hub.slotTaken_instant k _, ?_, rfl⟩
  rw [Hw.writeBoot, Hw.setNv_nv, Nv.appendBoot_boot]
  rfl

/-! ## CANCEL and the instant (R397, R398) -/

/-- The record of the running slot, with no activation pending. -/
theorem Hw.writeStable_boot (w : Hw) : w.writeStable.nv.boot
    = { w.nv.boot with state := w.nv.restState, active := w.hub.get UPD_STAT_RUN_SLOT, probEnd := 0, seq := (w.nv.boot.seq + 1) % 2 ^ 32 } := by
  rw [Hw.writeStable, Hw.writeBoot, Hw.setNv_nv, Nv.appendBoot_boot]

theorem Hw.writeStable_hub (w : Hw) : w.writeStable.hub = w.hub := rfl

theorem Hw.updUnschedule_idle {w : Hw} (idle : w.hub.get UPD_STAT_STATE ≠ 4) : w.updUnschedule = w := if_neg idle

theorem Hw.updUnschedule_scheduled {w : Hw} {k : Nat} (st : w.hub.get UPD_STAT_STATE = 4) (slot : w.hub.schedOf 3 = some k) :
    w.updUnschedule = (w.setHub ((w.hub.set (SCHED_STATE k) 4).set UPD_STAT_STATE 3)).writeStable := by
  have ended : w.hub.schedEndOf ownCast scCancelled = w.hub.set (SCHED_STATE k) 4 := by
    rw [Hub.schedEndOf, show w.hub.schedOf ownCast = some k from slot]
    rfl
  refine (if_pos st).trans ?_
  rw [Hw.onHub, ended]
  rfl

theorem Hw.activate_none {w : Hw} (none : w.hub.schedOf 3 = none) : w.activate = w := by
  unfold Hw.activate
  rw [show w.hub.schedOf ownCast = Option.none from none]

/-- The hub at the instant of slot `k`, with what was due by then done (R58). -/
def Hub.atActivation (h : Hub) (k : Nat) : Hub :=
  (((h.withdrawDue (h.schedInstant k)).commitDue (h.schedInstant k)).upTo (h.schedInstant k)).set (SCHED_STATE k) 2

theorem Hw.activate_due {w : Hw} {k : Nat} (slot : w.hub.schedOf 3 = some k) : w.activate
    = if (w.setHub (w.hub.atActivation k)).updRefusal false = 0 then
        w.setHub (((w.hub.atActivation k).setPwr { (w.hub.atActivation k).pwr with actGo := true }).resetBy srcCast)
      else (w.setHub ((((w.hub.atActivation k).on UPD_STAT_ACT_REFUSED).set UPD_STAT_REFUSE ((w.setHub (w.hub.atActivation k)).updRefusal false)).set
        UPD_STAT_STATE 3)).writeStable := by
  unfold Hw.activate
  rw [show w.hub.schedOf ownCast = some k from slot]
  rfl

/-! ## Probation (R400) -/

theorem Hw.confirm_idle {w : Hw} (idle : w.hub.get UPD_STAT_STATE ≠ 5) : w.confirm = w.setHub (w.hub.on UPD_STAT_WERR) := if_pos idle

theorem Hub.revert_idle {h : Hub} (idle : h.get UPD_STAT_STATE ≠ 5) : h.revert = h.on UPD_STAT_WERR := if_neg idle

theorem Hub.revert_probation {h : Hub} (st : h.get UPD_STAT_STATE = 5) : h.revert = h.revertReset := if_pos st

theorem Hub.probationEnd_idle {h : Hub} (idle : h.get UPD_STAT_STATE ≠ 5) : h.probationEnd = h := if_neg idle

theorem Hub.probationEnd_probation {h : Hub} (st : h.get UPD_STAT_STATE = 5) : h.probationEnd = (h.upTo (h.upd.probEnd * secU)).revertReset := if_pos st

/-- The flash once a CONFIRM has led RECOVERY to FIELD. -/
def Hw.confirmNv (w : Hw) : Nv := if w.lcState = 3 then { w.nv with recovery := false, lcFuse := lcField } else w.nv

/-- The hub's registers as an update ends well. -/
def Hub.confirmed (h : Hub) : Hub :=
  (((h.set UPD_STAT_STATE upIdle).on UPD_STAT_CONFIRMED).off UPD_STAT_UPDATING).bump UPD_UPDATES UPD_STAT_SAT

/-- Epoch and key fuses follow the cast that is confirmed (R392). -/
def Nv.fused (n : Nv) (c : Cast) : Nv := { n with epochFuse := max n.epochFuse c.secEpoch, key0Revoked := n.key0Revoked || (c.revokeKey0 && c.keyId == 1) }

theorem Hw.confirm_eq {w : Hw} {c : Cast} (st : w.hub.get UPD_STAT_STATE = 5) (run : w.hub.upd.running = some c) :
    ∃ v, w.confirm = (((w.setNv ((w.setNv w.confirmNv).writeStable.nv.fused c)).setHub (w.hub.confirmed.set UPD_STAT_PREV_VALID v))).showCasts := by
  have left : (if w.lcState = lcRecovery then w.setNv { w.nv with recovery := false, lcFuse := lcField } else w) = w.setNv w.confirmNv := by
    rw [Hw.confirmNv, apply_ite w.setNv]
    rfl
  unfold Hw.confirm
  dsimp only
  rw [if_neg (show ¬w.hub.upState ≠ upProbation from not_not.2 st), left, show (w.setNv w.confirmNv).writeStable.hub.upd.running = some c from run]
  exact ⟨_, rfl⟩

theorem Hub.confirmed_regs (h : Hub) : h.confirmed.get UPD_STAT_STATE = 0 ∧ h.confirmed.get UPD_STAT_CONFIRMED = 1 ∧ h.confirmed.get UPD_STAT_UPDATING = 0
    ∧ h.confirmed.get UPD_UPDATES = min (h.get UPD_UPDATES + 1) UPD_UPDATES.top := by
  refine ⟨?_, ?_, ?_, ?_⟩
  · rw [Hub.confirmed, Hub.bump_get_ne _ _ _ _ (by decide) (by decide), Hub.get_off_ne _ _ _ (by decide), Hub.get_on_ne _ _ _ (by decide)]
    exact Hub.get_set_same _ _ _
  · rw [Hub.confirmed, Hub.bump_get_ne _ _ _ _ (by decide) (by decide), Hub.get_off_ne _ _ _ (by decide)]
    exact Hub.get_on_same _ _ (by decide)
  · rw [Hub.confirmed, Hub.bump_get_ne _ _ _ _ (by decide) (by decide), Hub.get_off_same]
  · rw [Hub.confirmed, Hub.bump_get _ _ _ (by decide), Hub.get_off_ne _ _ _ (by decide), Hub.get_on_ne _ _ _ (by decide), Hub.get_set_ne _ _ _ _ (by decide)]

/-- What CONFIRM leaves in flash and fuses. -/
theorem Hw.confirm_nv (w : Hw) (c : Cast) : let n := (w.setNv w.confirmNv).writeStable.nv.fused c
    n.boot.active = w.hub.get UPD_STAT_RUN_SLOT ∧ n.boot.state = (if w.lcState = 3 then 1 else if w.nv.recovery then 4 else 1) ∧ n.boot.probEnd = 0
    ∧ n.epochFuse = max w.nv.epochFuse c.secEpoch ∧ n.key0Revoked = (w.nv.key0Revoked || (c.revokeKey0 && c.keyId == 1))
    ∧ (w.lcState = 3 → n.lcFuse = 2) ∧ (w.lcState ≠ 3 → n.lcFuse = w.nv.lcFuse) := by
  have fuses : (w.setNv w.confirmNv).writeStable.nv.epochFuse = w.confirmNv.epochFuse
      ∧ (w.setNv w.confirmNv).writeStable.nv.key0Revoked = w.confirmNv.key0Revoked ∧ (w.setNv w.confirmNv).writeStable.nv.lcFuse = w.confirmNv.lcFuse := by
    rw [Hw.writeStable, Hw.writeBoot, Hw.setNv_nv, Hw.setNv_nv, Nv.appendBoot]
    dsimp only
    split <;> exact ⟨rfl, rfl, rfl⟩
  obtain ⟨epoch, key, fuse⟩ := fuses
  dsimp only
  rw [Nv.fused, epoch, key, fuse, Hw.writeStable_boot, Hw.setNv_nv]
  by_cases recovering : w.lcState = 3
  · rw [Hw.confirmNv, if_pos recovering, if_pos recovering]
    exact ⟨rfl, rfl, rfl, rfl, rfl, fun _ => rfl, fun k => absurd recovering k⟩
  · rw [Hw.confirmNv, if_neg recovering, if_neg recovering]
    exact ⟨rfl, rfl, rfl, rfl, rfl, fun k => absurd k recovering, fun _ => rfl⟩

theorem Hw.confirm_outcome {w : Hw} {c : Cast} (st : w.hub.get UPD_STAT_STATE = 5) (run : w.hub.upd.running = some c) : let w' := w.confirm
    w'.hub.get UPD_STAT_STATE = 0 ∧ w'.hub.get UPD_STAT_CONFIRMED = 1
    ∧ w'.hub.get UPD_STAT_UPDATING = 0 ∧ w'.hub.get UPD_UPDATES = min (w.hub.get UPD_UPDATES + 1) UPD_UPDATES.top
    ∧ w'.nv.boot.active = w.hub.get UPD_STAT_RUN_SLOT ∧ w'.nv.boot.state = (if w.lcState = 3 then 1 else if w.nv.recovery then 4 else 1) ∧ w'.nv.boot.probEnd = 0
    ∧ w'.nv.epochFuse = max w.nv.epochFuse c.secEpoch ∧ w'.nv.key0Revoked = (w.nv.key0Revoked || (c.revokeKey0 && c.keyId == 1))
    ∧ (w.lcState = 3 → w'.nv.lcFuse = 2) ∧ (w.lcState ≠ 3 → w'.nv.lcFuse = w.nv.lcFuse) ∧ w'.mem = w.mem := by
  obtain ⟨v, e⟩ := Hw.confirm_eq st run
  obtain ⟨state, confirmed, updating, updates⟩ := w.hub.confirmed_regs
  obtain ⟨active, record, ended, epoch, key, left, kept⟩ := w.confirm_nv c
  dsimp only
  rw [e, Hw.showCasts_nv, Hw.showCasts_mem]
  refine ⟨?_, ?_, ?_, ?_, active, record, ended, epoch, key, left, kept, rfl⟩
  all_goals rw [Hw.showCasts_get_ne _ _ (by decide), Hw.setHub_hub, Hub.get_set_ne _ _ _ _ (by decide)]; assumption

/-! ## STAGE_PREV (R401) -/

theorem Hw.stagePrev_taken {w : Hw} (mode : w.hub.get DEV_MODE_MODE = 7) (prev : w.hub.get UPD_STAT_PREV_VALID = 1) (free : w.hub.updBusy = false) :
    w.stagePrev = (w.onHub fun h => h.set UPD_STAT_STATE upStaged).showCasts :=
  if_pos ⟨mode, Hub.bit_of_one prev, by simp [free]⟩

theorem Hw.stagePrev_refused {w : Hw} (why : w.hub.get DEV_MODE_MODE ≠ 7 ∨ w.hub.get UPD_STAT_PREV_VALID ≠ 1 ∨ w.hub.updBusy = true) :
    w.stagePrev = w.setHub (w.hub.on UPD_STAT_WERR) := by
  refine if_neg ?_
  rintro ⟨mode, prev, free⟩
  rcases why with other | none | busy
  · exact other mode
  · simp [Hub.bit_of_ne none] at prev
  · simp [busy] at free

/-- Settles O56: each command by the state of the update, the instant by the checks run again. -/
theorem castActivation : Obligations.CastActivation := by
  intro s up
  dsimp only
  refine ⟨fun idle => ?_, fun st why => ?_, fun st may why => ?_, fun k lt st may ahead free full => ?_, fun idle => ?_, fun k st slot => ?_, fun none => ?_,
    fun k slot => ⟨fun may => ?_, fun why => ?_⟩, fun idle => ⟨?_, ?_, ?_⟩, fun st => ⟨fun c run => ?_, ?_, ?_⟩, rfl, fun mode prev free => ?_, fun why => ?_⟩
  · exact gives_onHw (exec_schedule up) (Hw.updSchedule_idle idle)
  · exact gives_onHw (exec_schedule up) (Hw.updSchedule_refused st why)
  · exact gives_onHw (exec_schedule up) (Hw.updSchedule_unplaced st may why)
  · exact leads_onHw (exec_schedule up) (Hw.updSchedule_outcome st may lt ahead free full)
  · exact gives_onHw (exec_updCancel up) (Hw.updUnschedule_idle idle)
  · have apart : UPD_STAT_RUN_SLOT.key ≠ (SCHED_STATE k).key := by
      have lt := Hub.schedOf_lt slot
      simp only [Field.key, SCHED_STATE, UPD_STAT_RUN_SLOT]
      omega
    refine leads_onHw (exec_updCancel up) ?_
    rw [Hw.updUnschedule_scheduled st slot, Hw.writeStable_hub, Hw.writeStable_mem, Hw.writeStable_boot, Hw.setHub_hub, Hub.get_set_ne _ _ _ _ (by decide),
      Hub.get_set_ne _ _ _ _ apart]
    exact ⟨rfl, rfl, rfl⟩
  · exact gives_onHw (exec_activationInstant up) (Hw.activate_none none)
  · exact gives_onHw (exec_activationInstant up) ((Hw.activate_due slot).trans (if_pos may))
  · refine leads_onHw (exec_activationInstant up) ?_
    rw [Hw.activate_due slot, if_neg (show ¬(s.hw.setHub (s.hw.hub.atActivation k)).updRefusal false = 0 from why), Hw.writeStable_hub, Hw.writeStable_mem,
      Hw.writeStable_boot]
    exact ⟨rfl, rfl, rfl, rfl, rfl⟩
  · exact gives_onHw (exec_confirm up) (Hw.confirm_idle idle)
  · exact gives_onHub (exec_revert up) (Hub.revert_idle idle)
  · exact gives_onHub (exec_probEnd up) (Hub.probationEnd_idle idle)
  · exact leads_onHw (exec_confirm up) (Hw.confirm_outcome st run)
  · exact gives_onHub (exec_revert up) (Hub.revert_probation st)
  · exact gives_onHub (exec_probEnd up) (Hub.probationEnd_probation st)
  · refine leads_onHw (exec_stagePrev up) ?_
    rw [Hw.stagePrev_taken mode prev free, Hw.showCasts_get_ne _ _ (by decide), Hw.showCasts_mem, Hw.showCasts_nv]
    exact ⟨Hub.get_set_same _ _ _, rfl, rfl⟩
  · exact gives_onHw (exec_stagePrev up) (Hw.stagePrev_refused why)

end Sys2Proof.Machine
end

section
/-! SUPPORT. Grid outputs and engineering words (R132, R149, R150, R156, R158). -/

namespace Sys2Proof.Machine

theorem exec_outputReady {s : State} (up : s.up) (n : Fin 192) : exec (.outputReady n) s = .next (s.onHub fun h => h.outputReady n) := exec_whenUp_up up rfl

theorem exec_engineeringWordReady {s : State} (up : s.up) (n : Fin 192) :
    exec (.engineeringWordReady n) s = .next (s.onHub fun h => h.engWordReady n) := exec_whenUp_up up rfl

/-! ## Outputs -/

section outputs
variable {h : Hub} {n : Nat}

/-- What follows an output once it is taken: linearisation, the partner's digest, streams, carvers and trigger units. -/
def Hub.outputFollows (n : Nat) (p : Output × Run × Hub) : Hub :=
  let t := gridInstant p.2.1.epoch p.2.1.p p.2.1.q p.1.index
  let a := p.2.2.setChan n { p.2.2.chan n with linQ := (p.2.2.chan n).linQ ++ [(p.1, p.2.1)] }
  let b := if a.get DUP_PSTATE = 0 then a else a.setPair { a.pair with parts := digestParts n t p.1 ++ a.pair.parts }
  (((b.route1 n p.1.index p.2.1 false p.1.words).carverCells n p.1.index p.2.1 false p.1.words).trigSample n t (p.1.words.headD 0)).chanClear n

theorem Hub.outputReady_eq (h : Hub) (n : Nat) : h.outputReady n = h.watchNext fun h => (h.takeOutput n).elim h (Hub.outputFollows n) := by
  unfold Hub.outputReady Hub.watchNext
  dsimp only
  cases h.takeOutput n <;> rfl

theorem Hub.takeOutput_none (none : (h.chan n).due = none) : h.takeOutput n = Option.none := by
  unfold Hub.takeOutput
  rw [none]

/-- The hub once the output of run `r` has been taken. -/
def Hub.outputTaken (h : Hub) (n : Nat) (r : Run) : Hub :=
  let g := h.upTo (gridInstant r.epoch r.p r.q r.next + (r.w * 4294967296).ceil.toNat + h.delayOf n (h.outputRange n r r.next) + 4 * usU)
  let g := g.setChan n { g.chan n with runs := stepRuns (g.chan n).runs }
  if (h.chan n).run == some r && decide ((g.chan n).settledAt ≤ r.next) then g.off (CH_CHAIN_SETTLING n) else g

theorem Hub.takeOutput_some {r : Run} (due : (h.chan n).due = some r) :
    ∃ o : Output, o.index = r.next ∧ o.words = h.outputWords n r r.next ∧ h.takeOutput n = some (o, r, h.outputTaken n r) := by
  unfold Hub.takeOutput
  rw [due]
  exact ⟨_, rfl, rfl, rfl⟩

theorem Hub.outputTaken_now (h : Hub) (n : Nat) (r : Run) : (h.outputTaken n r).time.now = max h.time.now (gridInstant r.epoch r.p r.q r.next
    + (r.w * 4294967296).ceil.toNat + h.delayOf n (h.outputRange n r r.next) + 4 * usU) := by
  unfold Hub.outputTaken
  dsimp only
  split
  · rw [Hub.off_time, Hub.setChan_time]
    rfl
  · rw [Hub.setChan_time]
    rfl

theorem Hub.outputTaken_runs (h : Hub) (n : Nat) (r : Run) : ((h.outputTaken n r).chan n).runs = stepRuns (h.chan n).runs := by
  unfold Hub.outputTaken
  dsimp only
  split
  · rw [Hub.chan, Hub.off_chans, ← Hub.chan, Hub.setChan_chan_same]
    rfl
  · rw [Hub.setChan_chan_same]
    rfl

/-- One path out: the in-phase one, or the quadrature one where the demodulator's output is it. -/
theorem Hub.outputWords_single {r : Run} (one : r.two = false) (idx : Nat) :
    h.outputWords n r idx = [h.outputWord n r (h.bit (CH_CHAIN_DEMOD n) && h.get (CH_CHAIN_DEMOD_OUT n) == 1) idx] := by
  refine if_neg ?_
  rw [one]
  decide

theorem Hub.watchNext_same {f : Hub → Hub} (same : f h = h) : h.watchNext f = h := by
  unfold Hub.watchNext
  rw [same]
  exact if_pos rfl

/-- What follows an output's engineering words: streams and carvers. -/
def Hub.wordsFollow (n : Nat) (p : Output × Run × List Nat × Hub) : Hub :=
  ((p.2.2.2.route1 n p.1.index p.2.1 true (p.2.2.1.flatMap halves)).carverCells n p.1.index p.2.1 true (p.2.2.1.flatMap halves)).chanClear n

theorem Hub.engWordReady_eq (h : Hub) (n : Nat) : h.engWordReady n = h.watchNext fun h => (h.takeLin n).elim h (Hub.wordsFollow n) := by
  unfold Hub.engWordReady Hub.watchNext
  dsimp only
  cases h.takeLin n <;> rfl

theorem Hub.takeLin_nil (nil : (h.chan n).linQ = []) : h.takeLin n = Option.none := by
  unfold Hub.takeLin
  rw [nil]

theorem Hub.takeLin_cons {o : Output} {r : Run} {rest : List (Output × Run)} (cons : (h.chan n).linQ = (o, r) :: rest) :
    ∃ ws g, h.takeLin n = some (o, r, ws, g) := by
  unfold Hub.takeLin
  rw [cons]
  exact ⟨_, _, rfl⟩

/-- An operation that changes ACQ_SNEXT is judged on the state it starts from. -/
theorem Hub.watchNext_congr {f g : Hub → Hub} (e : f h = g h) : h.watchNext f = h.watchNext g := by
  unfold Hub.watchNext
  rw [e]

end outputs

/-! ## Output words (R156) -/

theorem saturate_bounds (v : Int) : (saturate v).1 ≤ 8388607 ∧ -8388607 ≤ (saturate v).1 ∧ ((saturate v).2 = true ↔ v > 8388607 ∨ v < -8388607)
    ∧ ((saturate v).2 = false → (saturate v).1 = v) := by
  unfold saturate
  split
  next above => exact ⟨by decide, by decide, by simp [above], by simp⟩
  next =>
    split
    next below => exact ⟨by decide, by decide, by simp [below], by simp⟩
    next => exact ⟨by omega, by omega, by simp; omega, fun _ => rfl⟩

theorem b2n_le (b : Bool) : b2n b ≤ 1 := by cases b <;> decide

theorem b2n_bit (b : Bool) : decide (b2n b = 1) = b := by cases b <;> rfl

/-- The bits of a word whose status bits and range stand below its value. -/
theorem sampleWord_bits (v : Int) (settle xsit clip excf openw : Bool) (range : Nat) (_ : -8388608 ≤ v) (_ : v ≤ 8388607) :
    let w := sampleWord v settle xsit clip excf openw range
    w / 256 = (v % 2 ^ 24).toNat ∧ w % 8 = range % 8 ∧ w.testBit 7 = settle ∧ w.testBit 6 = xsit ∧ w.testBit 5 = clip ∧ w.testBit 4 = excf
    ∧ w.testBit 3 = openw := by
  have s := b2n_le settle
  have x := b2n_le xsit
  have c := b2n_le clip
  have e := b2n_le excf
  have o := b2n_le openw
  have bit {w i : Nat} {b : Bool} (is : w / 2 ^ i % 2 = b2n b) : w.testBit i = b := by
    rw [Nat.testBit_eq_decide_div_mod_eq, is, b2n_bit]
  unfold sampleWord
  dsimp only
  refine ⟨?_, ?_, bit ?_, bit ?_, bit ?_, bit ?_, bit ?_⟩
  · have top : ofSigned 24 v = (v % 2 ^ 24).toNat := rfl
    omega
  all_goals omega

/-- Settles O54: the due output is taken at its instant and followed by its uses, its engineering words in their order. -/
theorem outputs : Obligations.Outputs := by
  refine ⟨fun s n up => ?_, saturate_bounds, sampleWord_bits⟩
  dsimp only
  refine ⟨fun none => ?_, fun r due => ?_, fun nil => ?_, fun o r rest cons => ?_⟩
  · refine gives_onHub (exec_outputReady up n) ((Hub.outputReady_eq _ _).trans (Hub.watchNext_same ?_))
    rw [Hub.takeOutput_none none]
    rfl
  · obtain ⟨o, index, words, taken⟩ := Hub.takeOutput_some due
    refine ⟨o, _, taken, index, words, fun one => words.trans (Hub.outputWords_single one _), Hub.outputTaken_now _ _ _, Hub.outputTaken_runs _ _ _, ?_⟩
    refine gives_onHub (exec_outputReady up n) ((Hub.outputReady_eq _ _).trans (Hub.watchNext_congr ?_))
    rw [taken, ← index]
    rfl
  · refine gives_onHub (exec_engineeringWordReady up n) ((Hub.engWordReady_eq _ _).trans (Hub.watchNext_same ?_))
    rw [Hub.takeLin_nil nil]
    rfl
  · obtain ⟨ws, g, taken⟩ := Hub.takeLin_cons cons
    refine ⟨ws, g, taken, gives_onHub (exec_engineeringWordReady up n) ((Hub.engWordReady_eq _ _).trans (Hub.watchNext_congr ?_))⟩
    rw [taken]
    rfl

end Sys2Proof.Machine
end

section
/-! SUPPORT. Sequenced frames that are expected, and enumeration (R333, R337 to R339, R444). -/

namespace Sys2Proof.Machine

/-! ## Frames over a link -/

/-- A frame of a link is met while the lanes run. -/
theorem exec_whenLanes_up {c : Instr} {s : State} {f : Hub → Hub} (up : s.up) (e : exec c s = .next (s.onHub fun h => h.whenLanes f)) :
    exec c s = .next (s.onHub f) := by
  rw [e]
  exact congrArg (fun h => Host.Outcome.next (s.withHub h)) (Hub.whenLanes_up up)

theorem Hub.rxSeq_down {h : Hub} {k lseq : Nat} {f : Hub → Hub} (down : h.linkUp k = false) : h.rxSeq k lseq f = h := if_pos (by simp [down])

theorem Hub.rxSeq_expected {h : Hub} {k : Nat} {f : Hub → Hub} (live : h.linkUp k = true) : h.rxSeq k (h.get (LINK_RX_LSEQ k)) f = f h :=
  (if_neg (by simp [live])).trans (if_pos rfl)

theorem Hub.rxSeq_other {h : Hub} {k lseq : Nat} {f : Hub → Hub} (live : h.linkUp k = true) (other : lseq ≠ h.get (LINK_RX_LSEQ k)) : h.rxSeq k lseq f
    = if serialLe lseq (h.get (LINK_RX_LSEQ k)) then (h.bump (LINK_RX_DUPS k) (LINK_SAT k)).modLink k fun l => { l with dueAck := true } else h.nakOnce k :=
  (if_neg (by simp [live])).trans (if_neg other)

/-- A control frame that is accepted is counted as freed once it is acted on, and its credit is due. -/
def Hub.ctrlFreed (h : Hub) (k : Nat) : Hub := (h.modLink k fun l => { l with myFreed := (l.myFreed + 1) % 2 ^ 32 }).creditDue k

theorem Hub.rxCtrl_expected {h : Hub} {k : Nat} {f : Hub → Hub} (live : h.linkUp k = true) :
    h.rxCtrl k (h.get (LINK_RX_LSEQ k)) f = (f (h.rxAccept k)).ctrlFreed k := Hub.rxSeq_expected live

/-- The word of the sequence number expected names it. -/
theorem toNat_expected {n : Nat} (lt : n < 2 ^ 32) : (BitVec.ofNat 32 n).toNat = n := by
  rw [BitVec.toNat_ofNat]
  exact Nat.mod_eq_of_lt lt

/-- The frame a link expects is acted on, counted as freed and credited. -/
theorem gives_rxCtrl {c : Instr} {s : State} {k n : Nat} {f : Hub → Hub} {h : Hub} (e : exec c s = .next (s.onHub fun h => h.rxCtrl k n f))
    (live : s.hw.hub.linkUp k = true) (is : n = s.hw.hub.get (LINK_RX_LSEQ k)) (p : f (s.hw.hub.rxAccept k) = h) : Gives c s (h.ctrlFreed k) := by
  subst is p
  exact gives_onHub e (Hub.rxCtrl_expected live)

theorem exec_assignRx {s : State} (up : s.up) (k : Fin 64) (l : Word) (route : BitVec 48) (depth : Fin 256) :
    exec (.assignRx k l route depth) s = .next (s.onHub fun h => h.assignRx k l.toNat route.toNat depth) := exec_whenUp_up up rfl

theorem exec_set {s : State} (up : s.up) : exec .set s = .next (s.onHub Hub.routeSetWrite) :=
  exec_hubWr_up (a := 0xC) (v := fun _ => 2 ^ 21) up (by decide) rfl

/-! ## HELLO (R337) -/

/-- The registers that show the partner of a link. -/
def Hub.peerShown (h : Hub) (k : Nat) (m : HelloMsg) : Hub :=
  ((((((h.modLink k fun l => { l with hello := some m }).set (LINK_PEER_ROUTE_LO k) m.route).set (LINK_PEER_ROUTE_HI k) (m.route / 2 ^ 32)).set
    (LINK_PEER_DEPTH k) m.depth).set (LINK_PEER_ROLE k) m.role).set (LINK_PEER_HW k) m.hw).set (LINK_PEER_REV k) m.rev

theorem Hub.peerShown_role (h : Hub) (k : Nat) (m : HelloMsg) : (h.peerShown k m).role k = h.role k := by
  have role : (h.peerShown k m).get (LINK_ROLE k) = h.get (LINK_ROLE k) := by
    unfold Hub.peerShown
    rw [Hub.get_set_ne _ _ _ _ (by simp only [Field.key, LINK_ROLE, LINK_PEER_REV]; omega),
      Hub.get_set_ne _ _ _ _ (by simp only [Field.key, LINK_ROLE, LINK_PEER_HW]; omega), Hub.get_set_ne _ _ _ _ (by simp only [Field.key, LINK_ROLE, LINK_PEER_ROLE]; omega),
      Hub.get_set_ne _ _ _ _ (by simp only [Field.key, LINK_ROLE, LINK_PEER_DEPTH]; omega),
      Hub.get_set_ne _ _ _ _ (by simp only [Field.key, LINK_ROLE, LINK_PEER_ROUTE_HI]; omega),
      Hub.get_set_ne _ _ _ _ (by simp only [Field.key, LINK_ROLE, LINK_PEER_ROUTE_LO]; omega), Hub.modLink_get]
  rw [Hub.role, Hub.role, role]

/-- What a HELLO does: the partner is shown, a wrong pairing marked, an unassigned partner given an address. -/
def Hub.helloActs (h : Hub) (k : Nat) (m : HelloMsg) : Hub :=
  let g := if rolesPair (h.role k) m.role then h.peerShown k m else (h.peerShown k m).on (LINK_ROLE_MISMATCH k)
  if m.route = noRoute then g.assignTo k else g

theorem Hub.helloRx_eq (h : Hub) (k n : Nat) (m : HelloMsg) : h.helloRx k n m = h.rxCtrl k n fun g => g.helloActs k m := by
  unfold Hub.helloRx
  congr 1
  funext g
  unfold Hub.helloActs
  rw [← g.peerShown_role k m]
  rfl

theorem exec_helloRx {s : State} (up : s.up) (k : Fin 64) (l : Word) (m : HelloMsg) :
    exec (.helloRx k l m) s = .next (s.onHub fun h => h.rxCtrl k l.toNat fun g => g.helloActs k m) := by
  refine (exec_whenLanes_up (f := fun h => h.helloRx k l.toNat m) up rfl).trans ?_
  simp only [Hub.helloRx_eq]

theorem Hub.helloActs_assigned {h : Hub} {k : Nat} {m : HelloMsg} (route : m.route ≠ noRoute) : h.helloActs k m
    = if rolesPair (h.role k) m.role = true then h.peerShown k m else (h.peerShown k m).on (LINK_ROLE_MISMATCH k) := if_neg route

theorem Hub.helloActs_unassigned {h : Hub} {k : Nat} {m : HelloMsg} (route : m.route = noRoute) : h.helloActs k m
    = (if rolesPair (h.role k) m.role = true then h.peerShown k m else (h.peerShown k m).on (LINK_ROLE_MISMATCH k)).assignTo k := if_pos route

/-! ## ASSIGN (R338, R339) -/

theorem Hub.unassigned_iff (h : Hub) : h.unassigned = true ↔ h.route = noRoute := by simp [Hub.unassigned]

/-- What an ASSIGN does. -/
def Hub.assigned (h : Hub) (k route depth : Nat) : Hub :=
  if !assignOk route depth then h.protoErr k
  else if h.role k ≠ roleUp then h
  else if h.unassigned then (h.modLink k fun l => { l with gaveRoute := true }).takeRoute route
  else if route = h.route then h
  else if h.lk.routeSet ∨ (h.link k).gaveRoute then h.routeConflict k route
  else h

section assign
variable {h : Hub} {k route depth : Nat}

theorem Hub.assigned_bad (bad : assignOk route depth = false) : h.assigned k route depth = h.protoErr k := if_pos (by simp [bad])

variable (ok : assignOk route depth = true)
include ok

theorem Hub.assigned_elsewhere (role : h.role k ≠ roleUp) : h.assigned k route depth = h := (if_neg (by simp [ok])).trans (if_pos role)

variable (role : h.role k = roleUp)
include role

theorem Hub.assigned_takes (free : h.route = noRoute) :
    h.assigned k route depth = (h.modLink k fun l => { l with gaveRoute := true }).takeRoute route :=
  (if_neg (by simp [ok])).trans ((if_neg (not_not.2 role)).trans (if_pos (h.unassigned_iff.2 free)))

variable (held : h.route ≠ noRoute)
include held

theorem Hub.assigned_held : h.assigned k route depth = if route = h.route then h else if h.lk.routeSet ∨ (h.link k).gaveRoute then h.routeConflict k route else h :=
  (if_neg (by simp [ok])).trans ((if_neg (not_not.2 role)).trans (if_neg fun k => held (h.unassigned_iff.1 k)))

theorem Hub.assigned_same (same : route = h.route) : h.assigned k route depth = h := (Hub.assigned_held ok role held).trans (if_pos same)

theorem Hub.assigned_conflict (other : route ≠ h.route) (firm : h.lk.routeSet = true ∨ (h.link k).gaveRoute = true) :
    h.assigned k route depth = h.routeConflict k route := (Hub.assigned_held ok role held).trans ((if_neg other).trans (if_pos firm))

theorem Hub.assigned_ignored (other : route ≠ h.route) (set : h.lk.routeSet = false) (gave : (h.link k).gaveRoute = false) : h.assigned k route depth = h :=
  (Hub.assigned_held ok role held).trans ((if_neg other).trans (if_neg (by simp [set, gave])))

end assign

/-! ## SET (R444) -/

section set
variable {h : Hub}

/-- The address that the host wrote. -/
def Hub.routeWritten (h : Hub) : Nat := h.get DEV_ROUTE_LO + 2 ^ 32 * h.get DEV_ROUTE_ROUTE_HI

theorem Hub.routeSetWrite_bad (bad : assignOk h.routeWritten 1 = false) : h.routeSetWrite = h.on DEV_ROUTE_WERR := by
  refine if_neg ?_
  rintro ⟨ok, -⟩
  rw [Hub.routeWritten] at bad
  rw [bad] at ok
  exact absurd ok (by decide)

theorem Hub.routeSetWrite_other (held : h.route ≠ noRoute) (other : h.route ≠ h.routeWritten) : h.routeSetWrite = h.on DEV_ROUTE_WERR := by
  refine if_neg ?_
  rintro ⟨-, free | same⟩
  · exact held (h.unassigned_iff.1 free)
  · exact other same

theorem Hub.routeSetWrite_takes (ok : assignOk h.routeWritten 1 = true) (free : h.route = noRoute) :
    h.routeSetWrite = (h.setLk { h.lk with routeSet := true }).takeRoute h.routeWritten :=
  (if_pos ⟨ok, .inl (h.unassigned_iff.2 free)⟩).trans (if_pos (h.unassigned_iff.2 free))

theorem Hub.routeSetWrite_held (ok : assignOk h.routeWritten 1 = true) (held : h.route ≠ noRoute) (same : h.route = h.routeWritten) :
    h.routeSetWrite = h.setLk { h.lk with routeSet := true } :=
  (if_pos ⟨ok, .inr same⟩).trans (if_neg fun k => held (h.unassigned_iff.1 k))

end set

/-! ## The address taken -/

theorem Hub.sendCtrl_regs (h : Hub) (k : Nat) (c : Ctrl) : (h.sendCtrl k c).regs = h.regs := by
  unfold Hub.sendCtrl
  split <;> rfl

theorem Hub.sendCtrl_route (h : Hub) (k : Nat) (c : Ctrl) : (h.sendCtrl k c).route = h.route := by
  unfold Hub.sendCtrl
  split <;> rfl

theorem Hub.assignTo_regs (h : Hub) (k : Nat) : (h.assignTo k).regs = h.regs := by
  unfold Hub.assignTo
  dsimp only
  split
  · exact Hub.sendCtrl_regs _ _ _
  · rfl

theorem Hub.assignTo_route (h : Hub) (k : Nat) : (h.assignTo k).route = h.route := by
  unfold Hub.assignTo
  dsimp only
  split
  · exact Hub.sendCtrl_route _ _ _
  · rfl

/-- The address in force and shown. -/
def Hub.routeShown (h : Hub) (route : Nat) : Hub :=
  ((((h.setLk { h.lk with held := route }).set DEV_ROUTE_LO route).set DEV_ROUTE_ROUTE_HI (route / 2 ^ 32)).set DEV_ROUTE_DEPTH (routeDepth route)).on DEV_ROUTE_ASSIGNED

/-- The frames that tell the partners of an address change no register and not the address. -/
theorem Hub.takeRoute_keeps (h : Hub) (r : Nat) : (h.takeRoute r).regs = (h.routeShown r).regs ∧ (h.takeRoute r).route = (h.routeShown r).route := by
  unfold Hub.takeRoute
  dsimp only
  exact ⟨(Hub.each_keeps (fun g => g.regs) _ _ _ fun g k _ => Hub.assignTo_regs g k).trans (Hub.each_keeps (fun g => g.regs) _ _ _ fun g k _ => Hub.sendCtrl_regs g k _),
    (Hub.each_keeps (fun g => g.route) _ _ _ fun g k _ => Hub.assignTo_route g k).trans (Hub.each_keeps (fun g => g.route) _ _ _ fun g k _ => Hub.sendCtrl_route g k _)⟩

theorem Hub.takeRoute_outcome (h : Hub) (r : Nat) : let h' := h.takeRoute r
    h'.route = r ∧ h'.get DEV_ROUTE_LO = r % 2 ^ 32 ∧ h'.get DEV_ROUTE_ROUTE_HI = r / 2 ^ 32 % 2 ^ 16 ∧ h'.get DEV_ROUTE_DEPTH = routeDepth r % 16
    ∧ h'.get DEV_ROUTE_ASSIGNED = 1 ∧ OnlyRegs [DEV_ROUTE_LO, DEV_ROUTE_ROUTE_HI, DEV_ROUTE_DEPTH, DEV_ROUTE_ASSIGNED] h h' := by
  obtain ⟨regs, route⟩ := h.takeRoute_keeps r
  have get (f : Field) : (h.takeRoute r).get f = (h.routeShown r).get f := Hub.get_of_regs _ _ regs f
  dsimp only
  refine ⟨route, ?_, ?_, ?_, ?_, onlyRegs_of_regs regs (onlyRegs_on (by decide) (onlyRegs_set _ (by decide) (onlyRegs_set _ (by decide) (onlyRegs_set _ (by decide)
    (onlyRegs_of_regs (Hub.setLk_regs _ _) (onlyRegs_refl _ h))))))⟩
  · rw [get, Hub.routeShown, Hub.get_on_ne _ _ _ (by decide), Hub.get_set_ne _ _ _ _ (by decide), Hub.get_set_ne _ _ _ _ (by decide)]
    exact Hub.get_set_same _ _ _
  · rw [get, Hub.routeShown, Hub.get_on_ne _ _ _ (by decide), Hub.get_set_ne _ _ _ _ (by decide)]
    exact Hub.get_set_same _ _ _
  · rw [get, Hub.routeShown, Hub.get_on_ne _ _ _ (by decide)]
    exact Hub.get_set_same _ _ _
  · rw [get, Hub.routeShown]
    exact Hub.get_on_same _ _ (by decide)

theorem Hub.helloFor_enumOk (h : Hub) (k : Nat) :
    (h.helloFor k).enumOk = true ↔ h.role k = roleDown ∧ 1 ≤ routeDepth h.route ∧ routeDepth h.route ≤ 7 := by
  simp [Hub.helloFor, and_assoc]

theorem Hub.assignTo_sends {h : Hub} {k : Nat} (role : h.role k = roleDown) (low : 1 ≤ routeDepth h.route) (high : routeDepth h.route ≤ 7) (live : h.get (LINK_UP k) = 1) :
    ((h.assignTo k).link k).ready = (h.link k).ready ++ [.assign (setHop h.route (routeDepth h.route + 1) k) (routeDepth h.route + 1)] := by
  have sends : h.assignTo k = h.sendCtrl k (.assign (setHop h.route (routeDepth h.route + 1) k) (routeDepth h.route + 1)) :=
    if_pos ((h.helloFor_enumOk k).2 ⟨role, low, high⟩)
  rw [sends, Hub.sendCtrl, if_pos (Hub.bit_of_one live), Hub.modLink_link_same]

theorem Hub.assignTo_none {h : Hub} {k : Nat} (why : h.role k ≠ roleDown ∨ routeDepth h.route = 0 ∨ 8 ≤ routeDepth h.route) : h.assignTo k = h := by
  refine if_neg ?_
  rw [Hub.helloFor_enumOk]
  rintro ⟨role, low, high⟩
  rcases why with other | zero | deep
  · exact other role
  · omega
  · omega

/-- Settles O47: HELLO and ASSIGN as the frames a link expects, SET by the address the host wrote. -/
theorem enumeration : Obligations.Enumeration := by
  refine ⟨fun s k up live lt => ?_, fun s up => ?_, Hub.takeRoute_outcome, fun h k => ⟨fun role low high live => Hub.assignTo_sends role low high live, Hub.assignTo_none⟩⟩
  · dsimp only
    refine ⟨fun m => ⟨fun route => ?_, fun route => ?_⟩, fun route depth => ⟨fun bad => ?_, fun ok => ⟨fun role => ?_, fun role => ⟨fun free => ?_, fun held =>
      ⟨fun same => ?_, fun other => ⟨fun firm => ?_, fun set gave => ?_⟩⟩⟩⟩⟩⟩
    · exact gives_rxCtrl (exec_helloRx up k _ m) live (toNat_expected lt) (Hub.helloActs_assigned route)
    · exact gives_rxCtrl (exec_helloRx up k _ m) live (toNat_expected lt) (Hub.helloActs_unassigned route)
    all_goals refine gives_rxCtrl (f := fun h => h.assigned k route.toNat depth) (exec_assignRx up k _ route depth) live (toNat_expected lt) ?_
    · exact Hub.assigned_bad bad
    · exact Hub.assigned_elsewhere ok role
    · exact Hub.assigned_takes ok role free
    · exact Hub.assigned_same ok role held same
    · exact Hub.assigned_conflict ok role held other firm
    · exact Hub.assigned_ignored ok role held other set gave
  · dsimp only
    refine ⟨fun bad => ?_, fun held other => ?_, fun ok => ⟨fun free => ?_, fun held same => ?_⟩⟩
    · exact gives_onHub (exec_set up) (Hub.routeSetWrite_bad bad)
    · exact gives_onHub (exec_set up) (Hub.routeSetWrite_other held other)
    · exact gives_onHub (exec_set up) (Hub.routeSetWrite_takes ok free)
    · exact gives_onHub (exec_set up) (Hub.routeSetWrite_held ok held same)

end Sys2Proof.Machine
end

section
/-! SUPPORT. Sequenced frames and their acknowledgement (R317, R320, R321, R343). -/

namespace Sys2Proof.Machine

/-- A command that brings a sequenced frame with number `lseq` over link `k`. -/
def Sequenced (s : State) (k lseq : Nat) (i : Instr) : Prop := ∃ f, exec i s = .next (s.onHub fun h => h.rxSeq k lseq f)

section sequenced
variable {s : State} {k : Fin 64} {lseq : Word} (up : s.up)
include up

theorem sequenced_dataRx (vc : Fin 4) (cseq : Word) (flags : Bool × Bool) (body : List Byte) : Sequenced s k lseq.toNat (.dataRx k vc lseq cseq flags body) :=
  ⟨_, exec_whenUp_up (f := fun h => h.dataRx k vc lseq.toNat cseq.toNat flags.1 body flags.2) up rfl⟩

theorem sequenced_triggerRx (m : TrigFrame) : Sequenced s k lseq.toNat (.triggerRx k lseq m) :=
  ⟨_, exec_whenUp_up (f := fun h => h.triggerRx k lseq.toNat m.group m.unit m.origin.toNat m.stamp) up rfl⟩

theorem sequenced_helloRx (m : HelloMsg) : Sequenced s k lseq.toNat (.helloRx k lseq m) :=
  ⟨_, exec_whenLanes_up (f := fun h => h.helloRx k lseq.toNat m) up rfl⟩

theorem sequenced_assignRx (route : BitVec 48) (depth : Fin 256) : Sequenced s k lseq.toNat (.assignRx k lseq route depth) :=
  ⟨_, exec_assignRx up k lseq route depth⟩

theorem sequenced_commitNoteRx (route : BitVec 48) (stamp : BitVec 96) (streams : List Nat) :
    Sequenced s k lseq.toNat (.commitNoteRx k lseq route stamp streams) :=
  ⟨_, exec_whenUp_up (f := fun h => h.commitNoteRx k lseq.toNat route.toNat stamp streams) up rfl⟩

/-- A frame that reaches the registers of a hub is sequenced like any other, unless it is the one expected. -/
theorem sequenced_of_unexpected {i : Instr} {f g : Hw → Hw} (e : exec i s = .next (s.onHw fun w => w.whenUp f))
    (split : ∀ w, f w = if w.hub.linkUp k ∧ lseq.toNat = w.hub.get (LINK_RX_LSEQ k) then g w else w.onHub fun h => h.rxCtrl k lseq.toNat id)
    (why : s.hw.hub.linkUp k = false ∨ lseq.toNat ≠ s.hw.hub.get (LINK_RX_LSEQ k)) : Sequenced s k lseq.toNat i := by
  refine ⟨fun h => (h.rxAccept k).ctrlFreed k, (exec_whenUpHw (f := f) up e).trans ?_⟩
  have unexpected : ¬(s.hw.hub.linkUp k ∧ lseq.toNat = s.hw.hub.get (LINK_RX_LSEQ k)) := by
    rintro ⟨live, same⟩
    rcases why with down | other
    · simp [down] at live
    · exact other same
  rw [State.onHw, split, if_neg unexpected]
  rfl

variable (why : s.hw.hub.linkUp k = false ∨ lseq.toNat ≠ s.hw.hub.get (LINK_RX_LSEQ k))
include why

theorem sequenced_raccReqRx (m : RaccMsg) (refused : Bool) : Sequenced s k lseq.toNat (.raccReqRx k lseq m refused) :=
  sequenced_of_unexpected (f := fun w => w.raccReqRx k lseq.toNat m refused) up rfl (fun _ => rfl) why

theorem sequenced_raccRespRx (m : RaccMsg) : Sequenced s k lseq.toNat (.raccRespRx k lseq m) :=
  sequenced_of_unexpected (f := fun w => w.raccRespRx k lseq.toNat m) up rfl (fun _ => rfl) why

theorem sequenced_resetRx (dest : BitVec 48) (auth : Word) : Sequenced s k lseq.toNat (.resetRx k lseq dest auth) :=
  sequenced_of_unexpected (f := fun w => w.resetRx k lseq.toNat dest.toNat auth.toNat) up rfl (fun _ => rfl) why

end sequenced

/-! ## Resends -/

section resend
variable {h : Hub} {k : Nat}

theorem Hub.resendAll_none (none : (h.link k).unacked = []) : h.resendAll k = h := if_pos (by rw [none]; rfl)

theorem Hub.resendAll_cons {u : UnAck} {t : List UnAck} (some : (h.link k).unacked = u :: t) : h.resendAll k
    = if 8 ≤ u.resends then (h.on (LINK_REPLAY_LIMIT k)).lose k
      else h.setLink k { h.link k with resend := (h.link k).unacked.map (·.lseq), replayFrom := h.time.now } := by
  have oldest : (h.link k).oldest = u.resends := by
    rw [LinkSt.oldest, some]
    rfl
  rw [← oldest]
  exact if_neg (by simp [some])

theorem Hub.nakOnce_eq (h : Hub) (k : Nat) : h.nakOnce k
    = (h.link k).nakAt.elim (h.setLink k { h.link k with dueNak := true, nakAt := some (h.get (LINK_RX_LSEQ k), h.time.now) }) fun p =>
        if p.1 = h.get (LINK_RX_LSEQ k) ∧ h.time.now < p.2 + max 1 (h.get (LINK_REPLAY_US k)) * usU then h
        else h.setLink k { h.link k with dueNak := true, nakAt := some (h.get (LINK_RX_LSEQ k), h.time.now) } := by
  unfold Hub.nakOnce
  dsimp only
  cases (h.link k).nakAt <;> rfl

/-- An acknowledgement takes out the frames it covers. -/
theorem Hub.ackTo_covered {a : Nat} (sent : serialLe a (h.get (LINK_TX_LSEQ k)) = true) : (h.ackTo k a).2 = true ∧ (h.ackTo k a).1.regs = h.regs
    ∧ ((h.ackTo k a).1.link k).unacked = (h.link k).unacked.filter (fun u => !(serialLe u.lseq a && u.lseq != a))
    ∧ ((h.ackTo k a).1.link k).resend = (h.link k).resend.filter (fun x => !(serialLe x a && x != a)) := by
  unfold Hub.ackTo
  rw [if_neg (by simp [sent])]
  dsimp only
  rw [Hub.setLink_link_same]
  exact ⟨rfl, rfl, rfl, rfl⟩

theorem Hub.ackTo_beyond {a : Nat} (beyond : serialLe a (h.get (LINK_TX_LSEQ k)) = false) : h.ackTo k a = (h.protoErr k, false) := if_pos (by simp [beyond])

theorem Hub.linkAckRx_live {a : Nat} (live : h.linkUp k = true) : h.linkAckRx k a = (h.ackTo k a).1 := if_pos live

theorem Hub.linkNakRx_live {a : Nat} (live : h.linkUp k = true) : h.linkNakRx k a = if (h.ackTo k a).2 then (h.ackTo k a).1.resendAll k else (h.ackTo k a).1 :=
  if_pos live

theorem Hub.replayTimeout_due (live : h.linkUp k = true) (some : (h.link k).unacked ≠ []) :
    h.replayTimeout k = (h.upTo ((h.link k).replayFrom + max 1 (h.get (LINK_REPLAY_US k)) * usU)).resendAll k := if_pos ⟨live, by simpa using some⟩

theorem Hub.replayTimeout_none (none : (h.link k).unacked = []) : h.replayTimeout k = h := if_neg fun e => by simp [none] at e

theorem Hub.ackDelay_due (live : h.linkUp k = true) (some : 0 < (h.link k).sinceAck) : h.ackDelay k
    = (h.upTo ((h.link k).ackFrom + max 1 (h.get (LINK_ACK_DELAY_US k)) * usU)).setLink k { h.link k with dueAck := true } := if_pos ⟨live, some⟩

theorem Hub.ackDelay_none (none : (h.link k).sinceAck = 0) : h.ackDelay k = h := if_neg fun e => absurd e.2 (by omega)

end resend

/-! ## Frames with errors -/

/-- A broken frame is counted by what is wrong with it. -/
def Hub.broken (h : Hub) (k : Nat) (crc : Bool) : Hub := if crc then h.bump (LINK_CRC_ERRS k) (LINK_SAT k) else h.protoErr k

theorem Hub.broken_expects (h : Hub) (k : Nat) (crc : Bool) : (h.broken k crc).get (LINK_RX_LSEQ k) = h.get (LINK_RX_LSEQ k) := by
  have sat : (LINK_RX_LSEQ k).key ≠ (LINK_SAT k).key := by simp only [Field.key, LINK_RX_LSEQ, LINK_SAT]; omega
  unfold Hub.broken
  split
  · exact Hub.bump_get_ne _ _ _ _ (by simp only [Field.key, LINK_RX_LSEQ, LINK_CRC_ERRS]; omega) sat
  · rw [Hub.protoErr, Hub.get_on_ne _ _ _ (by simp only [Field.key, LINK_RX_LSEQ, LINK_PROTO_ERR]; omega)]
    exact Hub.bump_get_ne _ _ _ _ (by simp only [Field.key, LINK_RX_LSEQ, LINK_CNT_PROTO_ERRS]; omega) sat

section errored
variable {h : Hub} {k : Nat}

theorem Hub.erroredRx_plain (live : h.linkUp k = true) (crc ab cut : Bool) : h.erroredRx k crc none ab none cut = (h.broken k crc).nakOnce k :=
  if_neg (by simp [live])

theorem Hub.erroredRx_data (live : h.linkUp k = true) (crc ab cut : Bool) (f : FrameStart) :
    h.erroredRx k crc none ab (some f) cut = ((h.broken k crc).dataErrored k ab f cut).nakOnce k := if_neg (by simp [live])

theorem Hub.erroredRx_down (down : h.linkUp k = false) (crc : Bool) (bad : Option Nat) (ab : Bool) (f : Option FrameStart) (cut : Bool) :
    h.erroredRx k crc bad ab f cut = h := if_pos (by simp [down])

/-- The packet begun by a broken data frame is rewound where it was the one expected. -/
def Hub.rewound (h : Hub) (k : Nat) (f : FrameStart) (q : Nat) : Hub := if f.lseq = h.get (LINK_RX_LSEQ k) then h.bump (Q_REWINDS q) (Q_SAT q) else h

theorem Hub.rewound_rxQueue (h : Hub) (k : Nat) (f : FrameStart) (q v : Nat) : (h.rewound k f q).rxQueue k v = h.rxQueue k v := by
  have valid : (h.rewound k f q).get (VC_RXQ_VALID k v) = h.get (VC_RXQ_VALID k v) := by
    unfold Hub.rewound
    split
    · exact Hub.bump_get_ne _ _ _ _ (by simp only [Field.key, VC_RXQ_VALID, Q_REWINDS]; omega) (by simp only [Field.key, VC_RXQ_VALID, Q_SAT]; omega)
    · rfl
  have queue : (h.rewound k f q).get (VC_RXQ k v) = h.get (VC_RXQ k v) := by
    unfold Hub.rewound
    split
    · exact Hub.bump_get_ne _ _ _ _ (by simp only [Field.key, VC_RXQ, Q_REWINDS]; omega) (by simp only [Field.key, VC_RXQ, Q_SAT]; omega)
    · rfl
  rw [Hub.rxQueue, Hub.rxQueue, Hub.bit_eq, Hub.bit_eq, valid, queue]

theorem Hub.rxQueue_of_dataQueue {v len q : Nat} (queue : h.dataQueue k v len = some q) : (h.rxQueue k v).isSome = true := by
  unfold Hub.dataQueue at queue
  split at queue
  · cases queue
  · cases is : h.rxQueue k v with
    | none =>
      rw [is] at queue
      cases queue
    | some _ => rfl

theorem Hub.dataErrored_eq (h : Hub) (k : Nat) (ab : Bool) (f : FrameStart) (cut : Bool) : h.dataErrored k ab f cut
    = Hub.abortCopy (if ab ∧ (((h.dataQueue k f.vc f.len).elim h (h.rewound k f)).rxQueue k f.vc).isSome
        then (((h.dataQueue k f.vc f.len).elim h (h.rewound k f)).creditUsed k f.vc f.len).returnCredit k f.vc f.len
        else (h.dataQueue k f.vc f.len).elim h (h.rewound k f)) f (if cut then h.cutLink k f else none) := by
  unfold Hub.dataErrored
  dsimp only
  cases h.dataQueue k f.vc f.len <;> rfl

theorem Hub.dataErrored_none {f : FrameStart} (none : h.dataQueue k f.vc f.len = Option.none) : h.dataErrored k false f false = h := by
  rw [Hub.dataErrored_eq, none]
  rfl

theorem Hub.dataErrored_rewinds {f : FrameStart} {q : Nat} (queue : h.dataQueue k f.vc f.len = some q) : h.dataErrored k false f false = h.rewound k f q := by
  rw [Hub.dataErrored_eq, queue]
  rfl

theorem Hub.dataErrored_aborted {f : FrameStart} {q : Nat} (queue : h.dataQueue k f.vc f.len = some q) :
    h.dataErrored k true f false = ((h.rewound k f q).creditUsed k f.vc f.len).returnCredit k f.vc f.len := by
  rw [Hub.dataErrored_eq, queue]
  exact if_pos ⟨rfl, (congrArg Option.isSome (h.rewound_rxQueue k f q f.vc)).trans (Hub.rxQueue_of_dataQueue queue)⟩

/-- A cut frame is the one its link expects, of a queue that may take it. -/
theorem Hub.cutLink_spec {f : FrameStart} {j v q : Nat} (way : h.cutLink k f = some (j, v, q)) :
    h.dataQueue k f.vc f.len = some q ∧ f.lseq = h.get (LINK_RX_LSEQ k) := by
  unfold Hub.cutLink at way
  cases queue : h.dataQueue k f.vc f.len with
  | none =>
    rw [queue] at way
    cases way
  | some p =>
    rw [queue] at way
    dsimp only at way
    split at way
    next may =>
      cases way
      exact ⟨rfl, may.1⟩
    · cases way

/-- A packet forwarded as it came is aborted on its way out as well. -/
theorem Hub.dataErrored_cut {f : FrameStart} {j v q : Nat} (way : h.cutLink k f = some (j, v, q)) :
    h.dataErrored k false f true = (h.bump (Q_REWINDS q) (Q_SAT q)).abortCopy f (some (j, v, q)) := by
  obtain ⟨queue, expected⟩ := Hub.cutLink_spec way
  have rewound : h.rewound k f q = h.bump (Q_REWINDS q) (Q_SAT q) := if_pos expected
  rw [Hub.dataErrored_eq, queue, way, ← rewound]
  rfl

end errored

theorem exec_erroredFrameRx {s : State} (up : s.up) (k : Fin 64) (crc : Bool) (f : BrokenFrame) : exec (.erroredFrameRx k crc f) s
    = .next (s.onHub fun h => h.erroredRx k crc (f.bad.map (·.val)) f.aborted f.data f.cut) := exec_whenUp_up up rfl

theorem exec_linkAckRx {s : State} (up : s.up) (k : Fin 64) (a : Word) : exec (.linkAckRx k a) s = .next (s.onHub fun h => h.linkAckRx k a.toNat) :=
  exec_whenLanes_up up rfl

theorem exec_linkNakRx {s : State} (up : s.up) (k : Fin 64) (a : Word) : exec (.linkNakRx k a) s = .next (s.onHub fun h => h.linkNakRx k a.toNat) :=
  exec_whenLanes_up up rfl

theorem exec_replayTimeout {s : State} (up : s.up) (k : Fin 64) : exec (.replayTimeout k) s = .next (s.onHub fun h => h.replayTimeout k) := exec_whenLanes_up up rfl

theorem exec_ackDelay {s : State} (up : s.up) (k : Fin 64) : exec (.ackDelay k) s = .next (s.onHub fun h => h.ackDelay k) := exec_whenLanes_up up rfl

/-- Settles O44: one that is not expected alike for every kind of frame, then acknowledgements, their timers and frames with errors. -/
theorem linkSequence : Obligations.LinkSequence := by
  refine ⟨fun s k up => ?_, fun h k => ⟨Hub.resendAll_none, fun u t some => ⟨fun few => ?_, fun many => ?_⟩, fun t same recent => ?_, fun none => ?_, fun e t other late => ?_⟩⟩
  · dsimp only
    refine ⟨fun lseq vc cseq poison body cut group unit origin stamp hm route depth rq ro refused dest auth streams => ?_, fun a live => ⟨fun beyond => ⟨?_, ?_⟩, fun sent => ?_⟩,
      fun live some => ?_, fun none => ?_, fun live some => ?_, fun none => ?_, fun live crc ab cut => ⟨?_, fun f => ⟨fun none => ?_, fun q queue => ⟨?_, ?_⟩, fun j v q way => ?_⟩⟩,
      fun down crc f => ?_⟩
    · have all (why : s.hw.hub.linkUp k = false ∨ lseq.toNat ≠ s.hw.hub.get (LINK_RX_LSEQ k)) :
          ∀ i ∈ [Instr.dataRx k vc lseq cseq (poison, cut) body, .triggerRx k lseq ⟨group, unit, origin, stamp⟩, .helloRx k lseq hm, .assignRx k lseq route depth,
            .raccReqRx k lseq rq refused, .raccRespRx k lseq ro, .resetRx k lseq dest auth, .commitNoteRx k lseq route stamp streams], Sequenced s k lseq.toNat i := by
        simp only [List.forall_mem_cons]
        exact ⟨sequenced_dataRx up _ _ _ _, sequenced_triggerRx up _, sequenced_helloRx up _, sequenced_assignRx up _ _, sequenced_raccReqRx up why _ _,
          sequenced_raccRespRx up why _, sequenced_resetRx up why _ _, sequenced_commitNoteRx up _ _ _, fun i mem => absurd mem (by simp)⟩
      refine ⟨fun down i mem => ?_, fun live other => ⟨fun earlier i mem => ?_, fun later i mem => ?_⟩⟩
      · obtain ⟨f, e⟩ := all (.inl down) i mem
        exact gives_onHub e (Hub.rxSeq_down down)
      · obtain ⟨f, e⟩ := all (.inr other) i mem
        exact gives_onHub e ((Hub.rxSeq_other live other).trans (if_pos earlier))
      · obtain ⟨f, e⟩ := all (.inr other) i mem
        exact gives_onHub e ((Hub.rxSeq_other live other).trans (if_neg (by simp [later])))
    · refine gives_onHub (exec_linkAckRx up k a) ((Hub.linkAckRx_live live).trans ?_)
      rw [Hub.ackTo_beyond beyond]
    · refine gives_onHub (exec_linkNakRx up k a) ((Hub.linkNakRx_live live).trans ?_)
      rw [Hub.ackTo_beyond beyond]
      rfl
    · obtain ⟨valid, regs, unacked, resend⟩ := Hub.ackTo_covered sent
      exact ⟨_, gives_onHub (exec_linkAckRx up k a) (Hub.linkAckRx_live live), regs, unacked, resend,
        gives_onHub (exec_linkNakRx up k a) ((Hub.linkNakRx_live live).trans (if_pos valid))⟩
    · exact gives_onHub (exec_replayTimeout up k) (Hub.replayTimeout_due live some)
    · exact gives_onHub (exec_replayTimeout up k) (Hub.replayTimeout_none none)
    · exact gives_onHub (exec_ackDelay up k) (Hub.ackDelay_due live some)
    · exact gives_onHub (exec_ackDelay up k) (Hub.ackDelay_none none)
    · exact gives_onHub (exec_erroredFrameRx up k crc _) (Hub.erroredRx_plain live crc ab cut)
    · refine gives_onHub (exec_erroredFrameRx up k crc _) ((Hub.erroredRx_data live crc false false f).trans ?_)
      exact congrArg (fun g => g.nakOnce k) (Hub.dataErrored_none none)
    · refine gives_onHub (exec_erroredFrameRx up k crc _) ((Hub.erroredRx_data live crc false false f).trans ?_)
      rw [Hub.dataErrored_rewinds (h := s.hw.hub.broken k crc) queue, Hub.rewound, Hub.broken_expects]
      rfl
    · refine gives_onHub (exec_erroredFrameRx up k crc _) ((Hub.erroredRx_data live crc true false f).trans ?_)
      rw [Hub.dataErrored_aborted (h := s.hw.hub.broken k crc) queue, Hub.rewound, Hub.broken_expects]
      rfl
    · refine gives_onHub (exec_erroredFrameRx up k crc _) ((Hub.erroredRx_data live crc false true f).trans ?_)
      exact congrArg (fun g => g.nakOnce k) (Hub.dataErrored_cut way)
    · exact gives_onHub (exec_erroredFrameRx up k crc f) (Hub.erroredRx_down down _ _ _ _ _)
  · exact (Hub.resendAll_cons some).trans (if_neg (by omega))
  · exact (Hub.resendAll_cons some).trans (if_pos many)
  · rw [Hub.nakOnce_eq, same]
    exact if_pos ⟨rfl, recent⟩
  · rw [Hub.nakOnce_eq, none]
    rfl
  · rw [Hub.nakOnce_eq, other]
    refine if_neg ?_
    rintro ⟨same, recent⟩
    rcases late with another | late
    · exact another same
    · exact absurd recent (Nat.not_lt.2 late)

end Sys2Proof.Machine
end

section
/-! SUPPORT. Routing, remote access and remote reset (R333, R340, R341, R345, R366). -/

namespace Sys2Proof.Machine

theorem exec_raccGo {s : State} (up : s.up) (k : Fin 64) : exec (.raccGo k) s = .next (s.onHw fun w => w.raccGo k) :=
  exec_hostWr_up (a := 0x201A4 + 0x400 * k.val) (v := fun _ => 2 ^ 17) up (by revert k; decide) rfl

theorem exec_raccTimeout {s : State} (up : s.up) (who : RaccWho) : exec (.raccTimeout who) s = .next (s.onHw fun w => w.raccTimeout who) :=
  exec_whenUpHw (f := fun w => w.raccTimeout who) up rfl

/-! ## A request where it arrives (R341) -/

/-- A request that is accepted: carried out here, sent on, or answered. -/
def Hw.raccServed (w : Hw) (k : Nat) (m : RaccMsg) (refused : Bool) : Hw :=
  let no : RaccMsg := { m with dest := m.src, src := w.hub.route, status := 1, data := [] }
  if m.dest = noRoute ∧ w.hub.lk.routeSet then
    if m.op = 1 then (w.onHub fun h => h.reportHere m.src (ofLe (m.data.take 4))).respond k { no with status := 0 } else w.respond k no
  else match w.hub.routeTo m.dest with
    | some none => (w.regReq (Hw.raccGoN 65) m refused).2.respond k (w.regReq (Hw.raccGoN 65) m refused).1
    | some (some j) => w.onHub fun h => h.sendCtrl j (.raccReq m)
    | none => w.respond k no

/-- A reset that is accepted: it acts here, or goes on. -/
def Hub.resetServed (h : Hub) (k dest auth : Nat) : Hub :=
  match h.routeTo dest with
  | some none =>
    if auth ≠ 0 ∧ auth = h.resetCode then h.resetBy (if h.role k = roleDuplex then srcPartner else srcLink) else h.bump (LINK_RST_REFUSED k) (LINK_SAT k)
  | some (some j) => h.sendCtrl j (.reset dest auth)
  | none => h.protoErr k

section expected
variable {w : Hw} {k n : Nat} (live : w.hub.linkUp k = true) (is : n = w.hub.get (LINK_RX_LSEQ k))
include live is

theorem Hw.raccReqRx_expected (m : RaccMsg) (refused : Bool) :
    w.raccReqRx k n m refused = (w.onHub fun h => h.rxCtrl k n id).raccServed k m refused := if_pos ⟨live, is⟩

theorem Hw.raccRespRx_expected (m : RaccMsg) : w.raccRespRx k n m = (w.onHub fun h => h.rxCtrl k n id).respond k m := if_pos ⟨live, is⟩

theorem Hw.resetRx_expected (dest auth : Nat) : w.resetRx k n dest auth = w.setHub ((w.hub.rxCtrl k n id).resetServed k dest auth) := if_pos ⟨live, is⟩

end expected

section served
variable {w : Hw} {k : Nat} {m : RaccMsg} {refused : Bool}

theorem Hw.raccServed_routed (routed : m.dest ≠ noRoute ∨ w.hub.lk.routeSet = false) : w.raccServed k m refused = match w.hub.routeTo m.dest with
    | some none => (w.regReq (Hw.raccGoN 65) m refused).2.respond k (w.regReq (Hw.raccGoN 65) m refused).1
    | some (some j) => w.onHub fun h => h.sendCtrl j (.raccReq m)
    | none => w.respond k { m with dest := m.src, src := w.hub.route, status := 1, data := [] } := by
  refine if_neg ?_
  rintro ⟨open_, set⟩
  rcases routed with named | unset
  · exact named open_
  · simp [unset] at set

theorem Hw.raccServed_here (routed : m.dest ≠ noRoute ∨ w.hub.lk.routeSet = false) (here : w.hub.routeTo m.dest = some none) :
    w.raccServed k m refused = (w.regReq (Hw.raccGoN 65) m refused).2.respond k (w.regReq (Hw.raccGoN 65) m refused).1 := by
  rw [Hw.raccServed_routed routed, here]

theorem Hw.raccServed_onward (routed : m.dest ≠ noRoute ∨ w.hub.lk.routeSet = false) {j : Nat} (way : w.hub.routeTo m.dest = some (some j)) :
    w.raccServed k m refused = w.setHub (w.hub.sendCtrl j (.raccReq m)) := by
  rw [Hw.raccServed_routed routed, way]
  rfl

theorem Hw.raccServed_lost (routed : m.dest ≠ noRoute ∨ w.hub.lk.routeSet = false) (lost : w.hub.routeTo m.dest = none) :
    w.raccServed k m refused = w.respond k { m with dest := m.src, src := w.hub.route, status := 1, data := [] } := by
  rw [Hw.raccServed_routed routed, lost]

/-- A request to the top hub by its all-ones address: a report, or nothing it serves. -/
theorem Hw.raccServed_top (top : m.dest = noRoute) (set : w.hub.lk.routeSet = true) : w.raccServed k m refused
    = if m.op = 1 then (w.onHub fun h => h.reportHere m.src (ofLe (m.data.take 4))).respond k
        { m with dest := m.src, src := w.hub.route, status := 0, data := [] }
      else w.respond k { m with dest := m.src, src := w.hub.route, status := 1, data := [] } := if_pos ⟨top, set⟩

end served

section reset
variable {h : Hub} {k dest auth : Nat}

theorem Hub.resetServed_here (here : h.routeTo dest = some none) : h.resetServed k dest auth
    = if auth ≠ 0 ∧ auth = h.resetCode then h.resetBy (if h.role k = roleDuplex then srcPartner else srcLink) else h.bump (LINK_RST_REFUSED k) (LINK_SAT k) := by
  rw [Hub.resetServed, here]

theorem Hub.resetServed_onward {j : Nat} (way : h.routeTo dest = some (some j)) : h.resetServed k dest auth = h.sendCtrl j (.reset dest auth) := by
  rw [Hub.resetServed, way]

theorem Hub.resetServed_lost (lost : h.routeTo dest = none) : h.resetServed k dest auth = h.protoErr k := by
  rw [Hub.resetServed, lost]

end reset

/-! ## A response -/

section respond
variable {w : Hw} {k : Nat} {r : RaccMsg}

theorem Hw.respond_mine (mine : w.hub.raccMine r.dest = true) : w.respond k r = w.raccDeliver r := if_pos mine

theorem Hw.respond_onward (other : w.hub.raccMine r.dest = false) {j : Nat} (way : w.hub.routeTo r.dest = some (some j)) :
    w.respond k r = w.onHub fun h => h.sendCtrl j (.raccResp r) := by
  refine (if_neg (by simp [other])).trans ?_
  rw [way]

theorem Hw.respond_lost (other : w.hub.raccMine r.dest = false) (lost : w.hub.routeTo r.dest = none) : w.respond k r = w.onHub fun h => h.protoErr k := by
  refine (if_neg (by simp [other])).trans ?_
  rw [lost]

end respond

/-! ## A request carried out here -/

section request
variable (go : Nat → Hw → Hw) (w : Hw) (m : RaccMsg)

/-- The response to a request, its status and data still open. -/
def Hw.raccReply (w : Hw) (m : RaccMsg) : RaccMsg := { m with dest := m.src, src := w.hub.route, status := 0, data := [] }

theorem Hw.regReq_read (op : m.op = 0) (refused : Bool) : w.regReq go m refused = if m.len ≠ 4 then ({ w.raccReply m with status := 3 }, w)
    else ({ w.raccReply m with data := leBytes 4 (w.readWord 1 m.addr).1 }, (w.readWord 1 m.addr).2) := if_pos op

theorem Hw.regReq_write (op : m.op = 1) (refused : Bool) : w.regReq go m refused = if m.len ≠ 4 then ({ w.raccReply m with status := 3 }, w)
    else (w.raccReply m, w.writeVia go m.addr (ofLe (m.data.take 4))) := (if_neg (by omega)).trans (if_pos op)

theorem Hw.regReq_mem (op : m.op = 2 ∨ m.op = 3) (refused : Bool) : w.regReq go m refused
    = if refused then ({ w.raccReply m with status := 4 }, w.onHub fun h => (h.bump ARB_REFUSE_COUNT ARB_SAT).on ARB_REFUSED) else w.memReq m :=
  (if_neg (by omega)).trans ((if_neg (by omega)).trans (if_pos op))

theorem Hw.regReq_other (op : 4 ≤ m.op) (refused : Bool) : w.regReq go m refused = ({ w.raccReply m with status := 3 }, w) :=
  (if_neg (by omega)).trans ((if_neg (by omega)).trans (if_neg (by omega)))

theorem Hw.memReq_misformed (bad : m.len = 0 ∨ 1024 < m.len ∨ m.len % 4 ≠ 0) : (w.memReq m).1.status = 3 ∧ (w.memReq m).2 = w := by
  unfold Hw.memReq
  rw [if_pos bad]
  exact ⟨rfl, rfl⟩

variable (some : m.len ≠ 0) (short : m.len ≤ 1024) (words : m.len % 4 = 0)
include some short words

theorem Hw.memReq_outside (out : w.hub.hostRange m.addr m.len = false) : (w.memReq m).1.status = 2 ∧ (w.memReq m).2 = w := by
  unfold Hw.memReq
  rw [if_neg (by omega), if_neg (by simp [out])]
  exact ⟨rfl, rfl⟩

theorem Hw.memReq_inside (fits : m.addr + m.len ≤ 2 ^ 28) (inside : w.hub.hostRange m.addr m.len = true) : (w.memReq m).1.status = 0
    ∧ (m.op = 2 → (w.memReq m).1.data = memBytes w.mem.cells m.addr m.len ∧ (w.memReq m).2.mem = w.mem)
    ∧ (m.op = 3 → (w.memReq m).2 = w.setMem (w.mem.put m.addr (m.data.take m.len))) := by
  unfold Hw.memReq
  rw [if_neg (by omega), if_pos ⟨fits, inside⟩]
  split
  next read => exact ⟨rfl, fun _ => ⟨rfl, rfl⟩, fun write => absurd write (by omega)⟩
  next read => exact ⟨rfl, fun e => absurd e read, fun _ => rfl⟩

end request

/-! ## The hub's own port -/

section port
variable (w : Hw) (k : Nat)

/-- The request that the port's registers describe. -/
def Hub.portAsks (h : Hub) (k : Nat) : RaccMsg :=
  { dest := h.get (LINK_RACC_DEST_LO k) + 2 ^ 32 * h.get (LINK_RACC_DEST_HI k), src := h.raccSrc, tag := h.lk.raccTag
    op := h.get (LINK_RACC_WRITE k), status := 0, addr := h.get (LINK_RACC_ADDR k), len := 4
    data := if h.get (LINK_RACC_WRITE k) = 1 then leBytes 4 (h.get (LINK_RACC_DATA k)) else [] }

/-- The hub with the port's request outstanding. -/
def Hub.portBusy (h : Hub) (k : Nat) : Hub :=
  ((h.setLk { h.lk with raccTag := (h.lk.raccTag + 1) % 2 ^ 16 }).on (LINK_RACC_BUSY k)).modLink k fun l => { l with racc := some h.lk.raccTag, raccAt := h.time.now }

theorem Hw.raccGo_follower (lead : w.hub.get (LANE_LINK_LEAD k) = 0) : w.raccGo k = w := if_neg (by simp [Hub.bit_of_zero lead])

theorem Hw.raccGo_lead (lead : w.hub.get (LANE_LINK_LEAD k) = 1) : w.raccGo k
    = if w.hub.bit (LINK_RACC_BUSY k) ∨ w.hub.unassigned then w.setHub (w.hub.on (LINK_WERR k))
      else match w.hub.routeTo (w.hub.portAsks k).dest with
        | some none => ((w.setHub (w.hub.portBusy k)).regReq (Hw.raccGoN 64) (w.hub.portAsks k) false).2.raccDeliver
            ((w.setHub (w.hub.portBusy k)).regReq (Hw.raccGoN 64) (w.hub.portAsks k) false).1
        | some (some j) => w.setHub ((w.hub.portBusy k).sendCtrl j (.raccReq (w.hub.portAsks k)))
        | none => w.setHub ((w.hub.portBusy k).portDone k 1) := if_pos (Hub.bit_of_one lead)

theorem Hw.raccGo_refused (lead : w.hub.get (LANE_LINK_LEAD k) = 1) (why : w.hub.get (LINK_RACC_BUSY k) = 1 ∨ w.hub.route = noRoute) :
    w.raccGo k = w.setHub (w.hub.on (LINK_WERR k)) :=
  (w.raccGo_lead k lead).trans (if_pos (why.imp Hub.bit_of_one w.hub.unassigned_iff.2))

variable (lead : w.hub.get (LANE_LINK_LEAD k) = 1) (free : w.hub.get (LINK_RACC_BUSY k) = 0) (held : w.hub.route ≠ noRoute)
include lead free held

theorem Hw.raccGo_asks : w.raccGo k = match w.hub.routeTo (w.hub.portAsks k).dest with
    | some none => ((w.setHub (w.hub.portBusy k)).regReq (Hw.raccGoN 64) (w.hub.portAsks k) false).2.raccDeliver
        ((w.setHub (w.hub.portBusy k)).regReq (Hw.raccGoN 64) (w.hub.portAsks k) false).1
    | some (some j) => w.setHub ((w.hub.portBusy k).sendCtrl j (.raccReq (w.hub.portAsks k)))
    | none => w.setHub ((w.hub.portBusy k).portDone k 1) := by
  refine (w.raccGo_lead k lead).trans (if_neg ?_)
  rintro (busy | open_)
  · simp [Hub.bit_of_zero free] at busy
  · exact held (w.hub.unassigned_iff.1 open_)

theorem Hw.raccGo_sends {j : Nat} (way : w.hub.routeTo (w.hub.portAsks k).dest = some (some j)) :
    w.raccGo k = w.setHub ((w.hub.portBusy k).sendCtrl j (.raccReq (w.hub.portAsks k))) := by
  rw [w.raccGo_asks k lead free held, way]

theorem Hw.raccGo_lost (lost : w.hub.routeTo (w.hub.portAsks k).dest = none) : w.raccGo k = w.setHub ((w.hub.portBusy k).portDone k 1) := by
  rw [w.raccGo_asks k lead free held, lost]

theorem Hw.raccGo_here (here : w.hub.routeTo (w.hub.portAsks k).dest = some none) :
    w.raccGo k = ((w.setHub (w.hub.portBusy k)).regReq (Hw.raccGoN 64) (w.hub.portAsks k) false).2.raccDeliver
      ((w.setHub (w.hub.portBusy k)).regReq (Hw.raccGoN 64) (w.hub.portAsks k) false).1 := by
  rw [w.raccGo_asks k lead free held, here]

end port

theorem Hub.portDone_outcome (h : Hub) (k : Fin 64) (st : Nat) : let h' := h.portDone k st
    (h'.link k).racc = none ∧ h'.get (LINK_RACC_BUSY k) = 0 ∧ h'.get (LINK_RACC_DONE k) = 1 ∧ h'.get (LINK_RACC_STATUS k) = st % 8
    ∧ OnlyRegs [LINK_RACC_BUSY k, LINK_RACC_DONE k, LINK_RACC_STATUS k] h h' := by
  have busy : (LINK_RACC_BUSY k).key ≠ (LINK_RACC_STATUS k).key ∧ (LINK_RACC_BUSY k).key ≠ (LINK_RACC_DONE k).key
      ∧ (LINK_RACC_DONE k).key ≠ (LINK_RACC_STATUS k).key := by
    simp only [Field.key, LINK_RACC_BUSY, LINK_RACC_STATUS, LINK_RACC_DONE]
    omega
  obtain ⟨status, done, apart⟩ := busy
  refine ⟨?_, ?_, ?_, Hub.get_set_same _ _ _, ?_⟩
  · rw [Hub.portDone, Hub.link, Hub.set_lk, Hub.on_lk, Hub.off_lk, ← Hub.link, Hub.modLink_link_same]
  · rw [Hub.portDone, Hub.get_set_ne _ _ _ _ status, Hub.get_on_ne _ _ _ done, Hub.get_off_same]
  · rw [Hub.portDone, Hub.get_set_ne _ _ _ _ apart]
    exact Hub.get_on_same _ _ (Nat.succ_pos 0)
  · exact onlyRegs_set _ (by simp) (onlyRegs_on (by simp) (onlyRegs_off (by simp) (onlyRegs_of_regs (Hub.setLink_regs _ _ _) (onlyRegs_refl _ h))))

/-! ## A time without a response (R345) -/

theorem Hw.raccTimeout_idle {w : Hw} {k : Fin 64} (idle : (w.hub.link k).racc = none) : w.raccTimeout (.port k) = w := by
  unfold Hw.raccTimeout
  dsimp only
  rw [idle]

theorem Hw.raccTimeout_port {w : Hw} {k : Fin 64} {t : Nat} (out : (w.hub.link k).racc = some t) : w.raccTimeout (.port k)
    = w.setHub ((w.hub.upTo ((w.hub.link k).raccAt + max 1 (w.hub.get (LINK_RACC_TIMEOUT_MS k)) * msU)).portDone k 7) := by
  unfold Hw.raccTimeout
  dsimp only
  rw [out]
  rfl

theorem Hw.raccTimeout_report {w : Hw} {t : Nat} (out : t ∈ w.hub.pair.reports) : w.raccTimeout (.report t)
    = w.setHub ((w.hub.setPair { w.hub.pair with reports := w.hub.pair.reports.filter (· != t) }).bump DUP_CNT_RPT_FAIL DUP_SAT) :=
  if_pos (by simpa using out)

theorem Hw.raccTimeout_answered {w : Hw} {t : Nat} (none : t ∉ w.hub.pair.reports) : w.raccTimeout (.report t) = w := if_neg (by simpa using none)

section frames
variable {s : State} (up : s.up) {k : Fin 64} {w : Hw} (live : s.hw.hub.linkUp k = true) (lt : s.hw.hub.get (LINK_RX_LSEQ k) < 2 ^ 32)
include up live lt

theorem raccReqRx_expected {m : RaccMsg} {refused : Bool}
    (p : (s.hw.onHub fun h => h.rxCtrl k (s.hw.hub.get (LINK_RX_LSEQ k)) id).raccServed k m refused = w) :
    GivesHw (.raccReqRx k (BitVec.ofNat 32 (s.hw.hub.get (LINK_RX_LSEQ k))) m refused) s w := by
  refine givesHw_onHw (exec_whenUpHw (f := fun w => w.raccReqRx k _ m refused) up rfl) ?_
  rw [toNat_expected lt, Hw.raccReqRx_expected live rfl, p]

theorem raccRespRx_expected {m : RaccMsg} (p : (s.hw.onHub fun h => h.rxCtrl k (s.hw.hub.get (LINK_RX_LSEQ k)) id).respond k m = w) :
    GivesHw (.raccRespRx k (BitVec.ofNat 32 (s.hw.hub.get (LINK_RX_LSEQ k))) m) s w := by
  refine givesHw_onHw (exec_whenUpHw (f := fun w => w.raccRespRx k _ m) up rfl) ?_
  rw [toNat_expected lt, Hw.raccRespRx_expected live rfl, p]

theorem resetRx_expected {dest : BitVec 48} {auth : Word} {h : Hub}
    (p : (s.hw.hub.rxCtrl k (s.hw.hub.get (LINK_RX_LSEQ k)) id).resetServed k dest.toNat auth.toNat = h) :
    Gives (.resetRx k (BitVec.ofNat 32 (s.hw.hub.get (LINK_RX_LSEQ k))) dest auth) s h := by
  refine gives_onHw (exec_whenUpHw (f := fun w => w.resetRx k _ dest.toNat auth.toNat) up rfl) ?_
  rw [toNat_expected lt, Hw.resetRx_expected live rfl, p]

end frames

/-- Settles O48: frames by the way to their destination, a request by its operation, the port by GO and its timeout. -/
theorem remoteAccess : Obligations.RemoteAccess := by
  refine ⟨fun s k up live lt => ?_, fun w k r => ⟨Hw.respond_mine, fun other => ⟨fun j => Hw.respond_onward other, Hw.respond_lost other⟩⟩, fun go w m => ?_, fun s k up => ?_,
    Hub.portDone_outcome⟩
  · dsimp only
    refine ⟨fun m refused => ⟨fun routed => ⟨fun here => ?_, fun j way => ?_, fun lost => ?_⟩, fun top set => ⟨fun report => ?_, fun other => ?_⟩, ?_⟩,
      fun dest auth => ⟨fun here => ⟨fun some code => ?_, fun why => ?_⟩, fun j way => ?_, fun lost => ?_⟩⟩
    · exact raccReqRx_expected up live lt (Hw.raccServed_here routed here)
    · exact raccReqRx_expected up live lt (Hw.raccServed_onward routed way)
    · exact raccReqRx_expected up live lt (Hw.raccServed_lost routed lost)
    · exact raccReqRx_expected up live lt ((Hw.raccServed_top top set).trans (if_pos report))
    · exact raccReqRx_expected up live lt ((Hw.raccServed_top top set).trans (if_neg other))
    · exact raccRespRx_expected up live lt rfl
    · exact resetRx_expected up live lt ((Hub.resetServed_here here).trans (if_pos ⟨some, code⟩))
    · refine resetRx_expected up live lt ((Hub.resetServed_here here).trans (if_neg ?_))
      rintro ⟨some, code⟩
      exact why.elim some fun other => other code
    · exact resetRx_expected up live lt (Hub.resetServed_onward way)
    · exact resetRx_expected up live lt (Hub.resetServed_lost lost)
  · refine ⟨fun op len x => ?_, fun op len x => ?_, fun op len x => ?_, fun op => ⟨?_, fun bad => ?_, fun some short words out => ?_, fun some short words fits inside => ?_⟩,
      fun op => Hw.regReq_other go w m op⟩
    · rcases op with read | write
      · exact (Hw.regReq_read go w m read x).trans (if_pos len)
      · exact (Hw.regReq_write go w m write x).trans (if_pos len)
    · exact (Hw.regReq_read go w m op x).trans (if_neg (not_not.2 len))
    · exact (Hw.regReq_write go w m op x).trans (if_neg (not_not.2 len))
    · exact (Hw.regReq_mem go w m op true).trans (if_pos rfl)
    all_goals rw [(Hw.regReq_mem go w m op false).trans (if_neg (by decide))]
    · exact w.memReq_misformed m bad
    · exact w.memReq_outside m some short words out
    · exact w.memReq_inside m some short words fits inside
  · dsimp only
    refine ⟨fun lead => ?_, fun lead => ⟨fun why => ?_, fun free held => ⟨fun j way => ?_, fun lost => ?_, fun here => ?_⟩⟩, fun idle => ?_, fun t out => ?_, fun c => ?_,
      fun t => ⟨fun out => ?_, fun none => ?_⟩⟩
    · exact gives_onHw (exec_raccGo up k) (Hw.raccGo_follower _ _ lead)
    · exact gives_onHw (exec_raccGo up k) (Hw.raccGo_refused _ _ lead why)
    · exact gives_onHw (exec_raccGo up k) (Hw.raccGo_sends _ _ lead free held way)
    · exact gives_onHw (exec_raccGo up k) (Hw.raccGo_lost _ _ lead free held lost)
    · exact givesHw_onHw (exec_raccGo up k) (Hw.raccGo_here _ _ lead free held here)
    · exact gives_onHw (exec_raccTimeout up _) (Hw.raccTimeout_idle idle)
    · exact gives_onHw (exec_raccTimeout up _) (Hw.raccTimeout_port out)
    · exact givesHw_onHw (exec_raccTimeout up _) rfl
    · exact gives_onHw (exec_raccTimeout up _) (Hw.raccTimeout_report out)
    · exact gives_onHw (exec_raccTimeout up _) (Hw.raccTimeout_answered none)

end Sys2Proof.Machine
end

section
/-! SUPPORT. TRIGGER, COMMIT_NOTE and TIME frames and Kamrel over Ethernet (R52, R330, R342, R343). -/

namespace Sys2Proof.Machine

theorem exec_triggerRx {s : State} (up : s.up) (k : Fin 64) (l : Word) (group unit : Fin 256) (origin : BitVec 48) (stamp : BitVec 96) :
    exec (.triggerRx k l ⟨group, unit, origin, stamp⟩) s = .next (s.onHub fun h => h.triggerRx k l.toNat group unit origin.toNat stamp) := exec_whenUp_up up rfl

theorem exec_commitNoteRx {s : State} (up : s.up) (k : Fin 64) (l : Word) (route : BitVec 48) (stamp : BitVec 96) (streams : List Nat) :
    exec (.commitNoteRx k l route stamp streams) s = .next (s.onHub fun h => h.commitNoteRx k l.toNat route.toNat stamp streams) := exec_whenUp_up up rfl

theorem exec_timeRx {s : State} (up : s.up) (k : Fin 64) (kind : PtpKind) (m : PtpMsg) (i : Nat) (o : List (Nat × Nat)) (ts : Nat) :
    exec (.timeRx k kind m i o ts) s = .next (s.onHub fun h => h.timeRx k kind { m with ts := ts } i o) := exec_whenUp_up up rfl

theorem exec_ethFrameRx {s : State} (up : s.up) (k : Fin 64) (kind : EthKind) (src : BitVec 48) (id : Word) (f n : Fin 256) :
    exec (.ethFrameRx k kind src id f n) s = .next (s.onHub fun h => h.ethRx k kind src.toNat id.toNat f n) := exec_whenUp_up up rfl

theorem exec_fragmentTimeout {s : State} (up : s.up) (k : Fin 64) : exec (.fragmentTimeout k) s = .next (s.onHub fun h => h.fragTimeout k) := exec_whenUp_up up rfl

/-! ## TRIGGER (R342) -/

section stamped
variable {h : Hub} {k : Nat} {stamp : BitVec 96} {f : Nat → Hub → Hub}

theorem Hub.stamped_bad (bad : stampOf stamp = none) : h.stamped k stamp f = h.protoErr k := by
  rw [Hub.stamped, bad]

theorem Hub.stamped_at {t : Nat} (at_ : stampOf stamp = some t) : h.stamped k stamp f = f t h := by
  rw [Hub.stamped, at_]

end stamped

/-! ## COMMIT_NOTE (R330) -/

/-- A note closes the open records of its hub. -/
def Hub.noted (h : Hub) (route : Nat) (streams : List Nat) (tc : Nat) : Hub :=
  (h.lk.opens.filter fun o => o.gap.origin == route && (o.gap.relief || !streams.contains o.gap.stream)).foldl
    (fun h o => h.closeRec o endedIndex (some tc)) h

/-- What a COMMIT_NOTE does. -/
def Hub.noteRead (h : Hub) (k route : Nat) (stamp : BitVec 96) (streams : List Nat) : Hub :=
  if h.role k ≠ roleDown then h.protoErr k else h.stamped k stamp fun tc h => h.noted route streams tc

theorem Hub.noteRead_bad {h : Hub} {k route : Nat} {stamp : BitVec 96} {streams : List Nat} (bad : h.role k ≠ roleDown ∨ stampOf stamp = none) :
    h.noteRead k route stamp streams = h.protoErr k := by
  by_cases role : h.role k = roleDown
  · exact (if_neg (not_not.2 role)).trans (Hub.stamped_bad (bad.resolve_left (not_not.2 role)))
  · exact if_pos role

/-! ## TIME (R52) -/

theorem Hub.isEth_iff (h : Hub) (k : Nat) : h.isEth k = true ↔ h.get (LANE_MODE k) = 2 := by simp [Hub.isEth]

theorem Hub.timeRx_serial {h : Hub} {k : Nat} (live : h.linkUp k = true) (serial : h.get (LANE_MODE k) ≠ 2) (kind : PtpKind) (m : PtpMsg) (i : Nat) (o : List (Nat × Nat)) :
    h.timeRx k kind m i o = h.ptpRx k kind m i o := by
  refine if_pos ⟨live, ?_⟩
  simpa [Hub.isEth] using serial

theorem Hub.timeRx_elsewhere {h : Hub} {k : Nat} (why : h.linkUp k = false ∨ h.get (LANE_MODE k) = 2) (kind : PtpKind) (m : PtpMsg) (i : Nat) (o : List (Nat × Nat)) :
    h.timeRx k kind m i o = h := by
  refine if_neg ?_
  rintro ⟨live, serial⟩
  rcases why with down | eth
  · simp [down] at live
  · rw [(h.isEth_iff k).2 eth] at serial
    exact absurd serial (by decide)

/-! ## Ethernet (R343) -/

section eth
variable {h : Hub} {k src id frag count : Nat}

theorem Hub.ethRx_serial (serial : h.get (LANE_MODE k) ≠ 2) (kind : EthKind) : h.ethRx k kind src id frag count = h := by
  refine if_pos ?_
  simpa [Hub.isEth] using serial

/-- An assembly that breaks is dropped and met as an errored frame. -/
def Hub.asmBreaks (h : Hub) (k : Nat) : Hub := (h.dropAsm k).erroredRx k false none false none false

/-- A first fragment. -/
def Hub.asmStarts (h : Hub) (k id frag count : Nat) : Hub :=
  if frag ≠ 0 ∨ count = 0 ∨ 12 < count then h.asmBreaks k
  else if count = 1 then h else h.modLink k fun l => { l with asm := some (id, 1, count) }

variable (eth : h.get (LANE_MODE k) = 2)
include eth

theorem Hub.isEth_of_mode : ¬(!h.isEth k) = true := by
  rw [(h.isEth_iff k).2 eth]
  decide

theorem Hub.ethRx_ptp : h.ethRx k .ptp src id frag count = h := if_neg (Hub.isEth_of_mode eth)

theorem Hub.ethRx_other : h.ethRx k .other src id frag count = h.bump (LANE_ETH_DROPS k) (LANE_SAT k) := if_neg (Hub.isEth_of_mode eth)

theorem Hub.ethRx_bad : h.ethRx k .bad src id frag count = h.bump (LANE_ETH_DROPS k) (LANE_SAT k) := if_neg (Hub.isEth_of_mode eth)

theorem Hub.ethRx_stranger (stranger : src ≠ h.peerMac k) : h.ethRx k .fragment src id frag count = h.bump (LANE_ETH_DROPS k) (LANE_SAT k) :=
  (if_neg (Hub.isEth_of_mode eth)).trans (if_pos stranger)

variable (peer : src = h.peerMac k)
include peer

theorem Hub.ethRx_first (none : (h.link k).asm = none) : h.ethRx k .fragment src id frag count = h.asmStarts k id frag count := by
  refine (if_neg (Hub.isEth_of_mode eth)).trans ((if_neg (not_not.2 peer)).trans ?_)
  rw [none]
  rfl

theorem Hub.ethRx_next {got : Nat} (asm : (h.link k).asm = some (id, got, count)) : h.ethRx k .fragment src id frag count
    = if frag = got then (if got + 1 = count then h.dropAsm k else h.modLink k fun l => { l with asm := some (id, got + 1, count) }) else h.asmBreaks k := by
  refine (if_neg (Hub.isEth_of_mode eth)).trans ((if_neg (not_not.2 peer)).trans ?_)
  rw [asm]
  dsimp only
  by_cases order : frag = got
  · rw [if_pos ⟨rfl, order, rfl⟩, if_pos order]
  · rw [if_neg fun e => order e.2.1, if_pos rfl, if_neg order]
    rfl

end eth

theorem Hub.fragTimeout_none {h : Hub} {k : Nat} (none : (h.link k).asm = none) : h.fragTimeout k = h := by
  rw [Hub.fragTimeout, none]
  exact if_neg (by decide)

theorem Hub.fragTimeout_some {h : Hub} {k : Nat} {x : Nat × Nat × Nat} (asm : (h.link k).asm = some x) : h.fragTimeout k = h.asmBreaks k := by
  rw [Hub.fragTimeout, asm]
  exact if_pos rfl

/-- Settles O49: the frames a link expects by what they carry, TIME by the kind of link, a fragment by its place. -/
theorem linkFrames : Obligations.LinkFrames := by
  refine ⟨fun s k up live lt => ?_, fun s k up => ?_⟩
  · dsimp only
    refine ⟨fun group unit origin stamp => ⟨fun bad => ?_, fun t at_ => ⟨fun known => ?_, fun new => ?_⟩⟩, fun route stamp streams => ⟨fun bad => ?_, fun role tc at_ => ?_⟩⟩
    · exact gives_rxCtrl (exec_triggerRx up k _ group unit origin stamp) live (toNat_expected lt) (Hub.stamped_bad bad)
    · exact gives_rxCtrl (exec_triggerRx up k _ group unit origin stamp) live (toNat_expected lt) ((Hub.stamped_at at_).trans (if_pos known))
    · exact gives_rxCtrl (exec_triggerRx up k _ group unit origin stamp) live (toNat_expected lt) ((Hub.stamped_at at_).trans (if_neg (by simp [new])))
    all_goals refine gives_rxCtrl (f := fun h => h.noteRead k route.toNat stamp streams) (exec_commitNoteRx up k _ route stamp streams) live (toNat_expected lt) ?_
    · exact Hub.noteRead_bad bad
    · exact (if_neg (not_not.2 role)).trans (Hub.stamped_at at_)
  · dsimp only
    refine ⟨fun live serial m i o ts => ?_, fun why kind m i o ts => ?_, fun serial kind src id f n => ?_, fun eth src id f n => ⟨?_, ?_, ?_, fun stranger => ?_, fun peer => ⟨fun none =>
      ⟨fun bad => ?_, fun first one => ?_, fun first more fits => ?_⟩, fun g asm => ⟨fun order last => ?_, fun order more => ?_, fun gap => ?_⟩⟩⟩, fun none => ?_, fun x asm => ?_⟩
    · have served (kind : PtpKind) : Gives (.timeRx k kind { m with ts := ts } i o m.ts) s (s.hw.hub.ptpRx k kind m i o) :=
        gives_onHub (exec_timeRx up k kind _ i o m.ts) (Hub.timeRx_serial live serial kind m i o)
      exact ⟨served .sync, served .delayReq, served .pdelayReq, served .pdelayResp, served .followUp, served .delayResp, served .pdelayRespFollowUp, served .announce,
        served .signaling, served .management⟩
    · exact gives_onHub (exec_timeRx up k kind m i o ts) (Hub.timeRx_elsewhere why _ _ _ _)
    · exact gives_onHub (exec_ethFrameRx up k kind src id f n) (Hub.ethRx_serial serial kind)
    · exact gives_onHub (exec_ethFrameRx up k _ src id f n) (Hub.ethRx_ptp eth)
    · exact gives_onHub (exec_ethFrameRx up k _ src id f n) (Hub.ethRx_other eth)
    · exact gives_onHub (exec_ethFrameRx up k _ src id f n) (Hub.ethRx_bad eth)
    · exact gives_onHub (exec_ethFrameRx up k _ src id f n) (Hub.ethRx_stranger eth stranger)
    · exact gives_onHub (exec_ethFrameRx up k _ src id f n) ((Hub.ethRx_first eth peer none).trans (if_pos bad))
    · exact gives_onHub (exec_ethFrameRx up k _ src id f n) ((Hub.ethRx_first eth peer none).trans ((if_neg (by omega)).trans (if_pos one)))
    · exact gives_onHub (exec_ethFrameRx up k _ src id f n) ((Hub.ethRx_first eth peer none).trans ((if_neg (by omega)).trans (if_neg (by omega))))
    · exact gives_onHub (exec_ethFrameRx up k _ src id f n) ((Hub.ethRx_next eth peer asm).trans ((if_pos order).trans (if_pos last)))
    · exact gives_onHub (exec_ethFrameRx up k _ src id f n) ((Hub.ethRx_next eth peer asm).trans ((if_pos order).trans (if_neg more)))
    · exact gives_onHub (exec_ethFrameRx up k _ src id f n) ((Hub.ethRx_next eth peer asm).trans (if_neg gap))
    · exact gives_onHub (exec_fragmentTimeout up k) (Hub.fragTimeout_none none)
    · exact gives_onHub (exec_fragmentTimeout up k) (Hub.fragTimeout_some asm)

end Sys2Proof.Machine
end

section
/-! SUPPORT. The patina store and the staged linearisation values (R126, R127, R172). -/

namespace Sys2Proof.Machine

theorem exec_hkPatDataAccess (s : State) (p : Fin 2) (wr : Option Word) : exec (.hkPatDataAccess p wr) s = .next (s.onHub fun h => h.patAccess p wr) := rfl

theorem exec_check {s : State} (a : s.alone) : exec .check s = .next (s.onHw Hw.patCheck) := exec_hwWr_alone a rfl

theorem exec_reload {s : State} (a : s.alone) : exec .reload s = .next (s.onHw Hw.patReload) := exec_hwWr_alone a rfl

theorem exec_save {s : State} (a : s.alone) : exec .save s = .next (s.onHw Hw.save) := exec_hwWr_alone a rfl

/-- A host write of a channel's register acts by itself outside any duplex section. -/
theorem exec_hostCh_alone {c : Instr} {s : State} {n o v : Nat} {f : Hub → Hub} (a : s.alone)
    (e : exec c s = .next (s.onHub fun h => h.hostCh n o v f)) : exec c s = .next (s.onHub f) := by
  rw [e]
  exact congrArg (fun h => Host.Outcome.next (s.withHub h)) (Hub.hostCh_alone a _ _ _ _)

theorem exec_linLoad {s : State} (a : s.alone) (n : Fin 192) : exec (.linLoad n) s = .next (s.onHub fun h => h.linLoad n) := exec_hostCh_alone a rfl

theorem exec_linCntClr {s : State} (a : s.alone) (n : Fin 192) : exec (.linCntClr n) s = .next (s.onHub fun h => h.linCntClr n) := exec_hostCh_alone a rfl

/-! ## The data port -/

section port
variable {h : Hub}

theorem Hub.patAccess_write (served : h.served 0x2214 = true) (p : Nat) (v : Word) : h.patAccess p (some v) = h.patWrite v.toNat := if_neg (by simp [served])

theorem Hub.patAccess_read (served : h.served 0x2214 = true) (p : Nat) : h.patAccess p none = h.patRead.2.setRd p h.patRead.1 := if_neg (by simp [served])

/-- The mode does not change as the address of the port moves on. -/
theorem Hub.mode_patAddr (h : Hub) (v : Nat) : (h.set HK_PAT_ADDR v).mode = h.mode := Hub.get_set_ne _ _ _ _ (by decide)

theorem Hub.patWrite_taken (v : Nat) (mode : h.mode = 1 ∨ h.mode = 7) (inside : h.get HK_PAT_ADDR / 4 * 4 < patCrcAt) : h.patWrite v
    = (h.set HK_PAT_ADDR (h.get HK_PAT_ADDR / 4 * 4 + 4)).setHk { h.hk with patina := imgPut h.hk.patina (h.get HK_PAT_ADDR / 4 * 4) (leBytes 4 v) } := by
  refine (if_neg ?_).trans (if_neg (Nat.lt_asymm inside))
  rw [Hub.mode_patAddr]
  rintro ⟨idle, maint⟩
  exact mode.elim idle maint

theorem Hub.patWrite_refused (v : Nat) (idle : h.mode ≠ 1) (maint : h.mode ≠ 7) :
    h.patWrite v = ((h.set HK_PAT_ADDR (h.get HK_PAT_ADDR / 4 * 4 + 4)).on HK_PAT_BAD).on HK_STAT_WERR := by
  refine if_pos ?_
  rw [Hub.mode_patAddr]
  exact ⟨idle, maint⟩

theorem Hub.patRead_inside (inside : h.get HK_PAT_ADDR / 4 * 4 ≤ patCrcAt) :
    h.patRead = (imgVal h.hk.patina (h.get HK_PAT_ADDR / 4 * 4) 4, h.set HK_PAT_ADDR (h.get HK_PAT_ADDR / 4 * 4 + 4)) :=
  congrArg (fun v => (v, h.set HK_PAT_ADDR (h.get HK_PAT_ADDR / 4 * 4 + 4))) (if_neg (Nat.not_lt.2 inside))

end port

/-! ## CHECK, RELOAD, SAVE and LOAD -/

theorem Hw.patCheck_passes {w : Hw} (ok : patOk w.hub.hk.patina = true) : w.patCheck = w.setHub (w.hub.setHk { w.hub.hk with checked := w.hub.hk.patina }) :=
  congrArg w.setHub (if_pos ok)

theorem Hw.patCheck_fails {w : Hw} (bad : patOk w.hub.hk.patina = false) :
    w.patCheck = w.setHub ((w.hub.on HK_PAT_BAD).patLoad w.nv.factory w.setImage) := congrArg w.setHub (if_neg (by simp [bad]))

theorem Hw.save_busy {w : Hw} (busy : w.hub.get HK_CAL_STATE ≠ 0) : w.save = w.setHub ((w.hub.on HK_CAL_SAVE_REFUSED).on HK_STAT_WERR) :=
  if_pos (.inr (.inr busy))

theorem Hw.save_begins {w : Hw} (may : w.setRefused = false) (readable : w.hub.get UPD_STAT_SETTINGS_UNREADABLE = 0) (idle : w.hub.get HK_CAL_STATE = 0) :
    w.save = w.setBegin (mergePatina w.hub.upd.setImg w.hub.hk.patina) := by
  refine if_neg ?_
  rintro (refused | unreadable | busy)
  · simp [may] at refused
  · simp [Hub.bit_of_zero readable] at unreadable
  · exact busy idle

theorem Hub.linLoad_both {h : Hub} {n g o : Nat} (gain : (h.chan n).stGain = some g) (offset : (h.chan n).stOffset = some o) : h.linLoad n
    = ((h.set (CH_LIN_GAIN n) g).set (CH_LIN_OFFSET n) o).setChan n { h.chan n with stGain := none, stOffset := none } := by
  unfold Hub.linLoad
  dsimp only
  rw [gain, offset]
  rfl

/-- Settles O26: the data port by mode and address, CHECK by the store, SAVE by what stands in its way. -/
theorem patinaStore : Obligations.PatinaStore := by
  intro s n alone
  have served : s.hw.hub.served 0x2214 = true := Hub.served_of_inService alone.1 _
  dsimp only
  refine ⟨fun p v mode inside => ?_, fun p v idle maint => ?_, fun p inside => ?_, fun ok => ?_, fun bad => ?_, ?_, fun busy => ?_, fun may readable idle => ?_,
    fun g o gain offset => ?_, ?_⟩
  · exact gives_onHub (exec_hkPatDataAccess s p _) ((Hub.patAccess_write served p v).trans (Hub.patWrite_taken _ mode inside))
  · exact gives_onHub (exec_hkPatDataAccess s p _) ((Hub.patAccess_write served p v).trans (Hub.patWrite_refused _ idle maint))
  · refine gives_onHub (exec_hkPatDataAccess s p _) ((Hub.patAccess_read served p).trans ?_)
    rw [Hub.patRead_inside inside]
  · exact gives_onHw (exec_check alone) (Hw.patCheck_passes ok)
  · exact gives_onHw (exec_check alone) (Hw.patCheck_fails bad)
  · exact gives_onHw (exec_reload alone) rfl
  · exact gives_onHw (exec_save alone) (Hw.save_busy busy)
  · exact givesHw_onHw (exec_save alone) (Hw.save_begins may readable idle)
  · exact gives_onHub (exec_linLoad alone n) (Hub.linLoad_both gain offset)
  · exact gives_onHub (exec_linCntClr alone n) rfl

end Sys2Proof.Machine
end

section
/-! SUPPORT. Captures of pin edges (R10, R56). -/

namespace Sys2Proof.Machine

theorem exec_trigInEdge (s : State) (p : Fin 4) (r : Bool) (t : Nat) : exec (.trigInEdge p r t) s = .next (s.onHub fun h => h.trigEdge p r t) := rfl

theorem exec_glitchFilterEnd {s : State} (up : s.up) (p : Fin 4) : exec (.glitchFilterEnd p) s = .next (s.onHub fun h => h.filterEnd p) := exec_whenUp_up up rfl

theorem exec_capW0Read (s : State) (path : Fin 2) (p : Fin 4) : exec (.capW0Read path p) s = .next (s.onHub fun h => h.capW0 path p) := rfl

theorem exec_lostClr {s : State} (up : s.up) (p : Fin 4) : exec (.lostClr p) s = .next (s.onHub fun h => h.lostClr p) :=
  exec_hubWr_up (a := 0x1184 + 0x20 * p.val) (v := fun _ => 0x200) up (by revert p; decide) rfl

/-! ## The glitch filter -/

section filter
variable {h : Hub} {i : Nat}

theorem Hub.trigEdge_off (r : Bool) (t : Nat) (off : h.time.running = false ∨ h.get (EVT_EDGE i) = 0) :
    h.trigEdge i r t = (h.upTo t).setPin i { h.pin i with level := r } := by
  refine if_pos ?_
  rw [Hub.upTo_get]
  show (!decide (h.time.running = true ∧ _)) = true
  rcases off with stopped | none <;> simp [*]

variable (runs : h.time.running = true) (used : h.get (EVT_EDGE i) ≠ 0)
include runs used

theorem Hub.trigEdge_on (r : Bool) (t : Nat) : h.trigEdge i r t = if (h.pin i).noted.getLast?.any fun e => decide (t < e.due)
    then (h.upTo t).setPin i { h.pin i with level := r, noted := (h.pin i).noted.dropLast }
    else (h.upTo t).setPin i { h.pin i with
      level := r, noted := (h.pin i).noted ++ [{ time := t, rising := r, due := t + h.get (EVT_FILTER i) * 4 * nsU }] } := by
  have live : ¬(!decide ((h.upTo t).time.running = true ∧ (h.upTo t).get (EVT_EDGE i) ≠ 0)) = true := by
    rw [Hub.upTo_get]
    show ¬(!decide (h.time.running = true ∧ _)) = true
    simp [runs, used]
  refine (if_neg live).trans ?_
  have pin : (h.upTo t).pin i = h.pin i := rfl
  rw [pin]
  cases (h.pin i).noted.getLast? <;> rfl

theorem Hub.trigEdge_enters (r : Bool) (t : Nat) (apart : ∀ e, (h.pin i).noted.getLast? = some e → e.due ≤ t) : h.trigEdge i r t
    = (h.upTo t).setPin i { h.pin i with
      level := r, noted := (h.pin i).noted ++ [{ time := t, rising := r, due := t + h.get (EVT_FILTER i) * 4 * nsU }] } := by
  refine (Hub.trigEdge_on runs used r t).trans (if_neg ?_)
  cases last : (h.pin i).noted.getLast? with
  | none => simp
  | some e => simpa using apart e last

theorem Hub.trigEdge_glitch (r : Bool) (t : Nat) {e : NotedEdge} (last : (h.pin i).noted.getLast? = some e) (soon : t < e.due) :
    h.trigEdge i r t = (h.upTo t).setPin i { h.pin i with level := r, noted := (h.pin i).noted.dropLast } := by
  refine (Hub.trigEdge_on runs used r t).trans (if_pos ?_)
  rw [last]
  simpa using soon

end filter

/-! ## The end of an edge's filter time -/

section pass
variable {h : Hub} {i : Nat} {e : NotedEdge} {rest : List NotedEdge}

/-- The hub at the end of the oldest edge's filter time. -/
def Hub.edgePassed (h : Hub) (i : Nat) (e : NotedEdge) (rest : List NotedEdge) : Hub := (h.upTo e.due).setPin i { h.pin i with noted := rest }

theorem edgeSelected_iff (e : Nat) (r : Bool) : edgeSelected e r = true ↔ if r then e % 2 = 1 else 2 ≤ e := by
  cases r <;> simp [edgeSelected]

theorem Hub.filterPass_cons (noted : (h.pin i).noted = e :: rest) : h.filterPass i = if edgeSelected ((h.edgePassed i e rest).get (EVT_EDGE i)) e.rising
    then ((h.edgePassed i e rest).draw.capStore i ⟨captured (h.edgePassed i e rest).free e.time, e.rising, e.stepped⟩, some (captured (h.edgePassed i e rest).free e.time))
    else (h.edgePassed i e rest, none) := by
  unfold Hub.filterPass
  dsimp only
  rw [noted]
  rfl

theorem Hub.edgePassed_edge : (h.edgePassed i e rest).get (EVT_EDGE i) = h.get (EVT_EDGE i) := rfl

theorem Hub.filterEnd_taken (noted : (h.pin i).noted = e :: rest) (selected : if e.rising then h.get (EVT_EDGE i) % 2 = 1 else 2 ≤ h.get (EVT_EDGE i)) :
    h.filterEnd i = (((h.edgePassed i e rest).draw.capStore i ⟨captured h.free e.time, e.rising, e.stepped⟩).trigPin i (captured h.free e.time)).injPin i := by
  unfold Hub.filterEnd
  rw [Hub.filterPass_cons noted, if_pos (by rw [Hub.edgePassed_edge, edgeSelected_iff]; exact selected)]
  rfl

theorem Hub.filterEnd_dropped (noted : (h.pin i).noted = e :: rest) (other : if e.rising then h.get (EVT_EDGE i) % 2 = 0 else h.get (EVT_EDGE i) < 2) :
    h.filterEnd i = h.edgePassed i e rest := by
  have unselected : ¬edgeSelected ((h.edgePassed i e rest).get (EVT_EDGE i)) e.rising = true := by
    rw [Hub.edgePassed_edge, edgeSelected_iff]
    split at other
    next rising =>
      rw [if_pos rising]
      omega
    next falling =>
      rw [if_neg falling]
      omega
  unfold Hub.filterEnd
  rw [Hub.filterPass_cons noted, if_neg unselected]

theorem Hub.capStore_room (c : Capture) (room : (h.pin i).fifo.length < 8) : (h.edgePassed i e rest).draw.capStore i c
    = ((h.edgePassed i e rest).draw.setPin i { h.pin i with noted := rest, fifo := (h.pin i).fifo ++ [c] }).set (EVT_LEVEL i) ((h.pin i).fifo.length + 1) := by
  have pin : (h.edgePassed i e rest).draw.pin i = { h.pin i with noted := rest } := Hub.setPin_pin_same _ _ _
  unfold Hub.capStore
  dsimp only
  rw [pin]
  exact if_neg (Nat.not_le.2 room)

theorem Hub.capStore_full (c : Capture) (full : 8 ≤ (h.pin i).fifo.length) : (h.edgePassed i e rest).draw.capStore i c
    = ((h.edgePassed i e rest).draw.bump (EVT_LOST i) (EVT_SAT i)).on (EVT_OVR i) := by
  have pin : (h.edgePassed i e rest).draw.pin i = { h.pin i with noted := rest } := Hub.setPin_pin_same _ _ _
  unfold Hub.capStore
  dsimp only
  rw [pin]
  exact if_pos full

end pass

/-! ## Reading the store -/

section read
variable {h : Hub} (served : h.served 0x1188 = true) (path i : Nat)
include served

theorem Hub.capW0_empty (empty : (h.pin i).fifo = []) : h.capW0 path i = h.setRd path 0xFFFFFFFF := by
  refine (if_pos served).trans ?_
  unfold Hub.capRead
  dsimp only
  rw [empty]

/-- The registers once the oldest entry is read. -/
def Hub.capShown (h : Hub) (i : Nat) (c : Capture) (rest : List Capture) : Hub :=
  (((h.setPin i { h.pin i with fifo := rest, snapped := true }).set (EVT_LEVEL i) rest.length).set (EVT_STEPPED i) (b2n c.stepped)).set (EVT_RISING i) (b2n c.rising)

theorem Hub.capW0_oldest {c : Capture} {rest : List Capture} (some : (h.pin i).fifo = c :: rest) : ∃ snaps, h.capW0 path i
    = { h.capShown i c rest with snaps := snaps }.setRd path (tNs c.time) := by
  have read : h.capW0 path i = (h.capRead path i).1.setRd path (h.capRead path i).2 := if_pos served
  rw [read]
  unfold Hub.capRead
  dsimp only
  rw [some]
  exact ⟨_, rfl⟩

end read

theorem Hub.capShown_regs (h : Hub) (i : Nat) (c : Capture) (rest : List Capture) : let h' := h.capShown i c rest
    h'.get (EVT_LEVEL i) = rest.length % 16 ∧ h'.get (EVT_STEPPED i) = c.stepped.toNat ∧ h'.get (EVT_RISING i) = c.rising.toNat
    ∧ OnlyRegs [EVT_LEVEL i, EVT_STEPPED i, EVT_RISING i] h h' := by
  have apart : (EVT_LEVEL i).key ≠ (EVT_RISING i).key ∧ (EVT_LEVEL i).key ≠ (EVT_STEPPED i).key ∧ (EVT_STEPPED i).key ≠ (EVT_RISING i).key := by
    simp only [Field.key, EVT_LEVEL, EVT_RISING, EVT_STEPPED]
    omega
  obtain ⟨rising, stepped, both⟩ := apart
  refine ⟨?_, ?_, ?_, onlyRegs_set _ (by simp) (onlyRegs_set _ (by simp) (onlyRegs_set _ (by simp) (onlyRegs_of_regs (Hub.setPin_regs _ _ _) (onlyRegs_refl _ h))))⟩
  · rw [Hub.capShown, Hub.get_set_ne _ _ _ _ rising, Hub.get_set_ne _ _ _ _ stepped]
    exact Hub.get_set_same _ _ _
  · rw [Hub.capShown, Hub.get_set_ne _ _ _ _ both]
    refine (Hub.get_set_same _ _ _).trans ?_
    cases c.stepped <;> rfl
  · refine (Hub.get_set_same _ _ _).trans ?_
    cases c.rising <;> rfl

theorem Hub.capShown_fifo (h : Hub) (i : Nat) (c : Capture) (rest : List Capture) : ((h.capShown i c rest).pin i).fifo = rest := by
  rw [Hub.capShown, Hub.pin, Hub.set_time, Hub.set_time, Hub.set_time, ← Hub.pin, Hub.setPin_pin_same]

/-- Settles O18: an edge by the one before it, the end of its filter time by direction and room, a read by what is stored. -/
theorem captures : Obligations.Captures := by
  intro s p up
  dsimp only
  refine ⟨fun r t runs used => ⟨fun apart => ?_, fun e last soon => ?_⟩, fun r t off => ?_, fun e rest noted => ⟨fun selected => ⟨fun room => ?_, fun full => ?_⟩, fun other => ?_⟩,
    fun path => ⟨fun empty => ?_, fun c rest some => ?_⟩, ?_⟩
  · exact gives_onHub (exec_trigInEdge s p r t) (Hub.trigEdge_enters runs used r t apart)
  · exact gives_onHub (exec_trigInEdge s p r t) (Hub.trigEdge_glitch runs used r t last soon)
  · exact gives_onHub (exec_trigInEdge s p r t) (Hub.trigEdge_off r t off)
  · refine gives_onHub (exec_glitchFilterEnd up p) ((Hub.filterEnd_taken noted selected).trans ?_)
    rw [Hub.capStore_room _ room]
    rfl
  · refine gives_onHub (exec_glitchFilterEnd up p) ((Hub.filterEnd_taken noted selected).trans ?_)
    rw [Hub.capStore_full _ full]
    rfl
  · exact gives_onHub (exec_glitchFilterEnd up p) (Hub.filterEnd_dropped noted other)
  · exact gives_onHub (exec_capW0Read s path p) (Hub.capW0_empty (Hub.served_of_inService up _) _ _ empty)
  · obtain ⟨snaps, e⟩ := Hub.capW0_oldest (Hub.served_of_inService up _) path.val p.val some
    obtain ⟨level, stepped, rising, only⟩ := s.hw.hub.capShown_regs p c rest
    refine leads_onHub (exec_capW0Read s path p) ?_
    rw [e]
    exact ⟨s.hw.hub.capShown_fifo p c rest, aGet_aInsert_same _ _ _ _, level, stepped, rising, only⟩
  · exact gives_onHub (exec_lostClr up p) rfl

end Sys2Proof.Machine
end

section
/-! SUPPORT. The pins PPS_IN and PPS_OUT, and the time of day (R47, R55). -/

namespace Sys2Proof.Machine

theorem exec_ppsInEdge {s : State} (up : s.up) (r : Bool) (t : Nat) : exec (.ppsInEdge (r, t)) s = .next (s.onHub fun h => h.ppsEdge r t) := exec_whenUp_up up rfl

theorem exec_todArm {s : State} (up : s.up) : exec .todArm s = .next (s.onHub Hub.todArm) :=
  exec_hubWr_up (a := 0x1098) (v := fun _ => 2 ^ 31) up (by decide) rfl

theorem exec_todMissed {s : State} (up : s.up) : exec .todMissed s = .next (s.onHub Hub.todMissed) := exec_whenUp_up up rfl

theorem exec_ppsInLost {s : State} (up : s.up) : exec .ppsInLost s = .next (s.onHub Hub.ppsLost) := exec_whenUp_up up rfl

theorem exec_ppsOutPulse {s : State} (up : s.up) : exec .ppsOutPulse s = .next (s.onHub Hub.ppsPulse) := exec_whenUp_up up rfl

theorem exec_ppsOutPulseEnd {s : State} (up : s.up) : exec .ppsOutPulseEnd s = .next (s.onHub Hub.ppsPulseEnd) := exec_whenUp_up up rfl

/-! ## An edge of PPS_IN -/

section edge
variable {h : Hub}

/-- The hub with an edge of PPS_IN captured at `c`. -/
def Hub.ppsSeen (h : Hub) (t c : Nat) : Hub :=
  let k := (h.draw.upTo t).rsChange 0x1088 TIME_PPS_STAT_OVR
  (k.setTime { k.time with ppsCap := c, ppsLast := c }).on TIME_PPS_STAT_PPS_IN_SEEN

theorem Hub.rsChange_get_ne (h : Hub) (a : Nat) (ovr : Field) {f : Field} (k : f.key ≠ ovr.key) : (h.rsChange a ovr).get f = h.get f := by
  unfold Hub.rsChange
  split
  · exact Hub.get_on_ne _ _ _ k
  · rfl

theorem Hub.rsChange_time (h : Hub) (a : Nat) (ovr : Field) : (h.rsChange a ovr).time = h.time := by
  unfold Hub.rsChange
  split
  · exact Hub.on_time _ _
  · rfl

theorem Hub.ppsSeen_get (h : Hub) (t c : Nat) {f : Field} (ovr : f.key ≠ TIME_PPS_STAT_OVR.key) (seen : f.key ≠ TIME_PPS_STAT_PPS_IN_SEEN.key) :
    (h.ppsSeen t c).get f = h.get f := by
  rw [Hub.ppsSeen, Hub.get_on_ne _ _ _ seen, Hub.get_setTime, Hub.rsChange_get_ne _ _ _ ovr]
  rfl

theorem Hub.ppsSeen_armed (h : Hub) (t c : Nat) : (h.ppsSeen t c).time.todArmed = h.time.todArmed := by
  rw [Hub.ppsSeen, Hub.on_time, Hub.setTime_time, Hub.rsChange_time]
  rfl

/-- The time of day applied as a step, from the edge at `c`. -/
def Hub.todApplied (h : Hub) (c : Nat) : Hub :=
  let d : Int := ((h.get TIME_TOD_SEC_LO + 2 ^ 32 * h.get TIME_TOD_SEC_HI) * secU : Nat) - (c : Int)
  let g := (h.setTime { h.time with todArmed := false }).off TIME_ARM
  if g.anyGrid then (if (g.addSlew d).2 then (g.addSlew d).1.on TIME_PPS_STAT_TOD_APPLIED else (g.addSlew d).1) else (g.doStep d).on TIME_PPS_STAT_TOD_APPLIED

theorem Hub.ppsEdge_other {r : Bool} (t : Nat) (why : h.get TIME_PPS_CFG_PPS_IN_EN ≠ 1 ∨ (r = true ↔ h.get TIME_PPS_CFG_PPS_IN_EDGE = 1)) : h.ppsEdge r t = h := by
  refine if_pos (why.imp (fun off => by simp [Hub.bit_of_ne off]) fun same => ?_)
  rw [Bool.eq_iff_iff, Hub.bit_iff]
  exact same

theorem Hub.ppsEdge_chosen {r : Bool} (t : Nat) (on_ : h.get TIME_PPS_CFG_PPS_IN_EN = 1) (edge : r = true ↔ h.get TIME_PPS_CFG_PPS_IN_EDGE ≠ 1) :
    h.ppsEdge r t = if h.time.todArmed then (h.ppsSeen t (captured h.free t)).todApplied (captured h.free t)
      else (h.ppsSeen t (captured h.free t)).measure 2 (phaseOff (captured h.free t)) := by
  have armed : (h.ppsSeen t (captured h.free t)).time.todArmed = h.time.todArmed := Hub.ppsSeen_armed _ _ _
  refine (if_neg ?_).trans ?_
  · rintro (off | same)
    · simp [Hub.bit_of_one on_] at off
    · rw [Bool.eq_iff_iff, Hub.bit_iff, edge] at same
      exact (iff_not_self same.symm).elim
  · rw [← armed]
    rfl

theorem Hub.todApplied_idle {c : Nat} (idle : ∀ k, k < 8 → h.get (GRID_STATE k) = 0) : h.todApplied c
    = (((h.setTime { h.time with todArmed := false }).off TIME_ARM).doStep
        ((((h.get TIME_TOD_SEC_LO + 2 ^ 32 * h.get TIME_TOD_SEC_HI) * secU : Nat) : Int) - c)).on TIME_PPS_STAT_TOD_APPLIED := by
  refine if_neg ?_
  rw [Hub.anyGrid_iff]
  rintro ⟨g, lt, busy⟩
  rw [Hub.get_off_ne _ _ _ (by simp only [Field.key, GRID_STATE, TIME_ARM]; omega), Hub.get_setTime] at busy
  exact busy (idle g lt)

/-- With no grid in use the whole second of TIME_TOD_SEC is applied from the edge. -/
theorem Hub.ppsEdge_tod {r : Bool} {t : Nat} (on_ : h.get TIME_PPS_CFG_PPS_IN_EN = 1) (edge : r = true ↔ h.get TIME_PPS_CFG_PPS_IN_EDGE ≠ 1)
    (armed : h.time.todArmed = true) (idle : ∀ k, k < 8 → h.get (GRID_STATE k) = 0) : let c := captured h.free t
    let g := h.ppsSeen t c
    h.ppsEdge r t = (((g.setTime { g.time with todArmed := false }).off TIME_ARM).doStep
        ((((h.get TIME_TOD_SEC_LO + 2 ^ 32 * h.get TIME_TOD_SEC_HI) * secU : Nat) : Int) - c)).on TIME_PPS_STAT_TOD_APPLIED := by
  dsimp only
  rw [Hub.ppsEdge_chosen t on_ edge, if_pos armed, Hub.todApplied_idle, Hub.ppsSeen_get _ _ _ (by decide) (by decide), Hub.ppsSeen_get _ _ _ (by decide) (by decide)]
  intro k lt
  rw [Hub.ppsSeen_get _ _ _ (by simp only [Field.key, GRID_STATE, TIME_PPS_STAT_OVR]; omega) (by simp only [Field.key, GRID_STATE, TIME_PPS_STAT_PPS_IN_SEEN]; omega)]
  exact idle k lt

end edge

/-! ## Without an edge -/

theorem Hub.todMissed_armed {h : Hub} (armed : h.time.todArmed = true) : h.todMissed
    = (((h.upTo (h.time.todArmAt + 3 * secU / 2)).setTime { (h.upTo (h.time.todArmAt + 3 * secU / 2)).time with todArmed := false }).off TIME_ARM).on
      TIME_PPS_STAT_TOD_MISSED := if_pos armed

theorem Hub.todMissed_outcome {h : Hub} (armed : h.time.todArmed = true) : let h' := h.todMissed
    h'.time.todArmed = false ∧ h'.get TIME_ARM = 0 ∧ h'.get TIME_PPS_STAT_TOD_MISSED = 1 ∧ h.time.todArmAt + 3 * secU / 2 ≤ h'.time.now
    ∧ OnlyRegs [TIME_ARM, TIME_PPS_STAT_TOD_MISSED] h h' := by
  dsimp only
  rw [Hub.todMissed_armed armed, Hub.on_time, Hub.off_time, Hub.setTime_time]
  refine ⟨rfl, ?_, Hub.get_on_same _ _ (by decide), Nat.le_max_right _ _,
    onlyRegs_on (by decide) (onlyRegs_off (by decide) (onlyRegs_of_regs (Hub.setTime_regs _ _) (onlyRegs_of_regs (Hub.upTo_regs _ _) (onlyRegs_refl _ h))))⟩
  rw [Hub.get_on_ne _ _ _ (by decide), Hub.get_off_same]

theorem Hub.ppsLost_enabled {h : Hub} (on_ : h.get TIME_PPS_CFG_PPS_IN_EN = 1) : h.ppsLost
    = if h.get TIME_STAT_SRC_ACTIVE = 2 then ((h.upTo (h.time.ppsLast + 3 * secU)).on TIME_PPS_STAT_PPS_IN_LOST).sourceLost
      else (h.upTo (h.time.ppsLast + 3 * secU)).on TIME_PPS_STAT_PPS_IN_LOST := by
  have source : ((h.upTo (h.time.ppsLast + 3 * secU)).on TIME_PPS_STAT_PPS_IN_LOST).get TIME_STAT_SRC_ACTIVE = h.get TIME_STAT_SRC_ACTIVE :=
    Hub.get_on_ne _ _ _ (by decide)
  rw [← source]
  exact if_pos (Hub.bit_of_one on_)

/-! ## PPS_OUT -/

theorem le_nextSecond (done t : Nat) : t ≤ nextSecond done t * secU := by
  have ceil : t ≤ (t + secU - 1) / secU * secU := by
    unfold secU
    omega
  exact ceil.trans (Nat.mul_le_mul_right _ (Nat.le_max_right _ _))

/-- The hub at the next whole second. -/
def Hub.atSecond (h : Hub) : Hub :=
  let g := h.upTo (nextSecond h.time.ppsDone h.time.now * secU)
  g.setTime { g.time with ppsDone := nextSecond h.time.ppsDone h.time.now }

/-- The rise of PPS_OUT. -/
def Hub.ppsRisen (h : Hub) : Hub :=
  h.atSecond.setTime { h.atSecond.time with ppsOut := true, ppsOutEnd := nextSecond h.time.ppsDone h.time.now * secU + min 999 (max 1 (h.get TIME_PPS_CFG_WIDTH_MS)) * msU }

theorem Hub.ppsPulse_eq {h : Hub} (on_ : h.get TIME_PPS_CFG_PPS_OUT_EN = 1) (runs : h.time.running = true) :
    h.ppsPulse = if h.atSecond.dupStandby then h.atSecond else h.ppsRisen := if_pos (by simp [Hub.bit_of_one on_, runs])

theorem Hub.atSecond_now (h : Hub) : h.atSecond.time.now = nextSecond h.time.ppsDone h.time.now * secU := by
  rw [Hub.atSecond, Hub.setTime_time]
  exact Nat.max_eq_right (le_nextSecond _ _)

theorem Hub.atSecond_get (h : Hub) (f : Field) : h.atSecond.get f = h.get f := by rw [Hub.atSecond, Hub.get_setTime, Hub.upTo_get]

theorem Hub.ppsPulse_outcome {h : Hub} (on_ : h.get TIME_PPS_CFG_PPS_OUT_EN = 1) (runs : h.time.running = true) : let h' := h.ppsPulse
    h'.time.now = nextSecond h.time.ppsDone h.time.now * secU ∧ OnlyRegs [] h h'
    ∧ (h.get DEV_MODE_MODE ≠ 6 → h'.time.ppsOut = true ∧ h'.time.ppsOutEnd = h'.time.now + min 999 (max 1 (h.get TIME_PPS_CFG_WIDTH_MS)) * msU)
    ∧ (h.get DEV_MODE_MODE = 6 → h'.time.ppsOut = h.time.ppsOut) := by
  dsimp only
  rw [Hub.ppsPulse_eq on_ runs]
  by_cases mode : h.get DEV_MODE_MODE = 6
  · rw [if_pos (Hub.dupStandby_of_mirror ((h.atSecond_get _).trans mode))]
    exact ⟨h.atSecond_now, fun f _ => h.atSecond_get f, fun other => absurd mode other, fun _ => rfl⟩
  · have single : h.atSecond.dupStandby = false := Hub.dupStandby_of_ne ((h.atSecond_get _).trans_ne mode)
    rw [if_neg (by simp [single]), Hub.ppsRisen, Hub.setTime_time, h.atSecond_now]
    exact ⟨rfl, fun f _ => (Hub.get_setTime _ _ _).trans (h.atSecond_get f), fun _ => ⟨rfl, rfl⟩, fun k => absurd k mode⟩

theorem Hub.ppsPulseEnd_high {h : Hub} (high : h.time.ppsOut = true) :
    h.ppsPulseEnd = (h.upTo h.time.ppsOutEnd).setTime { (h.upTo h.time.ppsOutEnd).time with ppsOut := false } := if_pos high

theorem Hub.ppsPulseEnd_outcome {h : Hub} (high : h.time.ppsOut = true) : let h' := h.ppsPulseEnd
    h'.time.ppsOut = false ∧ h.time.ppsOutEnd ≤ h'.time.now ∧ OnlyRegs [] h h' := by
  dsimp only
  rw [Hub.ppsPulseEnd_high high, Hub.setTime_time]
  exact ⟨rfl, Nat.le_max_right _ _, fun f _ => (Hub.get_setTime _ _ _).trans (Hub.upTo_get _ _ _)⟩

end Sys2Proof.Machine
end

section
/-! SUPPORT. The TIME_OUT pins (R57). -/

namespace Sys2Proof.Machine

theorem exec_timeOutArm {s : State} (up : s.up) (p : Fin 4) : exec (.timeOutArm p) s = .next (s.onHub fun h => h.outArm p) :=
  exec_hubWr_up (a := 0x1100 + 0x20 * p.val) (v := fun _ => 8) up (by revert p; decide) rfl

theorem exec_timeOutDisarm {s : State} (up : s.up) (p : Fin 4) : exec (.timeOutDisarm p) s = .next (s.onHub fun h => h.outDisarm p) :=
  exec_hubWr_up (a := 0x1100 + 0x20 * p.val) (v := fun _ => 0x10) up (by revert p; decide) rfl

theorem exec_timeOutPulse {s : State} (up : s.up) (p : Fin 4) (n : Nat) : exec (.timeOutPulse p n) s = .next (s.onHub fun h => h.outPulse p n) :=
  exec_whenUp_up up rfl

theorem exec_timeOutPulseEnd {s : State} (up : s.up) (p : Fin 4) : exec (.timeOutPulseEnd p) s = .next (s.onHub fun h => h.outPulseEnd p) := exec_whenUp_up up rfl

/-! ## Arming -/

section arm
variable {h : Hub} {i : Nat}

theorem Hub.outArm_once (mode : h.get (TOUT_MODE i) = 1) : h.outArm i
    = if h.outStart i < h.time.now + usU then h.on (TOUT_MISSED i) else (h.setOut i { h.out i with nextAt := h.outStart i }).on (TOUT_ARMED i) := if_pos mode

theorem Hub.outArm_periodic (mode : h.get (TOUT_MODE i) = 2) : h.outArm i
    = if h.outPeriod i ≤ h.outWidth i ∨ h.outPeriod i < 100 * nsU ∨ 65535 * secU < h.outPeriod i then h.on (TOUT_WERR i)
      else (h.setOut i { h.out i with nextAt := periodicFrom (h.outStart i) (h.outPeriod i) (h.time.now + usU) }).on (TOUT_ARMED i) :=
  (if_neg (by omega)).trans (if_pos mode)

theorem Hub.outArm_grid (mode : h.get (TOUT_MODE i) = 3) : h.outArm i = h.on (TOUT_ARMED i) :=
  (if_neg (by omega)).trans ((if_neg (by omega)).trans (if_pos mode))

/-- The next instant of a periodic output is not before the instant asked for. -/
theorem le_periodicFrom {period : Nat} (pos : 0 < period) (start t : Nat) : t ≤ periodicFrom start period t := by
  unfold periodicFrom
  split
  · have := Nat.div_mul_le_self (start - t) period
    omega
  · have ceil : t - start ≤ (t - start + period - 1) / period * period := by
      have rem := Nat.mod_lt (t - start + period - 1) pos
      have cut := Nat.div_add_mod' (t - start + period - 1) period
      omega
    omega

theorem Hub.onOut_armed (h : Hub) (i : Nat) (o : PinOut) : let h' := (h.setOut i o).on (TOUT_ARMED i)
    h'.get (TOUT_ARMED i) = 1 ∧ h'.out i = o ∧ OnlyRegs [TOUT_ARMED i] h h' := by
  refine ⟨Hub.get_on_same _ _ (Nat.succ_pos 0), ?_, onlyRegs_on (by simp) (onlyRegs_of_regs (Hub.setOut_regs _ _ _) (onlyRegs_refl _ h))⟩
  rw [Hub.out, Hub.on_time, ← Hub.out, Hub.setOut_out_same]

theorem Hub.outArm_periodic_outcome (mode : h.get (TOUT_MODE i) = 2) (narrow : h.outWidth i < h.outPeriod i) (low : 100 * nsU ≤ h.outPeriod i)
    (high : h.outPeriod i ≤ 65535 * secU) : (h.outArm i).get (TOUT_ARMED i) = 1 ∧ h.time.now + usU ≤ ((h.outArm i).out i).nextAt ∧ OnlyRegs [TOUT_ARMED i] h (h.outArm i) := by
  have arms := (Hub.outArm_periodic mode).trans (if_neg (by omega))
  obtain ⟨armed, out, only⟩ := h.onOut_armed i { h.out i with nextAt := periodicFrom (h.outStart i) (h.outPeriod i) (h.time.now + usU) }
  rw [arms, out]
  exact ⟨armed, le_periodicFrom (Nat.zero_lt_of_lt narrow) _ _, only⟩

theorem Hub.outArm_grid_outcome (_ : i < 4) (mode : h.get (TOUT_MODE i) = 3) : (h.outArm i).get (TOUT_ARMED i) = 1
    ∧ ((h.outArm i).outIdle i = true ↔ h.get (GRID_STATE (h.get (TOUT_GRID i))) ≠ 2) ∧ OnlyRegs [TOUT_ARMED i] h (h.outArm i) := by
  have mode' : (h.on (TOUT_ARMED i)).get (TOUT_MODE i) = 3 := (Hub.get_on_ne _ _ _ (by simp only [Field.key, TOUT_MODE, TOUT_ARMED]; omega)).trans mode
  have grid : (h.on (TOUT_ARMED i)).get (TOUT_GRID i) = h.get (TOUT_GRID i) := Hub.get_on_ne _ _ _ (by simp only [Field.key, TOUT_GRID, TOUT_ARMED]; omega)
  have state (g : Nat) : (h.on (TOUT_ARMED i)).gridState g = h.get (GRID_STATE g) := Hub.get_on_ne _ _ _ (by simp only [Field.key, GRID_STATE, TOUT_ARMED]; omega)
  have armed : (h.on (TOUT_ARMED i)).get (TOUT_ARMED i) = 1 := Hub.get_on_same _ _ (Nat.succ_pos 0)
  rw [Hub.outArm_grid mode]
  refine ⟨armed, ?_, onlyRegs_on (by simp) (onlyRegs_refl _ h)⟩
  rw [Hub.outIdle, Hub.bit_of_one armed, mode', grid, state]
  simp [gRunning]

end arm

/-! ## Pulses -/

section pulse
variable {h : Hub} {i : Nat}

theorem Hub.pulseAt_get (h : Hub) (i t : Nat) (f : Field) : (h.pulseAt i t).get f = h.get f := by
  unfold Hub.pulseAt Hub.pulseOn
  split
  · rfl
  · rw [Hub.setOut_get, Hub.upTo_get]

/-- A pulse on a hub that is no standby. -/
theorem Hub.pulseAt_out (t : Nat) (single : h.get DEV_MODE_MODE ≠ 6) :
    (h.pulseAt i t).out i = { h.out i with pulse := true, pulseEnd := near250 t + max 1 (h.get (TOUT_WIDTH i)) * 4 * nsU } := by
  have drives : ¬(h.upTo (near250 t)).dupStandby = true := by
    rw [Hub.dupStandby_of_ne (h := h.upTo (near250 t)) single]
    decide
  rw [Hub.pulseAt, Hub.pulseOn, if_neg drives, Hub.setOut_out_same]
  rfl

theorem Hub.outPulse_off (n : Nat) (off : h.get (TOUT_ARMED i) ≠ 1) : h.outPulse i n = h := if_pos (by simp [Hub.bit_of_ne off])

variable (n : Nat) (armed : h.get (TOUT_ARMED i) = 1)
include armed

theorem Hub.outPulse_once (mode : h.get (TOUT_MODE i) = 1) : h.outPulse i n = (h.pulseAt i (h.out i).nextAt).off (TOUT_ARMED i) :=
  (if_neg (by simp [Hub.bit_of_one armed])).trans (if_pos mode)

theorem Hub.outPulse_periodic (mode : h.get (TOUT_MODE i) = 2) : h.outPulse i n
    = (h.pulseAt i (h.out i).nextAt).setOut i { (h.pulseAt i (h.out i).nextAt).out i with nextAt := (h.out i).nextAt + (h.pulseAt i (h.out i).nextAt).outPeriod i } :=
  (if_neg (by simp [Hub.bit_of_one armed])).trans ((if_neg (by omega)).trans (if_pos mode))

theorem Hub.outPulse_once_outcome (mode : h.get (TOUT_MODE i) = 1) (single : h.get DEV_MODE_MODE ≠ 6) : let h' := h.outPulse i n
    (h'.out i).pulse = true ∧ (h'.out i).pulseEnd = near250 (h.out i).nextAt + max 1 (h.get (TOUT_WIDTH i)) * 4 * nsU
    ∧ h'.get (TOUT_ARMED i) = 0 ∧ OnlyRegs [TOUT_ARMED i] h h' := by
  dsimp only
  rw [Hub.outPulse_once n armed mode, Hub.out, Hub.off_time, ← Hub.out, Hub.pulseAt_out _ single]
  exact ⟨rfl, rfl, Hub.get_off_same _ _, onlyRegs_off (by simp) fun f _ => Hub.pulseAt_get _ _ _ f⟩

theorem Hub.outPulse_periodic_outcome (mode : h.get (TOUT_MODE i) = 2) (single : h.get DEV_MODE_MODE ≠ 6) : let h' := h.outPulse i n
    (h'.out i).pulse = true ∧ (h'.out i).pulseEnd = near250 (h.out i).nextAt + max 1 (h.get (TOUT_WIDTH i)) * 4 * nsU
    ∧ (h'.out i).nextAt = (h.out i).nextAt + h.outPeriod i ∧ OnlyRegs [] h h' := by
  have period : (h.pulseAt i (h.out i).nextAt).outPeriod i = h.outPeriod i := by
    unfold Hub.outPeriod
    rw [Hub.pulseAt_get, Hub.pulseAt_get, Hub.pulseAt_get]
  dsimp only
  rw [Hub.outPulse_periodic n armed mode, Hub.setOut_out_same, Hub.pulseAt_out _ single, period]
  exact ⟨rfl, rfl, rfl, fun f _ => (Hub.setOut_get _ _ _ f).trans (Hub.pulseAt_get _ _ _ f)⟩

end pulse

theorem Hub.outPulseEnd_high {h : Hub} {i : Nat} (high : (h.out i).pulse = true) : h.outPulseEnd i
    = (h.upTo (h.out i).pulseEnd).setOut i { (h.upTo (h.out i).pulseEnd).out i with pulse := false } := if_pos high

theorem Hub.outPulseEnd_outcome {h : Hub} {i : Nat} (high : (h.out i).pulse = true) : let h' := h.outPulseEnd i
    (h'.out i).pulse = false ∧ (h.out i).pulseEnd ≤ h'.time.now ∧ OnlyRegs [] h h' := by
  dsimp only
  rw [Hub.outPulseEnd_high high, Hub.setOut_out_same]
  exact ⟨rfl, Nat.le_max_right _ _, fun f _ => (Hub.setOut_get _ _ _ f).trans (Hub.upTo_get _ _ f)⟩

/-- Settles O17: an edge of PPS_IN by direction and ARM, PPS_OUT at the next whole second, the TIME_OUT pins by mode. -/
theorem timePins : Obligations.TimePins := by
  refine ⟨fun s up => ?_, fun s p up => ?_⟩
  · dsimp only
    refine ⟨fun r t on_ edge => ⟨fun unarmed => ?_, fun armed idle => ?_⟩, fun r t why => ?_, ?_, fun armed => ?_, fun on_ other => ?_, fun on_ used => ?_, fun on_ runs => ?_, fun high => ?_⟩
    · exact gives_onHub (exec_ppsInEdge up r t) ((Hub.ppsEdge_chosen t on_ edge).trans (if_neg (by simp [unarmed])))
    · exact gives_onHub (exec_ppsInEdge up r t) (Hub.ppsEdge_tod on_ edge armed idle)
    · exact gives_onHub (exec_ppsInEdge up r t) (Hub.ppsEdge_other t why)
    · exact gives_onHub (exec_todArm up) rfl
    · exact leads_onHub (exec_todMissed up) (Hub.todMissed_outcome armed)
    · exact gives_onHub (exec_ppsInLost up) ((Hub.ppsLost_enabled on_).trans (if_neg other))
    · exact gives_onHub (exec_ppsInLost up) ((Hub.ppsLost_enabled on_).trans (if_pos used))
    · exact leads_onHub (exec_ppsOutPulse up) (Hub.ppsPulse_outcome on_ runs)
    · exact leads_onHub (exec_ppsOutPulseEnd up) (Hub.ppsPulseEnd_outcome high)
  · dsimp only
    refine ⟨fun mode => ⟨fun ahead => ?_, fun late => ?_⟩, fun mode => ⟨fun narrow low high => ?_, fun bad => ?_⟩, fun mode => ?_, ?_, fun n armed mode single => ?_,
      fun n armed mode single => ?_, fun n off => ?_, fun high => ?_⟩
    · exact gives_onHub (exec_timeOutArm up p) ((Hub.outArm_once mode).trans (if_neg (Nat.not_lt.2 ahead)))
    · exact gives_onHub (exec_timeOutArm up p) ((Hub.outArm_once mode).trans (if_pos late))
    · exact leads_onHub (exec_timeOutArm up p) (Hub.outArm_periodic_outcome mode narrow low high)
    · exact gives_onHub (exec_timeOutArm up p) ((Hub.outArm_periodic mode).trans (if_pos bad))
    · exact leads_onHub (exec_timeOutArm up p) (Hub.outArm_grid_outcome p.isLt mode)
    · exact gives_onHub (exec_timeOutDisarm up p) rfl
    · exact leads_onHub (exec_timeOutPulse up p n) (Hub.outPulse_once_outcome n armed mode single)
    · exact leads_onHub (exec_timeOutPulse up p n) (Hub.outPulse_periodic_outcome n armed mode single)
    · exact gives_onHub (exec_timeOutPulse up p n) (Hub.outPulse_off n off)
    · exact leads_onHub (exec_timeOutPulseEnd up p) (Hub.outPulseEnd_outcome high)

end Sys2Proof.Machine
end

section
/-! SUPPORT. Trigger units: commands, events and decisions (R183 to R185, R187, R190, R191). -/

namespace Sys2Proof.Machine

theorem exec_trgArm {s : State} (a : s.alone) (t : Fin 32) : exec (.trgArm t) s = .next (s.onHub fun h => h.trgArm t) := exec_hubWr_alone a rfl

theorem exec_trgDisarm {s : State} (a : s.alone) (t : Fin 32) : exec (.trgDisarm t) s = .next (s.onHub fun h => h.trgDisarm t) := exec_hubWr_alone a rfl

theorem exec_force {s : State} (a : s.alone) (t : Fin 32) : exec (.force t) s = .next (s.onHub fun h => h.trgForce t) := exec_hubWr_alone a rfl

theorem exec_autoTimeout {s : State} (up : s.up) (t : Fin 32) : exec (.autoTimeout t) s = .next (s.onHub fun h => h.autoTimeout t) := exec_whenUp_up up rfl

theorem exec_rearmEnd {s : State} (up : s.up) (t : Fin 32) : exec (.rearmEnd t) s = .next (s.onHub fun h => h.rearmEnd t) := exec_whenUp_up up rfl

theorem exec_trgCntClr {s : State} (a : s.alone) (t : Fin 32) : exec (.trgCntClr t) s = .next (s.onHub fun h => h.trgCntClr t) := exec_hubWr_alone a rfl

theorem exec_acqCntClr {s : State} (a : s.alone) : exec .acqCntClr s = .next (s.onHub Hub.acqCntClr) := exec_hubWr_alone a rfl

theorem exec_trigOutPulseEnd {s : State} (up : s.up) (i : Fin 4) : exec (.trigOutPulseEnd i) s = .next (s.onHub fun h => h.trigOutEnd i) := exec_whenUp_up up rfl

theorem exec_armAll {s : State} (a : s.alone) : exec .armAll s = .next (s.onHub Hub.armAll) := exec_hubWr_alone a rfl

theorem exec_disarmAll {s : State} (a : s.alone) : exec .disarmAll s = .next (s.onHub Hub.disarmAll) := exec_hubWr_alone a rfl

/-! ## One unit -/

section unit
variable {h : Hub} {t : Nat}

theorem Hub.trgArm_off (mode : h.get (TRG_MODE t) = 0) : h.trgArm t = h.on (TRG_WERR t) := if_pos mode

/-- What ARM does to a unit whose MODE is not 0. -/
def Hub.armUnit (h : Hub) (t : Nat) : Hub :=
  if h.uState t = 0 then
    (h.setUnit t { h.unit t with prev := none, lo := false, hi := false, inside := none, disarm := false, autoAt := some h.time.now }).set (TRG_STATE t)
      (if h.get (TRG_FILL t) < h.get (TRG_PRE t) then 1 else 2)
  else h

theorem Hub.trgArm_on (mode : h.get (TRG_MODE t) ≠ 0) : h.trgArm t = h.armUnit t := if_neg mode

theorem Hub.trgDisarm_waiting (st : h.uState t = 1 ∨ h.uState t = 2) : h.trgDisarm t = (h.set (TRG_STATE t) 0).setUnit t { h.unit t with autoAt := none } := if_pos st

theorem Hub.trgDisarm_recording (st : h.uState t = 3 ∨ h.uState t = 4) : h.trgDisarm t = h.setUnit t { h.unit t with disarm := true } :=
  (if_neg (show ¬(h.uState t = 1 ∨ h.uState t = 2) by omega)).trans (if_pos st)

theorem Hub.trgDisarm_other (waiting : ¬(h.uState t = 1 ∨ h.uState t = 2)) (recording : ¬(h.uState t = 3 ∨ h.uState t = 4)) : h.trgDisarm t = h :=
  (if_neg waiting).trans (if_neg recording)

theorem Hub.trgForce_disarmed (st : h.uState t = 0) : h.trgForce t = h.on (TRG_WERR t) := if_pos st

theorem Hub.trgForce_armed (st : h.uState t ≠ 0) : h.trgForce t = h.trigger t { time := h.time.now, source := 8, origin := h.route } := if_neg st

theorem Hub.autoTimeout_due {a : Nat} (begun : (h.unit t).autoAt = some a) (mode : h.get (TRG_MODE t) = 3) (st : h.uState t = 1 ∨ h.uState t = 2) :
    let T := a + max 1 (h.get (TRG_AUTO_TIMEOUT t)) * msU
    h.autoTimeout t = ((h.upTo T).setUnit t { h.unit t with autoAt := none }).trigger t
      { time := T, source := h.get (TRG_SOURCE t), forced := true, group := h.groupOf t (h.get (TRG_SOURCE t)), origin := h.route } := by
  unfold Hub.autoTimeout
  rw [begun]
  exact if_pos ⟨mode, st⟩

theorem Hub.rearmEnd_rearm (st : h.uState t = 4) : h.rearmEnd t = if (h.unit t).disarm ∨ h.get (TRG_MODE t) = 1
    then (h.set (TRG_STATE t) 0).setUnit t { h.unit t with disarm := false }
    else (h.set (TRG_STATE t) 2).setUnit t { h.unit t with autoAt := some h.time.now } := if_pos st

theorem Hub.trigOutEnd_some {i e : Nat} (pulse : aFind h.acq.pulses i = some e) : h.trigOutEnd i = (h.upTo e).setAcq { h.acq with pulses := aErase h.acq.pulses i } := by
  unfold Hub.trigOutEnd
  rw [pulse]

end unit

/-! ## All units (R191) -/

/-- An operation over a list that acts on what `p` shows once, at `t`, has done `q` to it where the list holds `t`. -/
theorem Hub.each_once {α : Type} (p : Hub → α) (q : α → α) (f : Hub → Nat → Hub) (t : Nat) (l : List Nat) (nodup : l.Nodup)
    (here : ∀ g, p (f g t) = q (p g)) (other : ∀ g n, n ≠ t → p (f g n) = p g) (h : Hub) : p (h.each l f) = if t ∈ l then q (p h) else p h := by
  induction l generalizing h with
  | nil => rfl
  | cons a l ih =>
    obtain ⟨fresh, nodup⟩ := List.nodup_cons.1 nodup
    show p ((f h a).each l f) = _
    rw [ih nodup]
    by_cases first : a = t
    · subst first
      rw [if_neg fresh, if_pos List.mem_cons_self, here]
    · have mem : t ∈ a :: l ↔ t ∈ l := by simp [Ne.symm first]
      rw [other h a first]
      simp only [mem]

theorem Hub.each_congr {f g : Hub → Nat → Hub} (ok : Hub → Nat → Prop) (l : List Nat) (h : Hub) (same : ∀ h n, ok h n → f h n = g h n)
    (keeps : ∀ h n m, ok h m → ok (g h n) m) (all : ∀ n ∈ l, ok h n) : h.each l f = h.each l g := by
  induction l generalizing h with
  | nil => rfl
  | cons a l ih =>
    show (f h a).each l f = (g h a).each l g
    rw [same h a (all a List.mem_cons_self)]
    exact ih _ fun n mem => keeps h a n (all n (List.mem_cons_of_mem _ mem))

theorem trgState_ne {t n : Nat} (ne : n ≠ t) : (TRG_STATE t).key ≠ (TRG_STATE n).key := by
  simp only [Field.key, TRG_STATE]
  omega

theorem trgMode_ne_state (t n : Nat) : (TRG_MODE t).key ≠ (TRG_STATE n).key := by
  simp only [Field.key, TRG_MODE, TRG_STATE]
  omega

theorem Hub.armUnit_get_ne (h : Hub) (n : Nat) {f : Field} (k : f.key ≠ (TRG_STATE n).key) : (h.armUnit n).get f = h.get f := by
  unfold Hub.armUnit
  split
  · rw [Hub.get_set_ne _ _ _ _ k, Hub.setUnit_get]
  · rfl

theorem Hub.armAll_eq (h : Hub) : h.armAll = h.each ((List.range 32).filter fun t => h.get (TRG_MODE t) != 0) Hub.armUnit := by
  refine Hub.each_congr (fun g n => g.get (TRG_MODE n) ≠ 0) _ _ (fun g n mode => Hub.trgArm_on mode) (fun g n m mode => ?_) fun n mem => ?_
  · rw [Hub.armUnit_get_ne _ _ (trgMode_ne_state m n)]
    exact mode
  · simpa using (List.mem_filter.1 mem).2

/-- What ARM looks at and changes of a unit: its state, FILL and PRE. -/
def Hub.armSeen (h : Hub) (t : Nat) : Nat × Nat × Nat := (h.uState t, h.get (TRG_FILL t), h.get (TRG_PRE t))

/-- The state ARM leads to. -/
def armStep (x : Nat × Nat × Nat) : Nat × Nat × Nat := (if x.1 = 0 then (if x.2.1 < x.2.2 then 1 else 2) else x.1, x.2)

theorem Hub.armUnit_seen (h : Hub) (t : Nat) : (h.armUnit t).armSeen t = armStep (h.armSeen t) := by
  have fill : (h.armUnit t).get (TRG_FILL t) = h.get (TRG_FILL t) := h.armUnit_get_ne t (by simp only [Field.key, TRG_FILL, TRG_STATE]; omega)
  have pre : (h.armUnit t).get (TRG_PRE t) = h.get (TRG_PRE t) := h.armUnit_get_ne t (by simp only [Field.key, TRG_PRE, TRG_STATE]; omega)
  have state : (h.armUnit t).uState t = if h.uState t = 0 then (if h.get (TRG_FILL t) < h.get (TRG_PRE t) then 1 else 2) else h.uState t := by
    unfold Hub.armUnit
    split
    · refine (Hub.get_set_same _ _ _).trans ?_
      split <;> rfl
    · rfl
  rw [Hub.armSeen, fill, pre, state]
  rfl

theorem Hub.armUnit_seen_ne (h : Hub) {t n : Nat} (ne : n ≠ t) : (h.armUnit n).armSeen t = h.armSeen t := by
  rw [Hub.armSeen, Hub.uState, h.armUnit_get_ne n (trgState_ne ne), h.armUnit_get_ne n (by simp only [Field.key, TRG_FILL, TRG_STATE]; omega),
    h.armUnit_get_ne n (by simp only [Field.key, TRG_PRE, TRG_STATE]; omega)]
  rfl

theorem Hub.armAll_state (h : Hub) {t : Nat} (lt : t < 32) : h.armAll.uState t
    = if h.get (TRG_MODE t) ≠ 0 ∧ h.uState t = 0 then (if h.get (TRG_FILL t) < h.get (TRG_PRE t) then 1 else 2) else h.uState t := by
  have seen := Hub.each_once (fun g => g.armSeen t) armStep Hub.armUnit t ((List.range 32).filter fun t => h.get (TRG_MODE t) != 0) (List.nodup_range.filter _)
    (fun g => g.armUnit_seen t) (fun g n ne => g.armUnit_seen_ne ne) h
  rw [← Hub.armAll_eq] at seen
  have state := congrArg Prod.fst seen
  refine state.trans ?_
  by_cases mode : h.get (TRG_MODE t) = 0
  · simp [mode, Hub.armSeen]
  · have mem : t ∈ (List.range 32).filter fun t => h.get (TRG_MODE t) != 0 := by simp [mode, lt]
    rw [if_pos mem]
    by_cases st : h.uState t = 0
    · rw [if_pos ⟨mode, st⟩]
      exact if_pos st
    · rw [if_neg fun k => st k.2]
      exact if_neg st

/-- What DISARM looks at and changes of a unit. -/
def Hub.disarmSeen (h : Hub) (t : Nat) : Nat × Bool := (h.uState t, (h.unit t).disarm)

theorem Hub.disarmSeen_state (h : Hub) (t : Nat) : (h.disarmSeen t).1 = h.uState t := rfl

theorem Hub.disarmSeen_mark (h : Hub) (t : Nat) : (h.disarmSeen t).2 = (h.unit t).disarm := rfl

/-- The state DISARM leads to, at once or at the end of the record. -/
def disarmStep (x : Nat × Bool) : Nat × Bool := if x.1 = 1 ∨ x.1 = 2 then (0, x.2) else if x.1 = 3 ∨ x.1 = 4 then (x.1, true) else x

theorem Hub.set_unit (h : Hub) (f : Field) (v n : Nat) : (h.set f v).unit n = h.unit n := by rw [Hub.unit, Hub.set_acq, ← Hub.unit]

theorem Hub.trgDisarm_seen (h : Hub) (t : Nat) : (h.trgDisarm t).disarmSeen t = disarmStep (h.disarmSeen t) := by
  by_cases waiting : h.uState t = 1 ∨ h.uState t = 2
  · rw [Hub.trgDisarm_waiting waiting, Hub.disarmSeen, Hub.setUnit_unit_same, Hub.uState, Hub.setUnit_get, disarmStep,
      if_pos (show (h.disarmSeen t).1 = 1 ∨ (h.disarmSeen t).1 = 2 from waiting)]
    exact congrArg (fun v => (v, (h.unit t).disarm)) (Hub.get_set_same _ _ _)
  · rw [disarmStep, if_neg (show ¬((h.disarmSeen t).1 = 1 ∨ (h.disarmSeen t).1 = 2) from waiting)]
    by_cases recording : h.uState t = 3 ∨ h.uState t = 4
    · rw [Hub.trgDisarm_recording recording, Hub.disarmSeen, Hub.setUnit_unit_same, Hub.uState, Hub.setUnit_get,
        if_pos (show (h.disarmSeen t).1 = 3 ∨ (h.disarmSeen t).1 = 4 from recording)]
      rfl
    · rw [Hub.trgDisarm_other waiting recording, if_neg (show ¬((h.disarmSeen t).1 = 3 ∨ (h.disarmSeen t).1 = 4) from recording)]

theorem Hub.trgDisarm_get_ne (h : Hub) (n : Nat) {f : Field} (k : f.key ≠ (TRG_STATE n).key) : (h.trgDisarm n).get f = h.get f := by
  unfold Hub.trgDisarm
  dsimp only
  split
  · rw [Hub.setUnit_get, Hub.get_set_ne _ _ _ _ k]
  · split
    · exact Hub.setUnit_get _ _ _ _
    · rfl

theorem Hub.trgDisarm_unit_ne (h : Hub) {n t : Nat} (ne : n ≠ t) : (h.trgDisarm n).unit t = h.unit t := by
  unfold Hub.trgDisarm
  dsimp only
  split
  · rw [Hub.setUnit_unit_ne _ _ _ _ ne.symm, Hub.set_unit]
  · split
    · exact Hub.setUnit_unit_ne _ _ _ _ ne.symm
    · rfl

theorem Hub.disarmAll_seen (h : Hub) {t : Nat} (lt : t < 32) : h.disarmAll.disarmSeen t = disarmStep (h.disarmSeen t) := by
  refine (Hub.each_once (fun g => g.disarmSeen t) disarmStep Hub.trgDisarm t (List.range 32) List.nodup_range (fun g => g.trgDisarm_seen t) (fun g n ne => ?_) h).trans
    (if_pos (List.mem_range.2 lt))
  rw [Hub.disarmSeen, Hub.uState, g.trgDisarm_get_ne n (trgState_ne ne), g.trgDisarm_unit_ne ne]
  rfl

theorem Hub.disarmAll_waiting (h : Hub) {t : Nat} (lt : t < 32) (st : h.uState t = 1 ∨ h.uState t = 2) : h.disarmAll.uState t = 0 := by
  have seen := h.disarmAll_seen lt
  rw [disarmStep, if_pos (show (h.disarmSeen t).1 = 1 ∨ (h.disarmSeen t).1 = 2 from st)] at seen
  rw [← Hub.disarmSeen_state, seen]

theorem Hub.disarmAll_recording (h : Hub) {t : Nat} (lt : t < 32) (st : h.uState t = 3 ∨ h.uState t = 4) :
    h.disarmAll.uState t = h.uState t ∧ (h.disarmAll.unit t).disarm = true := by
  have seen := h.disarmAll_seen lt
  have waiting : ¬((h.disarmSeen t).1 = 1 ∨ (h.disarmSeen t).1 = 2) := show ¬(h.uState t = 1 ∨ h.uState t = 2) by omega
  rw [disarmStep, if_neg waiting, if_pos (show (h.disarmSeen t).1 = 3 ∨ (h.disarmSeen t).1 = 4 from st)] at seen
  rw [← Hub.disarmSeen_state, ← Hub.disarmSeen_mark, seen]
  exact ⟨rfl, rfl⟩

/-- An operation over units that changes only the state of each changes only states. -/
theorem Hub.each_onlyStates {f : Hub → Nat → Hub} (h : Hub) (l : List Nat) (sub : ∀ n ∈ l, n < 32)
    (frame : ∀ g n (x : Field), x.key ≠ (TRG_STATE n).key → (f g n).get x = g.get x) : OnlyRegs ((List.range 32).map TRG_STATE) h (h.each l f) := by
  intro x k
  refine Hub.each_keeps (fun g => g.get x) f l h fun g n mem => frame g n x fun same => k ?_
  rw [same]
  exact List.mem_map_of_mem (List.mem_map_of_mem (List.mem_range.2 (sub n mem)))

/-! ## A decision (R184, R185) -/

theorem Hub.bump_unit (h : Hub) (c s : Field) (t : Nat) : (h.bump c s).unit t = h.unit t := by rw [Hub.unit, Hub.bump_acq, ← Hub.unit]

section miss
variable (h : Hub) (t T : Nat)

/-- A miss with an instant already held. -/
def Hub.missAgain (h : Hub) (t : Nat) : Hub :=
  (h.bump (TRG_MISSED t) (TRG_SAT t)).setUnit t { (h.bump (TRG_MISSED t) (TRG_SAT t)).unit t with
    since := min (2 ^ 32 - 1) (((h.bump (TRG_MISSED t) (TRG_SAT t)).unit t).since + 1) }

/-- The first miss, whose instant is held. -/
def Hub.missFirst (h : Hub) (t T : Nat) : Hub :=
  (((h.bump (TRG_MISSED t) (TRG_SAT t)).rsChange (0x50038 + 0x80 * t) (TRG_OVR t)).setUnit t { (h.bump (TRG_MISSED t) (TRG_SAT t)).unit t with
    since := min (2 ^ 32 - 1) (((h.bump (TRG_MISSED t) (TRG_SAT t)).unit t).since + 1), held := some T }).on (TRG_MISS_HELD t)

theorem Hub.miss_eq : h.miss t T = if h.bit (TRG_MISS_HELD t) then h.missAgain t else h.missFirst t T := by
  have held : (h.bump (TRG_MISSED t) (TRG_SAT t)).bit (TRG_MISS_HELD t) = h.bit (TRG_MISS_HELD t) := by
    rw [Hub.bit_eq, Hub.bit_eq, Hub.bump_get_ne _ _ _ _ (by simp only [Field.key, TRG_MISS_HELD, TRG_MISSED]; omega)
      (by simp only [Field.key, TRG_MISS_HELD, TRG_SAT]; omega)]
  rw [← held]
  rfl

theorem Hub.bump_missed : (h.bump (TRG_MISSED t) (TRG_SAT t)).get (TRG_MISSED t) = min (h.get (TRG_MISSED t) + 1) (TRG_MISSED t).top :=
  Hub.bump_get _ _ _ (by simp only [ne_eq, Field.key, TRG_MISSED, TRG_SAT]; omega)

theorem Hub.missAgain_outcome : (h.missAgain t).get (TRG_MISSED t) = min (h.get (TRG_MISSED t) + 1) (TRG_MISSED t).top
    ∧ ((h.missAgain t).unit t).held = (h.unit t).held := by
  rw [Hub.missAgain, Hub.setUnit_get, Hub.setUnit_unit_same, Hub.bump_missed, Hub.bump_unit]
  exact ⟨rfl, rfl⟩

theorem Hub.missFirst_outcome : (h.missFirst t T).get (TRG_MISSED t) = min (h.get (TRG_MISSED t) + 1) (TRG_MISSED t).top
    ∧ (h.missFirst t T).get (TRG_MISS_HELD t) = 1 ∧ ((h.missFirst t T).unit t).held = some T := by
  refine ⟨?_, Hub.get_on_same _ _ (Nat.succ_pos 0), ?_⟩
  · rw [Hub.missFirst, Hub.get_on_ne _ _ _ (by simp only [Field.key, TRG_MISSED, TRG_MISS_HELD]; omega), Hub.setUnit_get,
      Hub.rsChange_get_ne _ _ _ (by simp only [Field.key, TRG_MISSED, TRG_OVR]; omega), Hub.bump_missed]
  · rw [Hub.missFirst, Hub.unit, Hub.on_acq, ← Hub.unit, Hub.setUnit_unit_same]

/-- A missed trigger is counted, and the first instant is held. -/
theorem Hub.miss_outcome : (h.miss t T).get (TRG_MISSED t) = min (h.get (TRG_MISSED t) + 1) (TRG_MISSED t).top
    ∧ (h.get (TRG_MISS_HELD t) = 0 → (h.miss t T).get (TRG_MISS_HELD t) = 1 ∧ ((h.miss t T).unit t).held = some T)
    ∧ (h.get (TRG_MISS_HELD t) = 1 → ((h.miss t T).unit t).held = (h.unit t).held) := by
  rw [Hub.miss_eq]
  by_cases held : h.get (TRG_MISS_HELD t) = 1
  · rw [if_pos (Hub.bit_of_one held)]
    exact ⟨(h.missAgain_outcome t).1, fun none => absurd held (by omega), fun _ => (h.missAgain_outcome t).2⟩
  · rw [if_neg (by simp [Hub.bit_of_ne held])]
    exact ⟨(h.missFirst_outcome t T).1, fun _ => (h.missFirst_outcome t T).2, fun one => absurd one held⟩

end miss

section decision
variable {h : Hub} {t : Nat} {run : StreamRun} {g : Trig}

/-- The oldest row of a stream's ring. -/
def StreamRun.oldestRow (run : StreamRun) : Nat := max run.first (run.ring.head?.elim run.next (·.1))

variable (on_ : h.unitRun t = some run)
include on_

theorem Hub.decide1_eq : h.decide1 t g = if h.uState t = 3 ∨ h.uState t = 4 then h.miss t g.time else if h.uState t = 0 then h
    else if firstIndexAt run.epoch run.p run.q g.time < run.oldestRow then h.bump (TRG_LATE t) (TRG_SAT t)
    else if firstIndexAt run.epoch run.p run.q g.time < run.oldestRow + h.get (TRG_PRE t) then
      (if h.bit (TRG_PRE_STRICT t) then h.bump (TRG_PRE_IGNORED t) (TRG_SAT t)
        else h.accept t run g (firstIndexAt run.epoch run.p run.q g.time) run.oldestRow true)
    else h.accept t run g (firstIndexAt run.epoch run.p run.q g.time) (firstIndexAt run.epoch run.p run.q g.time - h.get (TRG_PRE t)) false := by
  unfold Hub.decide1 StreamRun.oldestRow
  rw [on_]
  dsimp only
  cases run.ring.head? <;> rfl

theorem Hub.decide1_disarmed (st : h.uState t = 0) : h.decide1 t g = h := (Hub.decide1_eq on_).trans ((if_neg (by omega)).trans (if_pos st))

theorem Hub.decide1_busy (st : h.uState t = 3 ∨ h.uState t = 4) : h.decide1 t g = h.miss t g.time := (Hub.decide1_eq on_).trans (if_pos st)

theorem Hub.decide1_ready (st : h.uState t = 1 ∨ h.uState t = 2) : h.decide1 t g
    = if firstIndexAt run.epoch run.p run.q g.time < run.oldestRow then h.bump (TRG_LATE t) (TRG_SAT t)
      else if firstIndexAt run.epoch run.p run.q g.time < run.oldestRow + h.get (TRG_PRE t) then
        (if h.bit (TRG_PRE_STRICT t) then h.bump (TRG_PRE_IGNORED t) (TRG_SAT t)
          else h.accept t run g (firstIndexAt run.epoch run.p run.q g.time) run.oldestRow true)
      else h.accept t run g (firstIndexAt run.epoch run.p run.q g.time) (firstIndexAt run.epoch run.p run.q g.time - h.get (TRG_PRE t)) false :=
  (Hub.decide1_eq on_).trans ((if_neg (by omega)).trans (if_neg (by omega)))

theorem Hub.decide1_inside (st : h.uState t = 1 ∨ h.uState t = 2) (old : run.oldestRow ≤ firstIndexAt run.epoch run.p run.q g.time)
    (short : firstIndexAt run.epoch run.p run.q g.time < run.oldestRow + h.get (TRG_PRE t)) : h.decide1 t g
    = if h.bit (TRG_PRE_STRICT t) then h.bump (TRG_PRE_IGNORED t) (TRG_SAT t)
      else h.accept t run g (firstIndexAt run.epoch run.p run.q g.time) run.oldestRow true :=
  (Hub.decide1_ready on_ st).trans ((if_neg (Nat.not_lt.2 old)).trans (if_pos short))

theorem Hub.decide1_whole (st : h.uState t = 1 ∨ h.uState t = 2) (whole : run.oldestRow + h.get (TRG_PRE t) ≤ firstIndexAt run.epoch run.p run.q g.time) :
    h.decide1 t g = h.accept t run g (firstIndexAt run.epoch run.p run.q g.time) (firstIndexAt run.epoch run.p run.q g.time - h.get (TRG_PRE t)) false :=
  (Hub.decide1_ready on_ st).trans ((if_neg (by omega)).trans (if_neg (by omega)))

end decision

/-- Settles O27: each command and event by the unit's state, all units by the rule for one, a decision by the indices the ring holds. -/
theorem triggerUnits : Obligations.TriggerUnits := by
  refine ⟨fun s t alone => ?_, fun s alone => ?_, fun h t run g lt on_ => ?_⟩
  · have up := alone.1
    dsimp only
    refine ⟨fun mode => ?_, fun mode => ⟨fun st => ?_, fun st => ?_⟩, fun st => ⟨?_, ?_⟩, fun st => ?_, fun st => ?_, fun st => ?_, fun a begun mode st => ?_,
      fun st => ⟨fun why => ?_, fun stay mode => ?_⟩, ?_, ?_, fun i e pulse => ?_⟩
    · exact gives_onHub (exec_trgArm alone t) (Hub.trgArm_off mode)
    · exact gives_onHub (exec_trgArm alone t) ((Hub.trgArm_on mode).trans (if_neg st))
    · exact gives_onHub (exec_trgArm alone t) ((Hub.trgArm_on mode).trans (if_pos st))
    · exact gives_onHub (exec_trgDisarm alone t) (Hub.trgDisarm_other (by omega) (by omega))
    · exact gives_onHub (exec_force alone t) (Hub.trgForce_disarmed st)
    · exact gives_onHub (exec_trgDisarm alone t) (Hub.trgDisarm_waiting st)
    · exact gives_onHub (exec_trgDisarm alone t) (Hub.trgDisarm_recording st)
    · exact gives_onHub (exec_force alone t) (Hub.trgForce_armed st)
    · exact gives_onHub (exec_autoTimeout up t) (Hub.autoTimeout_due begun mode st)
    · exact gives_onHub (exec_rearmEnd up t) ((Hub.rearmEnd_rearm st).trans (if_pos why))
    · exact gives_onHub (exec_rearmEnd up t) ((Hub.rearmEnd_rearm st).trans (if_neg fun why => why.elim (by simp [stay]) mode))
    · exact gives_onHub (exec_trgCntClr alone t) rfl
    · exact gives_onHub (exec_acqCntClr alone) rfl
    · exact gives_onHub (exec_trigOutPulseEnd up i) (Hub.trigOutEnd_some pulse)
  · dsimp only
    refine ⟨leads_onHub (exec_armAll alone) ⟨fun t lt mode st => ?_, fun t lt why => ?_, ?_⟩, leads_onHub (exec_disarmAll alone) ⟨fun t lt st => ?_, fun t lt st => ?_, ?_⟩⟩
    · exact (Hub.armAll_state _ lt).trans (if_pos ⟨mode, st⟩)
    · exact (Hub.armAll_state _ lt).trans (if_neg (by omega))
    · rw [Hub.armAll_eq]
      exact Hub.each_onlyStates _ _ (fun n mem => List.mem_range.1 (List.mem_filter.1 mem).1) fun g n x k => g.armUnit_get_ne n k
    · exact (Hub.disarmAll_waiting _ lt st)
    · exact Hub.disarmAll_recording _ lt st
    · exact Hub.each_onlyStates _ _ (fun n mem => List.mem_range.1 mem) fun g n x k => g.trgDisarm_get_ne n k
  · dsimp only
    generalize row : max run.first _ = o
    obtain rfl : run.oldestRow = o := by
      rw [← row, StreamRun.oldestRow]
      cases run.ring.head? <;> rfl
    refine ⟨fun st => Hub.decide1_disarmed on_ st, fun st => ?_, fun st => ⟨fun late => ?_, fun old short strict => ?_, fun old short loose => ?_, fun whole => ?_⟩⟩
    · rw [Hub.decide1_busy on_ st]
      exact h.miss_outcome t g.time
    · exact (Hub.decide1_ready on_ st).trans (if_pos late)
    · exact (Hub.decide1_inside on_ st old short).trans (if_pos (Hub.bit_of_one strict))
    · exact (Hub.decide1_inside on_ st old short).trans (if_neg (by simp [Hub.bit_of_zero loose]))
    · exact Hub.decide1_whole on_ st whole

end Sys2Proof.Machine
end

section
/-! SUPPORT. Housekeeping conversions (R107, R108, R112, R113, R115, R116, R119). -/

namespace Sys2Proof.Machine

theorem exec_scanStart {s : State} (up : s.up) : exec .scanStart s = .next (s.onHub Hub.scanStart) :=
  exec_hubWr_up (a := 0x2000) (v := fun _ => 4) up (by decide) rfl

theorem exec_scanTimer {s : State} (up : s.up) : exec .scanTimer s = .next (s.onHub Hub.scanTimer) := exec_whenUp_up up rfl

theorem exec_scanStop {s : State} (up : s.up) : exec .scanStop s = .next (s.onHub Hub.scanStop) :=
  exec_hubWr_up (a := 0x2000) (v := fun _ => 8) up (by decide) rfl

theorem exec_hkSettleEnd {s : State} (up : s.up) : exec .hkSettleEnd s = .next (s.onHub Hub.hkSettleEnd) := exec_whenUp_up up rfl

theorem exec_hkConversionDone {s : State} (up : s.up) (raw : BitVec 16) : exec (.hkConversionDone raw) s = .next (s.onHub fun h => h.hkDone raw.toNat) :=
  exec_whenUp_up up rfl

theorem exec_injGo {s : State} (up : s.up) (j : Fin 4) : exec (.injGo j) s = .next (s.onHub fun h => h.injGo j) :=
  exec_hubWr_up (a := 0x2100 + 0x20 * j.val) (v := fun _ => 2 ^ 14) up (by revert j; decide) rfl

theorem exec_hkCntClr {s : State} (up : s.up) : exec .hkCntClr s = .next (s.onHub Hub.hkCntClr) :=
  exec_hubWr_up (a := 0x2010) (v := fun _ => 64) up (by decide) rfl

theorem exec_modulatorValid {s : State} (up : s.up) (b : Fin 12) : exec (.modulatorValid b) s = .next (s.onHub fun h => h.modulatorValid b) := exec_whenUp_up up rfl

/-! ## The regular scan (R107, R108) -/

section scan
variable {h : Hub}

/-- The inputs that the mask selects, lowest first. -/
def Hub.scanInputs (h : Hub) : List Nat :=
  (List.range 48).filter fun i => (h.get HK_SCAN_MASK_LO + 2 ^ 32 * h.get HK_SCAN_MASK_HI) / 2 ^ i % 2 == 1

/-- A scan begun. -/
def Hub.scanBegun (h : Hub) : Hub := (h.on HK_STAT_SCAN_BUSY).setHk { h.hk with scan := h.scanInputs, settleUs := h.get HK_CTL_SETTLE_US }

theorem Hub.scanGo_skipped (busy : h.get HK_STAT_SCAN_BUSY = 1 ∨ h.get HK_CAL_STATE ≠ 0) : h.scanGo = h.bump HK_SCAN_SKIP HK_STAT_SAT :=
  if_pos (busy.imp_left Hub.bit_of_one)

theorem Hub.hkFree_of_idle (conv : h.hk.conv = .idle) : h.hkFree = true := by
  unfold Hub.hkFree
  rw [conv]

theorem Hub.scanGo_started (free : h.get HK_STAT_SCAN_BUSY = 0) (cal : h.get HK_CAL_STATE = 0) (conv : h.hk.conv = .idle) : h.scanGo = h.scanBegun.hkServe := by
  refine (if_neg ?_).trans (if_pos (Hub.hkFree_of_idle (h := h.scanBegun) conv))
  rintro (busy | calibrating)
  · simp [Hub.bit_of_zero free] at busy
  · exact calibrating cal

theorem Hub.scanStart_on (mode : h.get HK_CTL_SCAN_MODE = 1) : h.scanStart = h.scanGo := if_pos mode

theorem Hub.scanStart_off (mode : h.get HK_CTL_SCAN_MODE ≠ 1) : h.scanStart = h := if_neg mode

/-- The hub as its scan timer elapses at `t`. -/
def Hub.scanTimed (h : Hub) (t : Nat) : Hub := (h.upTo t).setHk { h.hk with timerAt := some (t + max 1 (h.get HK_SCAN_PERIOD) * usU) }

theorem Hub.scanTimed_get (h : Hub) (t : Nat) (f : Field) : (h.scanTimed t).get f = h.get f := by rw [Hub.scanTimed, Hub.get_setHk, Hub.upTo_get]

theorem Hub.scanTimer_due {t : Nat} (mode : h.get HK_CTL_SCAN_MODE = 2) (timer : h.hk.timerAt = some t) : h.scanTimer = (h.scanTimed t).scanGo := by
  unfold Hub.scanTimer
  rw [timer]
  exact if_pos mode

theorem Hub.scanTimed_inputs (h : Hub) (t : Nat) : (h.scanTimed t).scanInputs = h.scanInputs := by
  rw [Hub.scanInputs, Hub.scanTimed_get, Hub.scanTimed_get]
  rfl

theorem Hub.scanStop_regular {i : Nat} (busy : h.get HK_STAT_SCAN_BUSY = 1) (conv : h.hk.conv = .regular i) :
    h.scanStop = (h.on HK_STAT_SCAN_ABORT).setHk { h.hk with scan := [i] } := by
  refine (if_pos (Hub.bit_of_one busy)).trans ?_
  simp only [Hub.on_hk, conv]

theorem Hub.hkSettleEnd_reads {i : Nat} (conv : h.hk.conv = .settle i) (wait : h.get HK_CTL_WAIT_READ = 0) :
    h.hkSettleEnd = (h.upTo (h.hk.convAt + h.hk.settleUs * usU)).hkConvert i := by
  have open_ : (h.upTo (h.hk.convAt + h.hk.settleUs * usU)).bit HK_CTL_WAIT_READ = false := Hub.bit_of_zero (h := h.upTo _) wait
  unfold Hub.hkSettleEnd
  rw [conv]
  dsimp only
  rw [open_]
  exact if_neg Bool.false_ne_true

end scan

/-! ## What the converter does next -/

theorem Hub.scanAbandon_keeps (h : Hub) : h.scanAbandon.hk.data = h.hk.data ∧ h.scanAbandon.hk.seq = h.hk.seq ∧ h.scanAbandon.time = h.time := by
  unfold Hub.scanAbandon
  split
  · exact ⟨rfl, rfl, rfl⟩
  · exact ⟨rfl, rfl, rfl⟩

theorem Hub.scanAbandon_get_ne (h : Hub) {f : Field} (abort : f.key ≠ HK_STAT_SCAN_ABORT.key) (busy : f.key ≠ HK_STAT_SCAN_BUSY.key) :
    h.scanAbandon.get f = h.get f := by
  unfold Hub.scanAbandon
  split
  · rw [Hub.get_setHk, Hub.get_off_ne _ _ _ busy, Hub.get_on_ne _ _ _ abort]
  · rfl

/-- What the converter turns to next, once a scan that calibration ends is abandoned. -/
def Hub.hkNext (h : Hub) : Hub :=
  h.injNext.elim
    (if h.get HK_CAL_STATE = 1 then h.setHk { h.hk with conv := .idle }
      else if h.get HK_CAL_STATE ≠ 0 then h.setHk { h.hk with conv := if h.hk.calEnding.isSome then .idle else .cal }
      else h.hk.scan.head?.elim ((h.off HK_STAT_SCAN_BUSY).setHk { h.hk with conv := .idle }) fun i => h.setHk { h.hk with conv := .settle i, convAt := h.time.now })
    fun j => (h.off (INJ_PENDING j)).setHk { h.hk with conv := .inject j, convAt := h.time.now }

theorem Hub.hkServe_eq (h : Hub) : h.hkServe = (h.off HK_STAT_WAIT_STALL).scanAbandon.hkNext := by
  unfold Hub.hkServe Hub.hkNext
  dsimp only
  cases (h.off HK_STAT_WAIT_STALL).scanAbandon.injNext with
  | some j => rfl
  | none => cases (h.off HK_STAT_WAIT_STALL).scanAbandon.hk.scan <;> rfl

theorem Hub.hkNext_keeps (h : Hub) : h.hkNext.hk.data = h.hk.data ∧ h.hkNext.hk.seq = h.hk.seq ∧ h.hkNext.time = h.time := by
  unfold Hub.hkNext
  cases h.injNext with
  | some j => exact ⟨rfl, rfl, rfl⟩
  | none =>
    dsimp only [Option.elim_none]
    split
    · exact ⟨rfl, rfl, rfl⟩
    · split
      · exact ⟨rfl, rfl, rfl⟩
      · cases h.hk.scan <;> exact ⟨rfl, rfl, rfl⟩

theorem Hub.hkNext_get_ne (h : Hub) {f : Field} (busy : f.key ≠ HK_STAT_SCAN_BUSY.key) (pending : ∀ j < 4, f.key ≠ (INJ_PENDING j).key) : h.hkNext.get f = h.get f := by
  unfold Hub.hkNext
  cases next : h.injNext with
  | some j =>
    have lt : j < 4 := List.mem_range.1 (List.mem_of_find?_eq_some next)
    exact (Hub.get_setHk _ _ _).trans (Hub.get_off_ne _ _ _ (pending j lt))
  | none =>
    dsimp only [Option.elim_none]
    split
    · exact Hub.get_setHk _ _ _
    · split
      · exact Hub.get_setHk _ _ _
      · cases h.hk.scan with
        | nil => exact (Hub.get_setHk _ _ _).trans (Hub.get_off_ne _ _ _ busy)
        | cons i l => exact Hub.get_setHk _ _ _

/-- The converter's next step leaves the result, its number and the time. -/
theorem Hub.hkServe_keeps (h : Hub) : h.hkServe.hk.data = h.hk.data ∧ h.hkServe.hk.seq = h.hk.seq ∧ h.hkServe.time = h.time := by
  obtain ⟨data, seq, time⟩ := (h.off HK_STAT_WAIT_STALL).scanAbandon.hkNext_keeps
  obtain ⟨data', seq', time'⟩ := (h.off HK_STAT_WAIT_STALL).scanAbandon_keeps
  rw [Hub.hkServe_eq]
  exact ⟨data.trans data', seq.trans seq', time.trans time'⟩

theorem Hub.hkServe_get_ne (h : Hub) {f : Field} (k : f.key ∉ [HK_STAT_WAIT_STALL, HK_STAT_SCAN_ABORT, HK_STAT_SCAN_BUSY].map Field.key)
    (pending : ∀ j < 4, f.key ≠ (INJ_PENDING j).key) : h.hkServe.get f = h.get f := by
  simp only [List.map_cons, List.map_nil, List.mem_cons, List.not_mem_nil, or_false, not_or] at k
  obtain ⟨stall, abort, busy⟩ := k
  rw [Hub.hkServe_eq, Hub.hkNext_get_ne _ busy pending, Hub.scanAbandon_get_ne _ abort busy, Hub.get_off_ne _ _ _ stall]

/-! ## A result (R112, R113) -/

section done
variable {h : Hub} {i raw : Nat}

/-- The registers as a result overwrites an unread one. -/
def Hub.hkOverwrites (h : Hub) : Hub := if unreadRes h.hk.data then (h.on HK_STAT_OVR).bump HK_LOST HK_STAT_SAT else h

theorem Hub.hkOverwrites_keeps (h : Hub) : h.hkOverwrites.hk = h.hk ∧ h.hkOverwrites.time = h.time := by
  unfold Hub.hkOverwrites
  split
  · rw [Hub.bump_hk, Hub.bump_time]
    exact ⟨rfl, rfl⟩
  · exact ⟨rfl, rfl⟩

theorem Hub.rsChange_hk (h : Hub) (a : Nat) (ovr : Field) : (h.rsChange a ovr).hk = h.hk := by
  unfold Hub.rsChange
  split <;> rfl

/-- The hub with the result of input `i` in HK_DATA. -/
def Hub.hkStored (h : Hub) (i raw : Nat) : Hub :=
  let g := (h.upTo (h.hk.convAt + usU)).hkOverwrites.rsChange 0x2020 HK_STAT_OVR
  g.draw.setHk { g.hk with
    data := some { code := hkCorrect h.hk.inForce h.free i raw, input := i, seq := g.hk.seq, time := h.hk.convAt + 250 * nsU }
    seq := (g.hk.seq + 1) % 256, scan := g.hk.scan.tail }

/-- A regular conversion of an input that is no temperature. -/
theorem Hub.hkDone_regular (conv : h.hk.conv = .regular i) (plain : i < 20 ∨ 31 < i) : h.hkDone raw = (h.hkStored i raw).hkServe := by
  have later : (h.upTo (h.hk.convAt + usU)).hk.conv = .regular i := conv
  have copies (g : Hub) (code : Nat) : g.tempCopy i code = g := if_neg (by omega)
  unfold Hub.hkDone
  dsimp only
  rw [conv]
  dsimp only
  rw [later]
  dsimp only
  rw [copies]
  rfl

theorem Hub.hkStored_hk (h : Hub) (i raw : Nat) : (h.hkStored i raw).hk.seq = (h.hk.seq + 1) % 256
    ∧ (h.hkStored i raw).hk.data = some { code := hkCorrect h.hk.inForce h.free i raw, input := i, seq := h.hk.seq, time := h.hk.convAt + 250 * nsU } := by
  have kept : ((h.upTo (h.hk.convAt + usU)).hkOverwrites.rsChange 0x2020 HK_STAT_OVR).hk = h.hk := by
    rw [Hub.rsChange_hk, (Hub.hkOverwrites_keeps _).1]
    rfl
  rw [Hub.hkStored, Hub.setHk_hk, kept]
  exact ⟨rfl, rfl⟩

theorem Hub.hkStored_now (h : Hub) (i raw : Nat) : (h.hkStored i raw).time.now = max h.time.now (h.hk.convAt + usU) := by
  have kept : ((h.upTo (h.hk.convAt + usU)).hkOverwrites.rsChange 0x2020 HK_STAT_OVR).time = (h.upTo (h.hk.convAt + usU)).time := by
    rw [Hub.rsChange_time, (Hub.hkOverwrites_keeps _).2]
  rw [Hub.hkStored, Hub.setHk_time]
  exact congrArg (fun t => t.now) kept

theorem Hub.hkStored_ovr (h : Hub) (i raw : Nat) (unread : unreadRes h.hk.data = true) : (h.hkStored i raw).get HK_STAT_OVR = 1 := by
  have noted : (h.upTo (h.hk.convAt + usU)).hkOverwrites.get HK_STAT_OVR = 1 := by
    rw [Hub.hkOverwrites, if_pos (show unreadRes (h.upTo (h.hk.convAt + usU)).hk.data = true from unread), Hub.bump_get_ne _ _ _ _ (by decide) (by decide)]
    exact Hub.get_on_same _ _ (by decide)
  rw [Hub.hkStored, Hub.get_setHk]
  show ((h.upTo (h.hk.convAt + usU)).hkOverwrites.rsChange 0x2020 HK_STAT_OVR).get HK_STAT_OVR = 1
  unfold Hub.rsChange
  split
  · exact Hub.get_on_same _ _ (by decide)
  · exact noted

theorem Hub.hkStored_lost (h : Hub) (i raw : Nat) :
    (h.hkStored i raw).get HK_LOST = if unreadRes h.hk.data then min (h.get HK_LOST + 1) HK_LOST.top else h.get HK_LOST := by
  rw [Hub.hkStored, Hub.get_setHk]
  show ((h.upTo (h.hk.convAt + usU)).hkOverwrites.rsChange 0x2020 HK_STAT_OVR).get HK_LOST = _
  rw [Hub.rsChange_get_ne _ _ _ (by decide)]
  by_cases unread : unreadRes h.hk.data = true
  · rw [Hub.hkOverwrites, if_pos (show unreadRes (h.upTo (h.hk.convAt + usU)).hk.data = true from unread), if_pos unread, Hub.bump_get _ _ _ (by decide),
      Hub.get_on_ne _ _ _ (by decide), Hub.upTo_get]
  · rw [Hub.hkOverwrites, if_neg (show ¬unreadRes (h.upTo (h.hk.convAt + usU)).hk.data = true from unread), if_neg unread, Hub.upTo_get]

theorem Hub.hkDone_outcome (conv : h.hk.conv = .regular i) (plain : i < 20 ∨ 31 < i) : let h' := h.hkDone raw
    h'.hk.data = some { code := hkCorrect h.hk.inForce h.free i raw, input := i, seq := h.hk.seq, time := h.hk.convAt + 250 * nsU }
    ∧ h'.hk.seq = (h.hk.seq + 1) % 256 ∧ h'.time.now = max h.time.now (h.hk.convAt + usU)
    ∧ (unreadRes h.hk.data = true → h'.get HK_STAT_OVR = 1 ∧ h'.get HK_LOST = min (h.get HK_LOST + 1) HK_LOST.top)
    ∧ (unreadRes h.hk.data = false → h'.get HK_LOST = h.get HK_LOST) := by
  obtain ⟨data, seq, time⟩ := (h.hkStored i raw).hkServe_keeps
  obtain ⟨seq', data'⟩ := h.hkStored_hk i raw
  dsimp only
  rw [Hub.hkDone_regular conv plain, data, seq, time, seq', data', h.hkStored_now, Hub.hkServe_get_ne _ (by decide) (by decide),
    Hub.hkServe_get_ne _ (by decide) (by decide), h.hkStored_lost]
  refine ⟨rfl, rfl, rfl, fun unread => ⟨h.hkStored_ovr i raw unread, if_pos unread⟩, fun read => if_neg (by simp [read])⟩

end done

/-! ## Injected conversions (R115, R116) -/

section inject
variable {h : Hub} {j : Nat}

theorem Hub.injGo_core : h.injGo 3 = (h.on (INJ_WERR 3)).on HK_STAT_WERR := rfl

theorem Hub.injGo_host (host : j ≠ 3) (src : h.get (INJ_SRC j) = 0) : h.injGo j = h.injRequest j := (if_neg host).trans (if_pos src)

theorem Hub.calState_ne_iff (h : Hub) : h.calState ≠ 0 ↔ h.get HK_CAL_STATE ≠ 0 ∧ h.hk.calEnding = none := by
  unfold Hub.calState
  split
  next ended => exact ⟨fun cal => ⟨cal, ended⟩, fun k => k.1⟩
  next open_ => exact ⟨fun k => absurd rfl k, fun k => absurd k.2 open_⟩

variable (enabled : h.get (INJ_ENABLE j) = 1)
include enabled

theorem Hub.injRequest_missed (waits : h.get (INJ_PENDING j) = 1) : h.injRequest j = (h.on (INJ_MISS j)).bump HK_INJ_MISS HK_STAT_SAT :=
  (if_neg (by simp [Hub.bit_of_one enabled])).trans (if_pos (.inl (Hub.bit_of_one waits)))

variable (none : h.get (INJ_PENDING j) = 0) (unheld : h.get (INJ_HELD j) = 0)
include none unheld

theorem Hub.injRequest_free : h.injRequest j = if h.get HK_CAL_STATE ≠ 0 ∧ h.hk.calEnding = Option.none then h.on (INJ_HELD j)
    else if (h.on (INJ_PENDING j)).hkFree then (h.on (INJ_PENDING j)).hkServe else h.on (INJ_PENDING j) :=
  (if_neg (by simp [Hub.bit_of_one enabled])).trans (if_neg (by simp [Hub.bit_of_zero none, Hub.bit_of_zero unheld]))

theorem Hub.injRequest_held (cal : h.calState ≠ 0) : h.injRequest j = h.on (INJ_HELD j) :=
  (Hub.injRequest_free enabled none unheld).trans (if_pos (h.calState_ne_iff.1 cal))

theorem Hub.injRequest_taken (cal : h.calState = 0) : h.injRequest j
    = if (h.on (INJ_PENDING j)).hkFree then (h.on (INJ_PENDING j)).hkServe else h.on (INJ_PENDING j) :=
  (Hub.injRequest_free enabled none unheld).trans (if_neg fun k => h.calState_ne_iff.2 k cal)

theorem Hub.injRequest_waits (cal : h.calState = 0) {i : Nat} (conv : h.hk.conv = .regular i) : h.injRequest j = h.on (INJ_PENDING j) := by
  have busy : (h.on (INJ_PENDING j)).hkFree = false := by
    unfold Hub.hkFree
    rw [Hub.on_hk, conv]
  refine (Hub.injRequest_taken enabled none unheld cal).trans (if_neg ?_)
  rw [busy]
  decide

theorem Hub.injRequest_served (cal : h.calState = 0) (conv : h.hk.conv = .idle) : h.injRequest j = (h.on (INJ_PENDING j)).hkServe :=
  (Hub.injRequest_taken enabled none unheld cal).trans (if_pos (Hub.hkFree_of_idle (by rw [Hub.on_hk, conv])))

end inject

theorem Hub.modulatorValid_first {h : Hub} {b : Nat} (bank : h.get CLK_BANK_ON / 2 ^ b % 2 = 1) (new : h.pwr.modValid.contains b = false) (locked : h.modLocked = true) :
    h.modulatorValid b = ((h.upTo (aGet h.pwr.bankAt b 0 + 100 * usU)).setPwr { h.pwr with modValid := b :: h.pwr.modValid }).set CLK_MOD_LOCK 1 := by
  have shown : b2n h.modLocked = 1 := by rw [locked]; rfl
  rw [← shown]
  exact if_pos (by rw [bank, new]; rfl)

/-- Settles O24: the scan by what runs, its conversions one by one, an injected request by the converter and calibration. -/
theorem housekeeping : Obligations.Housekeeping := by
  intro s up
  dsimp only
  refine ⟨fun busy => ⟨fun mode => ?_, fun t mode timer => ?_⟩, fun free cal conv => ⟨fun mode => ?_, fun t mode timer => ?_⟩, fun mode => ?_, fun i busy conv => ?_,
    fun i conv wait => ?_, fun i raw conv plain => ?_, fun j host src enabled => ⟨fun waits => ?_, fun none unheld cal => ?_, fun none unheld cal i conv => ?_,
      fun none unheld cal conv => ?_⟩, ?_, ?_, fun b bank new locked => ?_⟩
  · exact gives_onHub (exec_scanStart up) ((Hub.scanStart_on mode).trans (Hub.scanGo_skipped busy))
  · refine gives_onHub (exec_scanTimer up) ((Hub.scanTimer_due mode timer).trans (Hub.scanGo_skipped ?_))
    rw [Hub.scanTimed_get, Hub.scanTimed_get]
    exact busy
  · exact gives_onHub (exec_scanStart up) ((Hub.scanStart_on mode).trans (Hub.scanGo_started free cal conv))
  · refine gives_onHub (exec_scanTimer up) ((Hub.scanTimer_due mode timer).trans ?_)
    rw [Hub.scanGo_started ((Hub.scanTimed_get _ _ _).trans free) ((Hub.scanTimed_get _ _ _).trans cal) conv, Hub.scanBegun, Hub.scanTimed_inputs, Hub.scanTimed_get]
    rfl
  · exact gives_onHub (exec_scanStart up) (Hub.scanStart_off mode)
  · exact gives_onHub (exec_scanStop up) (Hub.scanStop_regular busy conv)
  · refine leads_onHub (exec_hkSettleEnd up) ?_
    rw [Hub.hkSettleEnd_reads conv wait]
    exact ⟨rfl, rfl, rfl, onlyRegs_of_regs (Hub.setHk_regs _ _) (onlyRegs_off (by decide) (onlyRegs_of_regs (Hub.upTo_regs _ _) (onlyRegs_refl _ _)))⟩
  · exact leads_onHub (exec_hkConversionDone up raw) (Hub.hkDone_outcome conv plain)
  · exact gives_onHub (exec_injGo up j) ((Hub.injGo_host host src).trans (Hub.injRequest_missed enabled waits))
  · exact gives_onHub (exec_injGo up j) ((Hub.injGo_host host src).trans (Hub.injRequest_held enabled none unheld cal))
  · exact gives_onHub (exec_injGo up j) ((Hub.injGo_host host src).trans (Hub.injRequest_waits enabled none unheld cal conv))
  · exact gives_onHub (exec_injGo up j) ((Hub.injGo_host host src).trans (Hub.injRequest_served enabled none unheld cal conv))
  · exact gives_onHub (exec_injGo up 3) Hub.injGo_core
  · exact gives_onHub (exec_hkCntClr up) rfl
  · exact gives_onHub (exec_modulatorValid up b) (Hub.modulatorValid_first bank new locked)

end Sys2Proof.Machine
end

section
/-! SUPPORT. Marks, excitation changes and the registers of an excitation cell (R82, R89, R97). -/

namespace Sys2Proof.Machine

/-! ## What the marks and the excitation changes of a channel leave of it -/

/-- A channel apart from its marks, its excitation history and its last restart: its settings in force, its drivers and its fold-back. -/
def Chan.apart (c : Chan) : Chan :=
  { c with
    spans := [], exHist := [], settleEnd := 0, restartAt := 0, n0 := 0, settledAt := 0, dcWrites := [], dcK0 := 0, dcFrozen0 := false }

section fields
variable {c d : Chan}

theorem Chan.shed_of_apart (e : c.apart = d.apart) : c.shed = d.shed := (congrArg Chan.shed e :)

theorem Chan.driving_of_apart (e : c.apart = d.apart) : c.driving = d.driving := (congrArg Chan.driving e :)

theorem Chan.exMode_of_apart (e : c.apart = d.apart) : c.exMode = d.exMode := (congrArg Chan.exMode e :)

theorem Chan.retryEnd_of_apart (e : c.apart = d.apart) : c.retryEnd = d.retryEnd := (congrArg Chan.retryEnd e :)

theorem Chan.foldAt_of_apart (e : c.apart = d.apart) : c.foldAt = d.foldAt := (congrArg Chan.foldAt e :)

end fields

section apart
variable (h : Hub) (n m : Nat)

theorem Hub.set_chan (f : Field) (v : Nat) : (h.set f v).chan m = h.chan m := rfl

theorem Hub.on_chan (f : Field) : (h.on f).chan m = h.chan m := rfl

theorem Hub.off_chan (f : Field) : (h.off f).chan m = h.chan m := rfl

theorem Hub.bump_chan (c s : Field) : (h.bump c s).chan m = h.chan m := by
  rw [Hub.chan, bump_chans, ← Hub.chan]

theorem Hub.setChan_apart {c : Chan} (same : c.apart = (h.chan n).apart) : ((h.setChan n c).chan m).apart = (h.chan m).apart := by
  by_cases e : m = n
  · rw [e, Hub.setChan_chan_same, same]
  · rw [Hub.setChan_chan_ne _ _ _ _ e]

theorem Hub.mark_apart (f : Flag) (lo hi : Nat) : ((h.mark n f lo hi).chan m).apart = (h.chan m).apart := h.setChan_apart n m rfl

theorem Hub.markFrom_apart (f : Flag) (lo : Nat) : ((h.markFrom n f lo).chan m).apart = (h.chan m).apart := h.setChan_apart n m rfl

theorem Hub.markEnd_apart (f : Flag) (hi : Nat) : ((h.markEnd n f hi).chan m).apart = (h.chan m).apart := h.setChan_apart n m rfl

theorem Hub.noteExc_apart (t : Nat) : ((h.noteExc n t).chan m).apart = (h.chan m).apart := h.setChan_apart n m rfl

theorem Hub.disturb_apart (lo dur : Nat) : ((h.disturb n lo dur).chan m).apart = (h.chan m).apart := by
  rw [Hub.disturb, Hub.setChan_apart, Hub.mark_apart]
  rfl

theorem Hub.complianceOff_apart : ((h.complianceOff n).chan m).apart = (h.chan m).apart := by
  unfold Hub.complianceOff
  split
  · rfl
  · rw [Hub.off_chan]

theorem Hub.restartChain_apart (t cause : Nat) : ((h.restartChain n t cause).chan m).apart = (h.chan m).apart := by
  unfold Hub.restartChain
  dsimp only
  split
  · rfl
  · split <;> exact (congrArg Chan.apart (Hub.bump_chan _ m _ _)).trans (h.setChan_apart n m rfl)

end apart

/-! ## The flags of an excitation cell -/

/-- The registers of an excitation cell show a fault. -/
def Hub.excFault (h : Hub) (n : Nat) : Bool := h.bit (CH_EXCS_FOLDED n) || (!h.pwr.vexcOk && (h.chan n).exMode != 0)

section excf
variable (h : Hub) (n : Nat)

/-- The hub with EXCF and its reason shown, before the marks. -/
def Hub.excfShown (h : Hub) (n : Nat) : Hub :=
  (h.set (CH_EXCS_EXCF n) (b2n ((h.chan n).shed || h.excFault n))).set (CH_EXCS_REASON n)
    (if (h.chan n).shed then 2 else if h.excFault n then 1 else 0)

/-- Showing EXCF adds an open mark, ends the open ones, or leaves the marks. -/
theorem Hub.showExcf_marks : h.showExcf n = (h.excfShown n).markFrom n .excf h.time.now ∨ h.showExcf n = (h.excfShown n).markEnd n .excf h.time.now
    ∨ h.showExcf n = h.excfShown n := by
  unfold Hub.showExcf
  dsimp only
  split
  · exact .inl rfl
  · split
    · exact .inr (.inl rfl)
    · exact .inr (.inr rfl)

theorem Hub.showExcf_regs : (h.showExcf n).regs = (h.excfShown n).regs := by
  rcases h.showExcf_marks n with e | e | e <;> rw [e] <;> rfl

theorem Hub.showExcf_get (f : Field) : (h.showExcf n).get f = (h.excfShown n).get f := Hub.get_of_regs _ _ (h.showExcf_regs n) f

theorem Hub.showExcf_apart (m : Nat) : ((h.showExcf n).chan m).apart = (h.chan m).apart := by
  rcases h.showExcf_marks n with e | e | e <;> rw [e]
  · exact Hub.markFrom_apart _ n m _ _
  · exact Hub.markEnd_apart _ n m _ _
  · rfl

/-- What showing EXCF keeps besides registers and marks. -/
theorem Hub.showExcf_keeps : (h.showExcf n).pwr = h.pwr ∧ (h.showExcf n).time = h.time ∧ (h.showExcf n).exc = h.exc := by
  rcases h.showExcf_marks n with e | e | e <;> rw [e] <;> exact ⟨rfl, rfl, rfl⟩

theorem Hub.showExcf_only : OnlyRegs [CH_EXCS_EXCF n, CH_EXCS_REASON n] h (h.showExcf n) :=
  onlyRegs_of_regs (h.showExcf_regs n) (onlyRegs_set _ (by simp) (onlyRegs_set _ (by simp) (onlyRegs_refl _ h)))

theorem Hub.showExcf_excf : (h.showExcf n).get (CH_EXCS_EXCF n) = b2n ((h.chan n).shed || h.excFault n) := by
  rw [Hub.showExcf_get, Hub.excfShown, Hub.get_set_ne _ _ _ _ (by simp [Field.key, CH_EXCS_EXCF, CH_EXCS_REASON])]
  refine (Hub.get_set_same _ _ _).trans (Nat.mod_eq_of_lt ?_)
  exact Nat.lt_of_le_of_lt (b2n_le _) (Nat.lt_succ_self 1)

theorem Hub.showExcf_reason : (h.showExcf n).get (CH_EXCS_REASON n) = if (h.chan n).shed then 2 else if h.excFault n then 1 else 0 := by
  rw [Hub.showExcf_get]
  refine (Hub.get_set_same _ _ _).trans (Nat.mod_eq_of_lt ?_)
  show _ < 4
  split
  · decide
  · split <;> decide

theorem Hub.complianceOff_only : OnlyRegs [CH_EXCS_COMPLIANCE n] h (h.complianceOff n) := by
  unfold Hub.complianceOff
  split
  · exact onlyRegs_refl _ h
  · exact onlyRegs_off (by simp) (onlyRegs_refl _ h)

theorem Hub.complianceOff_keeps : (h.complianceOff n).pwr = h.pwr ∧ (h.complianceOff n).time = h.time ∧ (h.complianceOff n).exc = h.exc := by
  unfold Hub.complianceOff
  split <;> exact ⟨rfl, rfl, rfl⟩

/-- A disturbance marks its span SETTLE. -/
theorem Hub.disturb_marks (lo dur : Nat) : (⟨.settle, lo, some (lo + dur)⟩ : Span) ∈ ((h.disturb n lo dur).chan n).spans := by
  rw [Hub.disturb, Hub.setChan_chan_same]
  show _ ∈ ((h.mark n .settle lo (lo + dur)).chan n).spans
  rw [Hub.mark, Hub.setChan_chan_same]
  exact List.mem_cons_self

end excf

/-! ## An excitation change -/

section drive
variable (h : Hub) (n t d : Nat)

/-- The channel as the drivers take its settings. -/
def Hub.drivenChan (h : Hub) (n : Nat) : Chan :=
  { h.chan n with
    driving := (h.chan n).exMode != 0 && h.mayDrive, demMode := (h.chan n).exMode, demP := (h.chan n).carP, demQ := (h.chan n).carQ }

theorem Hub.drive_eq : h.drive n t d = ((((h.setChan n (h.drivenChan n)).noteExc n t).disturb n t d).complianceOff n).showExcf n := rfl

theorem Hub.drive_apart : ((h.drive n t d).chan n).apart = (h.drivenChan n).apart := by
  rw [Hub.drive_eq, Hub.showExcf_apart, Hub.complianceOff_apart, Hub.disturb_apart, Hub.noteExc_apart, Hub.setChan_chan_same]

theorem Hub.drive_only : OnlyRegs [CH_EXCS_COMPLIANCE n, CH_EXCS_EXCF n, CH_EXCS_REASON n] h (h.drive n t d) :=
  onlyRegs_trans (onlyRegs_mono (by simp) (onlyRegs_of_regs rfl ((((h.setChan n (h.drivenChan n)).noteExc n t).disturb n t d).complianceOff_only n)))
    (onlyRegs_mono (by simp) (Hub.showExcf_only _ n))

theorem Hub.drive_keeps : (h.drive n t d).pwr = h.pwr ∧ (h.drive n t d).time = h.time ∧ (h.drive n t d).exc = h.exc := by
  obtain ⟨cp, ct, ce⟩ := (((h.setChan n (h.drivenChan n)).noteExc n t).disturb n t d).complianceOff_keeps n
  obtain ⟨sp, st, se⟩ := ((((h.setChan n (h.drivenChan n)).noteExc n t).disturb n t d).complianceOff n).showExcf_keeps n
  exact ⟨sp.trans cp, st.trans ct, se.trans ce⟩

theorem Hub.excite_apart : ((h.excite n t).chan n).apart = (h.drivenChan n).apart := by
  unfold Hub.excite
  dsimp only
  split
  · rw [Hub.restartChain_apart, Hub.drive_apart]
  · rw [Hub.drive_apart]

end drive

/-! ## Events to the partner -/

theorem Hub.sendCtrl_chans (h : Hub) (k : Nat) (c : Ctrl) : (h.sendCtrl k c).chans = h.chans := by
  unfold Hub.sendCtrl
  split <;> rfl

theorem Hub.dupEvent_chans (h : Hub) (k : EventKind) (i v : Nat) : (h.dupEvent k i v).chans = h.chans := by
  unfold Hub.dupEvent Hub.dupSend
  split
  · exact Hub.sendCtrl_chans _ _ _
  · rfl

end Sys2Proof.Machine
end
section
/-! OBLIGATION O22. Excitation by the host (R82, R89, R92 to R94, R96). -/

namespace Sys2Proof.Machine

theorem exec_apply {s : State} (a : s.alone) (n : Fin 192) : exec (.apply n) s = .next (s.onHub fun h => h.apply n) := exec_hostCh_alone a rfl

theorem exec_restore {s : State} (a : s.alone) (n : Fin 192) : exec (.restore n) s = .next (s.onHub fun h => h.restore n) := exec_hostCh_alone a rfl

theorem exec_excBudgetWrite {s : State} (a : s.alone) (v : BitVec 12) :
    exec (.excBudgetWrite v) s = .next (s.onHub fun h => h.budgetWrite v.toNat) := exec_hubWr_alone a rfl

/-! ## APPLY (R82, R89) -/

section apply
variable {h : Hub} {n : Nat}

/-- The channel with the excitation registers in force. -/
def Hub.applied (h : Hub) (n : Nat) : Chan :=
  { h.chan n with
    exMode := h.get (CH_EXC_MODE n), exLevel := h.get (CH_EXC_LEVEL n), carP := h.get (CH_CARRIER_P n), carQ := h.get (CH_CARRIER_Q n) }

/-- The hub with the excitation registers in force and the static demand they give. -/
def Hub.appliedHub (h : Hub) (n : Nat) : Hub := (h.setChan n (h.applied n)).setStatic n

theorem Hub.appliedHub_chan : (h.appliedHub n).chan n = h.applied n := Hub.setChan_chan_same h n _

theorem Hub.appliedHub_level : (h.appliedHub n).get (CH_EXC_LEVEL n) = h.get (CH_EXC_LEVEL n) := by
  refine (Hub.get_set_ne _ _ _ _ ?_).trans (Hub.get_set_ne _ _ _ _ ?_) <;>
    · simp only [ne_eq, Field.key, CH_EXC_LEVEL, CH_EXC_STATIC_UW, EXC_STATIC_UW]
      omega

/-- The settings in force are those applied. -/
def Hub.appliedBefore (h : Hub) (n : Nat) : Bool :=
  (h.chan n).exMode == h.get (CH_EXC_MODE n) && (h.get (CH_EXC_MODE n) == 0 || (h.chan n).exLevel == (h.appliedHub n).get (CH_EXC_LEVEL n))
    && !(h.appliedHub n).carrierChanged n

theorem Hub.apply_refused (r : h.applyRefused n = true) : h.apply n = h.on (CH_EXCS_WERR n) := if_pos r

theorem Hub.apply_taken (r : h.applyRefused n = false) :
    h.apply n = if (h.chan n).shed ∨ h.appliedBefore n then h.appliedHub n else (h.appliedHub n).excite n (h.appliedHub n).time.now := by
  unfold Hub.apply
  rw [if_neg (ne_true_of_eq_false r)]
  rfl

theorem Hub.apply_shed (r : h.applyRefused n = false) (shed : (h.chan n).shed = true) : h.apply n = h.appliedHub n :=
  (Hub.apply_taken r).trans (if_pos (.inl shed))

theorem Hub.apply_before (r : h.applyRefused n = false) (carrier : (h.appliedHub n).carrierChanged n = false)
    (mode : (h.chan n).exMode = h.get (CH_EXC_MODE n)) (level : h.get (CH_EXC_MODE n) = 0 ∨ (h.chan n).exLevel = h.get (CH_EXC_LEVEL n)) :
    h.apply n = h.appliedHub n := by
  refine (Hub.apply_taken r).trans (if_pos (.inr ?_))
  simp only [Hub.appliedBefore, Hub.appliedHub_level, Bool.and_eq_true, Bool.or_eq_true, beq_iff_eq, Bool.not_eq_true']
  exact ⟨⟨mode, level⟩, carrier⟩

theorem Hub.apply_excites (r : h.applyRefused n = false) (shed : (h.chan n).shed = false) (new : h.appliedBefore n = false) :
    h.apply n = (h.appliedHub n).excite n h.time.now := (Hub.apply_taken r).trans (if_neg (by simp [shed, new]))

theorem Hub.apply_drives (r : h.applyRefused n = false) (shed : (h.chan n).shed = false) (carrier : (h.appliedHub n).carrierChanged n = false)
    (new : (h.chan n).exMode ≠ h.get (CH_EXC_MODE n) ∨ (h.get (CH_EXC_MODE n) ≠ 0 ∧ (h.chan n).exLevel ≠ h.get (CH_EXC_LEVEL n))) :
    h.apply n = (h.appliedHub n).drive n h.time.now
      ((h.appliedHub n).startSettle n (h.get (CH_EXC_MODE n)) (h.get (CH_CARRIER_P n)) (h.get (CH_CARRIER_Q n))) := by
  have changed : h.appliedBefore n = false := by
    rw [Hub.appliedBefore, Hub.appliedHub_level, Bool.and_eq_false_iff, Bool.and_eq_false_iff, Bool.or_eq_false_iff]
    refine .inl ?_
    rcases new with mode | ⟨on_, level⟩
    · exact .inl (beq_false_of_ne mode)
    · exact .inr ⟨beq_false_of_ne on_, beq_false_of_ne level⟩
  rw [Hub.apply_excites r shed changed, Hub.excite, if_neg (by simp [carrier]), Hub.appliedHub_chan]
  rfl

theorem Hub.apply_restarts (r : h.applyRefused n = false) (shed : (h.chan n).shed = false) (carrier : (h.appliedHub n).carrierChanged n = true) :
    h.apply n = ((h.appliedHub n).drive n h.time.now ((h.appliedHub n).carrierSettle n)).restartChain n h.time.now 3 := by
  have changed : h.appliedBefore n = false := by rw [Hub.appliedBefore, carrier, Bool.not_true, Bool.and_false]
  rw [Hub.apply_excites r shed changed, Hub.excite, if_pos carrier]

end apply

/-! ## RESTORE (R92, R94) -/

section restore
variable {h : Hub} {n : Nat}

theorem Hub.showShed_chan (v : Bool) : (h.showShed n v).chan n = { h.chan n with shed := v } := Hub.setChan_chan_same h n _

theorem Hub.showShed_get_ne (v : Bool) (f : Field) (mask : f.key ≠ (BANK_SHED_MASK (n / 16)).key) (active : f.key ≠ EXC_STAT_SHED_ACTIVE.key) :
    (h.showShed n v).get f = h.get f :=
  (Hub.get_set_ne _ _ _ _ active).trans (Hub.get_set_ne _ _ _ _ mask)

/-- What a hub may drive stands in its power state and its mode. -/
theorem Hub.mayDrive_congr {g : Hub} (pwr : g.pwr = h.pwr) (mode : g.get DEV_MODE_MODE = h.get DEV_MODE_MODE) : g.mayDrive = h.mayDrive := by
  simp only [Hub.mayDrive, Hub.mode, pwr, mode]

theorem Hub.showExcf_mayDrive (h : Hub) (n : Nat) : (h.showExcf n).mayDrive = h.mayDrive := by
  refine Hub.mayDrive_congr (h.showExcf_keeps n).1 (h.showExcf_only n _ ?_)
  simp only [List.map_cons, List.map_nil, List.mem_cons, List.not_mem_nil, or_false, not_or, Field.key, DEV_MODE_MODE, CH_EXCS_EXCF, CH_EXCS_REASON]
  omega

theorem Hub.showShed_pwr (v : Bool) : (h.showShed n v).pwr = h.pwr := by
  unfold Hub.showShed
  rw [Hub.set_pwr, Hub.set_pwr, Hub.setChan_pwr]

theorem Hub.showShed_mayDrive (v : Bool) : (h.showShed n v).mayDrive = h.mayDrive := by
  refine Hub.mayDrive_congr (Hub.showShed_pwr v) (Hub.showShed_get_ne v _ ?_ (by decide))
  simp only [Field.key, DEV_MODE_MODE, BANK_SHED_MASK]
  omega

theorem Hub.restoreChan_drives :
    ((h.restoreChan n).chan n).shed = false ∧ ((h.restoreChan n).chan n).driving = ((h.chan n).exMode != 0 && h.mayDrive) := by
  have chan : (h.restoreChan n).chan n = (((h.showShed n false).showExcf n).excite n h.time.now).chan n := by
    rw [Hub.restoreChan, Hub.chan, Hub.dupEvent_chans, ← Hub.chan]
  have drives := Hub.excite_apart ((h.showShed n false).showExcf n) n h.time.now
  have shown : (((h.showShed n false).showExcf n).chan n).apart = Chan.apart { h.chan n with shed := false } := by
    rw [Hub.showExcf_apart, Hub.showShed_chan]
  refine ⟨?_, ?_⟩
  · rw [chan, Chan.shed_of_apart drives]
    exact Chan.shed_of_apart shown
  · rw [chan, Chan.driving_of_apart drives, Hub.drivenChan, Hub.showExcf_mayDrive, Hub.showShed_mayDrive, Chan.exMode_of_apart shown]

theorem Hub.restore_driven (driven : (h.chan n).shed = false) : h.restore n = h := if_pos (by simp [driven])

theorem Hub.restore_over (shed : (h.chan n).shed = true) (over_ : h.get EXC_BUDGET_MW * 1000 < h.get EXC_MEAS_UW + h.get (CH_EXC_STATIC_UW n)) :
    h.restore n = h.on (CH_EXCS_RESTORE_REFUSED n) := (if_neg (by simp [shed])).trans (if_neg (Nat.not_le.2 over_))

theorem Hub.restore_within (shed : (h.chan n).shed = true) (within : h.get EXC_MEAS_UW + h.get (CH_EXC_STATIC_UW n) ≤ h.get EXC_BUDGET_MW * 1000) :
    h.restore n = h.restoreChan n := (if_neg (by simp [shed])).trans (if_pos within)

end restore

/-- Settles O22: APPLY, RESTORE and the budget by their branches; what a restored channel drives follows from what an excitation change leaves of the
channel apart from its marks and histories. -/
theorem excitationByHost : Obligations.ExcitationByHost := by
  intro s n a
  dsimp only
  refine ⟨fun r => ?_, fun r shed => ?_, fun r carrier mode level => ?_, fun r shed carrier new => ?_, fun r shed carrier => ?_, fun driven => ?_,
    fun shed over_ => ?_, fun shed within => ?_, fun v => ?_⟩
  · exact gives_onHub (exec_apply a n) (Hub.apply_refused r)
  · exact gives_onHub (exec_apply a n) (Hub.apply_shed r shed)
  · exact gives_onHub (exec_apply a n) (Hub.apply_before r carrier mode level)
  · exact gives_onHub (exec_apply a n) (Hub.apply_drives r shed carrier new)
  · exact gives_onHub (exec_apply a n) (Hub.apply_restarts r shed carrier)
  · exact gives_onHub (exec_restore a n) (Hub.restore_driven driven)
  · exact gives_onHub (exec_restore a n) (Hub.restore_over shed over_)
  · refine leads_onHub (exec_restore a n) ?_
    rw [Hub.restore_within shed within]
    exact Hub.restoreChan_drives
  · exact gives_onHub (exec_excBudgetWrite a v) rfl

end Sys2Proof.Machine
end

section
/-! OBLIGATION O20. Host writes of the input cells and the sample chains (R68, R69, R75, R76, R134, R139, R141, R152, R446). -/

namespace Sys2Proof.Machine

theorem exec_muxWrite {s : State} (a : s.alone) (n : Fin 192) (m : Fin 4) :
    exec (.muxWrite n m) s = .next (s.onHub fun h => h.muxWrite n m) := exec_hostCh_alone a rfl

theorem exec_rangeWrite {s : State} (a : s.alone) (n : Fin 192) (v : Fin 8) :
    exec (.rangeWrite n v) s = .next (s.onHub fun h => h.rangeWrite n v) := exec_hostCh_alone a rfl

theorem exec_rangeLimitWrite {s : State} (a : s.alone) (n : Fin 192) (lo hi : Fin 8) :
    exec (.rangeLimitWrite n lo hi) s = .next (s.onHub fun h => h.rangeLimitWrite n lo hi) := exec_hostCh_alone a rfl

theorem exec_demodPhaseWrite {s : State} (a : s.alone) (n : Fin 192) (v : BitVec 16) :
    exec (.demodPhaseWrite n v) s = .next (s.onHub fun h => h.demodPhaseWrite n v.toNat) := exec_hostCh_alone a rfl

theorem exec_chainRestart {s : State} (a : s.alone) (n : Fin 192) :
    exec (.chainRestart n) s = .next (s.onHub fun h => h.chainRestart n) := exec_hostCh_alone a rfl

theorem exec_dcbKWrite {s : State} (a : s.alone) (n : Fin 192) (k : Fin 32) :
    exec (.dcbKWrite n k) s = .next (s.onHub fun h => h.dcbKWrite n k) := exec_hostCh_alone a rfl

theorem exec_dcbFreezeWrite {s : State} (a : s.alone) (n : Fin 192) (b : Bool) :
    exec (.dcbFreezeWrite n b) s = .next (s.onHub fun h => h.dcbFreezeWrite n b) := exec_hostCh_alone a rfl

theorem exec_dcbEstWrite {s : State} (a : s.alone) (n : Fin 192) (v : Word) :
    exec (.dcbEstWrite n v) s = .next (s.onHub fun h => h.dcbEstWrite n v.toNat) := exec_hostCh_alone a rfl

theorem exec_excCntClr {s : State} (a : s.alone) (n : Fin 192) : exec (.excCntClr n) s = .next (s.onHub fun h => h.excCntClr n) := exec_hostCh_alone a rfl

theorem exec_chainCntClr {s : State} (a : s.alone) (n : Fin 192) :
    exec (.chainCntClr n) s = .next (s.onHub fun h => h.chainCntClr n) := exec_hostCh_alone a rfl

theorem exec_shedClr {s : State} (a : s.alone) : exec .shedClr s = .next (s.onHub Hub.shedClr) := exec_hubWr_alone a rfl

/-! ## The marks of a channel -/

section marks
variable (h : Hub) (n : Nat) (f : Flag)

theorem Hub.mark_spans (lo hi : Nat) : ((h.mark n f lo hi).chan n).spans = ⟨f, lo, some hi⟩ :: (h.chan n).spans :=
  congrArg Chan.spans (Hub.setChan_chan_same h n _)

theorem Hub.markEnd_chan (hi : Nat) : (h.markEnd n f hi).chan n =
    { h.chan n with spans := (h.chan n).spans.map fun s => if s.flag = f ∧ s.hi = none then { s with hi := some hi } else s } :=
  Hub.setChan_chan_same h n _

/-- A span that has ended stays as it is when the open ones end. -/
theorem Hub.markEnd_ended (hi a b : Nat) (g : Flag) (mem : (⟨g, a, some b⟩ : Span) ∈ (h.chan n).spans) :
    (⟨g, a, some b⟩ : Span) ∈ ((h.markEnd n f hi).chan n).spans := by
  rw [Hub.markEnd_chan]
  refine List.mem_map.2 ⟨_, mem, if_neg ?_⟩
  exact fun e => Option.some_ne_none b e.2

theorem Hub.freshDwell_chan (t : Nat) : (h.freshDwell n t).chan n = { h.chan n with dwellEnd := t + h.dwellLen n, upWait := false } :=
  Hub.setChan_chan_same h n _

theorem Hub.markFrom_chan (lo : Nat) : (h.markFrom n f lo).chan n = { h.chan n with spans := ⟨f, lo, none⟩ :: (h.chan n).spans } :=
  Hub.setChan_chan_same h n _

end marks

/-! ## The multiplexer (R68, R69) -/

section mux
variable {h : Hub} {n m : Nat}

theorem Hub.muxWrite_suits (k : m = 3 → h.kind n ≠ 1) : h.muxWrite n m = h.muxSet n m := if_neg fun e => k e.1 e.2

theorem Hub.muxSet_same (same : h.get (CH_CFG_MUX n) = m) : h.muxSet n m = h := if_pos same

/-- The settle time of the multiplexer does not depend on its setting. -/
theorem Hub.set_mux_muxSettle (v : Nat) : (h.set (CH_CFG_MUX n) v).muxSettle n = h.muxSettle n := by
  have keeps (f : Field) (k : f.key ≠ (CH_CFG_MUX n).key) : (h.set (CH_CFG_MUX n) v).get f = h.get f := Hub.get_set_ne _ _ _ _ k
  simp only [Hub.muxSettle, Hub.transientOf, Hub.kind, Hub.rangeNow]
  rw [keeps _ (by simp [Field.key, CH_CFG_MUX, CH_CFG_MUX_SETTLE]), keeps _ (by simp [Field.key, CH_CFG_MUX, CH_CFG_KIND]),
    keeps _ (by simp only [ne_eq, Field.key, CH_CFG_MUX, CH_RANGE_RANGE_NOW]; omega)]

/-- The history of the multiplexer, with the setting of the reset where nothing was noted. -/
def Hub.muxPast (h : Hub) (n was : Nat) : List (Nat × Nat) := if (h.chan n).muxHist.isEmpty then [(0, was)] else (h.chan n).muxHist

/-- The hub with the multiplexer set and its span marked. -/
def Hub.muxMarked (h : Hub) (n m : Nat) : Hub := (h.set (CH_CFG_MUX n) m).mark n .settle h.time.now (h.time.now + h.muxSettle n)

/-- The hub with the multiplexer changed. -/
def Hub.muxMoved (h : Hub) (n m : Nat) : Hub :=
  (h.muxMarked n m).setChan n { (h.muxMarked n m).chan n with
    muxEnd := h.time.now + (h.muxMarked n m).muxSettle n, muxHist := (h.time.now, m) :: (h.muxMarked n m).muxPast n (h.get (CH_CFG_MUX n)) }

theorem Hub.muxMarked_muxSettle : (h.muxMarked n m).muxSettle n = h.muxSettle n := Hub.set_mux_muxSettle m

theorem Hub.muxMoved_muxSettle : (h.muxMoved n m).muxSettle n = h.muxSettle n := Hub.set_mux_muxSettle m

theorem Hub.muxMoved_chan : ((h.muxMoved n m).chan n).muxEnd = h.time.now + h.muxSettle n
    ∧ (⟨.settle, h.time.now, some (h.time.now + h.muxSettle n)⟩ : Span) ∈ ((h.muxMoved n m).chan n).spans := by
  rw [Hub.muxMoved, Hub.setChan_chan_same]
  refine ⟨congrArg (h.time.now + ·) Hub.muxMarked_muxSettle, ?_⟩
  show _ ∈ ((h.muxMarked n m).chan n).spans
  rw [Hub.muxMarked, Hub.mark_spans]
  exact List.mem_cons_self

/-- A change of the multiplexer also ends or opens the span of an input that is no signal. -/
theorem Hub.muxSet_moved (moved : h.get (CH_CFG_MUX n) ≠ m) : h.muxSet n m =
    if m = 0 then ((h.muxMoved n m).markEnd n .settle h.time.now).freshDwell n (h.time.now + h.muxSettle n)
    else if h.get (CH_CFG_MUX n) = 0 then (h.muxMoved n m).markFrom n .settle h.time.now else h.muxMoved n m := by
  refine (if_neg moved).trans ?_
  rw [Hub.set_mux_muxSettle]
  show (if m = 0 then ((h.muxMoved n m).markEnd n .settle h.time.now).freshDwell n (h.time.now + (h.muxMoved n m).muxSettle n) else _) = _
  rw [Hub.muxMoved_muxSettle]
  rfl

theorem Hub.muxSet_regs (moved : h.get (CH_CFG_MUX n) ≠ m) : (h.muxSet n m).regs = (h.set (CH_CFG_MUX n) m).regs := by
  rw [Hub.muxSet_moved moved]
  split
  · rfl
  · split <;> rfl

theorem Hub.muxSet_chan (moved : h.get (CH_CFG_MUX n) ≠ m) : ((h.muxSet n m).chan n).muxEnd = h.time.now + h.muxSettle n
    ∧ (⟨.settle, h.time.now, some (h.time.now + h.muxSettle n)⟩ : Span) ∈ ((h.muxSet n m).chan n).spans := by
  obtain ⟨ends, mem⟩ := Hub.muxMoved_chan (h := h) (n := n) (m := m)
  rw [Hub.muxSet_moved moved]
  split
  · have kept := (h.muxMoved n m).markEnd_ended n .settle h.time.now _ _ _ mem
    rw [Hub.freshDwell_chan]
    refine ⟨?_, kept⟩
    rw [Hub.markEnd_chan]
    exact ends
  · split
    · rw [Hub.markFrom_chan]
      exact ⟨ends, List.mem_cons_of_mem _ mem⟩
    · exact ⟨ends, mem⟩

theorem Hub.muxSet_get (moved : h.get (CH_CFG_MUX n) ≠ m) (small : m < 4) : (h.muxSet n m).get (CH_CFG_MUX n) = m :=
  (Hub.get_of_regs _ _ (Hub.muxSet_regs moved) _).trans ((Hub.get_set_same _ _ _).trans (Nat.mod_eq_of_lt small))

theorem Hub.muxSet_only (moved : h.get (CH_CFG_MUX n) ≠ m) : OnlyRegs [CH_CFG_MUX n] h (h.muxSet n m) :=
  onlyRegs_of_regs (Hub.muxSet_regs moved) (onlyRegs_set _ (by simp) (onlyRegs_refl _ h))

end mux

/-! ## The ranges (R75, R76) -/

section range
variable {h : Hub} {n r : Nat}

theorem maxCode_le (k : Nat) : maxCode k ≤ 5 := by
  unfold maxCode
  split <;> decide

theorem Hub.rangeSpan_lower (h : Hub) (n : Nat) : (h.rangeSpan n).1 < 8 :=
  Nat.lt_of_le_of_lt ((Nat.min_le_right _ _).trans (maxCode_le _)) (by decide)

theorem Hub.rangeSpan_upper (h : Hub) (n : Nat) : (h.rangeSpan n).2 < 8 :=
  Nat.lt_of_le_of_lt ((max_le (Nat.min_le_right _ _) (Nat.min_le_right _ _)).trans (maxCode_le _)) (by decide)

theorem Hub.rangeStep_same (t : Nat) (same : h.rangeNow n = r) : h.rangeStep n r t = h := if_pos same

/-- The transient of a step from the range in force. -/
def Hub.stepTransient (h : Hub) (n r : Nat) : Nat := max (h.transientOf n (h.rangeNow n)) (h.transientOf n r)

/-- The channel as it steps to range `r`, with the edges `a` of the chains and `e` of its own. -/
def Hub.steppedChan (h : Hub) (n r a e : Nat) : Chan :=
  { h.chan n with
    spans := ⟨.xsit, a, some (a + h.stepTransient n r)⟩ :: (h.chan n).spans
    xsitEnd := max (h.chan n).xsitEnd (e + h.stepTransient n r), ranges := (e, r) :: (h.chan n).ranges, actRanges := (a, r) :: (h.chan n).actRanges
    upWait := false, stepTr := h.stepTransient n r
    dwellEnd := e + max (h.get EXC_DWELL_US * usU) (h.stepTransient n r), holdEnd := e + max (h.get EXC_DWELL_US * usU) (h.stepTransient n r) }

theorem Hub.rangeStepAt_chan (moved : h.rangeNow n ≠ r) (a e : Nat) : (h.rangeStepAt n r a e).chan n = h.steppedChan n r a e := by
  rw [Hub.rangeStepAt, if_neg moved, Hub.set_chan, Hub.bump_chan, Hub.set_chan, Hub.setChan_chan_same, Hub.mark, Hub.setChan_chan_same]
  rfl

theorem Hub.rangeStepAt_now (moved : h.rangeNow n ≠ r) (small : r < 8) (a e : Nat) : (h.rangeStepAt n r a e).get (CH_RANGE_RANGE_NOW n) = r := by
  rw [Hub.rangeStepAt, if_neg moved, Hub.get_set_ne _ _ _ _ (by simp only [ne_eq, Field.key, CH_RANGE_RANGE_NOW, CH_DELAY_NS]; omega),
    Hub.bump_get_ne _ _ _ _ (by simp only [ne_eq, Field.key, CH_RANGE_RANGE_NOW, CH_RANGE_STEPS]; omega)
      (by simp only [ne_eq, Field.key, CH_RANGE_RANGE_NOW, CH_EXCS_SAT]; omega)]
  exact (Hub.get_set_same _ _ _).trans (Nat.mod_eq_of_lt small)

theorem Hub.rangeStepAt_steps (moved : h.rangeNow n ≠ r) (a e : Nat) :
    (h.rangeStepAt n r a e).get (CH_RANGE_STEPS n) = min (h.get (CH_RANGE_STEPS n) + 1) (CH_RANGE_STEPS n).top := by
  rw [Hub.rangeStepAt, if_neg moved, Hub.get_set_ne _ _ _ _ (by simp only [ne_eq, Field.key, CH_RANGE_STEPS, CH_DELAY_NS]; omega),
    Hub.bump_get _ _ _ (by simp only [ne_eq, Field.key, CH_RANGE_STEPS, CH_EXCS_SAT]; omega),
    Hub.get_set_ne _ _ _ _ (by simp only [ne_eq, Field.key, CH_RANGE_RANGE_NOW, CH_RANGE_STEPS]; omega)]
  rfl

theorem Hub.rangeStepAt_only (moved : h.rangeNow n ≠ r) (a e : Nat) :
    OnlyRegs [CH_RANGE_RANGE_NOW n, CH_RANGE_STEPS n, CH_EXCS_SAT n, CH_DELAY_NS n] h (h.rangeStepAt n r a e) := by
  rw [Hub.rangeStepAt, if_neg moved]
  refine onlyRegs_set _ (by simp) (onlyRegs_bump (by simp) (by simp) (onlyRegs_set _ (by simp) ?_))
  exact onlyRegs_of_regs rfl (onlyRegs_refl _ h)

/-- A range step from another range (R75, R76). -/
theorem Hub.rangeStep_stepped (t : Nat) (moved : h.rangeNow n ≠ r) (small : r < 8) : RangeStepped n r t h (h.rangeStep n r t) := by
  unfold RangeStepped Hub.rangeStep
  rw [Hub.rangeStepAt_chan moved]
  exact ⟨Hub.rangeStepAt_now moved small _ _, Hub.rangeStepAt_steps moved _ _, rfl, rfl, List.mem_cons_self, rfl, rfl, Hub.rangeStepAt_only moved _ _⟩

variable {v lo hi : Nat}

theorem Hub.rangeWrite_refused (r : h.get (CH_CFG_AUTORANGE n) = 1 ∨ maxCode (h.kind n) < v) : h.rangeWrite n v = h.on (CH_EXCS_WERR n) :=
  if_pos (r.imp_left Hub.bit_of_one)

theorem Hub.rangeWrite_taken (manual : h.get (CH_CFG_AUTORANGE n) = 0) (suits : v ≤ maxCode (h.kind n)) :
    h.rangeWrite n v = (h.set (CH_RANGE_RANGE n) v).rangeStep n v h.time.now := by
  refine if_neg ?_
  rintro (auto_ | above)
  · simp [Hub.bit_of_zero manual] at auto_
  · exact Nat.not_lt.2 suits above

theorem Hub.set_range_rangeNow : (h.set (CH_RANGE_RANGE n) v).rangeNow n = h.rangeNow n :=
  Hub.get_set_ne _ _ _ _ (by simp [Field.key, CH_RANGE_RANGE, CH_RANGE_RANGE_NOW])

/-- The hub with the limits of a channel written. -/
def Hub.limited (h : Hub) (n lo hi : Nat) : Hub := (h.set (CH_CFG_RANGE_MIN n) lo).set (CH_CFG_RANGE_MAX n) hi

theorem Hub.limited_get_ne (f : Field) (low : f.key ≠ (CH_CFG_RANGE_MIN n).key) (high : f.key ≠ (CH_CFG_RANGE_MAX n).key) :
    (h.limited n lo hi).get f = h.get f := (Hub.get_set_ne _ _ _ _ high).trans (Hub.get_set_ne _ _ _ _ low)

theorem Hub.limited_rangeNow : (h.limited n lo hi).rangeNow n = h.rangeNow n :=
  Hub.limited_get_ne _ (by simp only [ne_eq, Field.key, CH_RANGE_RANGE_NOW, CH_CFG_RANGE_MIN]; omega)
    (by simp only [ne_eq, Field.key, CH_RANGE_RANGE_NOW, CH_CFG_RANGE_MAX]; omega)

theorem Hub.limited_auto : (h.limited n lo hi).get (CH_CFG_AUTORANGE n) = h.get (CH_CFG_AUTORANGE n) :=
  Hub.limited_get_ne _ (by simp [Field.key, CH_CFG_AUTORANGE, CH_CFG_RANGE_MIN]) (by simp [Field.key, CH_CFG_AUTORANGE, CH_CFG_RANGE_MAX])

theorem Hub.rangeLimitWrite_manual (manual : h.get (CH_CFG_AUTORANGE n) = 0) : h.rangeLimitWrite n lo hi = h.limited n lo hi :=
  if_neg fun e => Bool.false_ne_true ((Hub.bit_of_zero (Hub.limited_auto.trans manual)).symm.trans e.1)

theorem Hub.rangeLimitWrite_auto (auto_ : h.get (CH_CFG_AUTORANGE n) = 1) (live : (h.chan n).live = true) : h.rangeLimitWrite n lo hi =
    if (h.limited n lo hi).rangeNow n < ((h.limited n lo hi).rangeSpan n).1
    then (h.limited n lo hi).rangeStep n ((h.limited n lo hi).rangeSpan n).1 h.time.now
    else if ((h.limited n lo hi).rangeSpan n).2 < (h.limited n lo hi).rangeNow n
    then (h.limited n lo hi).rangeStep n ((h.limited n lo hi).rangeSpan n).2 h.time.now
    else h.limited n lo hi :=
  if_pos ⟨Hub.bit_of_one (Hub.limited_auto.trans auto_), live⟩

theorem Hub.rangeLimitWrite_up (auto_ : h.get (CH_CFG_AUTORANGE n) = 1) (live : (h.chan n).live = true)
    (below : h.rangeNow n < ((h.limited n lo hi).rangeSpan n).1) :
    RangeStepped n ((h.limited n lo hi).rangeSpan n).1 h.time.now (h.limited n lo hi) (h.rangeLimitWrite n lo hi) := by
  rw [Hub.rangeLimitWrite_auto auto_ live, Hub.limited_rangeNow, if_pos below]
  exact Hub.rangeStep_stepped _ (by rw [Hub.limited_rangeNow]; exact below.ne) (Hub.rangeSpan_lower _ _)

theorem Hub.rangeSpan_ordered (h : Hub) (n : Nat) : (h.rangeSpan n).1 ≤ (h.rangeSpan n).2 := Nat.le_max_left _ _

theorem Hub.rangeLimitWrite_down (auto_ : h.get (CH_CFG_AUTORANGE n) = 1) (live : (h.chan n).live = true)
    (above : ((h.limited n lo hi).rangeSpan n).2 < h.rangeNow n) :
    RangeStepped n ((h.limited n lo hi).rangeSpan n).2 h.time.now (h.limited n lo hi) (h.rangeLimitWrite n lo hi) := by
  have within : ¬h.rangeNow n < ((h.limited n lo hi).rangeSpan n).1 := Nat.not_lt.2 ((Hub.rangeSpan_ordered _ n).trans above.le)
  rw [Hub.rangeLimitWrite_auto auto_ live, Hub.limited_rangeNow, if_neg within, if_pos above]
  exact Hub.rangeStep_stepped _ (by rw [Hub.limited_rangeNow]; exact above.ne') (Hub.rangeSpan_upper _ _)

theorem Hub.rangeLimitWrite_within (auto_ : h.get (CH_CFG_AUTORANGE n) = 1) (live : (h.chan n).live = true)
    (above : ((h.limited n lo hi).rangeSpan n).1 ≤ h.rangeNow n) (below : h.rangeNow n ≤ ((h.limited n lo hi).rangeSpan n).2) :
    h.rangeLimitWrite n lo hi = h.limited n lo hi := by
  rw [Hub.rangeLimitWrite_auto auto_ live, Hub.limited_rangeNow, if_neg (Nat.not_lt.2 above), if_neg (Nat.not_lt.2 below)]

end range

/-! ## The chain's own registers (R134, R139, R141, R152) -/

section chain
variable {h : Hub} {n : Nat}

/-- The instant from which a change of the phase at the edge `e` is marked. -/
def Hub.phaseInstant (h : Hub) (n : Nat) : Nat := h.nextEdge h.time.now - h.delayOf n (h.rangeWas n (h.nextEdge h.time.now))

theorem Hub.demodPhaseWrite_chan (v : Nat) : ((h.demodPhaseWrite n v).chan n).psiHist.head? = some (h.nextEdge h.time.now, v)
    ∧ (⟨.settle, h.phaseInstant n, some (h.phaseInstant n)⟩ : Span) ∈ ((h.demodPhaseWrite n v).chan n).spans := by
  rw [Hub.demodPhaseWrite, Hub.mark, Hub.setChan_chan_same, Hub.set_chan, Hub.setChan_chan_same]
  exact ⟨rfl, List.mem_cons_self⟩

theorem Hub.demodPhaseWrite_get {v : Nat} (small : v < 2 ^ 16) : (h.demodPhaseWrite n v).get (CH_DEMOD_PHASE n) = v :=
  (Hub.setChan_get _ _ _ _).trans ((Hub.get_set_same _ _ _).trans (Nat.mod_eq_of_lt small))

theorem Hub.demodPhaseWrite_only (v : Nat) : OnlyRegs [CH_DEMOD_PHASE n] h (h.demodPhaseWrite n v) :=
  onlyRegs_of_regs rfl (onlyRegs_set v (by simp) (onlyRegs_of_regs rfl (onlyRegs_refl _ h)))

/-- What a restart by the host, or a later cause, leaves (R152, R153). -/
theorem Hub.restartChain_leaves {r : Run} {t cause : Nat} (run : (h.chan n).run = some r) (later : 2 ≤ cause) (small : cause < 8) :
    ((h.restartChain n t cause).chan n).restartAt = t ∧ ((h.restartChain n t cause).chan n).n0 = firstIndexAt r.epoch r.p r.q t
    ∧ (h.restartChain n t cause).get (CH_CHAIN_LAST_CAUSE n) = cause ∧ (h.restartChain n t cause).get (CH_CHAIN_RESTARTED n) = 1
    ∧ (h.restartChain n t cause).get (CH_DCB_EST n) = 0
    ∧ (h.restartChain n t cause).get (CH_RESTART_COUNT n) = min (h.get (CH_RESTART_COUNT n) + 1) (CH_RESTART_COUNT n).top := by
  have others : ¬cause = 1 := by omega
  unfold Hub.restartChain
  dsimp only
  rw [run]
  dsimp only
  rw [if_pos later, if_neg others]
  have chan (g : Hub) (a b c d : Field) : ((((g.bump a b).off c).on d).chan n) = g.chan n := Hub.bump_chan g n a b
  refine ⟨?_, ?_, ?_, ?_, ?_, ?_⟩
  · rw [chan, Hub.set_chan, Hub.on_chan, Hub.set_chan, Hub.setChan_chan_same]
  · rw [chan, Hub.set_chan, Hub.on_chan, Hub.set_chan, Hub.setChan_chan_same]
  · rw [Hub.get_on_ne _ _ _ (by simp [Field.key, CH_CHAIN_LAST_CAUSE, CH_CHAIN_RESTARTED]),
      Hub.get_off_ne _ _ _ (by simp only [ne_eq, Field.key, CH_CHAIN_LAST_CAUSE, CH_DCB_EST]; omega),
      Hub.bump_get_ne _ _ _ _ (by simp only [ne_eq, Field.key, CH_CHAIN_LAST_CAUSE, CH_RESTART_COUNT]; omega)
        (by simp [Field.key, CH_CHAIN_LAST_CAUSE, CH_CHAIN_SAT])]
    exact (Hub.get_set_same _ _ _).trans (Nat.mod_eq_of_lt small)
  · exact Hub.get_on_same _ _ (Nat.succ_pos 0)
  · rw [Hub.get_on_ne _ _ _ (by simp only [ne_eq, Field.key, CH_CHAIN_RESTARTED, CH_DCB_EST]; omega)]
    exact Hub.get_off_same _ _
  · rw [Hub.get_on_ne _ _ _ (by simp only [ne_eq, Field.key, CH_CHAIN_RESTARTED, CH_RESTART_COUNT]; omega),
      Hub.get_off_ne _ _ _ (by simp only [ne_eq, Field.key, CH_RESTART_COUNT, CH_DCB_EST]; omega),
      Hub.bump_get _ _ _ (by simp only [ne_eq, Field.key, CH_RESTART_COUNT, CH_CHAIN_SAT]; omega),
      Hub.get_set_ne _ _ _ _ (by simp only [ne_eq, Field.key, CH_RESTART_COUNT, CH_CHAIN_LAST_CAUSE]; omega),
      Hub.get_on_ne _ _ _ (by simp only [ne_eq, Field.key, CH_RESTART_COUNT, CH_CHAIN_SETTLING]; omega),
      Hub.get_set_ne _ _ _ _ (by simp only [ne_eq, Field.key, CH_RESTART_COUNT, CH_SETTLE_N]; omega), Hub.setChan_get]

theorem Hub.chainRestart_live (live : (h.chan n).live = true) : h.chainRestart n = h.restartChain n (h.nextEdge h.time.now) 2 := if_pos live

theorem Hub.chainRestart_dead (dead : (h.chan n).live = false) : h.chainRestart n = h.on (CH_EXCS_WERR n) := if_neg (by simp [dead])

theorem Hub.dcbKWrite_refused {k : Nat} (bad : k ≠ 0 ∧ (k < 4 ∨ 24 < k)) : h.dcbKWrite n k = h.on (CH_EXCS_WERR n) := if_pos bad

theorem Hub.dcbKWrite_running {k : Nat} (low : 4 ≤ k) (high : k ≤ 24) (on_ : h.get (CH_CHAIN_DCB_K n) ≠ 0) :
    h.dcbKWrite n k = (h.set (CH_CHAIN_DCB_K n) k).dcWrite n (.k k) := (if_neg (by omega)).trans (if_neg (by omega))

theorem Hub.dcbKWrite_begun {k : Nat} (low : 4 ≤ k) (high : k ≤ 24) (off_ : h.get (CH_CHAIN_DCB_K n) = 0) :
    h.dcbKWrite n k = ((h.set (CH_CHAIN_DCB_K n) k).dcWrite n (.k k)).off (CH_DCB_EST n) := (if_neg (by omega)).trans (if_pos (.inl off_))

theorem Hub.dcbKWrite_zero : h.dcbKWrite n 0 = ((h.set (CH_CHAIN_DCB_K n) 0).dcWrite n (.k 0)).off (CH_DCB_EST n) :=
  (if_neg fun e => e.1 rfl).trans (if_pos (.inr rfl))

theorem Hub.dcbEstWrite_eq (v : Word) : h.dcbEstWrite n v.toNat =
    if h.get (CH_CHAIN_DCB_K n) ≠ 0 ∧ h.dcSeeded n = true ∧ h.get (CH_CHAIN_DCB_FREEZE n) = 1
    then (h.set (CH_DCB_EST n) v.toNat).dcWrite n (.est v.toInt) else h.on (CH_EXCS_WERR n) := by
  simp only [Hub.dcbEstWrite, Hub.bit_iff, toSigned_word]

end chain

/-- Settles O20: the multiplexer, the ranges and the chain's own registers by their branches; a range step and a restart are said once, for every cause. -/
theorem inputCellsAndChains : Obligations.InputCellsAndChains := by
  refine ⟨fun s n a => ?_, fun s n a => ?_⟩ <;> dsimp only
  · refine ⟨fun k => ?_, fun m suits => ⟨fun same => ?_, fun moved => ?_⟩, fun v => ⟨fun r => ?_, fun manual suits => ⟨fun same => ?_, fun moved => ?_⟩⟩,
      fun lo hi => ⟨fun manual => ?_, fun auto_ live => ⟨fun below => ?_, fun above => ?_, fun above below => ?_⟩⟩⟩
    · exact gives_onHub (exec_muxWrite a n 3) (if_pos ⟨rfl, k⟩)
    · exact gives_onHub (exec_muxWrite a n m) ((Hub.muxWrite_suits suits).trans (Hub.muxSet_same same))
    · refine leads_onHub (exec_muxWrite a n m) ?_
      rw [Hub.muxWrite_suits suits]
      obtain ⟨ends, mem⟩ := Hub.muxSet_chan moved
      exact ⟨Hub.muxSet_get moved m.isLt, ends, Hub.muxSet_only moved, mem⟩
    · exact gives_onHub (exec_rangeWrite a n v) (Hub.rangeWrite_refused r)
    · exact gives_onHub (exec_rangeWrite a n v) ((Hub.rangeWrite_taken manual suits).trans (Hub.rangeStep_same _ (Hub.set_range_rangeNow.trans same)))
    · refine leads_onHub (exec_rangeWrite a n v) ?_
      rw [Hub.rangeWrite_taken manual suits]
      exact Hub.rangeStep_stepped _ (by rw [Hub.set_range_rangeNow]; exact moved) v.isLt
    · exact gives_onHub (exec_rangeLimitWrite a n lo hi) (Hub.rangeLimitWrite_manual manual)
    · exact leads_onHub (exec_rangeLimitWrite a n lo hi) (Hub.rangeLimitWrite_up auto_ live below)
    · exact leads_onHub (exec_rangeLimitWrite a n lo hi) (Hub.rangeLimitWrite_down auto_ live above)
    · exact gives_onHub (exec_rangeLimitWrite a n lo hi) (Hub.rangeLimitWrite_within auto_ live above below)
  · refine ⟨fun v => ?_, fun dead => ?_, fun r live run => ?_, fun k => ⟨fun bad => ?_, fun low high on_ => ?_, fun low high off_ => ?_, ?_⟩, fun b => ?_,
      fun v => ?_, ?_, ?_, ?_⟩
    · obtain ⟨phase, mem⟩ := Hub.demodPhaseWrite_chan (h := s.hw.hub) (n := n) v.toNat
      exact leads_onHub (exec_demodPhaseWrite a n v) ⟨Hub.demodPhaseWrite_get v.isLt, phase, mem, Hub.demodPhaseWrite_only _⟩
    · exact gives_onHub (exec_chainRestart a n) (Hub.chainRestart_dead dead)
    · refine leads_onHub (exec_chainRestart a n) ?_
      rw [Hub.chainRestart_live live]
      exact Hub.restartChain_leaves run (Nat.le_refl 2) (by decide)
    · exact gives_onHub (exec_dcbKWrite a n k) (Hub.dcbKWrite_refused bad)
    · exact gives_onHub (exec_dcbKWrite a n k) (Hub.dcbKWrite_running low high on_)
    · exact gives_onHub (exec_dcbKWrite a n k) (Hub.dcbKWrite_begun low high off_)
    · exact gives_onHub (exec_dcbKWrite a n 0) Hub.dcbKWrite_zero
    · exact gives_onHub (exec_dcbFreezeWrite a n b) rfl
    · exact gives_onHub (exec_dcbEstWrite a n v) (Hub.dcbEstWrite_eq v)
    · exact gives_onHub (exec_excCntClr a n) rfl
    · exact gives_onHub (exec_chainCntClr a n) rfl
    · exact gives_onHub (exec_shedClr a) rfl

end Sys2Proof.Machine
end

section
/-! SUPPORT. The governor and fold-back (R86, R87, R90, R91, R93). -/

namespace Sys2Proof.Machine

theorem exec_governorWindowEnd {s : State} (up : s.up) (draws : List (Nat × Nat)) :
    exec (.governorWindowEnd draws) s = .next (s.onHub fun h => h.govWindow draws) := exec_whenUp_up up rfl

theorem exec_fastTrip {s : State} (up : s.up) (draws : List (Nat × Nat)) :
    exec (.fastTrip draws) s = .next (s.onHub fun h => h.fastMeasure draws) := exec_whenUp_up up rfl

theorem exec_autoRestore {s : State} (up : s.up) : exec .autoRestore s = .next (s.onHub Hub.autoRestore) := exec_whenUp_up up rfl

theorem exec_foldBack {s : State} (up : s.up) (n : Fin 192) : exec (.foldBack n) s = .next (s.onHub fun h => h.foldBack n) := exec_whenUp_up up rfl

theorem exec_foldRetry {s : State} (up : s.up) (n : Fin 192) : exec (.foldRetry n) s = .next (s.onHub fun h => h.foldRetry n) := exec_whenUp_up up rfl

theorem exec_foldRetryEnd {s : State} (up : s.up) (n : Fin 192) :
    exec (.foldRetryEnd n) s = .next (s.onHub fun h => h.foldRetryEnd n) := exec_whenUp_up up rfl

theorem exec_excGroupStart {s : State} (up : s.up) : exec .excGroupStart s = .next (s.onHub Hub.groupStart) := exec_whenUp_up up rfl

/-! ## The window and the fast measurement (R90, R91) -/

section governor
variable {h : Hub} {draws : List (Nat × Nat)}

theorem Hub.shedDown_within (draw : Nat → Nat) (l : List Nat) {sum budget : Nat} (within : sum ≤ budget) : Hub.shedDown draw l sum budget h = h := by
  cases l with
  | nil => rfl
  | cons n t => exact if_pos within

/-- Where the rest without the first candidate is within the budget, it alone is shed. -/
theorem Hub.shedDown_first (draw : Nat → Nat) {n : Nat} (t : List Nat) {sum budget : Nat} (above : budget < sum) (rest : sum - draw n ≤ budget) :
    Hub.shedDown draw (n :: t) sum budget h = h.shed n := (if_neg (Nat.not_le.2 above)).trans (Hub.shedDown_within draw t rest)

/-- What recording the draws of a window keeps: the budget, the governor's own state and the time. -/
def Hub.SameGovernor (h g : Hub) : Prop := g.get EXC_BUDGET_MW = h.get EXC_BUDGET_MW ∧ g.exc = h.exc ∧ g.time = h.time

theorem Hub.sameGovernor_set {g : Hub} (same : h.SameGovernor g) (f : Field) (v : Nat) (other : EXC_BUDGET_MW.key ≠ f.key) : h.SameGovernor (g.set f v) := by
  obtain ⟨budget, exc, time⟩ := same
  exact ⟨(Hub.get_set_ne g f _ v other).trans budget, exc, time⟩

theorem Hub.record_keeps (h : Hub) (draws : List (Nat × Nat)) : h.SameGovernor (h.record draws) := by
  have channels : h.SameGovernor (draws.foldl (fun g d => if d.1 < 192 then g.set (CH_EXC_MEAS_UW d.1) d.2 else g) h) := by
    refine List.foldlRecOn (motive := h.SameGovernor) draws _ ⟨rfl, rfl, rfl⟩ fun g kept d _ => ?_
    split
    · exact Hub.sameGovernor_set kept _ _ (by simp only [ne_eq, Field.key, EXC_BUDGET_MW, CH_EXC_MEAS_UW]; omega)
    · exact kept
  refine Hub.sameGovernor_set (List.foldlRecOn (motive := h.SameGovernor) (List.range 12) _ channels fun g kept b _ => ?_) _ _ (by decide)
  exact Hub.sameGovernor_set kept _ _ (by simp only [ne_eq, Field.key, EXC_BUDGET_MW, BANK_MEAS_UW]; omega)

/-- The hub at the end of its governor window. -/
def Hub.windowed (h : Hub) : Hub := h.upTo (h.exc.windowAt + h.get EXC_WINDOW_US * usU)

/-- That hub with the window ended and its draws recorded. -/
def Hub.windowDrawn (h : Hub) (draws : List (Nat × Nat)) : Hub := (h.windowed.setExc { h.windowed.exc with windowAt := h.windowed.time.now }).record draws

/-- That hub with the headroom of the window noted. -/
def Hub.windowNoted (h : Hub) (draws : List (Nat × Nat)) : Hub :=
  (h.windowDrawn draws).setExc { (h.windowDrawn draws).exc with
    headroom := (h.windowed.time.now, (h.get EXC_BUDGET_MW * 1000 : Nat) - ((h.windowDrawn draws).get EXC_MEAS_UW : Int))
      :: h.exc.headroom.filter fun e => decide (h.windowed.time.now < e.1 + 100 * msU) }

theorem Hub.govWindow_idle (idle : h.governs = false) : h.govWindow draws = h := if_neg (by simp [idle])

theorem Hub.govWindow_acts (acts : h.governs = true) : h.govWindow draws =
    Hub.shedDown (h.windowNoted draws).draw1 (h.windowNoted draws).candidates ((h.windowDrawn draws).get EXC_MEAS_UW) (h.get EXC_BUDGET_MW * 1000)
      (h.windowNoted draws) := by
  obtain ⟨budget, exc, time⟩ := (h.windowed.setExc { h.windowed.exc with windowAt := h.windowed.time.now }).record_keeps draws
  have noted : (h.windowDrawn draws).setExc { (h.windowDrawn draws).exc with
      headroom := ((h.windowDrawn draws).time.now, ((h.windowDrawn draws).get EXC_BUDGET_MW * 1000 : Nat) - ((h.windowDrawn draws).get EXC_MEAS_UW : Int))
        :: (h.windowDrawn draws).exc.headroom.filter fun e => decide ((h.windowDrawn draws).time.now < e.1 + 100 * msU) }
      = h.windowNoted draws := by
    rw [Hub.windowNoted, Hub.windowDrawn, budget, exc, time]
    rfl
  have same : (h.windowDrawn draws).get EXC_BUDGET_MW = h.get EXC_BUDGET_MW := budget
  refine (if_pos acts).trans ?_
  rw [← noted, ← same]
  rfl

/-- The hub at its fast measurement. -/
def Hub.measured (h : Hub) : Hub :=
  (h.upTo (h.exc.fastAt + 10 * usU)).setExc { (h.upTo (h.exc.fastAt + 10 * usU)).exc with fastAt := (h.upTo (h.exc.fastAt + 10 * usU)).time.now }

/-- The hub as the fast measurement trips. -/
def Hub.tripped (h : Hub) : Hub := (h.measured.setExc { h.measured.exc with fastRun := 0 }).on EXC_STAT_FAST_TRIP

theorem Hub.fastMeasure_idle (idle : h.governs = false) : h.fastMeasure draws = h := if_neg (by simp [idle])

theorem Hub.fastMeasure_within (acts : h.governs = true) (within : 4 * (chanList.map (drawIn draws)).sum ≤ 5 * (h.get EXC_BUDGET_MW * 1000)) :
    h.fastMeasure draws = h.measured.setExc { h.measured.exc with fastRun := 0 } := (if_pos acts).trans (if_pos within)

theorem Hub.fastMeasure_counts (acts : h.governs = true) (above : 5 * (h.get EXC_BUDGET_MW * 1000) < 4 * (chanList.map (drawIn draws)).sum)
    (few : h.exc.fastRun < 4) : h.fastMeasure draws = h.measured.setExc { h.measured.exc with fastRun := h.exc.fastRun + 1 } :=
  (if_pos acts).trans ((if_neg (Nat.not_le.2 above)).trans (if_pos (Nat.succ_lt_succ few)))

theorem Hub.fastMeasure_trips (acts : h.governs = true) (above : 5 * (h.get EXC_BUDGET_MW * 1000) < 4 * (chanList.map (drawIn draws)).sum)
    (fifth : 4 ≤ h.exc.fastRun) : h.fastMeasure draws =
      Hub.shedDown (drawIn draws) h.tripped.candidates (chanList.map (drawIn draws)).sum (h.get EXC_BUDGET_MW * 1000) h.tripped :=
  (if_pos acts).trans ((if_neg (Nat.not_le.2 above)).trans (if_neg (Nat.not_lt.2 (Nat.succ_le_succ fifth))))

theorem Hub.autoRestore_idle (idle : h.governs = false) : h.autoRestore = h := if_neg (by simp [idle])

theorem Hub.autoRestore_first {n : Nat} (acts : h.governs = true) (on_ : h.get EXC_CTL_AUTO_RESTORE = 1)
    (due : h.exc.lastRestore + 100 * msU ≤ h.time.now) (first : (h.shedList.find? fun n => h.headroomFor n) = some n) :
    h.autoRestore = (h.restoreChan n).setExc { h.exc with lastRestore := h.time.now } := by
  refine (if_pos (by simp [acts, Hub.bit_of_one on_, due])).trans ?_
  rw [first]

end governor

/-! ## Fold-back (R86, R87) -/

section fold
variable {h : Hub} {n : Nat}

/-- The hub with a fold-back counted, before EXCF shows it. -/
def Hub.folded (h : Hub) (n : Nat) : Hub := (h.on (CH_EXCS_FOLDED n)).bump (CH_FOLD_COUNT n) (CH_EXCS_SAT n)

theorem Hub.folded_only : OnlyRegs [CH_EXCS_FOLDED n, CH_FOLD_COUNT n, CH_EXCS_SAT n] h (h.folded n) :=
  onlyRegs_bump (by simp) (by simp) (onlyRegs_on (by simp) (onlyRegs_refl _ h))

theorem Hub.folded_folded : (h.folded n).get (CH_EXCS_FOLDED n) = 1 := by
  rw [Hub.folded, Hub.bump_get_ne _ _ _ _ (by simp only [ne_eq, Field.key, CH_EXCS_FOLDED, CH_FOLD_COUNT]; omega)
    (by simp [Field.key, CH_EXCS_FOLDED, CH_EXCS_SAT])]
  exact Hub.get_on_same _ _ (Nat.succ_pos 0)

theorem Hub.folded_count : (h.folded n).get (CH_FOLD_COUNT n) = min (h.get (CH_FOLD_COUNT n) + 1) (CH_FOLD_COUNT n).top := by
  rw [Hub.folded, Hub.bump_get _ _ _ (by simp only [ne_eq, Field.key, CH_EXCS_SAT, CH_FOLD_COUNT]; omega),
    Hub.get_on_ne _ _ _ (by simp only [ne_eq, Field.key, CH_EXCS_FOLDED, CH_FOLD_COUNT]; omega)]

theorem Hub.limiterActs_regs (h : Hub) (n : Nat) : (h.limiterActs n).regs = h.regs := rfl

theorem Hub.fold_eq : h.fold n = ((h.folded n).showExcf n).limiterActs n := by rw [Hub.fold, Hub.folded]

theorem Hub.fold_regs : (h.fold n).regs = ((h.folded n).showExcf n).regs := by rw [Hub.fold_eq, Hub.limiterActs_regs]

theorem Hub.fold_get (f : Field) : (h.fold n).get f = ((h.folded n).showExcf n).get f := Hub.get_of_regs _ _ Hub.fold_regs f

theorem Hub.folded_fault : (h.folded n).excFault n = true := by rw [Hub.excFault, Hub.bit_of_one Hub.folded_folded, Bool.true_or]

/-- The SETTLE span of a limiter that acts. -/
def Hub.limitSpan (h : Hub) (n : Nat) : Nat := 20 * usU + h.get (CH_SETTLE_EXTRA n) * usU

theorem Hub.limiterActs_marks (h : Hub) (n : Nat) :
    (⟨.settle, h.time.now, some (h.time.now + h.limitSpan n)⟩ : Span) ∈ ((h.limiterActs n).chan n).spans := h.disturb_marks n _ _

theorem Hub.showExcf_limitSpan (h : Hub) (n : Nat) : (h.showExcf n).limitSpan n = h.limitSpan n := by
  rw [Hub.limitSpan, h.showExcf_only n _ (by simp only [List.map_cons, List.map_nil, List.mem_cons, List.not_mem_nil, or_false, not_or, Field.key,
    CH_SETTLE_EXTRA, CH_EXCS_EXCF, CH_EXCS_REASON]; omega)]
  rfl

theorem Hub.folded_limitSpan : (h.folded n).limitSpan n = h.limitSpan n := by
  rw [Hub.limitSpan, Hub.folded_only _ (by simp only [List.map_cons, List.map_nil, List.mem_cons, List.not_mem_nil, or_false, not_or, Field.key,
    CH_SETTLE_EXTRA, CH_EXCS_FOLDED, CH_FOLD_COUNT, CH_EXCS_SAT]; omega)]
  rfl

/-- What a fold-back shows: FOLDED, EXCF with reason FAULT, the count and the span. -/
theorem Hub.fold_shows (driven : (h.chan n).shed = false) :
    (h.fold n).get (CH_EXCS_FOLDED n) = 1 ∧ (h.fold n).get (CH_EXCS_EXCF n) = 1 ∧ (h.fold n).get (CH_EXCS_REASON n) = 1
    ∧ (h.fold n).get (CH_FOLD_COUNT n) = min (h.get (CH_FOLD_COUNT n) + 1) (CH_FOLD_COUNT n).top
    ∧ (⟨.settle, h.time.now, some (h.time.now + h.limitSpan n)⟩ : Span) ∈ ((h.fold n).chan n).spans
    ∧ OnlyRegs [CH_EXCS_FOLDED n, CH_FOLD_COUNT n, CH_EXCS_SAT n, CH_EXCS_EXCF n, CH_EXCS_REASON n] h (h.fold n) := by
  have chan : (h.folded n).chan n = h.chan n := (Hub.bump_chan _ _ _ _).trans (Hub.on_chan _ _ _)
  have shown := (h.folded n).showExcf_only n
  refine ⟨?_, ?_, ?_, ?_, ?_, ?_⟩
  · rw [Hub.fold_get, shown _ (by simp [Field.key, CH_EXCS_FOLDED, CH_EXCS_EXCF, CH_EXCS_REASON]), Hub.folded_folded]
  · rw [Hub.fold_get, Hub.showExcf_excf, Hub.folded_fault, Bool.or_true]
    rfl
  · rw [Hub.fold_get, Hub.showExcf_reason, chan, driven, Hub.folded_fault]
    rfl
  · rw [Hub.fold_get, shown _ (by simp only [List.map_cons, List.map_nil, List.mem_cons, List.not_mem_nil, or_false, not_or, Field.key,
      CH_FOLD_COUNT, CH_EXCS_EXCF, CH_EXCS_REASON]; omega), Hub.folded_count]
  · have marks := ((h.folded n).showExcf n).limiterActs_marks n
    have time : (h.folded n).time = h.time := (bump_time _ _ _).trans rfl
    rw [Hub.showExcf_limitSpan, Hub.folded_limitSpan, ((h.folded n).showExcf_keeps n).2.1, time] at marks
    rw [Hub.fold_eq]
    exact marks
  · refine onlyRegs_of_regs Hub.fold_regs (onlyRegs_trans (onlyRegs_mono ?_ Hub.folded_only) (onlyRegs_mono ?_ shown)) <;> simp

/-- A fold-back of a channel that is not folded, or that is in a retry, folds it. -/
theorem Hub.foldBack_folds (driving : (h.chan n).driving = true)
    (out : (h.chan n).retryEnd = none ∧ h.get (CH_EXCS_FOLDED n) = 0 ∨ ∃ e, (h.chan n).retryEnd = some e ∧ h.time.now ≤ e) :
    h.foldBack n = (h.setChan n { h.chan n with foldAt := h.time.now }).fold n ∨ h.foldBack n = (h.setChan n { h.chan n with retryEnd := none }).fold n := by
  have early : ((h.chan n).retryEnd.any fun e => decide (e < h.time.now)) = false := by
    rcases out with ⟨none_, _⟩ | ⟨e, some_, le⟩
    · rw [none_]
      rfl
    · rw [some_]
      exact decide_eq_false (Nat.not_lt.2 le)
  have body : h.foldBack n = if !h.bit (CH_EXCS_FOLDED n) then (h.setChan n { h.chan n with foldAt := h.time.now }).fold n
      else if (h.chan n).retryEnd.isSome then (h.setChan n { h.chan n with retryEnd := none }).fold n else h := by
    unfold Hub.foldBack
    rw [if_pos driving]
    dsimp only
    rw [if_neg (ne_true_of_eq_false early)]
  rw [body]
  rcases out with ⟨_, open_⟩ | ⟨e, some_, _⟩
  · exact .inl (if_pos (by simp [Hub.bit_of_zero open_]))
  · split
    · exact .inl rfl
    · exact .inr (if_pos (by simp [some_]))

theorem Hub.foldBack_between (none_ : (h.chan n).retryEnd = none) (folded : h.get (CH_EXCS_FOLDED n) = 1) : h.foldBack n = h := by
  unfold Hub.foldBack
  split
  · simp [none_, Hub.bit_of_one folded]
  · rfl

/-- A retry begins at `t`. -/
def Hub.retried (h : Hub) (n t : Nat) : Hub := (h.upTo t).setChan n { h.chan n with foldAt := (h.upTo t).time.now, retryEnd := some ((h.upTo t).time.now + msU) }

theorem Hub.foldRetry_folded (none_ : (h.chan n).retryEnd = none) (folded : h.get (CH_EXCS_FOLDED n) = 1) :
    h.foldRetry n = (h.retried n ((h.chan n).foldAt + h.retryPeriod)).limiterActs n := if_pos ⟨Hub.bit_of_one folded, none_⟩

theorem Hub.limiterActs_apart (h : Hub) (n : Nat) : ((h.limiterActs n).chan n).apart = (h.chan n).apart := h.disturb_apart n n _ _

theorem Hub.retried_acts (t : Nat) :
    (((h.retried n t).limiterActs n).chan n).retryEnd = some (max h.time.now t + msU)
    ∧ (((h.retried n t).limiterActs n).chan n).foldAt = max h.time.now t ∧ ((h.retried n t).limiterActs n).regs = h.regs
    ∧ (⟨.settle, max h.time.now t, some (max h.time.now t + h.limitSpan n)⟩ : Span) ∈ (((h.retried n t).limiterActs n).chan n).spans := by
  have chan : (h.retried n t).chan n = _ := Hub.setChan_chan_same _ n _
  have acts := (h.retried n t).limiterActs_apart n
  refine ⟨?_, ?_, rfl, (h.retried n t).limiterActs_marks n⟩
  · rw [Chan.retryEnd_of_apart acts, chan]
    rfl
  · rw [Chan.foldAt_of_apart acts, chan]
    rfl

/-- The hub with a retry ended at `e`, before EXCF shows it. -/
def Hub.unfolded (h : Hub) (n e : Nat) : Hub := ((h.upTo e).setChan n { h.chan n with retryEnd := none }).off (CH_EXCS_FOLDED n)

theorem Hub.foldRetryEnd_some {e : Nat} (some_ : (h.chan n).retryEnd = some e) : h.foldRetryEnd n = ((h.unfolded n e).showExcf n).limiterActs n := by
  unfold Hub.foldRetryEnd
  rw [some_]
  rfl

theorem Hub.unfolded_fault (e : Nat) (free : h.pwr.vexcOk = true ∨ (h.chan n).exMode = 0) : (h.unfolded n e).excFault n = false := by
  have open_ : (h.unfolded n e).bit (CH_EXCS_FOLDED n) = false := Hub.bit_of_zero (Hub.get_off_same _ _)
  have chan : (h.unfolded n e).chan n = { h.chan n with retryEnd := none } := Hub.setChan_chan_same _ n _
  rw [Hub.excFault, open_, chan]
  rcases free with ok | off_
  · have pwr : (h.unfolded n e).pwr.vexcOk = true := ok
    rw [pwr]
    rfl
  · simp [off_]

theorem Hub.unfolded_acts (e : Nat) :
    (((h.unfolded n e).showExcf n).limiterActs n).get (CH_EXCS_FOLDED n) = 0
    ∧ (⟨.settle, max h.time.now e, some (max h.time.now e + h.limitSpan n)⟩ : Span) ∈ ((((h.unfolded n e).showExcf n).limiterActs n).chan n).spans
    ∧ ((h.chan n).shed = false → (h.pwr.vexcOk = true ∨ (h.chan n).exMode = 0) →
      (((h.unfolded n e).showExcf n).limiterActs n).get (CH_EXCS_REASON n) = 0 ∧ (((h.unfolded n e).showExcf n).limiterActs n).get (CH_EXCS_EXCF n) = 0) := by
  have acts (f : Field) : (((h.unfolded n e).showExcf n).limiterActs n).get f = ((h.unfolded n e).showExcf n).get f :=
    Hub.get_of_regs _ _ (Hub.limiterActs_regs _ n) f
  have chan : (h.unfolded n e).chan n = { h.chan n with retryEnd := none } := Hub.setChan_chan_same _ n _
  refine ⟨?_, ?_, fun driven free => ?_⟩
  · rw [acts, (h.unfolded n e).showExcf_only n _ (by simp [Field.key, CH_EXCS_FOLDED, CH_EXCS_EXCF, CH_EXCS_REASON])]
    exact Hub.get_off_same _ _
  · have marks := ((h.unfolded n e).showExcf n).limiterActs_marks n
    have span : (h.unfolded n e).limitSpan n = h.limitSpan n :=
      congrArg (fun v => 20 * usU + v * usU) (Hub.get_off_ne _ _ _ (by simp only [ne_eq, Field.key, CH_SETTLE_EXTRA, CH_EXCS_FOLDED]; omega))
    rw [Hub.showExcf_limitSpan, span, ((h.unfolded n e).showExcf_keeps n).2.1] at marks
    exact marks
  · have shed : ((h.unfolded n e).chan n).shed = false := by rw [chan]; exact driven
    rw [acts, acts, Hub.showExcf_reason, Hub.showExcf_excf, shed, Hub.unfolded_fault e free]
    exact ⟨rfl, rfl⟩

end fold

end Sys2Proof.Machine
end

section
/-! OBLIGATION O23. The excitation governor, fold-back, the supply and the start of groups (R86, R87, R90, R91, R93, R95, R96, R98). -/

namespace Sys2Proof.Machine

/-! ## Loops over channels -/

/-- An operation over a list that reaches `t` once establishes there what the other elements, which leave what `p` shows, keep. -/
theorem Hub.each_reaches {α : Type} (p : Hub → α) (I P : α → Prop) (f : Hub → Nat → Hub) (t : Nat) (l : List Nat) (nodup : l.Nodup) (mem : t ∈ l)
    (here : ∀ g, I (p g) → P (p (f g t))) (other : ∀ g n, n ≠ t → p (f g n) = p g) (h : Hub) (start : I (p h)) : P (p (h.each l f)) := by
  induction l generalizing h with
  | nil => exact absurd mem List.not_mem_nil
  | cons a l ih =>
    obtain ⟨fresh, nodup⟩ := List.nodup_cons.1 nodup
    show P (p ((f h a).each l f))
    by_cases first : a = t
    · subst first
      rw [Hub.each_keeps p f l _ fun g n m => other g n fun e => fresh (e ▸ m)]
      exact here h start
    · refine ih nodup (List.mem_of_ne_of_mem (Ne.symm first) mem) (f h a) ?_
      rw [other h a first]
      exact start

/-- An operation over a list changes the registers that each of its elements changes. -/
theorem Hub.each_only (f : Hub → Nat → Hub) (L : Nat → List Field) (l : List Nat) (h : Hub) (one : ∀ g n, OnlyRegs (L n) g (f g n)) :
    OnlyRegs (l.flatMap L) h (h.each l f) := fun r out => by
  refine Hub.each_keeps (fun g => g.get r) f l h fun g n m => one g n r fun k => out ?_
  obtain ⟨x, mem, key⟩ := List.mem_map.1 k
  exact List.mem_map.2 ⟨x, List.mem_flatMap.2 ⟨n, m, mem⟩, key⟩

/-! ## The supply (R98) -/

/-- What the supply acts on at a channel: the channel apart from its marks, its flags, the power state and the mode. -/
structure ExcCell where
  chan : Chan
  folded : Nat
  excf : Nat
  reason : Nat
  pwr : Pwr
  mode : Nat

def Hub.excCell (h : Hub) (k : Nat) : ExcCell :=
  ⟨(h.chan k).apart, h.get (CH_EXCS_FOLDED k), h.get (CH_EXCS_EXCF k), h.get (CH_EXCS_REASON k), h.pwr, h.get DEV_MODE_MODE⟩

section supply
variable {h : Hub} {n k : Nat}

theorem Hub.excCell_congr {g : Hub} (chan : (g.chan k).apart = (h.chan k).apart) (folded : g.get (CH_EXCS_FOLDED k) = h.get (CH_EXCS_FOLDED k))
    (excf : g.get (CH_EXCS_EXCF k) = h.get (CH_EXCS_EXCF k)) (reason : g.get (CH_EXCS_REASON k) = h.get (CH_EXCS_REASON k)) (pwr : g.pwr = h.pwr)
    (mode : g.get DEV_MODE_MODE = h.get DEV_MODE_MODE) : g.excCell k = h.excCell k := by
  rw [Hub.excCell, chan, folded, excf, reason, pwr, mode]
  rfl

theorem Hub.showExcf_excCell (h : Hub) (ne : n ≠ k) : (h.showExcf n).excCell k = h.excCell k := by
  have keeps (f : Field) (k : f.key ∉ [CH_EXCS_EXCF n, CH_EXCS_REASON n].map Field.key) : (h.showExcf n).get f = h.get f := h.showExcf_only n f k
  refine Hub.excCell_congr (h.showExcf_apart n k) (keeps _ ?_) (keeps _ ?_) (keeps _ ?_) (h.showExcf_keeps n).1 (keeps _ ?_) <;>
    simp only [List.map_cons, List.map_nil, List.mem_cons, List.not_mem_nil, or_false, not_or, Field.key, DEV_MODE_MODE, CH_EXCS_FOLDED, CH_EXCS_EXCF,
      CH_EXCS_REASON] <;> omega

theorem Hub.complianceOff_excCell (h : Hub) (n k : Nat) : (h.complianceOff n).excCell k = h.excCell k := by
  have keeps (f : Field) (k : f.key ∉ [CH_EXCS_COMPLIANCE n].map Field.key) : (h.complianceOff n).get f = h.get f := h.complianceOff_only n f k
  refine Hub.excCell_congr (h.complianceOff_apart n k) (keeps _ ?_) (keeps _ ?_) (keeps _ ?_) (h.complianceOff_keeps n).1 (keeps _ ?_) <;>
    simp only [List.map_cons, List.map_nil, List.mem_cons, List.not_mem_nil, or_false, Field.key, DEV_MODE_MODE, CH_EXCS_FOLDED, CH_EXCS_EXCF,
      CH_EXCS_REASON, CH_EXCS_COMPLIANCE] <;> omega

theorem Hub.setChan_excCell (h : Hub) (c : Chan) (ne : n ≠ k) : (h.setChan n c).excCell k = h.excCell k :=
  Hub.excCell_congr (congrArg Chan.apart (Hub.setChan_chan_ne h n k c (Ne.symm ne))) rfl rfl rfl rfl rfl

/-- What a cell shows as EXCF. -/
def ExcCell.fault (c : ExcCell) : Bool := c.folded == 1 || (!c.pwr.vexcOk && c.chan.exMode != 0)

/-- The cell with EXCF and its reason shown. -/
def ExcCell.shown (c : ExcCell) : ExcCell :=
  { c with excf := b2n (c.chan.shed || c.fault), reason := if c.chan.shed then 2 else if c.fault then 1 else 0 }

theorem Hub.showExcf_excCell_same (h : Hub) (k : Nat) : (h.showExcf k).excCell k = (h.excCell k).shown := by
  have keeps (f : Field) (o : f.key ∉ [CH_EXCS_EXCF k, CH_EXCS_REASON k].map Field.key) : (h.showExcf k).get f = h.get f := h.showExcf_only k f o
  rw [Hub.excCell, h.showExcf_apart k k, Hub.showExcf_excf, Hub.showExcf_reason, (h.showExcf_keeps k).1,
    keeps _ (by simp [Field.key, CH_EXCS_FOLDED, CH_EXCS_EXCF, CH_EXCS_REASON]),
    keeps _ (by simp only [List.map_cons, List.map_nil, List.mem_cons, List.not_mem_nil, or_false, not_or, Field.key, DEV_MODE_MODE, CH_EXCS_EXCF,
      CH_EXCS_REASON]; omega)]
  rfl

/-- The cell with its drivers on or off. -/
def ExcCell.drive (c : ExcCell) (on_ : Bool) : ExcCell := { c with chan := { c.chan with driving := on_ } }

theorem Hub.setChan_excCell_same (h : Hub) (k : Nat) (b : Bool) : (h.setChan k { h.chan k with driving := b }).excCell k = (h.excCell k).drive b := by
  rw [Hub.excCell, Hub.setChan_chan_same]
  rfl

theorem Hub.discharge_excCell (h : Hub) (ne : n ≠ k) : (h.discharge n).excCell k = h.excCell k := by
  rw [Hub.discharge, Hub.complianceOff_excCell, Hub.setChan_excCell _ _ ne]

theorem Hub.discharge_excCell_same (h : Hub) (k : Nat) : (h.discharge k).excCell k = (h.excCell k).drive false := by
  rw [Hub.discharge, Hub.complianceOff_excCell, Hub.setChan_excCell_same]

/-- One channel as VEXC is lost. -/
def Hub.supplyLost (h : Hub) (n : Nat) : Hub := if (h.chan n).exMode ≠ 0 then (h.discharge n).showExcf n else h

theorem Hub.supplyLost_excCell (h : Hub) (ne : n ≠ k) : (h.supplyLost n).excCell k = h.excCell k := by
  unfold Hub.supplyLost
  split
  · rw [Hub.showExcf_excCell _ ne, Hub.discharge_excCell _ ne]
  · rfl

theorem Hub.supplyLost_excCell_same (h : Hub) (k : Nat) (on_ : (h.chan k).exMode ≠ 0) : (h.supplyLost k).excCell k = ((h.excCell k).drive false).shown := by
  rw [Hub.supplyLost, if_pos on_, Hub.showExcf_excCell_same, Hub.discharge_excCell_same]

theorem Hub.supplyLost_keeps (h : Hub) (n : Nat) : (h.supplyLost n).pwr = h.pwr ∧ (h.supplyLost n).time = h.time := by
  unfold Hub.supplyLost
  split
  · obtain ⟨pwr, time, _⟩ := (h.discharge n).showExcf_keeps n
    obtain ⟨pwr', time', _⟩ := (h.setChan n { h.chan n with driving := false }).complianceOff_keeps n
    exact ⟨pwr.trans pwr', time.trans time'⟩
  · exact ⟨rfl, rfl⟩

theorem Hub.vexcLoss_eq (h : Hub) : h.vexcLoss = (h.setPwr { h.pwr with vexcOk := false }).each chanList Hub.supplyLost := rfl

theorem Hub.vexcLoss_keeps (h : Hub) : h.vexcLoss.pwr = { h.pwr with vexcOk := false } ∧ h.vexcLoss.time = h.time := by
  rw [Hub.vexcLoss_eq]
  exact ⟨Hub.each_keeps Hub.pwr _ _ _ fun g n _ => (g.supplyLost_keeps n).1, Hub.each_keeps Hub.time _ _ _ fun g n _ => (g.supplyLost_keeps n).2⟩

/-- A cell whose drivers lost their supply. -/
theorem ExcCell.shown_lost (c : ExcCell) (lost : c.pwr.vexcOk = false) (on_ : c.chan.exMode ≠ 0) :
    c.shown.excf = 1 ∧ c.shown.reason = if c.chan.shed then 2 else 1 := by
  have fault : c.fault = true := by simp [ExcCell.fault, lost, on_]
  simp [ExcCell.shown, fault, b2n]

/-- What the loss of VEXC over a list of channels leaves at one of them. -/
theorem Hub.supplyLost_each (h : Hub) (l : List Nat) (nodup : l.Nodup) (mem : k ∈ l) (lost : h.pwr.vexcOk = false) (on_ : (h.chan k).exMode ≠ 0) :
    ((h.each l Hub.supplyLost).chan k).driving = false ∧ (h.each l Hub.supplyLost).get (CH_EXCS_EXCF k) = 1
    ∧ (h.each l Hub.supplyLost).get (CH_EXCS_REASON k) = if (h.chan k).shed then 2 else 1 := by
  refine Hub.each_reaches (fun g => g.excCell k)
    (fun c => c.pwr.vexcOk = false ∧ c.chan.exMode = (h.chan k).exMode ∧ c.chan.shed = (h.chan k).shed)
    (fun c => c.chan.driving = false ∧ c.excf = 1 ∧ c.reason = if (h.chan k).shed then 2 else 1) Hub.supplyLost k l nodup mem
    (fun g start => ?_) (fun g n ne => g.supplyLost_excCell ne) h ⟨lost, rfl, rfl⟩
  obtain ⟨lost, mode, shed⟩ := start
  have driven : (g.chan k).exMode ≠ 0 := fun e => on_ (mode.symm.trans e)
  rw [g.supplyLost_excCell_same k driven, ← shed]
  exact ⟨rfl, ExcCell.shown_lost ((g.excCell k).drive false) lost driven⟩

/-- One channel as VEXC returns. -/
def Hub.supplyBack (h : Hub) (n : Nat) : Hub :=
  if ((h.showExcf n).chan n).exMode = 0 ∨ ((h.showExcf n).chan n).shed then h.showExcf n
  else (h.showExcf n).setChan n { (h.showExcf n).chan n with driving := (h.showExcf n).mayDrive }

theorem Hub.vexcRestored_eq (h : Hub) : h.vexcRestored = (h.setPwr { h.pwr with vexcOk := true }).each chanList Hub.supplyBack := rfl

theorem Hub.supplyBack_excCell (h : Hub) (ne : n ≠ k) : (h.supplyBack n).excCell k = h.excCell k := by
  unfold Hub.supplyBack
  split
  · rw [Hub.showExcf_excCell _ ne]
  · rw [Hub.setChan_excCell _ _ ne, Hub.showExcf_excCell _ ne]

theorem Hub.supplyBack_keeps (h : Hub) (n : Nat) : (h.supplyBack n).pwr = h.pwr ∧ (h.supplyBack n).time = h.time := by
  obtain ⟨pwr, time, _⟩ := h.showExcf_keeps n
  unfold Hub.supplyBack
  split <;> exact ⟨pwr, time⟩

theorem Hub.vexcRestored_keeps (h : Hub) : h.vexcRestored.pwr = { h.pwr with vexcOk := true } ∧ h.vexcRestored.time = h.time := by
  rw [Hub.vexcRestored_eq]
  exact ⟨Hub.each_keeps Hub.pwr _ _ _ fun g n _ => (g.supplyBack_keeps n).1, Hub.each_keeps Hub.time _ _ _ fun g n _ => (g.supplyBack_keeps n).2⟩

theorem Hub.supplyBack_excCell_same (h : Hub) (k : Nat) (on_ : (h.chan k).exMode ≠ 0) (driven : (h.chan k).shed = false) :
    (h.supplyBack k).excCell k = (h.excCell k).shown.drive h.mayDrive := by
  have apart := h.showExcf_apart k k
  have drives : ¬(((h.showExcf k).chan k).exMode = 0 ∨ ((h.showExcf k).chan k).shed = true) := by
    rw [Chan.exMode_of_apart apart, Chan.shed_of_apart apart, driven]
    simp [on_]
  rw [Hub.supplyBack, if_neg drives, Hub.setChan_excCell_same, Hub.showExcf_excCell_same, Hub.showExcf_mayDrive]

/-- A cell with its supply, neither shed nor folded. -/
theorem ExcCell.shown_free (c : ExcCell) (ok : c.pwr.vexcOk = true) (driven : c.chan.shed = false) (free : c.folded = 0) : c.shown.excf = 0 := by
  simp [ExcCell.shown, ExcCell.fault, ok, driven, free, b2n]

/-- What the return of VEXC over a list of channels leaves at one of them. -/
theorem Hub.supplyBack_each (h : Hub) (l : List Nat) (nodup : l.Nodup) (mem : k ∈ l) (ok : h.pwr.vexcOk = true) (on_ : (h.chan k).exMode ≠ 0)
    (driven : (h.chan k).shed = false) (free : h.get (CH_EXCS_FOLDED k) = 0) :
    ((h.each l Hub.supplyBack).chan k).driving = (h.mode != 6) ∧ (h.each l Hub.supplyBack).get (CH_EXCS_EXCF k) = 0 := by
  refine Hub.each_reaches (fun g => g.excCell k)
    (fun c => c.pwr.vexcOk = true ∧ c.chan.exMode = (h.chan k).exMode ∧ c.chan.shed = false ∧ c.folded = 0 ∧ c.mode = h.get DEV_MODE_MODE)
    (fun c => c.chan.driving = (h.mode != 6) ∧ c.excf = 0) Hub.supplyBack k l nodup mem
    (fun g start => ?_) (fun g n ne => g.supplyBack_excCell ne) h ⟨ok, rfl, driven, free, rfl⟩
  obtain ⟨ok, exMode, shed, open_, mode⟩ := start
  rw [g.supplyBack_excCell_same k (fun e => on_ (exMode.symm.trans e)) shed]
  have may : g.mayDrive = (h.mode != 6) := by
    have powered : g.pwr.vexcOk = true := ok
    have same : g.mode = h.mode := mode
    rw [Hub.mayDrive, powered, same]
    rfl
  exact ⟨may, ExcCell.shown_free (g.excCell k) ok shed open_⟩

end supply

/-! ## The start of a group (R95, R96) -/

section group
variable {h : Hub}

/-- One channel of a group that starts at `t`. -/
def Hub.groupDrive (t : Nat) (h : Hub) (n : Nat) : Hub :=
  if (h.chan n).exMode ≠ 0 ∧ !(h.chan n).shed then
    h.drive n t (if h.exc.carriers.contains n then h.carrierSettle n else h.startSettle n (h.chan n).exMode (h.chan n).carP (h.chan n).carQ)
  else h

theorem Hub.groupDrive_only (t : Nat) (h : Hub) (n : Nat) :
    OnlyRegs [CH_EXCS_COMPLIANCE n, CH_EXCS_EXCF n, CH_EXCS_REASON n] h (h.groupDrive t n) := by
  unfold Hub.groupDrive
  split
  · exact h.drive_only n t _
  · exact onlyRegs_refl _ h

theorem Hub.groupDrive_keeps (t : Nat) (h : Hub) (n : Nat) : (h.groupDrive t n).time = h.time ∧ (h.groupDrive t n).exc = h.exc := by
  unfold Hub.groupDrive
  split
  · exact (h.drive_keeps n t _).2
  · exact ⟨rfl, rfl⟩

theorem Hub.groupStart_first {t : Nat} {l : List Nat} {rest : List (Nat × List Nat)} (groups : h.exc.groups = (t, l) :: rest) :
    h.groupStart = ((h.upTo t).setExc { h.exc with groups := rest }).each l (Hub.groupDrive t) := by
  unfold Hub.groupStart
  rw [groups]
  rfl

theorem Hub.groupStart_leaves {t : Nat} {l : List Nat} {rest : List (Nat × List Nat)} (groups : h.exc.groups = (t, l) :: rest) :
    h.groupStart.time.now = max h.time.now t ∧ h.groupStart.exc.groups = rest
    ∧ OnlyRegs (l.flatMap fun k => [CH_EXCS_COMPLIANCE k, CH_EXCS_EXCF k, CH_EXCS_REASON k]) h h.groupStart := by
  rw [Hub.groupStart_first groups]
  refine ⟨?_, ?_, ?_⟩
  · rw [Hub.each_keeps Hub.time _ l _ fun g n _ => (g.groupDrive_keeps t n).1]
    rfl
  · rw [Hub.each_keeps Hub.exc _ l _ fun g n _ => (g.groupDrive_keeps t n).2]
    rfl
  · exact Hub.each_only (Hub.groupDrive t) _ l _ (Hub.groupDrive_only t)

end group

theorem exec_vexcLoss (s : State) : exec .vexcLoss s = .next (s.onHub Hub.vexcLoss) := rfl

theorem exec_vexcRestored (s : State) : exec .vexcRestored s = .next (s.onHub Hub.vexcRestored) := rfl

/-- Settles O23: the governor and fold-back by their branches; for the supply, what each channel of the loop does to its own cell and that it leaves the
other cells. -/
theorem governorAndSupply : Obligations.GovernorAndSupply := by
  refine ⟨fun s draws up => ?_, fun s n => ?_⟩ <;> dsimp only
  · refine ⟨fun idle => ⟨?_, ?_, ?_⟩, fun acts => ⟨fun within => ?_, fun _ => ?_, fun within => ?_, fun above few => ?_, fun n t above fifth first rest => ?_⟩,
      fun n acts on_ due first => ?_⟩
    · exact gives_onHub (exec_governorWindowEnd up draws) (Hub.govWindow_idle idle)
    · exact gives_onHub (exec_fastTrip up draws) (Hub.fastMeasure_idle idle)
    · exact gives_onHub (exec_autoRestore up) (Hub.autoRestore_idle idle)
    · exact gives_onHub (exec_governorWindowEnd up draws) ((Hub.govWindow_acts acts).trans (Hub.shedDown_within _ _ within))
    · exact gives_onHub (exec_governorWindowEnd up draws) (Hub.govWindow_acts acts)
    · exact gives_onHub (exec_fastTrip up draws) (Hub.fastMeasure_within acts within)
    · exact gives_onHub (exec_fastTrip up draws) (Hub.fastMeasure_counts acts above few)
    · refine gives_onHub (exec_fastTrip up draws) ((Hub.fastMeasure_trips acts above fifth).trans ?_)
      rw [show s.hw.hub.tripped.candidates = n :: t from first]
      exact Hub.shedDown_first _ t (by omega) rest
    · exact gives_onHub (exec_autoRestore up) (Hub.autoRestore_first acts on_ due first)
  · refine ⟨fun up driving driven out => ?_, fun up none_ folded => ⟨?_, ?_⟩, fun up e some_ => ?_, ?_, ?_, fun t l rest up groups => ?_⟩
    · refine leads_onHub (exec_foldBack up n) ?_
      rcases Hub.foldBack_folds driving out with e | e <;> rw [e] <;> exact Hub.fold_shows ((congrArg Chan.shed (Hub.setChan_chan_same _ n.val _)).trans driven)
    · exact gives_onHub (exec_foldBack up n) (Hub.foldBack_between none_ folded)
    · refine leads_onHub (exec_foldRetry up n) ?_
      rw [Hub.foldRetry_folded none_ folded]
      exact Hub.retried_acts _
    · refine leads_onHub (exec_foldRetryEnd up n) ?_
      rw [Hub.foldRetryEnd_some some_]
      exact Hub.unfolded_acts e
    · obtain ⟨pwr, time⟩ := s.hw.hub.vexcLoss_keeps
      exact leads_onHub (exec_vexcLoss s) ⟨pwr, time, fun k lt on_ => Hub.supplyLost_each _ chanList List.nodup_range (List.mem_range.2 lt) rfl on_⟩
    · obtain ⟨pwr, time⟩ := s.hw.hub.vexcRestored_keeps
      exact leads_onHub (exec_vexcRestored s) ⟨pwr, time, fun k lt on_ driven free => Hub.supplyBack_each _ chanList List.nodup_range (List.mem_range.2 lt) rfl on_ driven free⟩
    · exact leads_onHub (exec_excGroupStart up) (Hub.groupStart_leaves groups)

end Sys2Proof.Machine
end

section
/-! OBLIGATION O42. Training of a link (R294 to R296, R298, R299, R302 to R305, R307, R308, R314, R446). -/

namespace Sys2Proof.Machine

theorem exec_signalDetect {s : State} (up : s.up) (k : Fin 64) : exec (.signalDetect k) s = .next (s.onHub fun h => h.signalDetect k) :=
  exec_whenLanes_up up rfl

theorem exec_quietProbe {s : State} (up : s.up) (k : Fin 64) : exec (.quietProbe k) s = .next (s.onHub fun h => h.quietProbe k) := exec_whenLanes_up up rfl

theorem exec_backoffEnd {s : State} (up : s.up) (k : Fin 64) : exec (.backoffEnd k) s = .next (s.onHub fun h => h.backoffEnd k) := exec_whenLanes_up up rfl

theorem exec_trainTimeout {s : State} (up : s.up) (k : Fin 64) : exec (.trainTimeout k) s = .next (s.onHub fun h => h.trainTimeoutEv k) :=
  exec_whenLanes_up up rfl

theorem exec_retrain {s : State} (a : s.alone) (n : Fin 64) : exec (.retrain n) s = .next (s.onHub fun h => h.retrain n) := exec_hubWr_alone a rfl

theorem exec_lanePllRelock {s : State} (up : s.up) (q : Fin 16) : exec (.lanePllRelock q) s = .next (s.onHub fun h => h.laneRelock q) :=
  exec_whenLanes_up up rfl

theorem exec_linkPlanWrite {s : State} (a : s.alone) (n : Fin 64) (what : Fin 3) (v : Fin 8) :
    exec (.linkPlanWrite n what v) s = .next (s.onHub fun h => h.planWrite n what v) :=
  congrArg (fun h => Host.Outcome.next (s.withHub h)) (Hub.hostWr_alone a _ _ _)

theorem exec_cdrLock {s : State} (up : s.up) (n : Fin 64) : exec (.cdrLock n) s = .next (s.onHub fun h => h.cdrLock n) := exec_whenLanes_up up rfl

theorem exec_slipStep {s : State} (up : s.up) (n : Fin 64) (found : Bool) : exec (.slipStep n found) s = .next (s.onHub fun h => h.slipStep n found) :=
  exec_whenLanes_up up rfl

theorem exec_slipWrite {s : State} (a : s.alone) (n : Fin 64) (v : Fin 128) (run : Nat) :
    exec (.slipWrite n v run) s = .next (s.onHub fun h => h.slipWrite n v run) := exec_hubWr_alone a rfl

theorem exec_autoPol {s : State} (up : s.up) (n : Fin 64) : exec (.autoPol n) s = .next (s.onHub fun h => h.autoPol n) := exec_whenLanes_up up rfl

theorem exec_adaptationDone {s : State} (up : s.up) (n : Fin 64) (eye : Fin 65) (eyes : List (Fin 65)) :
    exec (.adaptationDone n eye eyes) s = .next (s.onHub fun h => h.adaptationDone n eye (eyes.map (·.val))) := exec_whenLanes_up up rfl

theorem exec_trainRx {s : State} (up : s.up) (n : Fin 64) (o rate : Fin 16) (width pos : Fin 4) (ready : Bool) :
    exec (.trainRx n (o, rate) width pos ready) s = .next (s.onHub fun h => h.trainRx n o rate width pos ready) := exec_whenLanes_up up rfl

theorem exec_markerRx {s : State} (up : s.up) (k : Fin 64) (skew : Nat) : exec (.markerRx k skew) s = .next (s.onHub fun h => h.markerRx k skew) :=
  exec_whenLanes_up up rfl

theorem exec_idleColumnSend {s : State} (up : s.up) (k : Fin 64) : exec (.idleColumnSend k) s = .next (s.onHub fun h => h.idleColumn k) :=
  exec_whenLanes_up up rfl

theorem exec_markerSend {s : State} (up : s.up) (k : Fin 64) : exec (.markerSend k) s = .next (s.onHub fun h => h.markerSend k) :=
  exec_whenLanes_up up rfl

/-! ## The state of a link -/

section linkState
variable {h : Hub} {k : Nat}

theorem LANE_STATE_ne {n m : Nat} (ne : n ≠ m) : (LANE_STATE m).key ≠ (LANE_STATE n).key := by
  simp only [ne_eq, Field.key, LANE_STATE]
  omega

/-- Every lane of a link reports the state that is set. -/
theorem Hub.setLinkState_laneState (h : Hub) (k : Nat) {st : Nat} (small : st < 16) {n : Nat} (mem : n ∈ h.linkLanes k) :
    (h.setLinkState k st).laneState n = st := by
  have nodup : (h.linkLanes k).Nodup := List.nodup_range.map fun _ _ e => Nat.add_right_cancel e
  refine Hub.each_reaches (fun g => g.laneState n) (fun _ => True) (· = st) (fun h n => h.set (LANE_STATE n) st) n (h.linkLanes k) nodup mem
    (fun g _ => ?_) (fun g m ne => Hub.get_set_ne g _ _ st (LANE_STATE_ne ne)) h trivial
  exact (Hub.get_set_same g _ st).trans (Nat.mod_eq_of_lt small)

theorem Hub.setLinkState_only (h : Hub) (k st : Nat) : OnlyRegs ((h.linkLanes k).map LANE_STATE) h (h.setLinkState k st) := fun f out => by
  refine Hub.each_keeps (fun g => g.get f) _ _ h fun g n mem => Hub.get_set_ne g _ f st fun e => out ?_
  exact e ▸ List.mem_map.2 ⟨_, List.mem_map.2 ⟨n, mem, rfl⟩, rfl⟩

theorem Hub.setLinkState_lane (h : Hub) (k st n : Nat) : (h.setLinkState k st).lane n = h.lane n :=
  Hub.each_keeps (fun g => g.lane n) _ _ h fun _ _ _ => rfl

/-- A register that is no lane's state keeps its value. -/
theorem Hub.setLinkState_get (h : Hub) (k st : Nat) (f : Field) (other : ∀ n, f.key ≠ (LANE_STATE n).key) : (h.setLinkState k st).get f = h.get f :=
  Hub.each_keeps (fun g => g.get f) _ _ h fun g n _ => Hub.get_set_ne g _ f st (other n)

end linkState

/-! ## Attempts (R307, R308) -/

section attempts
variable {h : Hub} {k : Nat}

/-- The lanes of a link have one MODE, and it is not OFF. -/
def Hub.oneMode (h : Hub) (k : Nat) : Prop := ∀ n ∈ h.linkLanes k, h.get (LANE_MODE n) = h.get (LANE_MODE k) ∧ h.get (LANE_MODE n) ≠ 0

theorem Hub.oneMode_iff : ((h.linkLanes k).any fun n => h.get (LANE_MODE n) != h.get (LANE_MODE k) || h.get (LANE_MODE n) == 0) = false ↔ h.oneMode k := by
  simp [Hub.oneMode, List.any_eq_false]

/-- The hub with signal on every lane of the link. -/
def Hub.signalSeen (h : Hub) (k : Nat) : Hub := h.each (h.linkLanes k) fun h n => h.off (LANE_LOS n)

theorem Hub.signalDetect_other (other : h.get (LANE_LINK_LEAD k) = 0) : h.signalDetect k = h := if_pos (by simp [Hub.bit_of_zero other])

theorem Hub.signalDetect_unlike (lead : h.get (LANE_LINK_LEAD k) = 1) (unlike : ¬h.oneMode k) : h.signalDetect k = h :=
  (if_neg (by simp [Hub.bit_of_one lead])).trans (if_pos (Bool.not_eq_false _ ▸ fun e => unlike (Hub.oneMode_iff.1 e)))

theorem Hub.signalDetect_alike (lead : h.get (LANE_LINK_LEAD k) = 1) (same : h.oneMode k) : h.signalDetect k =
    if h.laneState k = lsDetect ∧ !(h.lane k).pllLost then (h.signalSeen k).setLinkState k lsAlign
    else if h.laneState k = lsBackoff then (h.signalSeen k).startAttempt k false
    else if h.laneState k = lsQuiet then (h.signalSeen k).startAttempt k true else h.signalSeen k :=
  (if_neg (by simp [Hub.bit_of_one lead])).trans (if_neg (ne_true_of_eq_false (Hub.oneMode_iff.2 same)))

theorem Hub.signalDetect_detect (lead : h.get (LANE_LINK_LEAD k) = 1) (same : h.oneMode k) (st : h.laneState k = 1) (pll : (h.lane k).pllLost = false) :
    h.signalDetect k = (h.signalSeen k).setLinkState k 2 := (Hub.signalDetect_alike lead same).trans (if_pos ⟨st, by simp [pll]⟩)

theorem Hub.signalDetect_backoff (lead : h.get (LANE_LINK_LEAD k) = 1) (same : h.oneMode k) (st : h.laneState k = 7) :
    h.signalDetect k = (h.signalSeen k).startAttempt k false :=
  (Hub.signalDetect_alike lead same).trans ((if_neg (by simp [st, lsDetect])).trans (if_pos st))

theorem Hub.signalDetect_quiet (lead : h.get (LANE_LINK_LEAD k) = 1) (same : h.oneMode k) (st : h.laneState k = 8) :
    h.signalDetect k = (h.signalSeen k).startAttempt k true :=
  (Hub.signalDetect_alike lead same).trans ((if_neg (by simp [st, lsDetect])).trans ((if_neg (by simp [st, lsBackoff])).trans (if_pos st)))

theorem Hub.backoffEnd_due (lead : h.get (LANE_LINK_LEAD k) = 1) (st : h.laneState k = 7) :
    h.backoffEnd k = (h.upTo (h.lane k).backoffEnd).startAttempt k false := if_pos (by simp [Hub.bit_of_one lead, st, lsBackoff])

theorem Hub.backoffEnd_other (other : h.get (LANE_LINK_LEAD k) = 0) : h.backoffEnd k = h := if_neg (by simp [Hub.bit_of_zero other])

theorem Hub.quietProbe_due {q : Nat} (lead : h.get (LANE_LINK_LEAD k) = 1) (st : h.laneState k = 8) (at_ : (h.lane k).quietAt = some q) :
    h.quietProbe k = (h.upTo (q + ((h.time.now - q) / secU + 1) * secU)).startAttempt k true := by
  unfold Hub.quietProbe
  rw [if_pos (by simp [Hub.bit_of_one lead, st, lsQuiet]), at_]
  rfl

theorem Hub.quietProbe_other (other : h.get (LANE_LINK_LEAD k) = 0) : h.quietProbe k = h := if_neg (by simp [Hub.bit_of_zero other])

theorem Hub.trainTimeoutEv_due (lead : h.get (LANE_LINK_LEAD k) = 1) (low : 1 ≤ h.laneState k) (high : h.laneState k ≤ 4)
    (pll : (h.lane k).pllLost = false) : h.trainTimeoutEv k = (h.upTo (h.lane k).deadline).attemptFails k :=
  if_pos (by simp [Hub.bit_of_one lead, pll, Hub.training, lsDetect, lsDeskew, low, high])

theorem Hub.trainTimeoutEv_other (other : h.get (LANE_LINK_LEAD k) = 0) : h.trainTimeoutEv k = h := if_neg (by simp [Hub.bit_of_zero other])

/-- The failures and attempts of a link after one more. -/
def Hub.failCounted (h : Hub) (k : Nat) : Hub :=
  (h.bump (LANE_TRAIN_FAILS k) (LANE_SAT k)).set (LANE_TRAIN_ATTEMPTS k) (min 255 (h.get (LANE_TRAIN_ATTEMPTS k) + 1))

theorem Hub.failCounted_retries : (h.failCounted k).trainRetries k = h.trainRetries k := by
  rw [Hub.trainRetries, Hub.failCounted, Hub.get_set_ne _ _ _ _ (by simp [Field.key, LANE_TRAIN_RETRIES, LANE_TRAIN_ATTEMPTS]),
    Hub.bump_get_ne _ _ _ _ (by simp only [ne_eq, Field.key, LANE_TRAIN_RETRIES, LANE_TRAIN_FAILS]; omega)
      (by simp only [ne_eq, Field.key, LANE_TRAIN_RETRIES, LANE_SAT]; omega)]
  rfl

theorem Hub.failCounted_lane : (h.failCounted k).lane k = h.lane k := by
  rw [Hub.lane, Hub.failCounted, Hub.set_lanes, Hub.bump_lanes, ← Hub.lane]

theorem Hub.failCounted_now : (h.failCounted k).time.now = h.time.now := by rw [Hub.failCounted, Hub.set_time, bump_time]

/-- A failed attempt, by its probe and its count (R308). -/
theorem Hub.attemptFails_eq : h.attemptFails k =
    if (h.lane k).probe then (h.failCounted k).setLinkState k 8
    else if min 255 (h.get (LANE_TRAIN_ATTEMPTS k) + 1) < h.trainRetries k then
      ((h.failCounted k).setLinkState k 7).modLane k fun l =>
        { l with backoffEnd := h.time.now + min (2 ^ (min 255 (h.get (LANE_TRAIN_ATTEMPTS k) + 1) - 1)) 1000 * msU }
    else
      let y := ((h.failCounted k).setLinkState k 8).modLane k fun l => { l with quietAt := some h.time.now }
      ((y.each (y.linkLanes k) fun h n => h.on (LANE_PARKED n)).log .laneParked k 0 0).irqLane k := by
  have attempts : (h.bump (LANE_TRAIN_FAILS k) (LANE_SAT k)).get (LANE_TRAIN_ATTEMPTS k) = h.get (LANE_TRAIN_ATTEMPTS k) :=
    Hub.bump_get_ne _ _ _ _ (by simp only [ne_eq, Field.key, LANE_TRAIN_ATTEMPTS, LANE_TRAIN_FAILS]; omega)
      (by simp only [ne_eq, Field.key, LANE_TRAIN_ATTEMPTS, LANE_SAT]; omega)
  unfold Hub.attemptFails
  dsimp only
  rw [attempts]
  have counted : (h.bump (LANE_TRAIN_FAILS k) (LANE_SAT k)).set (LANE_TRAIN_ATTEMPTS k) (min 255 (h.get (LANE_TRAIN_ATTEMPTS k) + 1)) = h.failCounted k := rfl
  simp only [counted, Hub.failCounted_lane, Hub.failCounted_now, Hub.failCounted_retries]
  rfl

theorem Hub.retrain_restarts (mode : h.get (LANE_MODE k) = 1 ∨ h.get (LANE_MODE k) = 2) (st : h.laneState k ≠ 9) : h.retrain k = h.replan (h.leadOf k) :=
  if_pos ⟨mode, st⟩

theorem Hub.retrain_idle (none_ : h.get (LANE_MODE k) = 0 ∨ h.get (LANE_MODE k) = 3 ∨ h.laneState k = 9) : h.retrain k = h := by
  refine if_neg ?_
  rintro ⟨mode, st⟩
  rcases none_ with off_ | test | test
  · omega
  · omega
  · exact st test

end attempts

/-! ## The link plan (R293 to R296) -/

section plan
variable {h : Hub} {n v : Nat}

/-- The plan changes in IDLE and MAINTENANCE alone. -/
theorem Hub.planClosed_iff : (!decide (h.mode = mIdle ∨ h.mode = mMaint)) = true ↔ ¬(h.mode = 1 ∨ h.mode = 7) := by
  rw [Bool.not_eq_true', decide_eq_false_iff_not]
  rfl

/-- A write of MODE. -/
theorem Hub.planWrite_mode : h.planWrite n 0 v =
    if h.get (LANE_MODE n) = v then h
    else if (!decide (h.mode = mIdle ∨ h.mode = mMaint)) = true
        ∨ (v = 2 ∧ (8 ≤ n ∨ h.get (LANE_LINK_WIDTH (h.leadOf n)) ≠ 0 ∨ h.get (LANE_QCFG_RATE (4 * (n / 4))) ≠ 0)) ∨ (v = 3 ∧ h.mode ≠ mMaint) ∨ 3 < v then
      h.on (LANE_WERR n)
    else ((h.linkLost (h.leadOf n)).set (LANE_MODE n) v).replan (h.leadOf n) := rfl

/-- A write of RATE. -/
theorem Hub.planWrite_rate : h.planWrite n 1 v =
    if n % 4 ≠ 0 then h.on (LANE_WERR n)
    else if h.get (LANE_QCFG_RATE n) = v then h
    else if (!decide (h.mode = mIdle ∨ h.mode = mMaint)) = true ∨ v = 7 ∨ (v ≠ 0 ∧ (quadLanes (n / 4)).any h.isEth) then h.on (LANE_WERR n)
    else (h.set (LANE_QCFG_RATE n) v).each (h.leadsOf (quadLanes (n / 4))) Hub.replan := rfl

/-- A write of the width. -/
theorem Hub.planWrite_width : h.planWrite n 2 v =
    if !h.bit (LANE_LINK_LEAD n) then h.on (LANE_WERR n)
    else if h.get (LANE_LINK_WIDTH n) = v then h
    else if (!decide (h.mode = mIdle ∨ h.mode = mMaint)) = true ∨ 2 < v ∨ (v ≠ 0 ∧ (List.range (2 ^ v)).any fun i => h.isEth (n + i)) ∨ n % 2 ^ v ≠ 0 then h.on (LANE_WERR n)
    else
      (Hub.assignLanes 64 0 ((h.each (h.leadsOf (quadLanes (n / 4))) Hub.linkLost).set (LANE_LINK_WIDTH n) v)).each
        ((Hub.assignLanes 64 0 ((h.each (h.leadsOf (quadLanes (n / 4))) Hub.linkLost).set (LANE_LINK_WIDTH n) v)).leadsOf (quadLanes (n / 4))) Hub.replan := rfl

theorem Hub.planMode_same (same : h.get (LANE_MODE n) = v) : h.planWrite n 0 v = h := Hub.planWrite_mode.trans (if_pos same)

theorem Hub.planMode_refused (new : h.get (LANE_MODE n) ≠ v) (idle : h.mode ≠ 1) (maint : h.mode ≠ 7) : h.planWrite n 0 v = h.on (LANE_WERR n) :=
  Hub.planWrite_mode.trans ((if_neg new).trans (if_pos (.inl (Hub.planClosed_iff.2 fun cfg => cfg.elim idle maint))))

theorem Hub.planMode_taken (new : h.get (LANE_MODE n) ≠ v) (cfg : h.mode = 1 ∨ h.mode = 7) (plain : v = 0 ∨ v = 1) :
    h.planWrite n 0 v = ((h.linkLost (h.leadOf n)).set (LANE_MODE n) v).replan (h.leadOf n) := by
  refine Hub.planWrite_mode.trans ((if_neg new).trans (if_neg ?_))
  rintro (closed | ⟨eth, _⟩ | ⟨test, _⟩ | above)
  · exact Hub.planClosed_iff.1 closed cfg
  · omega
  · omega
  · omega

theorem Hub.planRate_inner (inner : n % 4 ≠ 0) : h.planWrite n 1 v = h.on (LANE_WERR n) := Hub.planWrite_rate.trans (if_pos inner)

theorem Hub.planRate_taken (first : n % 4 = 0) (new : h.get (LANE_QCFG_RATE n) ≠ v) (cfg : h.mode = 1 ∨ h.mode = 7) (rate : v ≠ 7)
    (kamrel : v = 0 ∨ (quadLanes (n / 4)).any h.isEth = false) :
    h.planWrite n 1 v = (h.set (LANE_QCFG_RATE n) v).each (h.leadsOf (quadLanes (n / 4))) Hub.replan := by
  refine Hub.planWrite_rate.trans ((if_neg (not_not.2 first)).trans ((if_neg new).trans (if_neg ?_)))
  rintro (closed | seven | ⟨set_, eth⟩)
  · exact Hub.planClosed_iff.1 closed cfg
  · exact rate seven
  · rcases kamrel with zero | none_
    · exact set_ zero
    · rw [none_] at eth
      exact Bool.false_ne_true eth

theorem Hub.planWidth_other (other : h.get (LANE_LINK_LEAD n) = 0) : h.planWrite n 2 v = h.on (LANE_WERR n) :=
  Hub.planWrite_width.trans (if_pos (by simp [Hub.bit_of_zero other]))

theorem Hub.planWidth_refused (lead : h.get (LANE_LINK_LEAD n) = 1) (new : h.get (LANE_LINK_WIDTH n) ≠ v)
    (bad : (h.mode ≠ 1 ∧ h.mode ≠ 7) ∨ 2 < v ∨ n % 2 ^ v ≠ 0) : h.planWrite n 2 v = h.on (LANE_WERR n) := by
  refine Hub.planWrite_width.trans ((if_neg (by simp [Hub.bit_of_one lead])).trans ((if_neg new).trans (if_pos ?_)))
  rcases bad with ⟨idle, maint⟩ | above | odd
  · exact .inl (Hub.planClosed_iff.2 fun cfg => cfg.elim idle maint)
  · exact .inr (.inl above)
  · exact .inr (.inr (.inr odd))

end plan

/-! ## CDR lock, the search and the polarity (R299, R304, R305) -/

section search
variable {h : Hub} {n : Nat}

theorem Hub.cdrLock_locks (st : h.laneState n = 2 ∨ h.laneState n = 9) :
    h.cdrLock n = (h.on (LANE_CDR_LOCK n)).modLane n fun l => { l with since := h.time.now } := if_pos (st.elim .inl (.inr ∘ .inl))

theorem Hub.cdrLock_idle (align : h.laneState n ≠ 2) (test : h.laneState n ≠ 9) (wake : (h.lane n).rxWake = none) : h.cdrLock n = h := by
  refine if_neg ?_
  rintro (st | st | waking)
  · exact align st
  · exact test st
  · rw [wake] at waking
    exact Bool.false_ne_true waking

/-- The hub with one more offset tried. -/
def Hub.slipTried (h : Hub) (n : Nat) : Hub :=
  ((h.blocksPass n 66).set (LANE_RX_SLIP n) (((h.lane n).searchStart + (h.lane n).tried) % 66)).setLane n
    { (h.blocksPass n 66).lane n with tried := ((h.lane n).tried + 1) % 66 }

theorem Hub.blocksPass_lane (h : Hub) (n blocks : Nat) : (h.blocksPass n blocks).lane n =
    { h.lane n with since := (h.upTo ((h.lane n).since + blocksTime (h.rateOf n) blocks)).time.now } := Hub.modLane_lane_same _ n _

theorem Hub.slipStep_searches (st : h.laneState n = 2) (cdr : h.get (LANE_CDR_LOCK n) = 1) (lock : h.get (LANE_BLOCK_LOCK n) = 0)
    (auto_ : h.mode ≠ 7 ∨ h.get (LANE_MANUAL_ALIGN n) = 0) (found : Bool) : h.slipStep n found =
      if found then (((h.slipTried n).set (LANE_RX_SH_RUN n) 64).on (LANE_BLOCK_LOCK n)).alignDone ((h.slipTried n).leadOf n)
      else (h.slipTried n).set (LANE_RX_SH_RUN n) 0 := by
  have free : (!(h.mode == mMaint && h.bit (LANE_MANUAL_ALIGN n))) = true := by
    rcases auto_ with mode | manual
    · simp [mMaint, mode]
    · simp [Hub.bit_of_zero manual]
  refine (if_pos ⟨st, Hub.bit_of_one cdr, by simp [Hub.bit_of_zero lock], free⟩).trans ?_
  dsimp only
  rw [Hub.slipTried, Hub.blocksPass_lane]

variable {v run : Nat}

/-- The hub with the boundary set by hand. -/
def Hub.slipSet (h : Hub) (n v run : Nat) : Hub := (h.set (LANE_RX_SLIP n) v).set (LANE_RX_SH_RUN n) (min 65535 run)

theorem Hub.slipWrite_short (mode : h.mode = 7) (manual : h.get (LANE_MANUAL_ALIGN n) = 1) (within : v ≤ 65) (short : run < 64) :
    h.slipWrite n v run = (h.slipSet n v run).off (LANE_BLOCK_LOCK n) :=
  (if_pos ⟨mode, Hub.bit_of_one manual, within⟩).trans (if_neg (Nat.not_le.2 short))

theorem Hub.slipWrite_locks (mode : h.mode = 7) (manual : h.get (LANE_MANUAL_ALIGN n) = 1) (within : v ≤ 65) (long : 64 ≤ run) :
    h.slipWrite n v run = ((h.slipSet n v run).on (LANE_BLOCK_LOCK n)).alignDone ((h.slipSet n v run).leadOf n) :=
  (if_pos ⟨mode, Hub.bit_of_one manual, within⟩).trans (if_pos long)

theorem Hub.slipWrite_refused (bad : h.mode ≠ 7 ∨ h.get (LANE_MANUAL_ALIGN n) = 0 ∨ 65 < v) : h.slipWrite n v run = h.on (LANE_WERR n) := by
  refine if_neg ?_
  rintro ⟨mode, manual, within⟩
  rcases bad with other | auto_ | above
  · exact other mode
  · rw [Hub.bit_of_zero auto_] at manual
    exact Bool.false_ne_true manual
  · exact Nat.not_le.2 above within

theorem Hub.autoPol_off (off_ : h.get (LANE_AUTO_POL n) = 0) : h.autoPol n = h := by
  refine if_neg ?_
  rintro ⟨on_, _⟩
  rw [Hub.bit_of_zero off_] at on_
  exact Bool.false_ne_true on_

/-- The registers of a lane whose polarity toggles. -/
def Hub.polarised (h : Hub) (n : Nat) : Hub := ((h.set (LANE_RX_INV n) (1 - h.get (LANE_RX_INV n))).on (LANE_RX_INV_AUTO n)).off (LANE_BLOCK_LOCK n)

theorem Hub.autoPol_toggles (on_ : h.get (LANE_AUTO_POL n) = 1) (lock : h.get (LANE_BLOCK_LOCK n) = 1) (st : h.laneState n = 2 ∨ h.laneState n = 3)
    (kamrel : h.get (LANE_MODE n) ≠ 2) : h.autoPol n =
      ((h.polarised n).modLane n fun l => { l with searchStart := (h.polarised n).get (LANE_RX_SLIP n), tried := 0 }).setLinkState
        ((h.polarised n).leadOf n) lsAlign :=
  if_pos ⟨Hub.bit_of_one on_, Hub.bit_of_one lock, st, by simp [Hub.isEth, kamrel]⟩

theorem Hub.polarised_shows (h : Hub) (n : Nat) : (h.polarised n).get (LANE_RX_INV n) = 1 - h.get (LANE_RX_INV n)
    ∧ (h.polarised n).get (LANE_RX_INV_AUTO n) = 1 ∧ (h.polarised n).get (LANE_BLOCK_LOCK n) = 0
    ∧ (h.polarised n).get (LANE_RX_SLIP n) = h.get (LANE_RX_SLIP n) := by
  refine ⟨?_, ?_, Hub.get_off_same _ _, ?_⟩
  · rw [Hub.polarised, Hub.get_off_ne _ _ _ (by simp only [ne_eq, Field.key, LANE_RX_INV, LANE_BLOCK_LOCK]; omega),
      Hub.get_on_ne _ _ _ (by simp only [ne_eq, Field.key, LANE_RX_INV, LANE_RX_INV_AUTO]; omega)]
    exact (Hub.get_set_same _ _ _).trans (Nat.mod_eq_of_lt (Nat.lt_succ_of_le (Nat.sub_le 1 _)))
  · rw [Hub.polarised, Hub.get_off_ne _ _ _ (by simp [Field.key, LANE_RX_INV_AUTO, LANE_BLOCK_LOCK])]
    exact Hub.get_on_same _ _ (Nat.succ_pos 0)
  · rw [Hub.polarised, Hub.get_off_ne _ _ _ (by simp only [ne_eq, Field.key, LANE_RX_SLIP, LANE_BLOCK_LOCK]; omega),
      Hub.get_on_ne _ _ _ (by simp only [ne_eq, Field.key, LANE_RX_SLIP, LANE_RX_INV_AUTO]; omega),
      Hub.get_set_ne _ _ _ _ (by simp only [ne_eq, Field.key, LANE_RX_SLIP, LANE_RX_INV]; omega)]

theorem Hub.autoPol_shows (on_ : h.get (LANE_AUTO_POL n) = 1) (lock : h.get (LANE_BLOCK_LOCK n) = 1) (st : h.laneState n = 2 ∨ h.laneState n = 3)
    (kamrel : h.get (LANE_MODE n) ≠ 2) : (h.autoPol n).get (LANE_RX_INV n) = 1 - h.get (LANE_RX_INV n) ∧ (h.autoPol n).get (LANE_RX_INV_AUTO n) = 1
      ∧ (h.autoPol n).get (LANE_BLOCK_LOCK n) = 0 ∧ ((h.autoPol n).lane n).searchStart = h.get (LANE_RX_SLIP n) ∧ ((h.autoPol n).lane n).tried = 0 := by
  obtain ⟨inv, by_, block, slip⟩ := h.polarised_shows n
  rw [Hub.autoPol_toggles on_ lock st kamrel, Hub.setLinkState_lane, Hub.modLane_lane_same, slip]
  refine ⟨?_, ?_, ?_, rfl, rfl⟩
  · rw [Hub.setLinkState_get _ _ _ _ fun m => by simp only [ne_eq, Field.key, LANE_RX_INV, LANE_STATE]; omega]
    exact inv
  · rw [Hub.setLinkState_get _ _ _ _ fun m => by simp only [ne_eq, Field.key, LANE_RX_INV_AUTO, LANE_STATE]; omega]
    exact by_
  · rw [Hub.setLinkState_get _ _ _ _ fun m => by simp only [ne_eq, Field.key, LANE_BLOCK_LOCK, LANE_STATE]; omega]
    exact block

end search

/-! ## The eye and the TRAIN sets (R298, R302, R307) -/

section eye
variable {h : Hub} {n eye : Nat} {eyes : List Nat}

/-- The hub with an eye measured. -/
def Hub.eyeSeen (h : Hub) (n w : Nat) : Hub := (h.set (LANE_EYE_WIDTH n) w).modLane n fun l => { l with adapted := true }

/-- The hub with the widest eye and its code kept. -/
def Hub.eyeChosen (h : Hub) (n : Nat) (eyes : List Nat) : Hub :=
  ((h.blocksPass n 65536).eyeSeen n (widest eyes)).set (LANE_EYE_PEAK_CHOSEN n) (eyes.findIdx (· == widest eyes))

theorem Hub.adaptationDone_idle (st : h.laneState n ≠ 3) : h.adaptationDone n eye eyes = h := if_neg st

theorem Hub.adaptationDone_manual (st : h.laneState n = 3) (manual : h.get (LANE_CTLE_MANUAL n) = 1) : h.adaptationDone n eye eyes = h.eyeSeen n eye :=
  (if_pos st).trans (if_pos (Hub.bit_of_one manual))

theorem Hub.eyeChosen_min : (h.eyeChosen n eyes).get (LANE_EYE_EYE_MIN n) = h.get (LANE_EYE_EYE_MIN n) := by
  have chosen : (LANE_EYE_EYE_MIN n).key ≠ (LANE_EYE_PEAK_CHOSEN n).key := by simp [Field.key, LANE_EYE_EYE_MIN, LANE_EYE_PEAK_CHOSEN]
  have width : (LANE_EYE_EYE_MIN n).key ≠ (LANE_EYE_WIDTH n).key := by simp [Field.key, LANE_EYE_EYE_MIN, LANE_EYE_WIDTH]
  rw [Hub.eyeChosen, Hub.get_set_ne _ _ _ _ chosen, Hub.eyeSeen, Hub.modLane_get, Hub.get_set_ne _ _ _ _ width, Hub.blocksPass, Hub.modLane_get,
    Hub.upTo_get]

theorem Hub.adaptationDone_auto (st : h.laneState n = 3) (auto_ : h.get (LANE_CTLE_MANUAL n) = 0) : h.adaptationDone n eye eyes =
    if widest eyes < (h.eyeChosen n eyes).get (LANE_EYE_EYE_MIN n) then ((h.eyeChosen n eyes).on (LANE_EYE_LOW n)).attemptFails ((h.eyeChosen n eyes).leadOf n)
    else h.eyeChosen n eyes := (if_pos st).trans (if_neg (by simp [Hub.bit_of_zero auto_]))

theorem Hub.adaptationDone_open (st : h.laneState n = 3) (auto_ : h.get (LANE_CTLE_MANUAL n) = 0) (wide : h.get (LANE_EYE_EYE_MIN n) ≤ widest eyes) :
    h.adaptationDone n eye eyes = h.eyeChosen n eyes :=
  (Hub.adaptationDone_auto st auto_).trans (if_neg (by rw [Hub.eyeChosen_min]; exact Nat.not_lt.2 wide))

theorem Hub.adaptationDone_low (st : h.laneState n = 3) (auto_ : h.get (LANE_CTLE_MANUAL n) = 0) (narrow : widest eyes < h.get (LANE_EYE_EYE_MIN n)) :
    h.adaptationDone n eye eyes = ((h.eyeChosen n eyes).on (LANE_EYE_LOW n)).attemptFails ((h.eyeChosen n eyes).leadOf n) :=
  (Hub.adaptationDone_auto st auto_).trans (if_pos (by rw [Hub.eyeChosen_min]; exact narrow))

end eye

section sets
variable {h : Hub} {n o rate width pos : Nat} {ready : Bool}

/-- The hub as a TRAIN set arrives: it has sent one of its own where its link trains (log entry 124). -/
def Hub.trainEcho (h : Hub) (n : Nat) : Hub := if h.training (h.leadOf n) then h.trainSend n else h

theorem Hub.trainEcho_regs : (h.trainEcho n).regs = h.regs := by
  unfold Hub.trainEcho
  split <;> rfl

theorem Hub.trainEcho_get (f : Field) : (h.trainEcho n).get f = h.get f := Hub.get_of_regs _ _ Hub.trainEcho_regs f

/-- A TRAIN set names the RATE, the width and the position of its lane. -/
def Hub.trainGood (h : Hub) (n rate width pos : Nat) : Prop :=
  rate = h.get (LANE_QCFG_RATE (n / 4 * 4)) ∧ width = h.get (LANE_LINK_WIDTH (h.leadOf n)) ∧ pos = n - h.leadOf n

/-- The hub with a matching TRAIN set counted. -/
def Hub.trainCounted (h : Hub) (n : Nat) (ready : Bool) : Hub := (h.trainEcho n).modLane n fun l => { l with trains := if ready then l.trains + 1 else 0 }

theorem Hub.trainCounted_get (f : Field) : (h.trainCounted n ready).get f = h.get f := Hub.trainEcho_get f

theorem Hub.trainSetRx_other (st : h.laneState n ≠ 3) : h.trainSetRx n rate width pos ready = h.trainEcho n :=
  if_neg fun e => st ((Hub.trainEcho_get _).symm.trans e)

theorem Hub.trainSetRx_bad (st : h.laneState n = 3) (bad : ¬h.trainGood n rate width pos) : h.trainSetRx n rate width pos ready =
    ((h.trainEcho n).on (LANE_WIDTH_MISMATCH n)).modLane n fun l => { l with trains := 0 } := by
  refine (if_pos ((Hub.trainEcho_get _).trans st)).trans (if_pos ?_)
  show rate ≠ (h.trainEcho n).get (LANE_QCFG_RATE (n / 4 * 4)) ∨ width ≠ (h.trainEcho n).get (LANE_LINK_WIDTH (h.leadOf n)) ∨ pos ≠ n - h.leadOf n
  rw [Hub.trainEcho_get, Hub.trainEcho_get, ne_eq, ne_eq, ne_eq, ← not_and_or, ← not_and_or]
  exact bad

theorem Hub.trainSetRx_good (st : h.laneState n = 3) (good : h.trainGood n rate width pos) : h.trainSetRx n rate width pos ready =
    if (h.trainCounted n ready).trained (h.leadOf n) then
      if (h.trainCounted n ready).get (LANE_LINK_WIDTH (h.leadOf n)) = 0 then (h.trainCounted n ready).goActive (h.leadOf n)
      else ((h.trainCounted n ready).modLane (h.leadOf n) fun l => { l with since := (h.trainCounted n ready).time.now }).setLinkState (h.leadOf n) lsDeskew
    else h.trainCounted n ready := by
  refine (if_pos ((Hub.trainEcho_get _).trans st)).trans (if_neg ?_)
  show ¬(rate ≠ (h.trainEcho n).get (LANE_QCFG_RATE (n / 4 * 4)) ∨ width ≠ (h.trainEcho n).get (LANE_LINK_WIDTH (h.leadOf n)) ∨ pos ≠ n - h.leadOf n)
  rw [Hub.trainEcho_get, Hub.trainEcho_get, ne_eq, ne_eq, ne_eq, ← not_and_or, ← not_and_or]
  exact not_not.2 good

theorem Hub.trainSetRx_more (st : h.laneState n = 3) (good : h.trainGood n rate width pos) (more : (h.trainCounted n ready).trained (h.leadOf n) = false) :
    h.trainSetRx n rate width pos ready = h.trainCounted n ready := (Hub.trainSetRx_good st good).trans (if_neg (ne_true_of_eq_false more))

theorem Hub.trainSetRx_single (st : h.laneState n = 3) (good : h.trainGood n rate width pos) (done : (h.trainCounted n ready).trained (h.leadOf n) = true)
    (one : width = 0) : h.trainSetRx n rate width pos ready = (h.trainCounted n ready).goActive (h.leadOf n) :=
  (Hub.trainSetRx_good st good).trans ((if_pos done).trans (if_pos ((Hub.trainCounted_get _).trans (good.2.1.symm.trans one))))

theorem Hub.trainSetRx_wide (st : h.laneState n = 3) (good : h.trainGood n rate width pos) (done : (h.trainCounted n ready).trained (h.leadOf n) = true)
    (wide : width ≠ 0) : h.trainSetRx n rate width pos ready =
      ((h.trainCounted n ready).modLane (h.leadOf n) fun l => { l with since := (h.trainCounted n ready).time.now }).setLinkState (h.leadOf n) 4 :=
  (Hub.trainSetRx_good st good).trans ((if_pos done).trans (if_neg fun e => wide (good.2.1.trans ((Hub.trainCounted_get _).symm.trans e))))

theorem Hub.trainRx_set (on_ : h.laneState n ≠ 0) : h.trainRx n 0 rate width pos ready = h.trainSetRx n rate width pos ready :=
  (if_neg on_).trans (if_pos rfl)

theorem Hub.trainRx_nothing (none_ : h.laneState n = 0 ∨ (0 < o ∧ o < 4)) : h.trainRx n o rate width pos ready = h := by
  by_cases st : h.laneState n = 0
  · exact if_pos st
  · obtain ⟨low, high⟩ := none_.resolve_left st
    exact (if_neg st).trans ((if_neg low.ne').trans (if_pos high))

theorem Hub.trainRx_unknown (on_ : h.laneState n ≠ 0) (high : 4 ≤ o) :
    h.trainRx n o rate width pos ready = h.bump (LANE_BLOCK_ERRS n) (LANE_SAT n) :=
  (if_neg on_).trans ((if_neg (by omega)).trans (if_neg (Nat.not_lt.2 high)))

end sets

/-! ## MARKER and idle columns (R299, R303) -/

section columns
variable {h : Hub} {k skew : Nat}

theorem Hub.markerRx_aligned (lead : h.get (LANE_LINK_LEAD k) = 1) (st : h.laneState k = 4) (near : skew ≤ 32) : h.markerRx k skew = h.goActive k :=
  (if_pos ⟨Hub.bit_of_one lead, st⟩).trans (if_pos near)

theorem Hub.markerRx_skewed (lead : h.get (LANE_LINK_LEAD k) = 1) (st : h.laneState k = 4) (far : 32 < skew) :
    h.markerRx k skew = (h.on (LANE_SKEW_ERR k)).attemptFails k := (if_pos ⟨Hub.bit_of_one lead, st⟩).trans (if_neg (Nat.not_le.2 far))

theorem Hub.markerRx_idle (st : h.laneState k ≠ 4) : h.markerRx k skew = h := if_neg fun e => st e.2

theorem Hub.idleColumn_sends (lead : h.get (LANE_LINK_LEAD k) = 1) (st : h.laneState k = 4 ∨ h.laneState k = 5) (kamrel : h.get (LANE_MODE k) ≠ 2) :
    h.idleColumn k = h.column k [idleBlock] := if_pos ⟨Hub.bit_of_one lead, by simp [Hub.isEth, kamrel], st.symm⟩

theorem Hub.markerSend_sends (lead : h.get (LANE_LINK_LEAD k) = 1) (st : h.laneState k = 4 ∨ h.laneState k = 5) (kamrel : h.get (LANE_MODE k) ≠ 2)
    (wide : h.get (LANE_LINK_WIDTH k) ≠ 0) : h.markerSend k =
      ((h.blocksPass k 16384).column k [markerSet (h.lane k).markers]).modLane k fun l => { l with markers := (l.markers + 1) % 2 ^ 24 } :=
  if_pos ⟨Hub.bit_of_one lead, wide, by simp [Hub.isEth, kamrel], st.symm⟩

/-- A lane that leads no ACTIVE or DESKEW Kamrel link. -/
def Hub.noColumns (h : Hub) (k : Nat) : Prop := h.get (LANE_LINK_LEAD k) = 0 ∨ (h.laneState k ≠ 4 ∧ h.laneState k ≠ 5) ∨ h.get (LANE_MODE k) = 2

theorem Hub.noColumns_contra (none_ : h.noColumns k) (lead : h.bit (LANE_LINK_LEAD k) = true) (kamrel : (!h.isEth k) = true)
    (st : h.laneState k = lsActive ∨ h.laneState k = lsDeskew) : False := by
  rcases none_ with other | ⟨deskew, active⟩ | eth
  · rw [Hub.bit_of_zero other] at lead
    exact Bool.false_ne_true lead
  · exact st.elim active deskew
  · simp [Hub.isEth, eth] at kamrel

theorem Hub.idleColumn_idle (none_ : h.noColumns k) : h.idleColumn k = h := if_neg fun ⟨lead, kamrel, st⟩ => Hub.noColumns_contra none_ lead kamrel st

theorem Hub.markerSend_idle (none_ : h.noColumns k) : h.markerSend k = h := if_neg fun ⟨lead, _, kamrel, st⟩ => Hub.noColumns_contra none_ lead kamrel st

end columns

/-- Settles O42: attempts, the plan and the steps of training by their branches; that every lane of a link shows the state set, by the loop over its
lanes. -/
theorem laneTraining : Obligations.LaneTraining := by
  refine ⟨⟨fun s k a => ?_, fun h k => ?_, fun h k st small => ⟨fun n mem => h.setLinkState_laneState k small mem, h.setLinkState_only k st⟩⟩,
    fun s n a => ?_⟩ <;> dsimp only
  · refine ⟨fun lead => ⟨fun same st pll => ?_, fun unlike => ?_, fun st => ⟨fun same => ?_, ?_⟩, fun st => ⟨fun same => ?_, fun q at_ => ?_⟩,
      fun low high pll => ?_⟩, fun other => ⟨?_, ?_, ?_, ?_⟩, fun mode st => ?_, fun none_ => ?_, fun q => ?_, fun v => ⟨fun same => ?_, fun new idle maint => ?_,
      fun new cfg plain => ?_, fun inner => ?_, fun first new cfg rate kamrel => ?_, fun other => ?_, fun lead new bad => ?_⟩⟩
    · exact gives_onHub (exec_signalDetect a.1 k) (Hub.signalDetect_detect lead same st pll)
    · exact gives_onHub (exec_signalDetect a.1 k) (Hub.signalDetect_unlike lead unlike)
    · exact gives_onHub (exec_signalDetect a.1 k) (Hub.signalDetect_backoff lead same st)
    · exact gives_onHub (exec_backoffEnd a.1 k) (Hub.backoffEnd_due lead st)
    · exact gives_onHub (exec_signalDetect a.1 k) (Hub.signalDetect_quiet lead same st)
    · exact gives_onHub (exec_quietProbe a.1 k) (Hub.quietProbe_due lead st at_)
    · exact gives_onHub (exec_trainTimeout a.1 k) (Hub.trainTimeoutEv_due lead low high pll)
    · exact gives_onHub (exec_signalDetect a.1 k) (Hub.signalDetect_other other)
    · exact gives_onHub (exec_trainTimeout a.1 k) (Hub.trainTimeoutEv_other other)
    · exact gives_onHub (exec_backoffEnd a.1 k) (Hub.backoffEnd_other other)
    · exact gives_onHub (exec_quietProbe a.1 k) (Hub.quietProbe_other other)
    · exact gives_onHub (exec_retrain a k) (Hub.retrain_restarts mode st)
    · exact gives_onHub (exec_retrain a k) (Hub.retrain_idle none_)
    · exact gives_onHub (exec_lanePllRelock a.1 q) rfl
    · exact gives_onHub (exec_linkPlanWrite a k 0 v) (Hub.planMode_same same)
    · exact gives_onHub (exec_linkPlanWrite a k 0 v) (Hub.planMode_refused new idle maint)
    · exact gives_onHub (exec_linkPlanWrite a k 0 v) (Hub.planMode_taken new cfg plain)
    · exact gives_onHub (exec_linkPlanWrite a k 1 v) (Hub.planRate_inner inner)
    · exact gives_onHub (exec_linkPlanWrite a k 1 v) (Hub.planRate_taken first new cfg rate kamrel)
    · exact gives_onHub (exec_linkPlanWrite a k 2 v) (Hub.planWidth_other other)
    · exact gives_onHub (exec_linkPlanWrite a k 2 v) (Hub.planWidth_refused lead new bad)
  · refine ⟨fun probe => ?_, fun fresh few => ?_, fun fresh many => ?_⟩
    · exact Hub.attemptFails_eq.trans (if_pos probe)
    · exact Hub.attemptFails_eq.trans ((if_neg (ne_true_of_eq_false fresh)).trans (if_pos few))
    · exact Hub.attemptFails_eq.trans ((if_neg (ne_true_of_eq_false fresh)).trans (if_neg (Nat.not_lt.2 many)))
  · refine ⟨fun st => ?_, fun align test wake => ?_, fun st cdr lock auto_ => ⟨?_, ?_⟩, fun v run => ⟨fun mode manual within => ⟨fun short => ?_, fun long => ?_⟩,
      fun bad => ?_⟩, fun on_ lock st kamrel => ?_, fun off_ => ?_, fun eye eyes => ⟨fun st => ?_, fun st => ⟨fun manual => ?_, fun auto_ wide => ?_,
      fun auto_ narrow => ?_⟩⟩, fun o rate width pos ready => ⟨fun none_ => ?_, fun on_ high => ?_, fun on_ st => ?_, fun st => ⟨fun bad => ?_,
      fun good => ⟨fun more => ?_, fun done one => ?_, fun done wide => ?_⟩⟩⟩, fun skew => ⟨fun lead st => ⟨fun near => ?_, fun far => ?_⟩, fun st => ?_⟩,
      fun lead st kamrel => ⟨?_, fun wide => ?_⟩, fun none_ => ⟨?_, ?_⟩⟩
    · exact gives_onHub (exec_cdrLock a.1 n) (Hub.cdrLock_locks st)
    · exact gives_onHub (exec_cdrLock a.1 n) (Hub.cdrLock_idle align test wake)
    · exact gives_onHub (exec_slipStep a.1 n false) (Hub.slipStep_searches st cdr lock auto_ false)
    · exact gives_onHub (exec_slipStep a.1 n true) (Hub.slipStep_searches st cdr lock auto_ true)
    · exact gives_onHub (exec_slipWrite a n v run) (Hub.slipWrite_short mode manual within short)
    · exact gives_onHub (exec_slipWrite a n v run) (Hub.slipWrite_locks mode manual within long)
    · exact gives_onHub (exec_slipWrite a n v run) (Hub.slipWrite_refused bad)
    · exact leads_onHub (exec_autoPol a.1 n) (Hub.autoPol_shows on_ lock st kamrel)
    · exact gives_onHub (exec_autoPol a.1 n) (Hub.autoPol_off off_)
    · exact gives_onHub (exec_adaptationDone a.1 n eye eyes) (Hub.adaptationDone_idle st)
    · exact gives_onHub (exec_adaptationDone a.1 n eye eyes) (Hub.adaptationDone_manual st manual)
    · exact gives_onHub (exec_adaptationDone a.1 n eye eyes) (Hub.adaptationDone_open st auto_ wide)
    · exact gives_onHub (exec_adaptationDone a.1 n eye eyes) (Hub.adaptationDone_low st auto_ narrow)
    · exact gives_onHub (exec_trainRx a.1 n o rate width pos ready) (Hub.trainRx_nothing none_)
    · exact gives_onHub (exec_trainRx a.1 n o rate width pos ready) (Hub.trainRx_unknown on_ high)
    · exact gives_onHub (exec_trainRx a.1 n 0 rate width pos ready) ((Hub.trainRx_set on_).trans (Hub.trainSetRx_other st))
    · exact gives_onHub (exec_trainRx a.1 n 0 rate width pos ready) ((Hub.trainRx_set (by omega)).trans (Hub.trainSetRx_bad st bad))
    · exact gives_onHub (exec_trainRx a.1 n 0 rate width pos ready) ((Hub.trainRx_set (by omega)).trans (Hub.trainSetRx_more st good more))
    · exact gives_onHub (exec_trainRx a.1 n 0 rate width pos ready) ((Hub.trainRx_set (by omega)).trans (Hub.trainSetRx_single st good done one))
    · exact gives_onHub (exec_trainRx a.1 n 0 rate width pos ready) ((Hub.trainRx_set (by omega)).trans (Hub.trainSetRx_wide st good done wide))
    · exact gives_onHub (exec_markerRx a.1 n skew) (Hub.markerRx_aligned lead st near)
    · exact gives_onHub (exec_markerRx a.1 n skew) (Hub.markerRx_skewed lead st far)
    · exact gives_onHub (exec_markerRx a.1 n skew) (Hub.markerRx_idle st)
    · exact gives_onHub (exec_idleColumnSend a.1 n) (Hub.idleColumn_sends lead st kamrel)
    · exact gives_onHub (exec_markerSend a.1 n) (Hub.markerSend_sends lead st kamrel wide)
    · exact gives_onHub (exec_idleColumnSend a.1 n) (Hub.idleColumn_idle none_)
    · exact gives_onHub (exec_markerSend a.1 n) (Hub.markerSend_idle none_)

end Sys2Proof.Machine
end

section
/-! SUPPORT. What PTP messages leave of a hub, and the relays of a transparent clock (R49, R51). -/

namespace Sys2Proof.Machine

/-! ## The ports -/

/-- Two hubs with the same registers, settings and domain slots, which decide what the ports may send and stamp. -/
structure Hub.SamePorts (h g : Hub) : Prop where
  regs : g.regs = h.regs
  upd : g.upd = h.upd
  doms : g.time.doms = h.time.doms

section ports
variable {h g : Hub}

theorem Hub.SamePorts.refl (h : Hub) : h.SamePorts h := ⟨rfl, rfl, rfl⟩

theorem Hub.SamePorts.trans {k : Hub} (a : h.SamePorts g) (b : g.SamePorts k) : h.SamePorts k :=
  ⟨b.regs.trans a.regs, b.upd.trans a.upd, b.doms.trans a.doms⟩

variable (same : h.SamePorts g)
include same

theorem Hub.SamePorts.get (f : Field) : g.get f = h.get f := Hub.get_of_regs g h same.regs f

theorem Hub.SamePorts.bit (f : Field) : g.bit f = h.bit f := congrArg (· == 1) (same.get f)

theorem Hub.SamePorts.dom (d : Nat) : g.dom d = h.dom d := by rw [Hub.dom, same.doms, ← Hub.dom]

theorem Hub.SamePorts.ptpEth (l : Nat) : g.ptpEth l = h.ptpEth l := congrArg (· == 2) (same.get _)

theorem Hub.SamePorts.clockIdentity : g.clockIdentity = h.clockIdentity := by rw [Hub.clockIdentity, same.upd, ← Hub.clockIdentity]

theorem Hub.SamePorts.portRole (l : Nat) : g.portRole l = h.portRole l := by
  have role : g.ptpRole l = h.ptpRole l := by rw [Hub.ptpRole, same.upd, ← Hub.ptpRole]
  simp only [Hub.portRole, role, same.ptpEth]

theorem Hub.SamePorts.portTc (l : Nat) : g.portTc l = h.portTc l := congrArg (· == 3) (same.portRole l)

theorem Hub.SamePorts.ptpMaySend (l : Nat) : g.ptpMaySend l = h.ptpMaySend l := by
  simp only [Hub.ptpMaySend, same.get, same.portRole, same.ptpEth, same.clockIdentity]

theorem Hub.SamePorts.ptpMaster (l : Nat) : g.ptpMaster l = h.ptpMaster l := by simp only [Hub.ptpMaster, same.portRole, same.ptpMaySend]

theorem Hub.SamePorts.oneStep : g.oneStep = h.oneStep := by rw [Hub.oneStep, same.upd, ← Hub.oneStep]

theorem Hub.SamePorts.tcPorts (l : Nat) : g.tcPorts l = h.tcPorts l := by simp only [Hub.tcPorts, same.portTc]

theorem Hub.SamePorts.tcPeer (m : PtpMsg) : g.tcPeer m = h.tcPeer m := by simp only [Hub.tcPeer, same.get, same.bit]

theorem Hub.SamePorts.linkDelay (l : Nat) : g.linkDelay l = h.linkDelay l := by simp only [Hub.linkDelay, same.get, same.dom]

theorem Hub.SamePorts.rxStamp (l t : Nat) : g.rxStamp l t = h.rxStamp l t := by simp only [Hub.rxStamp, same.get]

theorem Hub.SamePorts.txStamp (l t : Nat) : g.txStamp l t = h.txStamp l t := by simp only [Hub.txStamp, same.get]

theorem Hub.SamePorts.asym (l : Nat) : g.asym l = h.asym l := by simp only [Hub.asym, same.get]

theorem Hub.SamePorts.slotOf (l : Nat) (m : PtpMsg) : g.slotOf l m = h.slotOf l m := by simp only [Hub.slotOf, same.get, same.bit, same.portRole]

theorem Hub.SamePorts.only : OnlyRegs [] h g := onlyRegs_of_regs same.regs (onlyRegs_refl [] h)

end ports

theorem Hub.upTo_samePorts (h : Hub) (t : Nat) : h.SamePorts (h.upTo t) := ⟨rfl, rfl, rfl⟩

theorem Hub.setTime_samePorts (h : Hub) (t : TimeSt) (doms : t.doms = h.time.doms) : h.SamePorts (h.setTime t) := ⟨rfl, rfl, doms⟩

/-! ## A message leaves -/

section leaves
variable {h g : Hub}

theorem Hub.ptpOut_keeps (h : Hub) (o : PtpOut) : (h.ptpOut o).regs = h.regs ∧ (h.ptpOut o).upd = h.upd
    ∧ (h.ptpOut o).time = { h.time with ptpTx := o :: h.time.ptpTx } := by
  unfold Hub.ptpOut
  dsimp only
  split <;> exact ⟨rfl, rfl, rfl⟩

theorem Hub.ptpOut_samePorts (h : Hub) (o : PtpOut) : h.SamePorts (h.ptpOut o) := by
  obtain ⟨regs, upd, time⟩ := h.ptpOut_keeps o
  exact ⟨regs, upd, (congrArg TimeSt.doms time :)⟩

/-- A message with the identity of the port it leaves by (R49, R52). -/
def Hub.stampedOut (h : Hub) (o : PtpOut) : PtpOut := { o with clockId := if h.ptpEth o.lane then h.clockIdentity else 0, port := o.lane + 1 }

theorem Hub.ptpSend_sends {o : PtpOut} (may : h.ptpMaySend o.lane = true) : h.ptpSend o = h.ptpOut (h.stampedOut o) := if_pos may

theorem Hub.ptpSend_silent {o : PtpOut} (silent : h.ptpMaySend o.lane = false) : h.ptpSend o = h := if_neg (ne_true_of_eq_false silent)

theorem Hub.ptpMaster_maySend {l : Nat} (master : h.ptpMaster l = true) : h.ptpMaySend l = true := by
  rw [Hub.ptpMaster, Bool.and_eq_true] at master
  exact master.2

/-- What a transparent clock relays by port `p` with the correction `c`: the message as it came (R51). -/
def relayedOut (m : PtpMsg) (k : PtpKind) (p : Nat) (c : Int) : PtpOut :=
  { lane := p, kind := k, domain := m.domain, sdo := m.sdo, seq := m.seq, corr := c, ts := m.ts, clockId := m.clockId, port := m.port
    cls := m.cls, prio1 := m.prio1, steps := m.steps, utc := m.utc }

/-- What leaves by port `p` where it may send and a correction is given. -/
def Hub.relayed (h : Hub) (m : PtpMsg) (k : PtpKind) (p : Nat) (c : Option Int) : Option PtpOut :=
  if h.ptpMaySend p then c.map (relayedOut m k p) else none

theorem Hub.relayed_none (h : Hub) (m : PtpMsg) (k : PtpKind) (p : Nat) : h.relayed m k p none = none := by
  unfold Hub.relayed
  split <;> rfl

/-- `g` comes after `h` with these messages sent, oldest first. -/
def Hub.Sends (h g : Hub) (l : List PtpOut) : Prop := h.SamePorts g ∧ g.time.ptpTx = l.reverse ++ h.time.ptpTx

theorem Hub.Sends.nothing (h : Hub) : h.Sends h [] := ⟨Hub.SamePorts.refl h, rfl⟩

theorem Hub.Sends.then {k : Hub} {a b : List PtpOut} (first : h.Sends g a) (second : g.Sends k b) : h.Sends k (a ++ b) :=
  ⟨first.1.trans second.1, by rw [second.2, first.2, List.reverse_append, List.append_assoc]⟩

theorem Hub.ptpForward_sends (same : h.SamePorts g) (k : PtpKind) (m : PtpMsg) (p : Nat) (c : Int) :
    g.Sends (g.ptpForward k m p c) (h.relayed m k p (some c)).toList := by
  rw [Hub.ptpForward, same.ptpMaySend, Hub.relayed]
  cases h.ptpMaySend p
  · exact Hub.Sends.nothing g
  · exact ⟨g.ptpOut_samePorts _, (congrArg TimeSt.ptpTx (g.ptpOut_keeps _).2.2 :)⟩

theorem Hub.ptpForward_relayed (g : Hub) (k : PtpKind) (m : PtpMsg) (p : Nat) (c : Int) : (g.ptpForward k m p c).time.relayed = g.time.relayed := by
  unfold Hub.ptpForward
  split
  · exact (congrArg TimeSt.relayed (g.ptpOut_keeps _).2.2 :)
  · rfl

/-- A loop that sends at most one message for each of its elements. -/
theorem Hub.foldl_sends {β : Type} {f : Hub → β → Hub} {e : β → Option PtpOut} (step : ∀ g, h.SamePorts g → ∀ x, g.Sends (f g x) (e x).toList) :
    ∀ (l : List β) (g : Hub), h.SamePorts g → g.Sends (l.foldl f g) (l.filterMap e)
  | [], g, _ => Hub.Sends.nothing g
  | x :: l, g, same => by
    have one := step g same x
    have rest := Hub.foldl_sends step l (f g x) (same.trans one.1)
    have all := one.then rest
    cases made : e x with
    | none =>
      rw [List.filterMap_cons_none made]
      rw [made] at all
      exact all
    | some o =>
      rw [List.filterMap_cons_some made]
      rw [made] at all
      exact all

end leaves

/-! ## The relays (R51) -/

section relays
variable {h g : Hub} {lane i : Nat} {m : PtpMsg} {eg : List (Nat × Nat)}

/-- The residence time of a message by port `p`, where the command gives its egress stamp. -/
def Hub.resided (h : Hub) (lane i : Nat) (eg : List (Nat × Nat)) (p : Nat) : Option Int :=
  (eg.find? fun e => e.1 == p).map fun e => h.txStamp p e.2 - h.rxStamp lane i

/-- The messages of kind `k` that leave by the other ports of the clock, each with its correction. -/
def Hub.relays (h : Hub) (lane : Nat) (m : PtpMsg) (k : PtpKind) (c : Nat → Option Int) : List PtpOut :=
  (h.tcPorts lane).filterMap fun p => h.relayed m k p (c p)

theorem Hub.relayEvent_sends (same : h.SamePorts g) (k : PtpKind) (extra : Int) :
    g.Sends (g.relayEvent k m lane i eg extra) (h.relays lane m k fun p => (h.resided lane i eg p).map fun r => m.corr + r + extra) := by
  rw [Hub.relayEvent, same.tcPorts, Hub.relays]
  refine Hub.foldl_sends (h := h) (fun g same p => ?_) _ g same
  rw [Hub.resided]
  cases eg.find? fun e => e.1 == p with
  | none =>
    simp only [Option.map_none, Hub.relayed_none]
    exact Hub.Sends.nothing g
  | some e =>
    simp only [Option.map_some, Hub.residence, same.txStamp, same.rxStamp]
    exact Hub.ptpForward_sends same k m p _

theorem Hub.relayGeneral_sends (same : h.SamePorts g) (k : PtpKind) :
    g.Sends (g.relayGeneral k m lane) (h.relays lane m k fun _ => some m.corr) := by
  rw [Hub.relayGeneral, same.tcPorts, Hub.relays]
  exact Hub.foldl_sends (h := h) (fun g same p => Hub.ptpForward_sends same k m p _) _ g same

/-- What a Sync gains on its way but its residence time: in peer-to-peer mode the delay of the link it came by. -/
def Hub.syncExtra (h : Hub) (lane : Nat) (m : PtpMsg) : Int := if h.tcPeer m then h.linkDelay lane else 0

theorem Hub.SamePorts.syncExtra (same : h.SamePorts g) : g.syncExtra lane m = h.syncExtra lane m := by
  rw [Hub.syncExtra, same.tcPeer, same.linkDelay, ← Hub.syncExtra]

/-- A two-step Sync relayed by one port, with what its Follow_Up is due. -/
def Hub.relayTwoStep (lane i : Nat) (eg : List (Nat × Nat)) (m : PtpMsg) (x : Int) (h : Hub) (p : Nat) : Hub :=
  match (eg.find? fun e => e.1 == p).map (·.2) with
  | some t =>
    (h.ptpForward .sync m p m.corr).setTime { (h.ptpForward .sync m p m.corr).time with
      relayed := ⟨lane, p, m.domain, m.seq, (h.ptpForward .sync m p m.corr).residence lane i p t + x⟩ :: (h.ptpForward .sync m p m.corr).time.relayed }
  | none => h

theorem Hub.relaySync_twoStep (two : m.twoStep = true) :
    h.relaySync lane m i eg = (h.tcPorts lane).foldl (Hub.relayTwoStep lane i eg m (h.syncExtra lane m)) h := if_pos two

theorem Hub.relaySync_oneStep (one : m.twoStep = false) : h.relaySync lane m i eg = h.relayEvent .sync m lane i eg (h.syncExtra lane m) :=
  if_neg (ne_true_of_eq_false one)

theorem Hub.relayTwoStep_sends (same : h.SamePorts g) (x : Int) (p : Nat) :
    g.Sends (g.relayTwoStep lane i eg m x p) (h.relayed m .sync p ((h.resided lane i eg p).map fun _ => m.corr)).toList := by
  rw [Hub.relayTwoStep, Hub.resided]
  cases eg.find? fun e => e.1 == p with
  | none =>
    simp only [Option.map_none, Hub.relayed_none]
    exact Hub.Sends.nothing g
  | some e =>
    obtain ⟨ports, sent⟩ := Hub.ptpForward_sends same .sync m p m.corr
    exact ⟨ports.trans (Hub.setTime_samePorts _ _ rfl), sent⟩

/-- What a Follow_Up is due is kept. -/
theorem Hub.relayTwoStep_keeps (x : Int) (p : Nat) (r : Relayed) (mem : r ∈ g.time.relayed) : r ∈ (g.relayTwoStep lane i eg m x p).time.relayed := by
  unfold Hub.relayTwoStep
  split
  · refine List.mem_cons_of_mem _ ?_
    rw [Hub.ptpForward_relayed]
    exact mem
  · exact mem

theorem Hub.relayTwoStep_notes (same : h.SamePorts g) (x : Int) {p : Nat} {r : Int} (out : h.resided lane i eg p = some r) :
    (⟨lane, p, m.domain, m.seq, r + x⟩ : Relayed) ∈ (g.relayTwoStep lane i eg m x p).time.relayed := by
  obtain ⟨e, found, rfl⟩ := Option.map_eq_some_iff.1 out
  have sent := same.trans (Hub.ptpForward_sends same .sync m p m.corr).1
  unfold Hub.relayTwoStep
  rw [found]
  dsimp only [Option.map_some]
  rw [Hub.residence, sent.txStamp, sent.rxStamp]
  exact List.mem_cons_self

theorem Hub.relayTwoSteps_keep (x : Int) (r : Relayed) (l : List Nat) (g : Hub) (mem : r ∈ g.time.relayed) :
    r ∈ (l.foldl (Hub.relayTwoStep lane i eg m x) g).time.relayed := by
  induction l generalizing g with
  | nil => exact mem
  | cons p l ih => exact ih _ (Hub.relayTwoStep_keeps x p r mem)

theorem Hub.relayTwoSteps_note (x : Int) {p : Nat} {r : Int} (out : h.resided lane i eg p = some r) (l : List Nat) (g : Hub) (same : h.SamePorts g)
    (mem : p ∈ l) : (⟨lane, p, m.domain, m.seq, r + x⟩ : Relayed) ∈ (l.foldl (Hub.relayTwoStep lane i eg m x) g).time.relayed := by
  induction l generalizing g with
  | nil => exact absurd mem List.not_mem_nil
  | cons q l ih =>
    rcases List.mem_cons.1 mem with first | later
    · rw [← first]
      exact Hub.relayTwoSteps_keep x _ l _ (Hub.relayTwoStep_notes same x out)
    · exact ih _ (same.trans (Hub.relayTwoStep_sends same x q).1) later

/-- The Syncs relayed whose Follow_Up this message is. -/
def Hub.followed (h : Hub) (lane : Nat) (m : PtpMsg) : List Relayed :=
  h.time.relayed.filter fun r => r.lane == lane && r.domain == m.domain && r.seq == m.seq

/-- The hub with their Follow_Ups sent. -/
def Hub.followUps (h : Hub) (lane : Nat) (m : PtpMsg) : Hub :=
  (h.followed lane m).foldl (fun h r => h.ptpForward .followUp m r.port (m.corr + r.corr)) h

theorem Hub.relayFollowUp_eq (h : Hub) : h.relayFollowUp lane m = (h.followUps lane m).setTime { (h.followUps lane m).time with
    relayed := (h.followUps lane m).time.relayed.filter fun r => !(r.lane == lane && r.domain == m.domain && r.seq == m.seq) } := rfl

theorem Hub.relayFollowUp_sends (h : Hub) : h.Sends (h.relayFollowUp lane m)
    ((h.followed lane m).filterMap fun r => h.relayed m .followUp r.port (some (m.corr + r.corr))) := by
  have sends : h.Sends (h.followUps lane m) _ := Hub.foldl_sends (h := h) (e := fun r => h.relayed m .followUp r.port (some (m.corr + r.corr)))
    (fun g same r => Hub.ptpForward_sends same .followUp m r.port _) (h.followed lane m) h (Hub.SamePorts.refl h)
  rw [Hub.relayFollowUp_eq]
  exact ⟨sends.1.trans (Hub.setTime_samePorts _ _ rfl), sends.2⟩

end relays

end Sys2Proof.Machine
end

section
/-! SUPPORT. PTP messages that arrive at a port (R44, R48, R50, R52, R54). -/

namespace Sys2Proof.Machine

theorem exec_syncRx {s : State} (up : s.up) (lane : Fin 64) (m : PtpMsg) (i : Nat) (eg : List (Nat × Nat)) :
    exec (.syncRx lane m i eg) s = .next (s.onHub fun h => h.syncRx lane m i eg) := exec_whenUp_up up rfl

theorem exec_followUpRx {s : State} (up : s.up) (lane : Fin 64) (m : PtpMsg) (ts : Nat) :
    exec (.followUpRx lane { m with ts := ts } m.ts) s = .next (s.onHub fun h => h.followUpRx lane m) := exec_whenUp_up up rfl

theorem exec_delayReqRx {s : State} (up : s.up) (lane : Fin 64) (m : PtpMsg) (i : Nat) (eg : List (Nat × Nat)) :
    exec (.delayReqRx lane m i eg) s = .next (s.onHub fun h => h.delayReqRx lane m i eg) := exec_whenUp_up up rfl

theorem exec_delayRespRx {s : State} (up : s.up) (lane : Fin 64) (m : PtpMsg) :
    exec (.delayRespRx lane m) s = .next (s.onHub fun h => h.delayRespRx lane m) := exec_whenUp_up up rfl

theorem exec_pdelayReqRx {s : State} (up : s.up) (lane : Fin 64) (m : PtpMsg) (i : Nat) (eg : List (Nat × Nat)) :
    exec (.pdelayReqRx lane m i eg) s = .next (s.onHub fun h => h.pdelayReqRx lane m i eg) := exec_whenUp_up up rfl

theorem exec_pdelayRespRx {s : State} (up : s.up) (lane : Fin 64) (m : PtpMsg) (i : Nat) (eg : List (Nat × Nat)) :
    exec (.pdelayRespRx lane m (i, eg)) s = .next (s.onHub fun h => h.pdelayRespRx lane m i eg) := exec_whenUp_up up rfl

theorem exec_pdelayRespFollowUpRx {s : State} (up : s.up) (lane : Fin 64) (m : PtpMsg) :
    exec (.pdelayRespFollowUpRx lane m) s = .next (s.onHub fun h => h.pdelayFollowUpRx lane m) := exec_whenUp_up up rfl

theorem exec_announceRx {s : State} (up : s.up) (lane : Fin 64) (m : PtpMsg) :
    exec (.announceRx lane m) s = .next (s.onHub fun h => h.announceRx lane m) := exec_whenUp_up up rfl

theorem exec_signalingManagementRx {s : State} (up : s.up) (lane : Fin 64) (m : PtpMsg) :
    exec (.signalingManagementRx lane m) s = .next (s.onHub fun h => h.signalingRx lane m) := exec_whenUp_up up rfl

theorem exec_announceTimeout {s : State} (up : s.up) (d : Fin 2) : exec (.announceTimeout d) s = .next (s.onHub fun h => h.announceTimeout d) :=
  exec_whenUp_up up rfl

/-! ## At a transparent clock -/

theorem Hub.upTo_sends (h : Hub) (t : Nat) : h.Sends (h.upTo t) [] := ⟨h.upTo_samePorts t, rfl⟩

section clock
variable {h : Hub} {lane i : Nat} {m : PtpMsg} {eg : List (Nat × Nat)} (tc : h.portTc lane = true)
include tc

theorem Hub.syncRx_tc : h.syncRx lane m i eg = (h.upTo i).relaySync lane m i eg := if_pos (((h.upTo_samePorts i).portTc lane).trans tc)

theorem Hub.syncRx_relays (one : m.twoStep = false) :
    h.Sends (h.syncRx lane m i eg) (h.relays lane m .sync fun p => (h.resided lane i eg p).map fun r => m.corr + r + h.syncExtra lane m) := by
  rw [Hub.syncRx_tc tc, Hub.relaySync_oneStep one, (h.upTo_samePorts i).syncExtra]
  exact (h.upTo_sends i).then (Hub.relayEvent_sends (h.upTo_samePorts i) _ _)

theorem Hub.syncRx_relays_twoStep (two : m.twoStep = true) :
    h.Sends (h.syncRx lane m i eg) (h.relays lane m .sync fun p => (h.resided lane i eg p).map fun _ => m.corr) := by
  have same := h.upTo_samePorts i
  rw [Hub.syncRx_tc tc, Hub.relaySync_twoStep two, same.tcPorts]
  exact (h.upTo_sends i).then (Hub.foldl_sends (h := h) (fun g same p => Hub.relayTwoStep_sends same _ p) _ _ same)

theorem Hub.syncRx_notes (two : m.twoStep = true) {p : Nat} {r : Int} (mem : p ∈ h.tcPorts lane) (out : h.resided lane i eg p = some r) :
    (⟨lane, p, m.domain, m.seq, r + h.syncExtra lane m⟩ : Relayed) ∈ (h.syncRx lane m i eg).time.relayed := by
  have same := h.upTo_samePorts i
  rw [Hub.syncRx_tc tc, Hub.relaySync_twoStep two, same.tcPorts, same.syncExtra]
  exact Hub.relayTwoSteps_note _ out _ _ same mem

theorem Hub.followUpRx_tc : h.followUpRx lane m = h.relayFollowUp lane m := if_pos tc

theorem Hub.delayReqRx_relays : h.Sends (h.delayReqRx lane m i eg)
    (h.relays lane m .delayReq fun p => (h.resided lane i eg p).map fun r => m.corr + r + 0) := by
  rw [show h.delayReqRx lane m i eg = (h.upTo i).relayEvent .delayReq m lane i eg 0 from if_pos (((h.upTo_samePorts i).portTc lane).trans tc)]
  exact (h.upTo_sends i).then (Hub.relayEvent_sends (h.upTo_samePorts i) _ _)

theorem Hub.delayRespRx_tc : h.delayRespRx lane m = h.relayGeneral .delayResp m lane := if_pos tc

theorem Hub.announceRx_tc : h.announceRx lane m = h.relayGeneral .announce m lane := if_pos tc

theorem Hub.signalingRx_tc : h.signalingRx lane m = h.relayGeneral .signaling m lane := if_pos tc

variable (ends : h.tcPeer m = false)
include ends

theorem Hub.endToEnd (t : Nat) : (h.upTo t).portTc lane ∧ !(h.upTo t).tcPeer m := by
  rw [(h.upTo_samePorts t).portTc, (h.upTo_samePorts t).tcPeer, tc, ends]
  exact ⟨rfl, rfl⟩

theorem Hub.pdelayReqRx_relays : h.Sends (h.pdelayReqRx lane m i eg)
    (h.relays lane m .pdelayReq fun p => (h.resided lane i eg p).map fun r => m.corr + r + 0) := by
  rw [show h.pdelayReqRx lane m i eg = (h.upTo i).relayEvent .pdelayReq m lane i eg 0 from if_pos (Hub.endToEnd tc ends i)]
  exact (h.upTo_sends i).then (Hub.relayEvent_sends (h.upTo_samePorts i) _ _)

theorem Hub.pdelayRespRx_relays : h.Sends (h.pdelayRespRx lane m i eg)
    (h.relays lane m .pdelayResp fun p => (h.resided lane i eg p).map fun r => m.corr + r + 0) := by
  rw [show h.pdelayRespRx lane m i eg = (h.upTo i).relayEvent .pdelayResp m lane i eg 0 from if_pos (Hub.endToEnd tc ends i)]
  exact (h.upTo_sends i).then (Hub.relayEvent_sends (h.upTo_samePorts i) _ _)

theorem Hub.pdelayFollowUpRx_tc : h.pdelayFollowUpRx lane m = h.relayGeneral .pdelayRespFollowUp m lane :=
  if_pos (by rw [tc, ends]; exact ⟨rfl, rfl⟩)

end clock

/-! ## At another port -/

section port
variable {h g : Hub} {lane i d : Nat} {m : PtpMsg} {eg : List (Nat × Nat)}

theorem Hub.SamePorts.stampedOut (same : h.SamePorts g) (o : PtpOut) : g.stampedOut o = h.stampedOut o := by
  rw [Hub.stampedOut, same.ptpEth, same.clockIdentity, ← Hub.stampedOut]

/-- A port that may send sends a message. -/
theorem Hub.ptpSend_sent (same : h.SamePorts g) {o : PtpOut} (may : h.ptpMaySend o.lane = true) : g.Sends (g.ptpSend o) [h.stampedOut o] := by
  rw [Hub.ptpSend_sends ((same.ptpMaySend _).trans may), same.stampedOut]
  exact ⟨g.ptpOut_samePorts _, (congrArg TimeSt.ptpTx (g.ptpOut_keeps _).2.2 :)⟩

/-- An answer with the time `t` in 2^-16 ns. -/
def ptpAnswer (lane : Nat) (m : PtpMsg) (k : PtpKind) (c t : Int) : PtpOut :=
  { lane := lane, kind := k, domain := m.domain, sdo := m.sdo, seq := m.seq, corr := c, ts := (t * 2 ^ 16).toNat }

theorem Hub.delayReqRx_answers (other : h.portTc lane = false) (master : h.ptpMaster lane = true) :
    h.Sends (h.delayReqRx lane m i eg) [h.stampedOut (ptpAnswer lane m .delayResp m.corr (h.rxStamp lane i))] := by
  have same := h.upTo_samePorts i
  have eq : h.delayReqRx lane m i eg = (h.upTo i).ptpSend (ptpAnswer lane m .delayResp m.corr (h.rxStamp lane i)) :=
    (if_neg (ne_true_of_eq_false ((same.portTc lane).trans other))).trans (if_pos ((same.ptpMaster lane).trans master))
  rw [eq]
  exact (h.upTo_sends i).then (Hub.ptpSend_sent same (Hub.ptpMaster_maySend master))

theorem Hub.delayReqRx_slave (other : h.portTc lane = false) (slave : h.ptpMaster lane = false) : h.delayReqRx lane m i eg = h.upTo i :=
  (if_neg (ne_true_of_eq_false (((h.upTo_samePorts i).portTc lane).trans other))).trans
    (if_neg (ne_true_of_eq_false (((h.upTo_samePorts i).ptpMaster lane).trans slave)))

theorem Hub.signalingRx_other (other : h.portTc lane = false) : h.signalingRx lane m = h := if_neg (ne_true_of_eq_false other)

/-- The instant at which the answer leaves. -/
def answerLeaves (lane i : Nat) (eg : List (Nat × Nat)) : Nat := ((eg.find? fun e => e.1 == lane).map fun e => e.2).getD i

theorem Hub.pdelayReqRx_eq (peer : h.portTc lane = false ∨ h.tcPeer m = true) : h.pdelayReqRx lane m i eg =
    ((h.upTo i).ptpSend (ptpAnswer lane m .pdelayResp 0 (h.rxStamp lane i))).ptpSend
      (ptpAnswer lane m .pdelayRespFollowUp m.corr (h.txStamp lane (answerLeaves lane i eg))) := by
  have here : ¬((h.upTo i).portTc lane = true ∧ (!(h.upTo i).tcPeer m) = true) := by
    rw [(h.upTo_samePorts i).portTc, (h.upTo_samePorts i).tcPeer]
    rcases peer with other | peer
    · simp [other]
    · simp [peer]
  unfold Hub.pdelayReqRx
  dsimp only
  rw [if_neg here, (h.upTo_samePorts i).rxStamp, (h.upTo_samePorts i).txStamp]
  rfl

theorem Hub.pdelayReqRx_answers (peer : h.portTc lane = false ∨ h.tcPeer m = true) (may : h.ptpMaySend lane = true) :
    h.Sends (h.pdelayReqRx lane m i eg) [h.stampedOut (ptpAnswer lane m .pdelayResp 0 (h.rxStamp lane i)),
      h.stampedOut (ptpAnswer lane m .pdelayRespFollowUp m.corr (h.txStamp lane (answerLeaves lane i eg)))] := by
  rw [Hub.pdelayReqRx_eq peer]
  have first := (h.upTo_sends i).then (Hub.ptpSend_sent (o := ptpAnswer lane m .pdelayResp 0 (h.rxStamp lane i)) (h.upTo_samePorts i) may)
  exact first.then (Hub.ptpSend_sent first.1 may)

theorem Hub.pdelayReqRx_silent (peer : h.portTc lane = false ∨ h.tcPeer m = true) (silent : h.ptpMaySend lane = false) :
    h.pdelayReqRx lane m i eg = h.upTo i := by
  have quiet : (h.upTo i).ptpMaySend lane = false := ((h.upTo_samePorts i).ptpMaySend lane).trans silent
  have nothing (k : PtpKind) (c t : Int) : (h.upTo i).ptpSend (ptpAnswer lane m k c t) = h.upTo i := Hub.ptpSend_silent (o := ptpAnswer lane m k c t) quiet
  rw [Hub.pdelayReqRx_eq peer, nothing, nothing]

/-! ### At the slave port of a slot -/

theorem Hub.slotOf_other (slot : h.slotOf lane m = some d) : h.portTc lane = false := by
  rw [Hub.slotOf] at slot
  split at slot
  · rename_i boundary
    rw [Hub.portTc, boundary]
    rfl
  · exact absurd slot (Option.some_ne_none d).symm

variable (slot : h.slotOf lane m = some d)
include slot

/-- The slot with a two-step Sync waiting for its Follow_Up. -/
theorem Hub.syncRx_twoStep (slave : h.get (DOM_PORT_STATE d) = 9) (two : m.twoStep = true) : h.syncRx lane m i eg =
    (h.upTo i).setDom d { h.dom d with syncSeq := m.seq, syncIngress := h.rxStamp lane i, syncCorr := m.corr + h.asym lane, syncPending := true } := by
  have same := h.upTo_samePorts i
  unfold Hub.syncRx
  dsimp only
  rw [if_neg (ne_true_of_eq_false ((same.portTc lane).trans (Hub.slotOf_other slot))), same.slotOf, slot]
  dsimp only
  rw [if_neg (not_not.2 ((same.get _).trans slave)), if_pos two]
  rfl

theorem Hub.syncRx_oneStep (slave : h.get (DOM_PORT_STATE d) = 9) (one : m.twoStep = false) : h.syncRx lane m i eg =
    ((h.upTo i).setDom d { h.dom d with lastT21 := h.rxStamp lane i - (m.ts : Int) / 2 ^ 16 - (m.corr + h.asym lane), syncPending := false }).measure d
      (h.rxStamp lane i - (m.ts : Int) / 2 ^ 16 - (m.corr + h.asym lane) - (h.dom d).meanDelay) := by
  have same := h.upTo_samePorts i
  unfold Hub.syncRx
  dsimp only
  rw [if_neg (ne_true_of_eq_false ((same.portTc lane).trans (Hub.slotOf_other slot))), same.slotOf, slot]
  dsimp only
  rw [if_neg (not_not.2 ((same.get _).trans slave)), if_neg (ne_true_of_eq_false one)]
  rfl

/-- The time from a Sync's leaving to its arrival, with its corrections taken off, by its Follow_Up. -/
def Hub.followedT21 (h : Hub) (d : Nat) (m : PtpMsg) : Int := (h.dom d).syncIngress - (m.ts : Int) / 2 ^ 16 - (h.dom d).syncCorr - m.corr

theorem Hub.followUpRx_slot (slave : h.get (DOM_PORT_STATE d) = 9) (pending : (h.dom d).syncPending = true) (seq : (h.dom d).syncSeq = m.seq) :
    h.followUpRx lane m = (h.setDom d { h.dom d with lastT21 := h.followedT21 d m, syncPending := false }).measure d
      (h.followedT21 d m - (h.dom d).meanDelay) := by
  unfold Hub.followUpRx
  rw [if_neg (ne_true_of_eq_false (Hub.slotOf_other slot)), slot]
  exact if_pos ⟨pending, seq, slave⟩

theorem Hub.delayRespRx_slot (pending : (h.dom d).reqPending = true) (seq : (h.dom d).reqSeq = m.seq) (mech : h.get (DOM_DELAY_MECH d) = 0) :
    h.delayRespRx lane m = (h.setDom d { h.dom d with reqPending := false }).setDelay d
      (((h.dom d).lastT21 + ((m.ts : Int) / 2 ^ 16 - m.corr - (h.dom d).reqEgress)) / 2) := by
  unfold Hub.delayRespRx
  rw [if_neg (ne_true_of_eq_false (Hub.slotOf_other slot)), slot]
  exact if_pos ⟨pending, seq, mech⟩

theorem Hub.pdelayRespRx_slot (pending : (h.dom d).reqPending = true) (seq : (h.dom d).reqSeq = m.seq) : h.pdelayRespRx lane m i eg =
    (h.upTo i).setDom d { h.dom d with
      respT2 := (m.ts : Int) / 2 ^ 16 - (m.corr + h.asym lane), respIngress := h.rxStamp lane i, respPending := true } := by
  have same := h.upTo_samePorts i
  have other : ¬((h.upTo i).portTc lane = true ∧ (!(h.upTo i).tcPeer m) = true) := fun e =>
    Bool.false_ne_true ((Hub.slotOf_other slot).symm.trans ((same.portTc lane).symm.trans e.1))
  unfold Hub.pdelayRespRx
  dsimp only
  rw [if_neg other, same.slotOf, slot]
  exact if_pos ⟨pending, seq⟩

/-- The hub with the rate ratio of two exchanges, where there is one. -/
def Hub.rateShown (h : Hub) (d : Nat) (m : PtpMsg) : Hub :=
  if (h.dom d).prevT4 ≠ 0 ∧ (h.dom d).respIngress - (h.dom d).prevT4 ≠ 0 then
    h.set (DOM_RATE d) (ofSigned 32 ((((m.ts : Int) / 2 ^ 16 + m.corr - (h.dom d).prevT3) - ((h.dom d).respIngress - (h.dom d).prevT4)) * 2 ^ 40
      / ((h.dom d).respIngress - (h.dom d).prevT4)))
  else h

/-- The mean path delay of a peer exchange: half of the round trip less the turn-round. -/
def Hub.peerDelay (h : Hub) (d : Nat) (m : PtpMsg) : Int :=
  (((h.dom d).respIngress - (h.dom d).reqEgress) - ((m.ts : Int) / 2 ^ 16 + m.corr - (h.dom d).respT2)) / 2

theorem Hub.pdelayFollowUpRx_slot (pending : (h.dom d).respPending = true) (seq : (h.dom d).reqSeq = m.seq) : h.pdelayFollowUpRx lane m =
    ((h.rateShown d m).setDom d { h.dom d with
      respPending := false, reqPending := false, prevT3 := (m.ts : Int) / 2 ^ 16 + m.corr, prevT4 := (h.dom d).respIngress }).setDelay d
        (h.peerDelay d m) := by
  have other : ¬(h.portTc lane = true ∧ (!h.tcPeer m) = true) := fun e => Bool.false_ne_true ((Hub.slotOf_other slot).symm.trans e.1)
  unfold Hub.pdelayFollowUpRx
  rw [if_neg other, slot]
  exact if_pos ⟨pending, seq⟩

omit slot in
theorem Hub.rateShown_only : OnlyRegs [DOM_DELAY d, DOM_RATE d] h (h.rateShown d m) := by
  unfold Hub.rateShown
  split
  · exact onlyRegs_set _ (by simp) (onlyRegs_refl _ h)
  · exact onlyRegs_refl _ h

theorem Hub.pdelayFollowUpRx_leaves (pending : (h.dom d).respPending = true) (seq : (h.dom d).reqSeq = m.seq) :
    ((h.pdelayFollowUpRx lane m).dom d).meanDelay = h.peerDelay d m ∧ ((h.pdelayFollowUpRx lane m).dom d).respPending = false
    ∧ OnlyRegs [DOM_DELAY d, DOM_RATE d] h (h.pdelayFollowUpRx lane m) := by
  rw [Hub.pdelayFollowUpRx_slot slot pending seq]
  have dom (g : Hub) (x : DomState) (v : Int) : ((g.setDom d x).setDelay d v).dom d = { x with meanDelay := v } := by
    show ((g.setDom d x).setDom d { (g.setDom d x).dom d with meanDelay := v }).dom d = _
    rw [Hub.setDom_dom_same, Hub.setDom_dom_same]
  refine ⟨?_, ?_, ?_⟩
  · rw [dom]
  · rw [dom]
  · exact onlyRegs_set _ (by simp) (onlyRegs_of_regs rfl Hub.rateShown_only)

end port

/-! ## The validity of a slot (R44, R46, R48) -/

section valid
variable {h : Hub} {d : Nat}

/-- What the loss of a source, or its change, writes. -/
def sourceFields : List Field := [TIME_STAT_QUALITY, TIME_STAT_SRC_ACTIVE, TIME_STAT_AUTO_SWITCHED, TIME_STAT_ADJ_RANGE]

/-- `g` comes after `h` with those registers alone written and nothing drawn. -/
def Hub.SourceOnly (h g : Hub) : Prop := OnlyRegs sourceFields h g ∧ g.free = h.free

theorem Hub.SourceOnly.trans {g k : Hub} (a : h.SourceOnly g) (b : g.SourceOnly k) : h.SourceOnly k := ⟨onlyRegs_trans a.1 b.1, b.2.trans a.2⟩

theorem Hub.sourceOnly_setTime (h : Hub) (t : TimeSt) : h.SourceOnly (h.setTime t) := ⟨onlyRegs_of_regs rfl (onlyRegs_refl _ h), rfl⟩

theorem Hub.sourceOnly_set (h : Hub) {f : Field} (v : Nat) (mem : f.key ∈ sourceFields.map Field.key) : h.SourceOnly (h.set f v) :=
  ⟨onlyRegs_set v mem (onlyRegs_refl _ h), rfl⟩

theorem Hub.sourceOnly_setQuality (h : Hub) (q : Nat) : h.SourceOnly (h.setQuality q) := by
  unfold Hub.setQuality
  split
  · exact ⟨onlyRegs_refl _ h, rfl⟩
  · exact (h.sourceOnly_set q (by decide)).trans (Hub.sourceOnly_setTime _ _)

theorem Hub.sourceOnly_leaveSlew (h : Hub) : h.SourceOnly h.leaveSlew := by
  unfold Hub.leaveSlew
  split
  · split
    · exact h.sourceOnly_setQuality _
    · split
      · exact (h.sourceOnly_setQuality _).trans (Hub.sourceOnly_setTime _ _)
      · exact h.sourceOnly_setQuality _
  · exact ⟨onlyRegs_refl _ h, rfl⟩

theorem Hub.sourceOnly_edgeFix (h : Hub) : h.SourceOnly h.edgeFix := by
  unfold Hub.edgeFix
  dsimp only
  split
  · exact ⟨onlyRegs_refl _ h, rfl⟩
  · exact h.sourceOnly_setTime _

theorem Hub.sourceOnly_putSlew (h : Hub) (v : Int) : h.SourceOnly (h.putSlew v) := by
  have slewed := h.sourceOnly_edgeFix.trans (h.edgeFix.sourceOnly_setTime { h.edgeFix.time with slew := v })
  unfold Hub.putSlew
  dsimp only
  split
  · exact slewed.trans (Hub.sourceOnly_setQuality _ _)
  · split
    · exact slewed.trans (Hub.sourceOnly_leaveSlew _)
    · exact slewed

theorem Hub.sourceOnly_addSlew (h : Hub) (v : Int) : h.SourceOnly (h.addSlew v).1 := by
  unfold Hub.addSlew
  dsimp only
  split
  · exact h.sourceOnly_set 1 (by decide)
  · exact h.sourceOnly_putSlew _

theorem Hub.sourceOnly_takeSource (h : Hub) (src : Nat) : h.SourceOnly (h.takeSource src).1 := by
  have slewed := h.sourceOnly_addSlew (-(h.dom src).lastOff * 2 ^ 16)
  unfold Hub.takeSource
  dsimp only
  split
  · exact (slewed.trans (Hub.sourceOnly_setTime _ _)).trans (Hub.sourceOnly_set _ src (by decide))
  · exact slewed

theorem Hub.sourceOnly_toHoldover (h : Hub) : h.SourceOnly h.toHoldover := by
  unfold Hub.toHoldover
  dsimp only
  split
  · exact (h.sourceOnly_setTime _).trans (Hub.sourceOnly_setQuality _ _)
  · exact h.sourceOnly_setTime _

theorem Hub.sourceOnly_sourceLost (h : Hub) : h.SourceOnly h.sourceLost := by
  have taken := h.sourceOnly_takeSource (1 - h.get TIME_STAT_SRC_ACTIVE)
  unfold Hub.sourceLost
  dsimp only
  split
  · split
    · exact taken.trans (Hub.sourceOnly_set _ 1 (by decide))
    · exact taken.trans (Hub.sourceOnly_toHoldover _)
  · exact h.sourceOnly_toHoldover

/-- Beyond the flag of the slot its change of validity writes what the loss of a source does. -/
theorem Hub.domValid_sourceOnly (v : Bool) : (h.set (domValidF d) (b2n v)).SourceOnly (h.domValid d v) := by
  unfold Hub.domValid
  dsimp only
  split
  · exact Hub.sourceOnly_sourceLost _
  · exact ⟨onlyRegs_refl _ _, rfl⟩

theorem domValidF_keys (d : Nat) : (domValidF d).key ∉ sourceFields.map Field.key := by
  unfold domValidF
  split <;> decide

theorem Hub.domValid_valid (v : Bool) : (h.domValid d v).get (domValidF d) = b2n v := by
  rw [(Hub.domValid_sourceOnly v).1 _ (domValidF_keys d), Hub.get_set_same]
  refine Nat.mod_eq_of_lt ?_
  have width : (domValidF d).width = 1 := by
    unfold domValidF
    split <;> rfl
  rw [width]
  exact Nat.lt_of_le_of_lt (b2n_le v) (Nat.lt_succ_self 1)

theorem Hub.domValid_free (v : Bool) : (h.domValid d v).free = h.free := (Hub.domValid_sourceOnly v).2

theorem Hub.domValid_get_ne (v : Bool) (f : Field) (valid : f.key ≠ (domValidF d).key) (source : f.key ∉ sourceFields.map Field.key) :
    (h.domValid d v).get f = h.get f := ((Hub.domValid_sourceOnly v).1 f source).trans (Hub.get_set_ne _ _ _ _ valid)

/-- A register of a slot is none of the time unit's. -/
theorem slotField_other (d : Nat) {f : Field} (slot : 0x1040 * 32 ≤ f.key) : f.key ≠ (domValidF d).key ∧ f.key ∉ sourceFields.map Field.key := by
  have keys : ∀ k ∈ sourceFields.map Field.key, k < 0x1040 * 32 := by decide
  refine ⟨fun e => ?_, fun mem => Nat.not_le.2 (keys _ mem) slot⟩
  have low : (domValidF d).key < 0x1040 * 32 := by
    unfold domValidF
    split <;> decide
  exact Nat.not_le.2 low (e ▸ slot)

theorem Hub.announceTimeout_shows (d : Fin 2) (on_ : h.get (DOM_ENABLE d.val) = 1) :
    (h.announceTimeout d).get (DOM_ANNOUNCE_TIMEOUT d.val) = 1 ∧ (h.announceTimeout d).get (domValidF d.val) = 0 := by
  rw [show h.announceTimeout d = (h.on (DOM_ANNOUNCE_TIMEOUT d.val)).domValid d.val false from if_pos (Hub.bit_of_one on_)]
  obtain ⟨valid, source⟩ := slotField_other d.val (f := DOM_ANNOUNCE_TIMEOUT d.val) (by simp only [Field.key, DOM_ANNOUNCE_TIMEOUT]; omega)
  exact ⟨(Hub.domValid_get_ne false _ valid source).trans (Hub.get_on_same _ _ (Nat.succ_pos 0)), Hub.domValid_valid false⟩

variable {lane : Nat} {m : PtpMsg}

/-- The slot after an Announce, before its validity. -/
def Hub.announced (h : Hub) (d : Nat) (m : PtpMsg) : Hub :=
  (((h.setDom d { h.dom d with utc := m.utc }).draw).set (DOM_PORT_STATE d) (Config.bmcaState h.free).toNat).set (DOM_STEPS_REMOVED d) m.steps

theorem Hub.announceRx_slot (slot : h.slotOf lane m = some d) :
    h.announceRx lane m = (h.announced d m).domValid d ((Config.bmcaState h.free).toNat == 9) := by
  unfold Hub.announceRx
  rw [if_neg (ne_true_of_eq_false (Hub.slotOf_other slot)), slot]
  rfl

theorem Hub.announceRx_shows (slot : h.slotOf lane m = some d) :
    (h.announceRx lane m).get (DOM_PORT_STATE d) = (Config.bmcaState h.free).toNat
    ∧ (h.announceRx lane m).get (domValidF d) = (if (Config.bmcaState h.free).toNat = 9 then 1 else 0)
    ∧ (h.announceRx lane m).free = h.free + 1 := by
  obtain ⟨valid, source⟩ := slotField_other d (f := DOM_PORT_STATE d) (by simp only [Field.key, DOM_PORT_STATE]; omega)
  rw [Hub.announceRx_slot slot]
  refine ⟨?_, ?_, Hub.domValid_free _⟩
  · rw [Hub.domValid_get_ne _ _ valid source, Hub.announced,
      Hub.get_set_ne _ _ _ _ (by simp [Field.key, DOM_PORT_STATE, DOM_STEPS_REMOVED])]
    exact (Hub.get_set_same _ _ _).trans (Nat.mod_eq_of_lt (Config.bmcaState h.free).isLt)
  · rw [Hub.domValid_valid, b2n]
    by_cases nine : (Config.bmcaState h.free).toNat = 9 <;> simp [nine]

end valid

end Sys2Proof.Machine
end

section
/-! OBLIGATION O16. PTP messages that arrive and that the hub sends (R34, R44, R48 to R52, R54). -/

namespace Sys2Proof.Machine

theorem exec_syncSend {s : State} (up : s.up) (lane : Fin 64) (d : Fin 2) (e : Nat) :
    exec (.syncSend (lane, d) e) s = .next (s.onHub fun h => h.syncSend lane d e) := exec_whenUp_up up rfl

theorem exec_announceSend {s : State} (up : s.up) (lane : Fin 64) (d : Fin 2) :
    exec (.announceSend lane d) s = .next (s.onHub fun h => h.announceSend lane d) := exec_whenUp_up up rfl

theorem exec_txTimestampReturn {s : State} (up : s.up) (lane : Fin 64) (q e : Nat) :
    exec (.txTimestampReturn lane q e) s = .next (s.onHub fun h => h.txReturn lane q e) := exec_whenUp_up up rfl

theorem exec_pdelayReqSend {s : State} (up : s.up) (d : Fin 2) (e : Nat) :
    exec (.pdelayReqSend d e) s = .next (s.onHub fun h => h.pdelayReqSend d e) := exec_whenUp_up up rfl

theorem exec_delayReqSend {s : State} (up : s.up) (d : Fin 2) (e : Nat) :
    exec (.delayReqSend d e) s = .next (s.onHub fun h => h.delayReqSend d e) := exec_whenUp_up up rfl

/-- What a command sends, said of its outcome. -/
theorem leads_sends {c : Instr} {s : State} {f : Hub → Hub} {l : List PtpOut} (e : exec c s = .next (s.onHub f)) (sends : s.hw.hub.Sends (f s.hw.hub) l) :
    Leads c s fun h' => h'.time.ptpTx = l.reverse ++ s.hw.hub.time.ptpTx ∧ OnlyRegs [] s.hw.hub h' := leads_onHub e ⟨sends.2, sends.1.only⟩

/-! ## Messages of the hub's own (R34, R48, R50, R54) -/

section own
variable {h g : Hub} {lane d e : Nat}

theorem Hub.Sends.head {o : PtpOut} (sends : h.Sends g [o]) : g.time.ptpTx.head? = some o := by
  rw [sends.2]
  rfl

/-- A message sent changes nothing of the time unit but what is sent. -/
theorem Hub.ptpSend_time (h : Hub) (o : PtpOut) : (h.ptpSend o).time.ptpSeq = h.time.ptpSeq ∧ (h.ptpSend o).time.syncOut = h.time.syncOut := by
  unfold Hub.ptpSend
  split
  · rw [(h.ptpOut_keeps _).2.2]
    exact ⟨rfl, rfl⟩
  · exact ⟨rfl, rfl⟩

theorem Hub.bumpPtpSeq_samePorts (h : Hub) (l k : Nat) : h.SamePorts (h.bumpPtpSeq l k) := h.setTime_samePorts _ rfl

theorem Hub.bumpPtpSeq_next (h : Hub) (l k : Nat) : (h.bumpPtpSeq l k).nextPtpSeq l k = (h.nextPtpSeq l k + 1) % 2 ^ 16 := aGet_aInsert_same _ _ _ _

theorem Hub.ptpSend_next (h : Hub) (o : PtpOut) (l k : Nat) : (h.ptpSend o).nextPtpSeq l k = h.nextPtpSeq l k := by
  rw [Hub.nextPtpSeq, (h.ptpSend_time o).1, ← Hub.nextPtpSeq]

/-- A message of slot `d` with sequence `q`, correction `c` and time `t`. -/
def Hub.slotOut (h : Hub) (lane d : Nat) (k : PtpKind) (q : Nat) (c : Int) (t : Nat) : PtpOut :=
  { lane := lane, kind := k, domain := h.get (DOM_DOMAIN_NUMBER d), sdo := h.get (DOM_SDO_ID d), seq := q, corr := c, ts := t }

/-- A message sent whose sequence is then counted. -/
theorem Hub.ptpSend_counted (same : h.SamePorts g) {o : PtpOut} (may : h.ptpMaySend o.lane = true) (l k : Nat) :
    g.Sends ((g.ptpSend o).bumpPtpSeq l k) [h.stampedOut o] := by
  have sent := Hub.ptpSend_sent same may
  exact ⟨sent.1.trans (Hub.bumpPtpSeq_samePorts _ l k), sent.2⟩

/-! ### Sync and its Follow_Up (R50) -/

/-- The Sync of a one-step port carries its stamp; that of a two-step port does not. -/
def Hub.syncOf (h : Hub) (lane d e : Nat) : PtpOut :=
  if h.oneStep then h.slotOut lane d .sync (h.nextPtpSeq lane 0) (h.txStamp lane e % 2 ^ 16) ((h.txStamp lane e / 2 ^ 16) * 2 ^ 32).toNat
  else h.slotOut lane d .sync (h.nextPtpSeq lane 0) 0 0

/-- The hub with its Sync sent and counted. -/
def Hub.synced (h : Hub) (lane d e : Nat) : Hub := ((h.upTo e).ptpSend (h.syncOf lane d e)).bumpPtpSeq lane 0

theorem Hub.syncSend_eq (master : h.ptpMaster lane = true) : h.syncSend lane d e =
    if h.oneStep then h.synced lane d e
    else (h.synced lane d e).setTime { (h.synced lane d e).time with
      syncOut := (lane, d, h.nextPtpSeq lane 0) :: (h.synced lane d e).time.syncOut } := by
  have same := h.upTo_samePorts e
  refine (if_pos ((same.ptpMaster lane).trans master)).trans ?_
  dsimp only
  rw [same.oneStep, same.txStamp]
  unfold Hub.synced Hub.syncOf
  split <;> rfl

theorem Hub.syncOf_lane : (h.syncOf lane d e).lane = lane := by
  unfold Hub.syncOf
  split <;> rfl

theorem Hub.synced_sends (master : h.ptpMaster lane = true) : h.Sends (h.synced lane d e) [h.stampedOut (h.syncOf lane d e)] := by
  have may : h.ptpMaySend (h.syncOf lane d e).lane = true := by
    rw [Hub.syncOf_lane]
    exact Hub.ptpMaster_maySend master
  exact (h.upTo_sends e).then (Hub.ptpSend_counted (h.upTo_samePorts e) may lane 0)

theorem Hub.syncSend_sends (master : h.ptpMaster lane = true) : h.Sends (h.syncSend lane d e) [h.stampedOut (h.syncOf lane d e)] := by
  obtain ⟨ports, sent⟩ := Hub.synced_sends (d := d) (e := e) master
  rw [Hub.syncSend_eq master]
  split
  · exact ⟨ports, sent⟩
  · exact ⟨ports.trans (Hub.setTime_samePorts _ _ rfl), sent⟩

theorem Hub.syncSend_waits (master : h.ptpMaster lane = true) (two : h.oneStep = false) :
    (h.syncSend lane d e).time.syncOut.head? = some (lane, d, h.nextPtpSeq lane 0) := by
  rw [Hub.syncSend_eq master, if_neg (ne_true_of_eq_false two)]
  rfl

theorem Hub.syncSend_next (master : h.ptpMaster lane = true) : (h.syncSend lane d e).nextPtpSeq lane 0 = (h.nextPtpSeq lane 0 + 1) % 2 ^ 16 := by
  have synced : (h.synced lane d e).nextPtpSeq lane 0 = (h.nextPtpSeq lane 0 + 1) % 2 ^ 16 := by
    rw [Hub.synced, Hub.bumpPtpSeq_next, Hub.ptpSend_next]
    rfl
  rw [Hub.syncSend_eq master]
  split
  · exact synced
  · exact synced

/-- The hub with a two-step Sync no longer waiting for its stamp. -/
def Hub.stampBack (h : Hub) (w : Nat × Nat × Nat) : Hub := h.setTime { h.time with syncOut := h.time.syncOut.erase w }

theorem Hub.txReturn_found {q : Nat} (master : h.ptpMaster lane = true)
    (found : (h.time.syncOut.find? fun e => e.1 == lane && e.2.2 == q) = some (lane, d, q)) : h.txReturn lane q e =
      (h.stampBack (lane, d, q)).ptpSend (h.slotOut lane d .followUp q (h.txStamp lane e % 2 ^ 16) ((h.txStamp lane e / 2 ^ 16) * 2 ^ 32).toNat) := by
  have same : h.SamePorts (h.stampBack (lane, d, q)) := h.setTime_samePorts _ rfl
  unfold Hub.txReturn
  rw [found]
  exact if_pos ((same.ptpMaster lane).trans master)

theorem Hub.txReturn_sends {q : Nat} (master : h.ptpMaster lane = true)
    (found : (h.time.syncOut.find? fun e => e.1 == lane && e.2.2 == q) = some (lane, d, q)) :
    h.Sends (h.txReturn lane q e)
      [h.stampedOut (h.slotOut lane d .followUp q (h.txStamp lane e % 2 ^ 16) ((h.txStamp lane e / 2 ^ 16) * 2 ^ 32).toNat)]
    ∧ (h.txReturn lane q e).time.syncOut = h.time.syncOut.erase (lane, d, q) := by
  have back : h.Sends (h.stampBack (lane, d, q)) [] := ⟨h.setTime_samePorts _ rfl, rfl⟩
  rw [Hub.txReturn_found master found]
  exact ⟨back.then (Hub.ptpSend_sent back.1 (Hub.ptpMaster_maySend master)), (Hub.ptpSend_time _ _).2⟩

theorem Hub.txReturn_none {q : Nat} (none_ : ∀ e ∈ h.time.syncOut, ¬(e.1 = lane ∧ e.2.2 = q)) : h.txReturn lane q e = h := by
  have missing : (h.time.syncOut.find? fun e => e.1 == lane && e.2.2 == q) = none := by
    refine List.find?_eq_none.2 fun x mem hit => none_ x mem ?_
    simpa using hit
  unfold Hub.txReturn
  rw [missing]

/-! ### Announce (R34, R48) -/

/-- The Announce of a slot. -/
def Hub.announceOf (h : Hub) (lane d : Nat) : PtpOut :=
  { h.slotOut lane d .announce (h.nextPtpSeq lane 11) 0 0 with cls := 248, prio1 := 255, steps := h.get (DOM_STEPS_REMOVED d) + 1, utc := (h.dom d).utc }

theorem Hub.announceSend_sends (master : h.ptpMaster lane = true) (locked : (h.dom d).everLocked = true) :
    h.Sends (h.announceSend lane d) [h.stampedOut (h.announceOf lane d)] := by
  rw [show h.announceSend lane d = (h.ptpSend (h.announceOf lane d)).bumpPtpSeq lane 11 from if_pos ⟨master, locked⟩]
  exact Hub.ptpSend_counted (Hub.SamePorts.refl h) (o := h.announceOf lane d) (Hub.ptpMaster_maySend master) lane 11

theorem Hub.announceSend_silent (silent : h.ptpMaster lane = false ∨ (h.dom d).everLocked = false) : h.announceSend lane d = h := by
  refine if_neg ?_
  rintro ⟨master, locked⟩
  rcases silent with slave | never
  · exact Bool.false_ne_true (slave.symm.trans master)
  · exact Bool.false_ne_true (never.symm.trans locked)

/-! ### Requests (R48, R54) -/

/-- The request of a slot. -/
def Hub.requestOf (h : Hub) (d : Nat) (k : PtpKind) : PtpOut :=
  h.slotOut (h.get (DOM_SLAVE_LANE d)) d k (h.nextPtpSeq (h.get (DOM_SLAVE_LANE d)) 1) (-h.asym (h.get (DOM_SLAVE_LANE d))) 0

/-- The hub with the request of a slot sent and counted. -/
def Hub.requested (h : Hub) (d : Nat) (k : PtpKind) (e : Nat) : Hub :=
  ((h.upTo e).ptpSend (h.requestOf d k)).bumpPtpSeq (h.get (DOM_SLAVE_LANE d)) 1

theorem Hub.reqSend_eq {k : PtpKind} (on_ : h.get (DOM_ENABLE d) = 1) (may : h.ptpMaySend (h.get (DOM_SLAVE_LANE d)) = true) : h.reqSend d k e =
    (h.requested d k e).setDom d { h.dom d with
      reqSeq := h.nextPtpSeq (h.get (DOM_SLAVE_LANE d)) 1, reqEgress := h.txStamp (h.get (DOM_SLAVE_LANE d)) e, reqPending := true
      respPending := false } := by
  have same := h.upTo_samePorts e
  have acts : ((h.upTo e).bit (DOM_ENABLE d) && (h.upTo e).ptpMaySend (h.get (DOM_SLAVE_LANE d))) = true := by
    rw [same.bit, same.ptpMaySend, Hub.bit_of_one on_, may]
    rfl
  exact if_pos acts

/-- What a request keeps for its answer, and what it sends. -/
theorem Hub.reqSend_asks {k : PtpKind} (on_ : h.get (DOM_ENABLE d) = 1) (may : h.ptpMaySend (h.get (DOM_SLAVE_LANE d)) = true) :
    ((h.reqSend d k e).dom d).reqPending = true ∧ ((h.reqSend d k e).dom d).reqEgress = h.txStamp (h.get (DOM_SLAVE_LANE d)) e
    ∧ ((h.reqSend d k e).dom d).reqSeq = h.nextPtpSeq (h.get (DOM_SLAVE_LANE d)) 1
    ∧ (h.reqSend d k e).time.ptpTx.head? = some (h.stampedOut (h.requestOf d k)) ∧ OnlyRegs [] h (h.reqSend d k e) := by
  have sends : h.Sends (h.requested d k e) [h.stampedOut (h.requestOf d k)] :=
    (h.upTo_sends e).then (Hub.ptpSend_counted (h.upTo_samePorts e) (o := h.requestOf d k) may _ 1)
  rw [Hub.reqSend_eq on_ may, Hub.setDom_dom_same]
  exact ⟨rfl, rfl, rfl, sends.head, onlyRegs_of_regs rfl sends.1.only⟩

theorem Hub.pdelayReqSend_asks (d : Fin 2) (mech : h.get (DOM_DELAY_MECH d.val) = 1) : h.pdelayReqSend d e = h.reqSend d.val .pdelayReq e := if_pos mech

theorem Hub.delayReqSend_asks (d : Fin 2) (mech : h.get (DOM_DELAY_MECH d.val) = 0) (slave : h.get (DOM_PORT_STATE d.val) = 9) :
    h.delayReqSend d e = h.reqSend d.val .delayReq e := if_pos ⟨mech, slave⟩

end own

/-- Settles O16: a transparent clock's relays by the loop over its ports, each of which leaves what decides the others; what arrives at another port by
the slot it belongs to; what the hub sends by the frame of a message that leaves. -/
theorem ptpMessages : Obligations.PtpMessages := by
  refine ⟨fun s lane m i eg up => ?_, fun s lane m i eg up => ?_, fun s lane e up => ?_⟩ <;> dsimp only
  · intro tc
    have refl := Hub.SamePorts.refl s.hw.hub
    refine ⟨fun one => ?_, fun two => ⟨?_, fun p r mem out => ?_⟩, fun ts => ?_, ?_, ?_, ?_, ?_, fun ends => ⟨?_, ?_, ?_⟩⟩
    · exact leads_sends (exec_syncRx up lane m i eg) (Hub.syncRx_relays tc one)
    · exact leads_sends (exec_syncRx up lane m i eg) (Hub.syncRx_relays_twoStep tc two)
    · exact leads_onHub (exec_syncRx up lane m i eg) (Hub.syncRx_notes tc two mem out)
    · refine leads_sends (exec_followUpRx up lane m ts) ?_
      rw [Hub.followUpRx_tc tc]
      exact Hub.relayFollowUp_sends s.hw.hub
    · exact leads_sends (exec_delayReqRx up lane m i eg) (Hub.delayReqRx_relays tc)
    · refine leads_sends (exec_delayRespRx up lane m) ?_
      rw [Hub.delayRespRx_tc tc]
      exact Hub.relayGeneral_sends refl .delayResp
    · refine leads_sends (exec_announceRx up lane m) ?_
      rw [Hub.announceRx_tc tc]
      exact Hub.relayGeneral_sends refl .announce
    · refine leads_sends (exec_signalingManagementRx up lane m) ?_
      rw [Hub.signalingRx_tc tc]
      exact Hub.relayGeneral_sends refl .signaling
    · exact leads_sends (exec_pdelayReqRx up lane m i eg) (Hub.pdelayReqRx_relays tc ends)
    · exact leads_sends (exec_pdelayRespRx up lane m i eg) (Hub.pdelayRespRx_relays tc ends)
    · refine leads_sends (exec_pdelayRespFollowUpRx up lane m) ?_
      rw [Hub.pdelayFollowUpRx_tc tc ends]
      exact Hub.relayGeneral_sends refl .pdelayRespFollowUp
  · refine ⟨fun other => ⟨fun master => ?_, fun slave => ?_, ?_⟩, fun peer => ⟨fun may => ?_, fun silent => ?_⟩, fun d slot => ⟨fun slave => ⟨fun two => ?_,
      fun one => ?_, fun pending seq ts => ?_⟩, fun pending seq mech => ?_, fun pending seq => ?_, fun pending seq => ?_, fun _ => ?_⟩, fun d on_ => ?_⟩
    · exact leads_sends (exec_delayReqRx up lane m i eg) (Hub.delayReqRx_answers other master)
    · exact gives_onHub (exec_delayReqRx up lane m i eg) (Hub.delayReqRx_slave other slave)
    · exact gives_onHub (exec_signalingManagementRx up lane m) (Hub.signalingRx_other other)
    · exact leads_sends (exec_pdelayReqRx up lane m i eg) (Hub.pdelayReqRx_answers peer may)
    · exact gives_onHub (exec_pdelayReqRx up lane m i eg) (Hub.pdelayReqRx_silent peer silent)
    · exact gives_onHub (exec_syncRx up lane m i eg) (Hub.syncRx_twoStep slot slave two)
    · exact gives_onHub (exec_syncRx up lane m i eg) (Hub.syncRx_oneStep slot slave one)
    · exact gives_onHub (exec_followUpRx up lane m ts) (Hub.followUpRx_slot slot slave pending seq)
    · exact gives_onHub (exec_delayRespRx up lane m) (Hub.delayRespRx_slot slot pending seq mech)
    · refine leads_onHub (exec_pdelayRespRx up lane m i eg) ?_
      rw [Hub.pdelayRespRx_slot slot pending seq, Hub.setDom_dom_same]
      exact ⟨rfl, rfl, rfl, onlyRegs_of_regs rfl (onlyRegs_refl _ _)⟩
    · exact leads_onHub (exec_pdelayRespFollowUpRx up lane m) (Hub.pdelayFollowUpRx_leaves slot pending seq)
    · exact leads_onHub (exec_announceRx up lane m) (Hub.announceRx_shows slot)
    · exact leads_onHub (exec_announceTimeout up d) (Hub.announceTimeout_shows d on_)
  · refine ⟨fun master d => ⟨?_, fun locked => ?_, fun q found => ?_⟩, fun d silent => ?_, fun q none_ => ?_, fun d on_ may => ⟨fun mech => ?_,
      fun mech slave => ?_⟩⟩
    · have sends := Hub.syncSend_sends (d := d) (e := e) master
      refine leads_onHub (exec_syncSend up lane d e) ⟨(sends.head).trans ?_, Hub.syncSend_waits master, Hub.syncSend_next master, sends.1.only⟩
      rw [Hub.syncOf]
      split <;> rfl
    · have sends := Hub.announceSend_sends master locked
      exact leads_onHub (exec_announceSend up lane d) ⟨sends.head, sends.1.only⟩
    · obtain ⟨sends, waiting⟩ := Hub.txReturn_sends (e := e) master found
      exact leads_onHub (exec_txTimestampReturn up lane q e) ⟨sends.head, waiting, sends.1.only⟩
    · exact gives_onHub (exec_announceSend up lane d) (Hub.announceSend_silent silent)
    · exact gives_onHub (exec_txTimestampReturn up lane q e) (Hub.txReturn_none none_)
    · refine leads_onHub (exec_pdelayReqSend up d e) ?_
      rw [Hub.pdelayReqSend_asks d mech]
      exact Hub.reqSend_asks on_ may
    · refine leads_onHub (exec_delayReqSend up d e) ?_
      rw [Hub.delayReqSend_asks d mech slave]
      exact Hub.reqSend_asks on_ may

end Sys2Proof.Machine
end
